-- ==== Sys2Proof/Word.lean ====
section
/-!
DEFINITION. The plainest vocabulary of the model: bytes and words, and `NMap`, the one sparse table
used wherever the tile has a large numbered array (registers, slots, lines, routes).
-/
namespace Sys2Proof

abbrev Byte := BitVec 8
/-- A 32-bit quantity: one lane of a vector register, or one register of a block (R23, R126). -/
abbrev Word := BitVec 32
/-- A 64-bit quantity: a uniform register, an address, a mask over the 64 threads of a hand. -/
abbrev DWord := BitVec 64

/-- A sparse table keyed by numbers, kept with its keys strictly rising. -/
abbrev NMap (α : Type) := List (Nat × α)

/-- The entry at `k`, or nothing. -/
def NMap.find? {α : Type} : NMap α → Nat → Option α
  | [], _ => none
  | (j, v) :: t, k => if j = k then some v else NMap.find? t k

/-- The entry at `k`, or `d` where the table lists none. -/
def NMap.get {α : Type} (d : α) (m : NMap α) (k : Nat) : α := (NMap.find? m k).getD d

/-- Puts `v` at `k`, keeping the keys in rising order. -/
def NMap.insert {α : Type} : NMap α → Nat → α → NMap α
  | [], k, v => [(k, v)]
  | (j, w) :: t, k, v =>
    if k < j then (k, v) :: (j, w) :: t
    else if k = j then (k, v) :: t
    else (j, w) :: NMap.insert t k v

/-- Drops what is at `k`. -/
def NMap.erase {α : Type} : NMap α → Nat → NMap α
  | [], _ => []
  | (j, w) :: t, k => if j = k then NMap.erase t k else (j, w) :: NMap.erase t k

/-- Puts `v` at `k`; a value equal to the default `d` is not listed, so equal tables are equal lists. -/
def NMap.set {α : Type} [DecidableEq α] (d : α) (m : NMap α) (k : Nat) (v : α) : NMap α :=
  if v = d then NMap.erase m k else NMap.insert m k v

/-- The keys rise strictly. -/
def NMap.sorted {α : Type} : NMap α → Bool
  | [] => true
  | [_] => true
  | (j, _) :: (k, w) :: t => decide (j < k) && NMap.sorted ((k, w) :: t)

/-- The canonical form for default `d`: keys rise strictly and no entry is the default. -/
def NMap.canonical {α : Type} [DecidableEq α] (d : α) (m : NMap α) : Bool :=
  NMap.sorted m && m.all (fun p => decide (p.2 ≠ d))

/-- Bits `hi` down to `lo` of a number. -/
def bitsOf (n hi lo : Nat) : Nat := (n >>> lo) % 2 ^ (hi + 1 - lo)

/-- A number with bits `hi` down to `lo` replaced by the low bits of `v`. -/
def putBits (n hi lo v : Nat) : Nat :=
  n - (bitsOf n hi lo <<< lo) + ((v % 2 ^ (hi + 1 - lo)) <<< lo)

/-- `true` is 1. -/
def bit (b : Bool) : Nat := if b then 1 else 0

/-- The little-endian bytes of a number, `n` of them (R18). -/
def leBytes : Nat → Nat → List Byte
  | 0, _ => []
  | n + 1, v => BitVec.ofNat 8 v :: leBytes n (v / 256)

/-- The number a little-endian list of bytes spells (R18). -/
def leNat : List Byte → Nat
  | [] => 0
  | b :: t => b.toNat + 256 * leNat t

/-- Addition that stays at the top of 32 bits. -/
def satAdd32 (a b : Nat) : Nat := min (a + b) 0xFFFFFFFF

/-- Applies `f` to every element from the left, threading the state. -/
def foldState {σ α : Type} (f : σ → α → σ) : List α → σ → σ
  | [], s => s
  | x :: t, s => foldState f t (f s x)

/-- The numbers `0 … n − 1` for which `p` holds. -/
def numsWhere (n : Nat) (p : Nat → Bool) : List Nat := (List.range n).filter p

/-- The first number below `n` for which `p` holds. -/
def firstWhere (n : Nat) (p : Nat → Bool) : Option Nat := (List.range n).find? p

end Sys2Proof
end

