-- ==== Sys2Proof/Machine/Codes.lean ====
section
/-!
DEFINITION. The cyclic codes of the tile: CRC-32 of IEEE 802.3 (R66), and the bit-serial CRCs that other chapters use.
-/
namespace Sys2Proof.Machine

/-- One bit of a reflected CRC. -/
def crcStepLsb (poly c : Nat) : Nat := if c % 2 = 1 then (c / 2) ^^^ poly else c / 2

/-- One byte of a reflected CRC. -/
def crcByteLsb (poly c : Nat) (b : Byte) : Nat :=
  (List.range 8).foldl (fun c _ => crcStepLsb poly c) (c ^^^ b.toNat)

/-- CRC-32 of IEEE 802.3: reflected, initial value and final exclusive-or all ones (R66). -/
def crc32 (bs : List Byte) : Nat := (bs.foldl (crcByteLsb 0xEDB88320) 0xFFFFFFFF) ^^^ 0xFFFFFFFF

/-- One byte of an unreflected CRC of `w` bits. -/
def crcByteMsb (w poly c : Nat) (b : Byte) : Nat :=
  (List.range 8).foldl (fun c _ =>
    if c.testBit (w - 1) then (2 * c % 2 ^ w) ^^^ poly else 2 * c % 2 ^ w) (c ^^^ (b.toNat <<< (w - 8)))

/-- An unreflected CRC of `w` bits over bytes. -/
def crcMsb (w poly init : Nat) (bs : List Byte) : Nat := bs.foldl (crcByteMsb w poly) init

end Sys2Proof.Machine
end

