-- ==== Sys2Proof/Types.lean ====
section
/-!
DEFINITION. The data that both the commands and the state speak of: instruction frames, the state of a granule,
lines of memory, single accesses, agents, and the messages of the coherence protocol.
-/
namespace Sys2Proof

/-- The fields of an instruction word W0 other than its opcode, and W1 (R160, R166). -/
structure Insn where
  prd : BitVec 3 := 0
  piv : Bool := false
  dst : BitVec 8 := 0
  sra : BitVec 8 := 0
  srb : BitVec 8 := 0
  src : BitVec 8 := 0
  lng : Bool := false
  ua : Bool := false
  ub : Bool := false
  uc : Bool := false
  imb : Bool := false
  typ : BitVec 4 := 0
  fn : BitVec 11 := 0
  w1 : DWord := 0
deriving DecidableEq, Repr

/-- Which hand issues, and whether as the core's second choice of the cycle (R138). -/
structure Issue where
  core : Fin 256
  slot : Fin 16
  second : Bool := false
deriving DecidableEq, Repr

/-- One hand: a core and a scheduler slot. -/
structure HandId where
  core : Fin 256
  slot : Fin 16
deriving DecidableEq, Repr

/-- The state that the symbol T gives a granule (R359). -/
inductive GState where
  | good | poison | lost
deriving DecidableEq, Repr

/-- 128 bytes of memory and the states of their four granules, as they travel (R361, R753). -/
structure LineData where
  bytes : List Byte
  gran : List GState
deriving DecidableEq, Repr

/-- The atomic operations (R191). -/
inductive AmoOp where
  | add | min | max | and | or | xor | xchg | cas
deriving DecidableEq, Repr

/-- What is done to a fence record: SIGNAL, SIGNAL_ADD or FEN_INIT with a value (R555, R559). -/
inductive FenceOp where
  | set (v : Nat)
  | add (v : Nat)
  | init (v : Nat)
deriving DecidableEq, Repr

/-- What one access does: read, store bytes, or read-modify-write with operands `c` and, for `cas`, `new`.
`typ` is the TYP code of the atomic (R194).  A signal acts on the fence record at its address (R555). -/
inductive PartOp where
  | load
  | store (data : List Byte)
  | amo (op : AmoOp) (typ c new : Nat)
  | signal (op : FenceOp) (err : Bool)
deriving DecidableEq, Repr

/-- One access within one 64-byte piece (R283): of a thread, a row of a matrix access, or the whole hand.
`addr` is the normalised address (R281); `hint` is the HINT field (R313). -/
structure Part where
  thread : Nat
  addr : Nat
  size : Nat
  op : PartOp
  hint : Nat := 0
deriving DecidableEq, Repr

/-- What an access returns: its bytes, the state of the worst granule it met, and of each granule it read in turn. -/
structure PartRes where
  bytes : List Byte
  gran : GState
  grans : List GState := []
deriving DecidableEq, Repr

/-- What a store returns. -/
def okRes : PartRes := { bytes := [], gran := .good }

/-- What an access that completes with poison returns (R285, R295, R344). -/
def poisonRes (n : Nat) : PartRes := { bytes := List.replicate n 0, gran := .poison }

/-- A coherence agent or a non-caching requester (R322).  `tile = none` is this tile (the LOCAL flag of R329).
Units 0–63 are clusters; 64 the CP, dispatcher and kitty; 65 the host through BAR2; 66 the codecs and packer. -/
structure Agent where
  tile : Option Nat
  unit : Nat
deriving DecidableEq, Repr

/-- A home agent: a tile (`none` is this one) and a memory controller 0–7 (R321). -/
structure HomeId where
  tile : Option Nat
  k : Nat
deriving DecidableEq, Repr

/-- The state a DATA message grants (R331): E, S or M, a copy held in no state, or a Staged line (V). -/
inductive Grant where
  | e | s | m | copy | staged
deriving DecidableEq, Repr

/-- How an agent answers a snoop (R325, R338). -/
inductive SnpReply where
  | clean | dirty | notHeld | dark | ack
deriving DecidableEq, Repr

/-- How a request ended: normally, with poison, DEAD (R342) or NO_ROUTE. -/
inductive Status where
  | ok | poison | dead | noRoute
deriving DecidableEq, Repr

/-- The messages between agents and homes (R322, R325, R331). -/
inductive MsgKind where
  | rdS | rdX (held : Bool) | wb | ce | ncRd | ncWr | ncAtom | stRd | stWr | rejoin
  | data (g : Grant) | grant | ack | atomRsp
  | snpS | snpX | snpNc | inv
  | snpRsp (r : SnpReply)
deriving DecidableEq, Repr

/-- One message.  `agent` is the requester of a request and of its answer, and the agent snooped by a snoop and
its answer.  `line` is the normalised address divided by 128. -/
structure Msg where
  kind : MsgKind
  agent : Agent
  home : HomeId
  line : Nat
  tag : Nat := 0
  part : Option Part := none
  data : Option LineData := none
  res : Option PartRes := none
  status : Status := .ok
  /-- CMODE and the map entry of a compressed form or of the window a Staged request is made through (R479, R489). -/
  cmode : Nat := 0
  entry : Nat := 0
  /-- The runs of bytes of a partial write of an assembly buffer, each at its tile-local offset (R425). -/
  runs : List (Nat × List Byte) := []
  /-- The granule state that the data of a write carries (R361). -/
  carry : GState := .good
  /-- The group of a multicast copy (R333, R514). -/
  mc : Option Nat := none
  /-- The fabric time at which a request arrived at its home (R350). -/
  arrived : Nat := 0
deriving DecidableEq, Repr

/-- Storage of a core that hands hold: register blocks, OSB pages and ACC pages (R129). -/
inductive Store where
  | regs | osb | acc
deriving DecidableEq, Repr

/-- A structure whose reset invalidation takes time (R320). -/
inductive CacheUnit where
  | l1 (core : Fin 256)
  | ic (core : Fin 256)
  | cc (cluster : Fin 64)
  | dir (k : Fin 8)
  | lmap (k : Fin 8)
  | filter
deriving DecidableEq, Repr

/-- An error of the hardware that code words detect (R356, R659), or an error in a book that an audit finds (R674):
a symbol of a granule of memory takes an exclusive-or; an array word that was corrected; an uncorrectable 64-bit word
of a core's registers or pages, with the value that the reading instruction receives; of a cached line; of an assembly
buffer; of an array whose loss is fatal, in the unit with a Deck entry; and an amount that an instance of a book counts
as outstanding though it has been returned. -/
inductive Upset where
  | granule (g pos : Nat) (x : BitVec 16)
  | corrected
  | array (core : Fin 256) (what : Store) (word : Nat) (value : DWord)
  | line (u : CacheUnit) (line : Nat)
  | buffer (cluster : Fin 64) (block : Nat)
  | fatal (entry : Nat)
  | leak (book inst n : Nat)
deriving DecidableEq, Repr

/-- A region with power states of its own (R630). -/
inductive Region where
  | cluster (c : Fin 64)
  | memory (k : Fin 8)
  | bank (b : Fin 8)
deriving DecidableEq, Repr

/-- The way a mailbox command came (R707). -/
inductive Path where
  | bar0 | i2c | tap
deriving DecidableEq, Repr

end Sys2Proof
end

