-- ==== Sys2Proof/Config.lean ====
section
/-!
DEFINITION. What the spec leaves open.  Every constant here is opaque: nothing in Lean can evaluate it, so a claim
holds whatever its value is.
-/
namespace Sys2Proof.Config

/-- A free value for the `n`-th use of the counter `State.free`, where the spec states no result. -/
opaque freeValue : Nat → Nat → Nat

/-- Which of the values within 1 ulp `rcp` and `rsqrt` give for an operand (R179). -/
opaque rcp : Nat → Nat
opaque rsqrt : Nat → Nat

/-- Which of the values that the spec's bound on the error allows `exp2`, `log2`, `sin` and `cos` give for an operand (R179). -/
opaque exp2 : Nat → Nat
opaque log2 : Nat → Nat
opaque sin : Nat → Nat
opaque cos : Nat → Nat

/-- Whether `fma` raises invalid operation for 0 × ∞ with a quiet NaN addend, which IEEE 754-2019 leaves open. -/
opaque fmaInvalidWithNaN : Bool

/-- The physical row and the bank that hold a line of a stack: which bits select them is not architectural (R353). -/
opaque rowOf : Nat → Nat → Nat

/-- What fills a compressed block's last stored line after its sub-streams, which the spec does not state (R405). -/
opaque formPad : BitVec 8

/-- The tile's serial number, which the factory fuses (R79). -/
opaque serial : Nat

/-- The ECDSA P-384 signature that the key of a kind gives a digest, and its public key (R457, R690, R691). -/
opaque ecdsaSign : Nat → List Byte → List Byte
opaque publicKey : Nat → List Byte

/-- FW_ROOT and DBG_ROOT, which the boot ROM holds (R684). -/
opaque fwRoot : List Byte
opaque dbgRoot : List Byte

/-- The image that slot A leaves the factory with (R685). -/
opaque factoryImage : List Byte

/-- BASE and SIZE of a Deck entry, which the spec leaves to the Deck (R22, R68). -/
opaque deckBase : Nat → Nat
opaque deckSize : Nat → Nat

/-- Spare rows that a controller's stack has when none has been used (R79). -/
opaque spareRows : Nat → Nat

/-- Bytes of the brake image whose contents the spec does not give: what an empty slot, line, entry or record holds
(R278, R350), by entry, array, element and byte. -/
opaque imageStale : Nat → Nat → Nat → Nat → BitVec 8

/-- Stolgor's manufacturer identity in IDCODE, which the factory fuses (R743). -/
opaque manufacturer : Nat

/-- The level of the UART console's output at a tick boundary: the spec gives no text of its lines (R742). -/
opaque uartTx : Nat → Bool

end Sys2Proof.Config
end

