-- ==== Sys2Proof/Machine/Float.lean ====
section
/-!
DEFINITION. Floating-point arithmetic as IEEE 754-2019 fixes it for the tile's formats (R176–R180, R212, R220):
values are exact dyadic numbers, and each operation rounds once.
-/
namespace Sys2Proof.Machine

/-- A binary format: exponent and fraction widths and bias (R176, R212). -/
structure Fmt where
  ebits : Nat
  fbits : Nat
  bias : Int
deriving DecidableEq, Repr

def fmtF32 : Fmt := ⟨8, 23, 127⟩
def fmtF16 : Fmt := ⟨5, 10, 15⟩
def fmtBF16 : Fmt := ⟨8, 7, 127⟩
def fmtE5M2 : Fmt := ⟨5, 2, 15⟩
def fmtE4M3 : Fmt := ⟨4, 3, 7⟩
def fmtE2M1 : Fmt := ⟨2, 1, 1⟩

/-- A floating-point datum: a NaN (signalling or quiet), an infinity, or the number `±m × 2^e`. -/
inductive FV where
  | nan (signalling : Bool)
  | inf (neg : Bool)
  | num (neg : Bool) (m : Nat) (e : Int)
deriving DecidableEq, Repr

/-- The five IEEE flags in the order of R206: invalid, division by zero, overflow, underflow, inexact. -/
abbrev FFlags := BitVec 6

def flNone : FFlags := 0
def flInvalid : FFlags := 1
def flDivZero : FFlags := 2
def flOverflow : FFlags := 4
def flUnderflow : FFlags := 8
def flInexact : FFlags := 16

/-- The rounding modes of FUN bits 1:0 (R173). -/
inductive RMode where
  | near | zero | down | up
deriving DecidableEq, Repr

def RMode.ofCode : Nat → RMode
  | 1 => .zero
  | 2 => .down
  | 3 => .up
  | _ => .near

/-- Reads the bits of an IEEE-style format. -/
def Fmt.decode (f : Fmt) (bits : Nat) : FV :=
  let frac := bits % 2 ^ f.fbits
  let ex := bits / 2 ^ f.fbits % 2 ^ f.ebits
  let neg := bits / 2 ^ (f.fbits + f.ebits) % 2 == 1
  if ex = 2 ^ f.ebits - 1 then
    if frac = 0 then .inf neg else .nan (decide (frac < 2 ^ (f.fbits - 1)))
  else if ex = 0 then .num neg frac (1 - f.bias - f.fbits)
  else .num neg (2 ^ f.fbits + frac) (ex - f.bias - f.fbits)

/-- The canonical quiet NaN of a format (R177). -/
def Fmt.qnan (f : Fmt) : Nat := (2 ^ f.ebits - 1) * 2 ^ f.fbits + 2 ^ (f.fbits - 1)

def Fmt.signBit (f : Fmt) (neg : Bool) : Nat := if neg then 2 ^ (f.fbits + f.ebits) else 0

def Fmt.infBits (f : Fmt) (neg : Bool) : Nat := f.signBit neg + (2 ^ f.ebits - 1) * 2 ^ f.fbits

/-- The largest finite magnitude of a format that has infinities. -/
def Fmt.maxBits (f : Fmt) (neg : Bool) : Nat := f.signBit neg + (2 ^ f.ebits - 1) * 2 ^ f.fbits - 1

/-- Whether rounding moves the magnitude up, from the kept part's oddness and the dropped part `rem` of `2^sh`. -/
def roundsUp (mode : RMode) (neg odd : Bool) (rem sh : Nat) : Bool :=
  if rem = 0 then false else
  match mode with
  | .near => if 2 * rem = 2 ^ sh then odd else decide (2 ^ sh < 2 * rem)
  | .zero => false
  | .down => neg
  | .up => !neg

/-- `m × 2^e` as a multiple of `2^q`, rounded: the multiple, and whether anything was dropped. -/
def roundAt (mode : RMode) (neg : Bool) (m : Nat) (e q : Int) : Nat × Bool :=
  if q ≤ e then (m * 2 ^ (e - q).toNat, false)
  else
    let sh := (q - e).toNat
    let k := m / 2 ^ sh
    let rem := m % 2 ^ sh
    (if roundsUp mode neg (k % 2 == 1) rem sh then k + 1 else k, rem != 0)

/-- What rounding a number to a format gives before overflow is dealt with: the magnitude as a multiple of `2^q`,
whether it is tiny after rounding (R176), and whether it is inexact. -/
structure Rounded where
  sig : Nat
  q : Int
  tiny : Bool
  inexact : Bool
deriving DecidableEq, Repr

def Fmt.round (f : Fmt) (mode : RMode) (neg : Bool) (m : Nat) (e : Int) : Rounded :=
  if m = 0 then ⟨0, 1 - f.bias - f.fbits, false, false⟩ else
  let top : Int := e + Nat.log2 m
  let emin : Int := 1 - f.bias
  let q := max (top - f.fbits) (emin - f.fbits)
  let r := roundAt mode neg m e q
  -- tininess is judged on the result rounded with an unbounded exponent
  let u := roundAt mode neg m e (top - f.fbits)
  let tiny := decide ((top - f.fbits) + (Nat.log2 u.1 : Int) < emin)
  ⟨r.1, q, tiny, r.2⟩

/-- Whether a rounded magnitude is above the largest finite value of a format with infinities. -/
def Fmt.over (f : Fmt) (r : Rounded) : Bool :=
  r.sig != 0 && decide (f.bias < r.q + (Nat.log2 r.sig : Int))

/-- The bits of a rounded magnitude that is not above the largest finite value. -/
def Fmt.pack (f : Fmt) (neg : Bool) (r : Rounded) : Nat :=
  if r.sig = 0 then f.signBit neg else
  let top := r.q + (Nat.log2 r.sig : Int)
  if top < 1 - f.bias then f.signBit neg + r.sig
  else f.signBit neg + (top + f.bias).toNat * 2 ^ f.fbits + (r.sig * 2 ^ f.fbits / 2 ^ Nat.log2 r.sig - 2 ^ f.fbits)

/-- The IEEE flags of a rounding that did not overflow. -/
def Rounded.flags (r : Rounded) : FFlags :=
  (if r.inexact then flInexact else 0) ||| (if r.tiny && r.inexact then flUnderflow else 0)

/-- A number rounded to a format, with overflow as IEEE 754-2019 gives it for the mode. -/
def Fmt.encode (f : Fmt) (mode : RMode) (neg : Bool) (m : Nat) (e : Int) : Nat × FFlags :=
  let r := f.round mode neg m e
  if f.over r then
    let toInf := match mode with
      | .near => true
      | .zero => false
      | .down => neg
      | .up => !neg
    (if toInf then f.infBits neg else f.maxBits neg, flOverflow ||| flInexact)
  else (f.pack neg r, r.flags)

/-- A datum of another format written in this one; the flag of a signalling NaN is the caller's. -/
def Fmt.write (f : Fmt) (mode : RMode) : FV → Nat × FFlags
  | .nan _ => (f.qnan, 0)
  | .inf n => (f.infBits n, 0)
  | .num n m e => f.encode mode n m e

def FV.isNan : FV → Bool
  | .nan _ => true
  | _ => false

/-- Invalid operation for a signalling NaN among the operands. -/
def snanFlag (xs : List FV) : FFlags := if xs.contains (.nan true) then flInvalid else 0

/-- The exact sum of two numbers, with the sign of an exact zero as IEEE 754-2019 gives it for the mode. -/
def addNum (mode : RMode) (n1 : Bool) (m1 : Nat) (e1 : Int) (n2 : Bool) (m2 : Nat) (e2 : Int) : FV :=
  let e := min e1 e2
  let a : Int := (if n1 then -1 else 1) * (m1 * 2 ^ (e1 - e).toNat : Nat)
  let b : Int := (if n2 then -1 else 1) * (m2 * 2 ^ (e2 - e).toNat : Nat)
  let t := a + b
  if t = 0 then
    .num (if m1 = 0 ∧ m2 = 0 ∧ n1 = n2 then n1 else if n1 = n2 ∧ m1 = 0 then n1 else mode == .down) 0 e
  else .num (decide (t < 0)) t.natAbs e

/-- a + b before rounding, with its flags. -/
def FV.add (mode : RMode) (a b : FV) : FV × FFlags :=
  match a, b with
  | .nan _, _ => (.nan false, snanFlag [a, b])
  | _, .nan _ => (.nan false, snanFlag [a, b])
  | .inf x, .inf y => if x = y then (.inf x, 0) else (.nan false, flInvalid)
  | .inf x, .num _ _ _ => (.inf x, 0)
  | .num _ _ _, .inf y => (.inf y, 0)
  | .num n1 m1 e1, .num n2 m2 e2 => (addNum mode n1 m1 e1 n2 m2 e2, 0)

def FV.negate : FV → FV
  | .nan s => .nan s
  | .inf n => .inf (!n)
  | .num n m e => .num (!n) m e

/-- a × b before rounding, with its flags. -/
def FV.mul (a b : FV) : FV × FFlags :=
  match a, b with
  | .nan _, _ => (.nan false, snanFlag [a, b])
  | _, .nan _ => (.nan false, snanFlag [a, b])
  | .inf x, .inf y => (.inf (x != y), 0)
  | .inf x, .num n m _ => if m = 0 then (.nan false, flInvalid) else (.inf (x != n), 0)
  | .num n m _, .inf y => if m = 0 then (.nan false, flInvalid) else (.inf (n != y), 0)
  | .num n1 m1 e1, .num n2 m2 e2 => (.num (n1 != n2) (m1 * m2) (e1 + e2), 0)

/-- a × b + c before its one rounding.  Whether 0 × ∞ with a quiet NaN addend raises invalid operation is open in
IEEE 754-2019 and in the spec; it is a free value. -/
def FV.fma (mode : RMode) (a b c : FV) : FV × FFlags :=
  let p := FV.mul a b
  match p.1, c with
  | .nan _, .nan cs =>
    (.nan false, snanFlag [a, b, c] |||
      if p.2 = flInvalid ∧ snanFlag [a, b] = 0 ∧ cs = false then
        (if Config.fmaInvalidWithNaN then flInvalid else 0) else 0)
  | .nan _, _ => (.nan false, p.2)
  | _, .nan _ => (.nan false, snanFlag [c])
  | x, y => FV.add mode x y

/-- a ÷ b before rounding, to enough bits and with a sticky bit. -/
def FV.div (a b : FV) : FV × FFlags :=
  match a, b with
  | .nan _, _ => (.nan false, snanFlag [a, b])
  | _, .nan _ => (.nan false, snanFlag [a, b])
  | .inf _, .inf _ => (.nan false, flInvalid)
  | .inf x, .num n _ _ => (.inf (x != n), 0)
  | .num n _ _, .inf y => (.num (n != y) 0 0, 0)
  | .num n1 m1 e1, .num n2 m2 e2 =>
    if m2 = 0 then
      if m1 = 0 then (.nan false, flInvalid) else (.inf (n1 != n2), flDivZero)
    else
      let k := 64 + Nat.log2 m2
      let qt := m1 * 2 ^ k / m2
      let st := if m1 * 2 ^ k % m2 = 0 then 0 else 1
      (.num (n1 != n2) (2 * qt + st) (e1 - e2 - k - 1), 0)

/-- The integer square root, bit by bit: `r` is the root so far, and bits below `2^fuel` are still to be tried. -/
def isqrt (n : Nat) : Nat → Nat → Nat
  | 0, r => r
  | fuel + 1, r => let t := r + 2 ^ fuel; isqrt n fuel (if t * t ≤ n then t else r)

/-- √a before rounding, to enough bits and with a sticky bit. -/
def FV.sqrt (a : FV) : FV × FFlags :=
  match a with
  | .nan _ => (.nan false, snanFlag [a])
  | .inf n => if n then (.nan false, flInvalid) else (.inf false, 0)
  | .num n m e =>
    if m = 0 then (.num n 0 e, 0)
    else if n then (.nan false, flInvalid)
    else
      let k : Nat := if (e - 128) % 2 = 0 then 128 else 129
      let x := m * 2 ^ k
      let r := isqrt x (Nat.log2 x / 2 + 1) 0
      (.num false (2 * r + if r * r = x then 0 else 1) ((e - k) / 2 - 1), 0)

/-- Whether `a < b` for two data neither of which is NaN; −0 is not below +0. -/
def FV.lt (a b : FV) : Bool :=
  match a, b with
  | .inf x, .inf y => x && !y
  | .inf x, .num _ _ _ => x
  | .num _ _ _, .inf y => !y
  | .num n1 m1 e1, .num n2 m2 e2 =>
    let e := min e1 e2
    let x : Int := (if n1 then -1 else 1) * (m1 * 2 ^ (e1 - e).toNat : Nat)
    let y : Int := (if n2 then -1 else 1) * (m2 * 2 ^ (e2 - e).toNat : Nat)
    decide (x < y)
  | _, _ => false

/-- minimumNumber or maximumNumber on bits: a quiet NaN loses to a number, and −0 is less than +0 (R178). -/
def Fmt.minMax (f : Fmt) (isMin : Bool) (x y : Nat) : Nat × FFlags :=
  let a := f.decode x
  let b := f.decode y
  let fl := snanFlag [a, b]
  match a.isNan, b.isNan with
  | true, true => (f.qnan, fl)
  | true, false => (y, fl)
  | false, true => (x, fl)
  | false, false =>
    let aless := FV.lt a b || (!FV.lt b a && x / 2 ^ (f.fbits + f.ebits) % 2 == 1)
    (if aless == isMin then x else y, fl)

/-- One rounded operation on bits. -/
def Fmt.bin (f : Fmt) (mode : RMode) (op : FV → FV → FV × FFlags) (x y : Nat) : Nat × FFlags :=
  let r := op (f.decode x) (f.decode y)
  let w := f.write mode r.1
  (w.1, w.2 ||| r.2)

def Fmt.fadd (f : Fmt) (mode : RMode) (x y : Nat) : Nat × FFlags := f.bin mode (FV.add mode) x y
def Fmt.fsub (f : Fmt) (mode : RMode) (x y : Nat) : Nat × FFlags := f.bin mode (fun a b => FV.add mode a b.negate) x y
def Fmt.fmul (f : Fmt) (mode : RMode) (x y : Nat) : Nat × FFlags := f.bin mode FV.mul x y
def Fmt.fdiv (f : Fmt) (mode : RMode) (x y : Nat) : Nat × FFlags := f.bin mode FV.div x y

def Fmt.ffma (f : Fmt) (mode : RMode) (x y z : Nat) : Nat × FFlags :=
  let r := FV.fma mode (f.decode x) (f.decode y) (f.decode z)
  let w := f.write mode r.1
  (w.1, w.2 ||| r.2)

def Fmt.fsqrt (f : Fmt) (mode : RMode) (x : Nat) : Nat × FFlags :=
  let r := (f.decode x).sqrt
  let w := f.write mode r.1
  (w.1, w.2 ||| r.2)

/-- A result within `n` ulp of the exact value m·2^e (R179): which of the patterns the spec allows is a free choice `ch`. A
value that F32 cannot reach within `n` ulp is infinite. -/
def withinUlps (n ch : Nat) (neg : Bool) (m : Nat) (e : Int) : Nat :=
  if 2 ^ 25 * (2 ^ 128 + n * 2 ^ 104) ≤ (roundAt .zero false m (e + 25) 0).1 then fmtF32.infBits neg else
  let d := fmtF32.encode .zero neg m e
  let p : Int := (d.1 % 2 ^ 31 : Nat)
  let lo : Int := if d.2 = 0 then p - n else p + 1 - n
  let q := lo + (ch % (if d.2 = 0 then 2 * n + 1 else 2 * n) : Nat)
  let sign := if q = 0 then (ch / 64) % 2 == 1 else neg != decide (q < 0)
  min q.natAbs 0x7F800000 + (if sign then 2 ^ 31 else 0)

/-- rcp of an F32 pattern (R179). -/
def f32Rcp (x : Nat) : Nat × FFlags :=
  match fmtF32.decode x with
  | .nan _ => (fmtF32.qnan, flInvalid)
  | .inf n => (fmtF32.signBit n, 0)
  | .num n m e =>
    if m = 0 then (fmtF32.infBits n, flDivZero) else
    match (FV.div (.num n 1 0) (.num false m e)).1 with
    | .num n' m' e' => (withinUlps 1 (Config.rcp x) n' m' e', 0)
    | _ => (fmtF32.qnan, 0)

/-- rsqrt of an F32 pattern (R179): 1/√a is taken as √(1/a), both to many more bits than the result holds. -/
def f32Rsqrt (x : Nat) : Nat × FFlags :=
  match fmtF32.decode x with
  | .nan _ => (fmtF32.qnan, flInvalid)
  | .inf n => if n then (fmtF32.qnan, flInvalid) else (0, 0)
  | .num n m e =>
    if m = 0 then (fmtF32.infBits n, flDivZero)
    else if n then (fmtF32.qnan, flInvalid)
    else
      -- 1/√(m·2^e) = √(2^(2k)/m) · 2^(−k − e/2); an odd e is made even first
      let m' := if e % 2 = 0 then m else 2 * m
      let e' := if e % 2 = 0 then e else e - 1
      let k := 64 + Nat.log2 m'
      let qn := 2 ^ (2 * k) / m'
      let r := isqrt qn (Nat.log2 qn / 2 + 1) 0
      let st := if r * r * m' = 2 ^ (2 * k) then 0 else 1
      (withinUlps 1 (Config.rsqrt x) false (2 * r + st) (-(k : Int) - e' / 2 - 1), 0)

/-- The fixed-point numbers below have 128 fraction bits, far more than any result holds: ln 2 and 2π. -/
def ln2Fix : Nat := 235865763225513294137944142764154484399
def twoPiFix : Nat := 2138057168129933495719360746323741566601

/-- e^t of a fixed-point t below 1, by its power series. -/
def expFix (t : Nat) : Nat :=
  (foldState (fun (x : Nat × Nat) k => let u := x.1 * t / (2 ^ 128 * (k + 1)); (u, x.2 + u)) (List.range 36)
    (2 ^ 128, 2 ^ 128)).2

/-- The fixed-point logarithm to base 2 of m / 2^l in [1, 2), by the series of the inverse hyperbolic tangent. -/
def log2Fix (m l : Nat) : Nat :=
  let z := (m - 2 ^ l) * 2 ^ 128 / (m + 2 ^ l)
  let zz := z * z / 2 ^ 128
  let sum := (foldState (fun (x : Nat × Nat) k => (x.1 * zz / 2 ^ 128, x.2 + x.1 / (2 * k + 1))) (List.range 42) (z, 0)).2
  2 * sum * 2 ^ 128 / ln2Fix

/-- The sine, or with `cos` the cosine, of a fixed-point angle of at most a quarter turn, by its power series. -/
def sinFix (cos : Bool) (turn : Nat) : Int :=
  let a := turn * twoPiFix / 2 ^ 128
  let aa := a * a / 2 ^ 128
  let first : Nat := if cos then 2 ^ 128 else a
  let term (x : Nat × Int) (k : Nat) : Nat × Int :=
    let j := if cos then (2 * k + 1) * (2 * k + 2) else (2 * k + 2) * (2 * k + 3)
    (x.1 * aa / (2 ^ 128 * j), x.2 + if k % 2 = 0 then (x.1 : Int) else -(x.1 : Int))
  (foldState term (List.range 24) (first, 0)).2

/-- exp2 of an F32 pattern: within 2 ulp (R179). -/
def f32Exp2 (x : Nat) : Nat × FFlags :=
  match fmtF32.decode x with
  | .nan _ => (fmtF32.qnan, flInvalid)
  | .inf n => (if n then 0 else fmtF32.infBits false, 0)
  | .num n m e =>
    -- x in units of 2^(−149), clipped where the result no longer changes
    let u := min (m * 2 ^ (e + 149).toNat) (2 ^ 149 * 2048)
    let whole : Int := if n then -(((u + (2 ^ 149 - 1)) / 2 ^ 149 : Nat) : Int) else (u / 2 ^ 149 : Nat)
    let frac := if n then (2 ^ 149 - u % 2 ^ 149) % 2 ^ 149 else u % 2 ^ 149
    if frac = 0 then (withinUlps 2 (Config.exp2 x) false 1 whole, 0)
    else (withinUlps 2 (Config.exp2 x) false (2 * expFix (frac / 2 ^ 21 * ln2Fix / 2 ^ 128) + 1) (whole - 129), 0)

/-- log2 of an F32 pattern: within 2 ulp (R179). -/
def f32Log2 (x : Nat) : Nat × FFlags :=
  match fmtF32.decode x with
  | .nan _ => (fmtF32.qnan, flInvalid)
  | .inf n => if n then (fmtF32.qnan, flInvalid) else (fmtF32.infBits false, 0)
  | .num n m e =>
    if m = 0 then (fmtF32.infBits true, flDivZero)
    else if n then (fmtF32.qnan, flInvalid)
    else
      let l := Nat.log2 m
      let v : Int := (e + l) * 2 ^ 128 + log2Fix m l
      if m = 2 ^ l then (withinUlps 2 (Config.log2 x) (decide (v < 0)) (e + l).natAbs 0, 0)
      else (withinUlps 2 (Config.log2 x) (decide (v < 0)) (2 * v.natAbs + 1) (-129), 0)

/-- sin or cos of an F32 pattern in turns: any finite value within 2^−22 of the exact one (R172, R179). -/
def f32Trig (cos : Bool) (x : Nat) : Nat × FFlags :=
  match fmtF32.decode x with
  | .nan _ => (fmtF32.qnan, flInvalid)
  | .inf _ => (fmtF32.qnan, flInvalid)
  | .num n m e =>
    let f := m * 2 ^ (e + 149).toNat % 2 ^ 149 / 2 ^ 21
    let r := f % 2 ^ 126
    let v : Int := match f / 2 ^ 126, cos with
      | 0, false => sinFix false r
      | 0, true => sinFix true r
      | 1, false => sinFix true r
      | 1, true => -sinFix false r
      | 2, false => -sinFix false r
      | 2, true => -sinFix true r
      | _, false => -sinFix true r
      | _, true => sinFix false r
    let v := if n ∧ !cos then -v else v
    let w := (if cos then Config.cos x else Config.sin x) % 2 ^ 32
    let near : Bool := match fmtF32.decode w with
      | .num n' m' e' =>
        let y : Int := (m' * 2 ^ (e' + 149).toNat : Nat)
        decide (((if n' then -y else y) - v * 2 ^ 21).natAbs ≤ 2 ^ 127)
      | _ => false
    (if near then w else (fmtF32.encode .near (decide (v < 0)) v.natAbs (-128)).1, 0)

/-! ### Conversions (R180) -/

/-- A float to an integer of a type's range: out of range saturates, NaN gives 0, both raise invalid operation, and
inexact is not raised. -/
def fToInt (mode : RMode) (lo hi : Int) : FV → Int × FFlags
  | .nan _ => (0, flInvalid)
  | .inf n => (if n then lo else hi, flInvalid)
  | .num n m e =>
    let k := (roundAt mode n m e 0).1
    let v : Int := if n then -(k : Int) else k
    if v < lo then (lo, flInvalid) else if hi < v then (hi, flInvalid) else (v, 0)

/-- An integer to a float format: inexact when the value changes, and overflow where the format is too small. -/
def Fmt.ofInt (f : Fmt) (mode : RMode) (v : Int) : Nat × FFlags :=
  f.encode mode (decide (v < 0)) v.natAbs 0

end Sys2Proof.Machine
end

