-- ==== Sys2Proof/Machine/Fields.lean ====
section
/-!
DEFINITION. The register fields of the tile: every block, every field the register tables of the spec give,
and for each its place, its access code, its change class, its reset value and its listed encodings.
A field of `n` copies (`TIK_MOOT_CNT_n`) is one constructor with an index.  Names are the spec's own.
-/
namespace Sys2Proof.Machine

/-- The register blocks of the Deck (R76); a coupler bank's block is `BANK` (R473). -/
inductive Block where
  /-- R88. -/
  | DECK
  /-- R125. -/
  | TIK
  /-- R157, one per core. -/
  | COR
  /-- R565, R244. -/
  | CTX
  /-- R263. -/
  | DBG
  /-- R280. -/
  | BRK
  /-- R286, R308. -/
  | TILE
  /-- R348, one per cluster. -/
  | CLU
  /-- R349, R384, one per controller. -/
  | MEM
  /-- R429. -/
  | CDC
  /-- R473, one per coupler bank. -/
  | BANK
  /-- R472, R521, one per coupler. -/
  | CPL
  /-- R522. -/
  | RTE
  /-- R566. -/
  | FEN
  /-- R567. -/
  | HIF
  /-- R606. -/
  | CPR
  /-- R607. -/
  | KIT
  /-- R652. -/
  | PWR
  /-- R653, one per regulator. -/
  | CRG
  /-- R654. -/
  | TLM
  /-- R681, R711, R739. -/
  | MGC
  /-- R710. -/
  | SEC
  /-- R749. -/
  | PIN
deriving DecidableEq, Repr

/-- The register fields (R23): one constructor for each row of the register tables. -/
inductive Field where
  | DECK_GEN_LO
  | DECK_GEN_HI
  | DECK_READY
  | DECK_UPDATING
  | DECK_CHG_EVT_EN
  | DECK_CFG_ERR
  | TIK_TIME_LO
  | TIK_TIME_HI
  | TIK_ROOT
  | TIK_ALIGN_EN
  | TIK_JNL_EN
  | TIK_REPLAY
  | TIK_JOINED
  | TIK_IS_ROOT
  | TIK_HOLDOVER
  | TIK_ROOT_CONFLICT
  | TIK_DEPTH
  | TIK_PARENT
  | TIK_OFFSET
  | TIK_STEP_CNT
  | TIK_ROOT_VALID
  | TIK_ROOT_ID
  | TIK_JNL_BASE_LO
  | TIK_JNL_BASE_HI
  | TIK_JNL_LOG2
  | TIK_JNL_PTR
  | TIK_JNL_WRAPS
  | TIK_RPL_PTR
  | TIK_RPL_END
  | TIK_MOOT_CNT
  | TIK_CFG_ERR
  | COR_VREG_FREE
  | COR_OSB_FREE
  | COR_ACC_FREE
  | COR_SLOTS_FREE
  | COR_ROT_PTR
  | COR_ISSUE_CNT_LO
  | COR_ISSUE_CNT_HI
  | COR_DUAL_CNT_LO
  | COR_DUAL_CNT_HI
  | COR_IDLE_CNT_LO
  | COR_IDLE_CNT_HI
  | COR_DUAL_EN
  | COR_CNT_CLR
  | COR_CFG_ERR
  | CTX_FP_ILLEGAL
  | CTX_FP_MISALIGN
  | CTX_FP_UNPOP
  | CTX_FP_MATRIX
  | CTX_FP_TRAP
  | CTX_FP_POISON
  | CTX_POISON_TRAP_EN
  | DBG_CORE
  | DBG_SLOT
  | DBG_SCOPE
  | DBG_TASK_LO
  | DBG_TASK_HI
  | DBG_CMD
  | DBG_RESULT
  | DBG_PENDING
  | DBG_SLOT_STATE
  | DBG_LEVEL
  | DBG_SPACE
  | DBG_THREAD
  | DBG_INDEX
  | DBG_ACC_DATA_LO
  | DBG_ACC_DATA_HI
  | DBG_EVT_EN
  | DBG_BP_ADDR_LO
  | DBG_BP_EN
  | DBG_BP_ADDR_HI
  | DBG_BP_MASK
  | DBG_WP_BASE_LO
  | DBG_WP_BASE_HI
  | DBG_WP_LOG2LEN
  | DBG_WP_KIND
  | DBG_WP_MASK
  | DBG_CFG_ERR
  | BRK_BRAKED
  | BRK_RO_AUTH
  | BRK_TIME_LO
  | BRK_TIME_HI
  | BRK_SOURCES
  | BRK_RX_COUPLER
  | BRK_FATAL_EN
  | BRK_MSI_EN
  | BRK_MSI_VEC
  | BRK_FWD_EN
  | BRK_RX_EN
  | BRK_RO_MEM
  | BRK_RO_START
  | BRK_RO_POS_LO
  | BRK_RO_POS_HI
  | BRK_RO_LEN_LO
  | BRK_RO_LEN_HI
  | BRK_CFG_ERR
  | TILE_WIN_VALID
  | TILE_WIN_TYPE
  | TILE_WIN_PREFETCH
  | TILE_WIN_CMODE
  | TILE_WIN_CSEL
  | TILE_WIN_TILE_FIRST
  | TILE_WIN_TILE_LAST
  | TILE_WIN_BASE_LO
  | TILE_WIN_BASE_HI
  | TILE_WIN_LIMIT_LO
  | TILE_WIN_LIMIT_HI
  | TILE_WIN_COMMIT
  | TILE_WIN_BUSY
  | TILE_WIN_COMMITS
  | TILE_UNPOP_REMOTE_CNT
  | TILE_HOST_ATOM_CNT
  | TILE_CFG_ERR
  | CLU_WIN_HOLD
  | CLU_TAGS_FREE
  | CLU_TAGS_QUAR
  | CLU_REQ_TIMEOUT_US
  | CLU_TIMEOUT_CNT
  | CLU_LATE_RSP_CNT
  | CLU_PF_ISSUED_CNT
  | CLU_PF_SKIP_CNT
  | CLU_SNP_HELD_CNT
  | CLU_DEAD_DROP_CNT
  | CLU_CFG_ERR
  | MEM_SNP_DEADLINE_US
  | MEM_DIR_USED
  | MEM_BACKINV_CNT
  | MEM_COARSE_CNT
  | MEM_LOST_LINES_CNT
  | MEM_INBOUND_FREE
  | MEM_NOTHELD_CNT
  | MEM_STALE_WB_CNT
  | MEM_RECLAIM_BUSY
  | MEM_DEAD_AGENT
  | MEM_DEAD_ALL
  | MEM_DEAD_DECLARE
  | MEM_DEAD_COUNT
  | MEM_INIT_DONE
  | MEM_RATE_FALLBACK
  | MEM_SCRUB_HOURS
  | MEM_SCRUB_EN
  | MEM_CAL_RETIRE_EN
  | MEM_SCRUB_PASSES
  | MEM_CE_CNT
  | MEM_UE_CNT
  | MEM_PARTIAL_FIX_CNT
  | MEM_PARTIAL_POISON_CNT
  | MEM_POISON_CLR_CNT
  | MEM_RETIRED_ACC_CNT
  | MEM_ROW_SPARED_CNT
  | MEM_SPARE_FAIL_CNT
  | MEM_ROW_CE_LIMIT
  | MEM_CH_UE_LIMIT
  | MEM_CH_RETIRE_MASK
  | MEM_CH_RETIRE_SEL
  | MEM_CH_RETIRE_GO
  | MEM_CH_RETIRE_BUSY
  | MEM_CAL_ADJ_CNT
  | MEM_CAL_FAIL_CNT
  | MEM_STACK_TEMP
  | MEM_REFRESH_FAST
  | MEM_AGE_CNT
  | MEM_BG_FORCED_CNT
  | MEM_CH_CE_CNT
  | MEM_CH_UE_CNT
  | MEM_CFG_ERR
  | CDC_SLOT_SEL
  | CDC_SLOT_OP
  | CDC_SLOT_RESULT
  | CDC_LMAP_BASE_LO
  | CDC_LMAP_BASE_HI
  | CDC_LMAP_EN
  | CDC_EXPAND_CNT
  | CDC_DEC_ERR_CNT
  | CDC_RAW_FALLBACK_CNT
  | CDC_PACKED_CNT
  | CDC_ASM_PARTIAL_CNT
  | CDC_NOMAP_CNT
  | CDC_LMAP_LOSS_CNT
  | CDC_HOLD_REFUSE_CNT
  | CDC_CFG_ERR
  | CDC_SLOT_STATE
  | CDC_HOLD
  | CDC_HIST_LO
  | CDC_HIST_HI
  | CPL_ENABLE
  | CPL_RETRAIN
  | CPL_RESTART
  | CPL_SEAL_EN
  | CPL_MAX_WIDTH
  | CPL_RXADAPT_EN
  | CPL_TXEQ_EN
  | CPL_LINK_STATE
  | CPL_WIDTH
  | CPL_LONG
  | CPL_LP
  | CPL_LOCK
  | CPL_DOWN_CAUSE
  | CPL_LANES_GOOD
  | CPL_LANES_RETIRED
  | CPL_NEIGH
  | CPL_PATH_DELAY
  | CPL_TRAIN_FAIL_CNT
  | CPL_RETRAIN_CNT
  | CPL_FEC_CORR_LO
  | CPL_FEC_CORR_HI
  | CPL_FEC_UNCORR_CNT
  | CPL_LOCK_LOSS_CNT
  | CPL_EQ_UPD_CNT
  | CPL_EQ_NAK_CNT
  | CPL_LANE_SYM_ERR
  | CPL_TRAIN_RETRIES
  | CPL_LANE_RETIRE_LIMIT
  | CPL_LANE_SER_LIMIT
  | CPL_EQ_LEAD
  | CPL_TXEQ
  | CPL_LANE_RETIRE_SEL
  | CPL_LANE_RETIRE_GO
  | CPL_CFG_ERR
  | CPL_DATELINE
  | CPL_REPLAY_TO_NS
  | CPL_TX_SEQ
  | CPL_RX_SEQ
  | CPL_REPLAY_CNT
  | CPL_CRC_ERR_CNT
  | CPL_REPLAY_FAIL_RUN
  | CPL_DROP_PKT_CNT
  | CPL_CREDIT_AVAIL
  | CPL_RXBUF
  | CPL_TAGS_FREE
  | CPL_AUDIT_ERR_CNT
  | CPL_CAPS
  | RTE_ACTIVE
  | RTE_DRAINING
  | RTE_ARMED
  | RTE_LOADED
  | RTE_FILL
  | RTE_FILL_BUSY
  | RTE_HOP_LIMIT
  | RTE_SW_LEAD
  | RTE_SW_GO
  | RTE_SW_TICK_LO
  | RTE_SW_TICK_HI
  | RTE_SW_SEQ
  | RTE_DRAIN_US
  | RTE_NOROUTE_CNT
  | RTE_HOP_DROP_CNT
  | RTE_OLD_DROP_CNT
  | RTE_SW_LATE_CNT
  | RTE_SW_REFUSED_CNT
  | RTE_MCAST_COPIES_CNT
  | RTE_CFG_ERR
  | CTX_STATE
  | CTX_CREATE
  | CTX_RESET
  | CTX_RESULT
  | CTX_OWNER_LO
  | CTX_OWNER_HI
  | CTX_EPOCH
  | CTX_RING_BASE_LO
  | CTX_RING_BASE_HI
  | CTX_RING_LOG2
  | CTX_DB_ADDR_LO
  | CTX_DB_ADDR_HI
  | CTX_DB_POLL_NS
  | CTX_HEADWB_EN
  | CTX_HEADWB_ADDR_LO
  | CTX_HEADWB_ADDR_HI
  | CTX_EVT_BASE_LO
  | CTX_EVT_BASE_HI
  | CTX_EVT_LOG2
  | CTX_EVT_ACK_ADDR_LO
  | CTX_EVT_ACK_ADDR_HI
  | CTX_EVT_MSI_EN
  | CTX_EVT_MSI_VEC
  | CTX_EVT_HOLDOFF_US
  | CTX_FENCE_BASE_LO
  | CTX_FENCE_BASE_HI
  | CTX_FENCE_KEEP
  | CTX_RING_HEAD
  | CTX_RING_TAIL
  | CTX_EVT_TAIL
  | CTX_EVT_ACK
  | CTX_EVT_LOST_CNT
  | CTX_DB_STALE_CNT
  | CTX_DB_BAD_CNT
  | CTX_DESC_ERR_CNT
  | CTX_EFF_POLL_NS
  | CTX_DB_ERR_CNT
  | CTX_CFG_ERR
  | FEN_OOO_CNT
  | FEN_SAT_CNT
  | FEN_ERR_CNT
  | FEN_INIT_SEL
  | FEN_INIT_VALUE_LO
  | FEN_INIT_VALUE_HI
  | FEN_INIT_GO
  | FEN_CFG_ERR
  | FEN_MIR_EN
  | FEN_MIR_MSI
  | FEN_MIR_VEC
  | FEN_MIR_FENCE
  | FEN_MIR_ADDR_LO
  | FEN_MIR_ADDR_HI
  | HIF_IDS_VENDOR
  | HIF_IDS_DEVICE
  | HIF_BAR2_BASE_LO
  | HIF_BAR2_BASE_HI
  | HIF_BAR2_TILE
  | HIF_CPL_TO_US
  | HIF_HOST_REQ_OUT
  | HIF_CPL_TO_CNT
  | HIF_BAR2_ERR_CNT
  | HIF_EP_RX_CNT
  | HIF_CFG_ERR
  | CPR_STATE
  | CPR_DEPTH
  | CPR_LOOPS
  | CPR_CMD_ADDR_LO
  | CPR_CMD_ADDR_HI
  | CPR_NEXT_TASK_LO
  | CPR_NEXT_TASK_HI
  | CPR_TASKS_ACTIVE
  | CPR_TAGS_FREE
  | CPR_REQ_TIMEOUT_US
  | CPR_TASK_EVT_ERR
  | CPR_CMD_CNT
  | CPR_CMD_ERR_CNT
  | CPR_EXCH_CNT
  | CPR_WAIT_TO_CNT
  | CPR_TASK_CNT
  | CPR_TASK_ERR_CNT
  | CPR_CFG_ERR
  | CPR_WATCH_STATE
  | CPR_WATCH_FIRE_LO
  | CPR_WATCH_FIRE_HI
  | KIT_FREE
  | KIT_READY
  | KIT_RESERVED
  | KIT_BURST
  | KIT_ENQ_CNT
  | KIT_FULL_CNT
  | KIT_APPLIED_CNT
  | KIT_BAD_CNT
  | KIT_CFG_ERR
  | PWR_TILE_STATE
  | PWR_WAKE_TOL_NS
  | PWR_T3_EN
  | PWR_T4_EN
  | PWR_IDLE_MULT
  | PWR_LIMIT_W
  | PWR_THROTTLE_C
  | PWR_UV_ACTIVE
  | PWR_UV_COLLAPSE
  | PWR_TRIPPED
  | PWR_GOV_MHZ
  | PWR_UV_CNT
  | PWR_GATE_FAULT_CNT
  | PWR_THROTTLE_CNT
  | PWR_WAKE_LATE_CNT
  | PWR_BG_FORCED_CNT
  | PWR_RES_T_LO
  | PWR_RES_T_HI
  | PWR_CFG_ERR
  | CRG_F_TARGET_MHZ
  | CRG_F_EFF_MHZ
  | CRG_F_LIMIT
  | CRG_V_SET
  | CRG_PRERAISE
  | CRG_GATE_STATE
  | CRG_NOTICE_PEND
  | CRG_GATE_OPEN
  | CRG_PHASE_GOOD
  | CRG_CAP_MA
  | CRG_F_MAX_MHZ
  | CRG_VFLOOR_V
  | CRG_VFLOOR_TICK_LO
  | CRG_VFLOOR_TICK_HI
  | CRG_PHASE_RETIRE_SEL
  | CRG_PHASE_RETIRE_GO
  | CRG_VF
  | CRG_SHED_CNT
  | CRG_CLAMP_CNT
  | CRG_DROOP_CNT
  | CRG_NOTICE_CNT
  | CRG_NOTICE_DROP_CNT
  | CRG_WAKE_CNT
  | CRG_CFG_ERR
  | TLM_PERIOD_US
  | TLM_SEQ
  | TLM_TIME_LO
  | TLM_TIME_HI
  | TLM_VIN_MV
  | TLM_VIN_MA
  | TLM_TILE_MW
  | TLM_TEMP_MAX_C
  | TLM_TEMP_MAX_SENSOR
  | TLM_CLU_V
  | TLM_CLU_F
  | TLM_CLU_MA
  | TLM_TEMP
  | TLM_CFG_ERR
  | MGC_SVC_STATUS
  | MGC_SVC_CLEAR
  | MGC_SVC_LIM
  | MGC_SVC_VAL
  | MGC_SRAM_CE_CNT
  | MGC_SRAM_UE_CNT
  | MGC_FATAL_CNT
  | MGC_FATAL_LAST
  | MGC_CLU_UE_LIMIT
  | MGC_CPL_DOWN_LIMIT
  | MGC_DRAIN_US
  | MGC_RETIRE_KIND
  | MGC_RETIRE_UNIT
  | MGC_RETIRE_GO
  | MGC_RETIRE_BUSY
  | MGC_RETIRE_RESULT
  | MGC_LDG_SNAP
  | MGC_LDG_AUDIT
  | MGC_LDG_SNAP_TIME_LO
  | MGC_LDG_SNAP_TIME_HI
  | MGC_LDG_ISSUED_LO
  | MGC_LDG_ISSUED_HI
  | MGC_LDG_RETURNED_LO
  | MGC_LDG_RETURNED_HI
  | MGC_LDG_OUT
  | MGC_LDG_AUDITS
  | MGC_LDG_FAILS
  | MGC_LDG_LAST
  | MGC_CFG_ERR
  | SEC_LC_STATE
  | SEC_LC_TOGGLES
  | SEC_LEVEL
  | SEC_LEVEL_FREE
  | SEC_LEVEL_OWNER
  | SEC_LEVEL_VENDOR
  | SEC_OWNER_REMAIN_S
  | SEC_VENDOR_REMAIN_S
  | SEC_OWNER_SLOT
  | SEC_SVN
  | SEC_TOKEN_FAIL_CNT
  | SEC_TOKEN_LOCK
  | SEC_MBX_CMD
  | SEC_MBX_RESULT
  | SEC_MBX_BUSY
  | SEC_MBX_LEN
  | SEC_SEAL_LIST_BASE_LO
  | SEC_SEAL_LIST_BASE_HI
  | SEC_SEAL_FAIL_CNT
  | SEC_CFG_ERR
  | MGC_FW_VERSION
  | MGC_FW_SLOT
  | MGC_FW_TRIAL
  | MGC_RESTARTING
  | MGC_BOOT_CNT
  | PIN_STRAP_ADDR
  | PIN_STRAP_HOST_EN
  | PIN_STRAP_PERST_CTX
  | PIN_PERST_POLICY
  | PIN_RESET_CMD
  | PIN_RESET_CAUSE
  | PIN_FUNC
  | PIN_OUT
  | PIN_IN
  | PIN_SETTLE
  | PIN_UART_BAUD
  | PIN_PMB_FAST
  | PIN_TICK_LOG2
  | PIN_I2C_PEC_ERR_CNT
  | PIN_I2C_CMD_CNT
  | PIN_CFG_ERR
  | CDC_STAGE
  | SEC_MBX
  | SEC_ID_PUBKEY
  | CDC_SLOT_IMG
  | COR_SLOT_STATE
  | MGC_TILE_ID
  | MGC_TILE_ID_VALID
  | BANK_PLL_LOCK
  | BANK_BG_FORCED_CNT
  | BANK_CFG_ERR
deriving DecidableEq, Repr

/-- The access codes of R26. -/
inductive Access where
  | ro | rw | w1c | wo
deriving DecidableEq, Repr

/-- Which values of a field are listed encodings (R28). -/
inductive Enc where
  | any
  | range (lo hi : Nat)
  | except (v : Nat)
  | multiple (step lo hi : Nat)
deriving DecidableEq, Repr

/-- Whether `v` is a listed encoding. -/
def Enc.lists : Enc → Nat → Bool
  | .any, _ => true
  | .range lo hi, v => decide (lo ≤ v) && decide (v ≤ hi)
  | .except x, v => decide (v ≠ x)
  | .multiple st lo hi, v => decide (lo ≤ v) && decide (v ≤ hi) && decide (v % st = 0)

/-- One row of a register table: entry `n` of the field stands at `off + stride * n`, in bits `hi:lo`.
`shadowed` marks class S of R676; the other writable fields are class A. -/
structure FieldSpec where
  block : Block
  off : Nat
  stride : Nat
  count : Nat
  hi : Nat
  lo : Nat
  access : Access
  shadowed : Bool
  reset : Nat
  enc : Enc
deriving DecidableEq, Repr

/-- The row of each field in the register tables of the spec. -/
def Field.spec : Field → FieldSpec
  | .DECK_GEN_LO => ⟨.DECK, 0x0, 0, 1, 31, 0, .ro, false, 0, .any⟩
  | .DECK_GEN_HI => ⟨.DECK, 0x4, 0, 1, 31, 0, .ro, false, 0, .any⟩
  | .DECK_READY => ⟨.DECK, 0x8, 0, 1, 0, 0, .ro, false, 0, .any⟩
  | .DECK_UPDATING => ⟨.DECK, 0x8, 0, 1, 1, 1, .ro, false, 0, .any⟩
  | .DECK_CHG_EVT_EN => ⟨.DECK, 0xC, 0, 1, 0, 0, .rw, false, 1, .any⟩
  | .DECK_CFG_ERR => ⟨.DECK, 0x10, 0, 1, 31, 0, .ro, false, 0, .any⟩
  | .TIK_TIME_LO => ⟨.TIK, 0x0, 0, 1, 31, 0, .ro, false, 0, .any⟩
  | .TIK_TIME_HI => ⟨.TIK, 0x4, 0, 1, 31, 0, .ro, false, 0, .any⟩
  | .TIK_ROOT => ⟨.TIK, 0x8, 0, 1, 0, 0, .rw, true, 0, .any⟩
  | .TIK_ALIGN_EN => ⟨.TIK, 0x8, 0, 1, 1, 1, .rw, false, 1, .any⟩
  | .TIK_JNL_EN => ⟨.TIK, 0x8, 0, 1, 2, 2, .rw, true, 0, .any⟩
  | .TIK_REPLAY => ⟨.TIK, 0x8, 0, 1, 3, 3, .rw, true, 0, .any⟩
  | .TIK_JOINED => ⟨.TIK, 0xC, 0, 1, 0, 0, .ro, false, 0, .any⟩
  | .TIK_IS_ROOT => ⟨.TIK, 0xC, 0, 1, 1, 1, .ro, false, 1, .any⟩
  | .TIK_HOLDOVER => ⟨.TIK, 0xC, 0, 1, 2, 2, .ro, false, 0, .any⟩
  | .TIK_ROOT_CONFLICT => ⟨.TIK, 0xC, 0, 1, 3, 3, .w1c, false, 0, .any⟩
  | .TIK_DEPTH => ⟨.TIK, 0xC, 0, 1, 15, 8, .ro, false, 0, .any⟩
  | .TIK_PARENT => ⟨.TIK, 0xC, 0, 1, 21, 16, .ro, false, 0, .any⟩
  | .TIK_OFFSET => ⟨.TIK, 0x10, 0, 1, 31, 0, .ro, false, 0, .any⟩
  | .TIK_STEP_CNT => ⟨.TIK, 0x14, 0, 1, 31, 0, .ro, false, 0, .any⟩
  | .TIK_ROOT_VALID => ⟨.TIK, 0x18, 0, 1, 31, 31, .ro, false, 0, .any⟩
  | .TIK_ROOT_ID => ⟨.TIK, 0x18, 0, 1, 15, 0, .ro, false, 0, .any⟩
  | .TIK_JNL_BASE_LO => ⟨.TIK, 0x20, 0, 1, 31, 12, .rw, false, 0, .any⟩
  | .TIK_JNL_BASE_HI => ⟨.TIK, 0x24, 0, 1, 15, 0, .rw, false, 0, .any⟩
  | .TIK_JNL_LOG2 => ⟨.TIK, 0x28, 0, 1, 4, 0, .rw, false, 8, (.range 8 24)⟩
  | .TIK_JNL_PTR => ⟨.TIK, 0x2C, 0, 1, 31, 0, .ro, false, 0, .any⟩
  | .TIK_JNL_WRAPS => ⟨.TIK, 0x30, 0, 1, 31, 0, .ro, false, 0, .any⟩
  | .TIK_RPL_PTR => ⟨.TIK, 0x34, 0, 1, 31, 0, .ro, false, 0, .any⟩
  | .TIK_RPL_END => ⟨.TIK, 0x38, 0, 1, 31, 0, .ro, false, 0, .any⟩
  | .TIK_MOOT_CNT => ⟨.TIK, 0x38, 4, 12, 31, 0, .ro, false, 0, .any⟩
  | .TIK_CFG_ERR => ⟨.TIK, 0x70, 0, 1, 31, 0, .ro, false, 0, .any⟩
  | .COR_VREG_FREE => ⟨.COR, 0x8, 0, 1, 6, 0, .ro, false, 64, .any⟩
  | .COR_OSB_FREE => ⟨.COR, 0x8, 0, 1, 12, 8, .ro, false, 16, .any⟩
  | .COR_ACC_FREE => ⟨.COR, 0x8, 0, 1, 20, 16, .ro, false, 16, .any⟩
  | .COR_SLOTS_FREE => ⟨.COR, 0x8, 0, 1, 28, 24, .ro, false, 16, .any⟩
  | .COR_ROT_PTR => ⟨.COR, 0xC, 0, 1, 3, 0, .ro, false, 0, .any⟩
  | .COR_ISSUE_CNT_LO => ⟨.COR, 0x10, 0, 1, 31, 0, .ro, false, 0, .any⟩
  | .COR_ISSUE_CNT_HI => ⟨.COR, 0x14, 0, 1, 31, 0, .ro, false, 0, .any⟩
  | .COR_DUAL_CNT_LO => ⟨.COR, 0x18, 0, 1, 31, 0, .ro, false, 0, .any⟩
  | .COR_DUAL_CNT_HI => ⟨.COR, 0x1C, 0, 1, 31, 0, .ro, false, 0, .any⟩
  | .COR_IDLE_CNT_LO => ⟨.COR, 0x20, 0, 1, 31, 0, .ro, false, 0, .any⟩
  | .COR_IDLE_CNT_HI => ⟨.COR, 0x24, 0, 1, 31, 0, .ro, false, 0, .any⟩
  | .COR_DUAL_EN => ⟨.COR, 0x28, 0, 1, 0, 0, .rw, true, 1, .any⟩
  | .COR_CNT_CLR => ⟨.COR, 0x28, 0, 1, 1, 1, .wo, false, 0, .any⟩
  | .COR_CFG_ERR => ⟨.COR, 0x30, 0, 1, 31, 0, .ro, false, 0, .any⟩
  | .CTX_FP_ILLEGAL => ⟨.CTX, 0x80, 0, 1, 1, 0, .rw, true, 2, .any⟩
  | .CTX_FP_MISALIGN => ⟨.CTX, 0x80, 0, 1, 3, 2, .rw, true, 2, .any⟩
  | .CTX_FP_UNPOP => ⟨.CTX, 0x80, 0, 1, 5, 4, .rw, true, 2, .any⟩
  | .CTX_FP_MATRIX => ⟨.CTX, 0x80, 0, 1, 7, 6, .rw, true, 2, .any⟩
  | .CTX_FP_TRAP => ⟨.CTX, 0x80, 0, 1, 9, 8, .rw, true, 2, .any⟩
  | .CTX_FP_POISON => ⟨.CTX, 0x80, 0, 1, 11, 10, .rw, true, 2, .any⟩
  | .CTX_POISON_TRAP_EN => ⟨.CTX, 0x80, 0, 1, 12, 12, .rw, true, 0, .any⟩
  | .DBG_CORE => ⟨.DBG, 0x0, 0, 1, 7, 0, .rw, false, 0, .any⟩
  | .DBG_SLOT => ⟨.DBG, 0x0, 0, 1, 11, 8, .rw, false, 0, .any⟩
  | .DBG_SCOPE => ⟨.DBG, 0x0, 0, 1, 13, 12, .rw, false, 0, .any⟩
  | .DBG_TASK_LO => ⟨.DBG, 0x8, 0, 1, 31, 0, .rw, false, 0, .any⟩
  | .DBG_TASK_HI => ⟨.DBG, 0xC, 0, 1, 31, 0, .rw, false, 0, .any⟩
  | .DBG_CMD => ⟨.DBG, 0x10, 0, 1, 3, 0, .wo, false, 0, .any⟩
  | .DBG_RESULT => ⟨.DBG, 0x14, 0, 1, 3, 0, .ro, false, 0, .any⟩
  | .DBG_PENDING => ⟨.DBG, 0x14, 0, 1, 4, 4, .ro, false, 0, .any⟩
  | .DBG_SLOT_STATE => ⟨.DBG, 0x14, 0, 1, 10, 8, .ro, false, 0, .any⟩
  | .DBG_LEVEL => ⟨.DBG, 0x14, 0, 1, 17, 16, .ro, false, 0, .any⟩
  | .DBG_SPACE => ⟨.DBG, 0x18, 0, 1, 3, 0, .rw, false, 0, .any⟩
  | .DBG_THREAD => ⟨.DBG, 0x18, 0, 1, 9, 4, .rw, false, 0, .any⟩
  | .DBG_INDEX => ⟨.DBG, 0x18, 0, 1, 31, 10, .rw, false, 0, .any⟩
  | .DBG_ACC_DATA_LO => ⟨.DBG, 0x20, 0, 1, 31, 0, .rw, false, 0, .any⟩
  | .DBG_ACC_DATA_HI => ⟨.DBG, 0x24, 0, 1, 31, 0, .rw, false, 0, .any⟩
  | .DBG_EVT_EN => ⟨.DBG, 0x28, 0, 1, 0, 0, .rw, false, 1, .any⟩
  | .DBG_BP_ADDR_LO => ⟨.DBG, 0x40, 8, 8, 31, 3, .rw, true, 0, .any⟩
  | .DBG_BP_EN => ⟨.DBG, 0x40, 8, 8, 0, 0, .rw, true, 0, .any⟩
  | .DBG_BP_ADDR_HI => ⟨.DBG, 0x44, 8, 8, 31, 0, .rw, true, 0, .any⟩
  | .DBG_BP_MASK => ⟨.DBG, 0x80, 4, 8, 15, 0, .rw, true, 0, .any⟩
  | .DBG_WP_BASE_LO => ⟨.DBG, 0xA0, 16, 4, 31, 0, .rw, true, 0, .any⟩
  | .DBG_WP_BASE_HI => ⟨.DBG, 0xA4, 16, 4, 31, 0, .rw, true, 0, .any⟩
  | .DBG_WP_LOG2LEN => ⟨.DBG, 0xA8, 16, 4, 5, 0, .rw, true, 3, (.range 3 40)⟩
  | .DBG_WP_KIND => ⟨.DBG, 0xA8, 16, 4, 7, 6, .rw, true, 0, .any⟩
  | .DBG_WP_MASK => ⟨.DBG, 0xA8, 16, 4, 31, 16, .rw, true, 0, .any⟩
  | .DBG_CFG_ERR => ⟨.DBG, 0xE0, 0, 1, 31, 0, .ro, false, 0, .any⟩
  | .BRK_BRAKED => ⟨.BRK, 0x0, 0, 1, 0, 0, .ro, false, 0, .any⟩
  | .BRK_RO_AUTH => ⟨.BRK, 0x0, 0, 1, 1, 1, .ro, false, 0, .any⟩
  | .BRK_TIME_LO => ⟨.BRK, 0x8, 0, 1, 31, 0, .ro, false, 0, .any⟩
  | .BRK_TIME_HI => ⟨.BRK, 0xC, 0, 1, 31, 0, .ro, false, 0, .any⟩
  | .BRK_SOURCES => ⟨.BRK, 0x10, 0, 1, 2, 0, .ro, false, 0, .any⟩
  | .BRK_RX_COUPLER => ⟨.BRK, 0x10, 0, 1, 14, 8, .ro, false, 0, .any⟩
  | .BRK_FATAL_EN => ⟨.BRK, 0x14, 0, 1, 0, 0, .rw, true, 1, .any⟩
  | .BRK_MSI_EN => ⟨.BRK, 0x14, 0, 1, 1, 1, .rw, true, 1, .any⟩
  | .BRK_MSI_VEC => ⟨.BRK, 0x14, 0, 1, 5, 2, .rw, true, 0, .any⟩
  | .BRK_FWD_EN => ⟨.BRK, 0x14, 0, 1, 6, 6, .rw, true, 1, .any⟩
  | .BRK_RX_EN => ⟨.BRK, 0x14, 0, 1, 7, 7, .rw, true, 1, .any⟩
  | .BRK_RO_MEM => ⟨.BRK, 0x18, 0, 1, 0, 0, .rw, false, 0, .any⟩
  | .BRK_RO_START => ⟨.BRK, 0x18, 0, 1, 1, 1, .wo, false, 0, .any⟩
  | .BRK_RO_POS_LO => ⟨.BRK, 0x20, 0, 1, 31, 12, .rw, false, 0, .any⟩
  | .BRK_RO_POS_HI => ⟨.BRK, 0x24, 0, 1, 31, 0, .rw, false, 0, .any⟩
  | .BRK_RO_LEN_LO => ⟨.BRK, 0x28, 0, 1, 31, 0, .ro, false, 0, .any⟩
  | .BRK_RO_LEN_HI => ⟨.BRK, 0x2C, 0, 1, 31, 0, .ro, false, 0, .any⟩
  | .BRK_CFG_ERR => ⟨.BRK, 0x30, 0, 1, 31, 0, .ro, false, 0, .any⟩
  | .TILE_WIN_VALID => ⟨.TILE, 0x1000, 32, 256, 0, 0, .rw, false, 0, .any⟩
  | .TILE_WIN_TYPE => ⟨.TILE, 0x1000, 32, 256, 2, 1, .rw, false, 0, (.range 0 2)⟩
  | .TILE_WIN_PREFETCH => ⟨.TILE, 0x1000, 32, 256, 3, 3, .rw, false, 1, .any⟩
  | .TILE_WIN_CMODE => ⟨.TILE, 0x1000, 32, 256, 5, 4, .rw, false, 0, (.range 0 2)⟩
  | .TILE_WIN_CSEL => ⟨.TILE, 0x1000, 32, 256, 15, 8, .rw, false, 0, .any⟩
  | .TILE_WIN_TILE_FIRST => ⟨.TILE, 0x1004, 32, 256, 15, 0, .rw, false, 0, .any⟩
  | .TILE_WIN_TILE_LAST => ⟨.TILE, 0x1004, 32, 256, 31, 16, .rw, false, 0, .any⟩
  | .TILE_WIN_BASE_LO => ⟨.TILE, 0x1008, 32, 256, 31, 12, .rw, false, 0, .any⟩
  | .TILE_WIN_BASE_HI => ⟨.TILE, 0x100C, 32, 256, 15, 0, .rw, false, 0, .any⟩
  | .TILE_WIN_LIMIT_LO => ⟨.TILE, 0x1010, 32, 256, 31, 12, .rw, false, 0, .any⟩
  | .TILE_WIN_LIMIT_HI => ⟨.TILE, 0x1014, 32, 256, 15, 0, .rw, false, 0, .any⟩
  | .TILE_WIN_COMMIT => ⟨.TILE, 0x800, 0, 1, 0, 0, .wo, false, 0, .any⟩
  | .TILE_WIN_BUSY => ⟨.TILE, 0x804, 0, 1, 0, 0, .ro, false, 0, .any⟩
  | .TILE_WIN_COMMITS => ⟨.TILE, 0x808, 0, 1, 31, 0, .ro, false, 0, .any⟩
  | .TILE_UNPOP_REMOTE_CNT => ⟨.TILE, 0x810, 0, 1, 31, 0, .ro, false, 0, .any⟩
  | .TILE_HOST_ATOM_CNT => ⟨.TILE, 0x814, 0, 1, 31, 0, .ro, false, 0, .any⟩
  | .TILE_CFG_ERR => ⟨.TILE, 0xFFC, 0, 1, 31, 0, .ro, false, 0, .any⟩
  | .CLU_WIN_HOLD => ⟨.CLU, 0x100, 0, 1, 10, 0, .rw, true, 128, (.range 64 1024)⟩
  | .CLU_TAGS_FREE => ⟨.CLU, 0x104, 0, 1, 11, 0, .ro, false, 2048, .any⟩
  | .CLU_TAGS_QUAR => ⟨.CLU, 0x104, 0, 1, 27, 16, .ro, false, 0, .any⟩
  | .CLU_REQ_TIMEOUT_US => ⟨.CLU, 0x108, 0, 1, 16, 0, .rw, true, 10000, (.range 1000 100000)⟩
  | .CLU_TIMEOUT_CNT => ⟨.CLU, 0x10C, 0, 1, 31, 0, .ro, false, 0, .any⟩
  | .CLU_LATE_RSP_CNT => ⟨.CLU, 0x110, 0, 1, 31, 0, .ro, false, 0, .any⟩
  | .CLU_PF_ISSUED_CNT => ⟨.CLU, 0x114, 0, 1, 31, 0, .ro, false, 0, .any⟩
  | .CLU_PF_SKIP_CNT => ⟨.CLU, 0x118, 0, 1, 31, 0, .ro, false, 0, .any⟩
  | .CLU_SNP_HELD_CNT => ⟨.CLU, 0x11C, 0, 1, 31, 0, .ro, false, 0, .any⟩
  | .CLU_DEAD_DROP_CNT => ⟨.CLU, 0x120, 0, 1, 31, 0, .ro, false, 0, .any⟩
  | .CLU_CFG_ERR => ⟨.CLU, 0x1FC, 0, 1, 31, 0, .ro, false, 0, .any⟩
  | .MEM_SNP_DEADLINE_US => ⟨.MEM, 0x400, 0, 1, 13, 0, .rw, true, 200, (.range 10 10000)⟩
  | .MEM_DIR_USED => ⟨.MEM, 0x404, 0, 1, 21, 0, .ro, false, 0, .any⟩
  | .MEM_BACKINV_CNT => ⟨.MEM, 0x408, 0, 1, 31, 0, .ro, false, 0, .any⟩
  | .MEM_COARSE_CNT => ⟨.MEM, 0x40C, 0, 1, 31, 0, .ro, false, 0, .any⟩
  | .MEM_LOST_LINES_CNT => ⟨.MEM, 0x410, 0, 1, 31, 0, .ro, false, 0, .any⟩
  | .MEM_INBOUND_FREE => ⟨.MEM, 0x414, 0, 1, 13, 0, .ro, false, 8192, .any⟩
  | .MEM_NOTHELD_CNT => ⟨.MEM, 0x418, 0, 1, 31, 0, .ro, false, 0, .any⟩
  | .MEM_STALE_WB_CNT => ⟨.MEM, 0x41C, 0, 1, 31, 0, .ro, false, 0, .any⟩
  | .MEM_RECLAIM_BUSY => ⟨.MEM, 0x420, 0, 1, 0, 0, .ro, false, 0, .any⟩
  | .MEM_DEAD_AGENT => ⟨.MEM, 0x480, 0, 1, 21, 0, .rw, false, 0, .any⟩
  | .MEM_DEAD_ALL => ⟨.MEM, 0x480, 0, 1, 23, 23, .rw, false, 0, .any⟩
  | .MEM_DEAD_DECLARE => ⟨.MEM, 0x484, 0, 1, 0, 0, .wo, false, 0, .any⟩
  | .MEM_DEAD_COUNT => ⟨.MEM, 0x488, 0, 1, 10, 0, .ro, false, 0, .any⟩
  | .MEM_INIT_DONE => ⟨.MEM, 0x0, 0, 1, 0, 0, .ro, false, 0, .any⟩
  | .MEM_RATE_FALLBACK => ⟨.MEM, 0x0, 0, 1, 1, 1, .ro, false, 0, .any⟩
  | .MEM_SCRUB_HOURS => ⟨.MEM, 0x4, 0, 1, 7, 0, .rw, true, 24, (.range 1 168)⟩
  | .MEM_SCRUB_EN => ⟨.MEM, 0x8, 0, 1, 0, 0, .rw, true, 1, .any⟩
  | .MEM_CAL_RETIRE_EN => ⟨.MEM, 0x8, 0, 1, 1, 1, .rw, true, 1, .any⟩
  | .MEM_SCRUB_PASSES => ⟨.MEM, 0xC, 0, 1, 31, 0, .ro, false, 0, .any⟩
  | .MEM_CE_CNT => ⟨.MEM, 0x10, 0, 1, 31, 0, .ro, false, 0, .any⟩
  | .MEM_UE_CNT => ⟨.MEM, 0x14, 0, 1, 31, 0, .ro, false, 0, .any⟩
  | .MEM_PARTIAL_FIX_CNT => ⟨.MEM, 0x18, 0, 1, 31, 0, .ro, false, 0, .any⟩
  | .MEM_PARTIAL_POISON_CNT => ⟨.MEM, 0x1C, 0, 1, 31, 0, .ro, false, 0, .any⟩
  | .MEM_POISON_CLR_CNT => ⟨.MEM, 0x20, 0, 1, 31, 0, .ro, false, 0, .any⟩
  | .MEM_RETIRED_ACC_CNT => ⟨.MEM, 0x24, 0, 1, 31, 0, .ro, false, 0, .any⟩
  | .MEM_ROW_SPARED_CNT => ⟨.MEM, 0x28, 0, 1, 31, 0, .ro, false, 0, .any⟩
  | .MEM_SPARE_FAIL_CNT => ⟨.MEM, 0x2C, 0, 1, 31, 0, .ro, false, 0, .any⟩
  | .MEM_ROW_CE_LIMIT => ⟨.MEM, 0x30, 0, 1, 7, 0, .rw, true, 16, (.range 1 255)⟩
  | .MEM_CH_UE_LIMIT => ⟨.MEM, 0x34, 0, 1, 15, 0, .rw, true, 64, (.range 1 65535)⟩
  | .MEM_CH_RETIRE_MASK => ⟨.MEM, 0x38, 0, 1, 31, 0, .ro, false, 0, .any⟩
  | .MEM_CH_RETIRE_SEL => ⟨.MEM, 0x3C, 0, 1, 4, 0, .rw, true, 0, .any⟩
  | .MEM_CH_RETIRE_GO => ⟨.MEM, 0x3C, 0, 1, 8, 8, .wo, false, 0, .any⟩
  | .MEM_CH_RETIRE_BUSY => ⟨.MEM, 0x40, 0, 1, 0, 0, .ro, false, 0, .any⟩
  | .MEM_CAL_ADJ_CNT => ⟨.MEM, 0x44, 0, 1, 31, 0, .ro, false, 0, .any⟩
  | .MEM_CAL_FAIL_CNT => ⟨.MEM, 0x48, 0, 1, 31, 0, .ro, false, 0, .any⟩
  | .MEM_STACK_TEMP => ⟨.MEM, 0x4C, 0, 1, 7, 0, .ro, false, 0, .any⟩
  | .MEM_REFRESH_FAST => ⟨.MEM, 0x4C, 0, 1, 8, 8, .ro, false, 0, .any⟩
  | .MEM_AGE_CNT => ⟨.MEM, 0x50, 0, 1, 31, 0, .ro, false, 0, .any⟩
  | .MEM_BG_FORCED_CNT => ⟨.MEM, 0x60, 4, 7, 31, 0, .ro, false, 0, .any⟩
  | .MEM_CH_CE_CNT => ⟨.MEM, 0x100, 8, 32, 31, 0, .ro, false, 0, .any⟩
  | .MEM_CH_UE_CNT => ⟨.MEM, 0x104, 8, 32, 31, 0, .ro, false, 0, .any⟩
  | .MEM_CFG_ERR => ⟨.MEM, 0x3FC, 0, 1, 31, 0, .ro, false, 0, .any⟩
  | .CDC_SLOT_SEL => ⟨.CDC, 0x0, 0, 1, 7, 0, .rw, false, 0, .any⟩
  | .CDC_SLOT_OP => ⟨.CDC, 0x4, 0, 1, 2, 0, .wo, false, 0, .any⟩
  | .CDC_SLOT_RESULT => ⟨.CDC, 0x8, 0, 1, 2, 0, .ro, false, 0, .any⟩
  | .CDC_LMAP_BASE_LO => ⟨.CDC, 0x100, 16, 8, 31, 20, .rw, true, 0, .any⟩
  | .CDC_LMAP_BASE_HI => ⟨.CDC, 0x104, 16, 8, 15, 0, .rw, true, 0, .any⟩
  | .CDC_LMAP_EN => ⟨.CDC, 0x108, 16, 8, 0, 0, .rw, true, 0, .any⟩
  | .CDC_EXPAND_CNT => ⟨.CDC, 0x200, 0, 1, 31, 0, .ro, false, 0, .any⟩
  | .CDC_DEC_ERR_CNT => ⟨.CDC, 0x204, 0, 1, 31, 0, .ro, false, 0, .any⟩
  | .CDC_RAW_FALLBACK_CNT => ⟨.CDC, 0x208, 0, 1, 31, 0, .ro, false, 0, .any⟩
  | .CDC_PACKED_CNT => ⟨.CDC, 0x20C, 0, 1, 31, 0, .ro, false, 0, .any⟩
  | .CDC_ASM_PARTIAL_CNT => ⟨.CDC, 0x210, 0, 1, 31, 0, .ro, false, 0, .any⟩
  | .CDC_NOMAP_CNT => ⟨.CDC, 0x214, 0, 1, 31, 0, .ro, false, 0, .any⟩
  | .CDC_LMAP_LOSS_CNT => ⟨.CDC, 0x218, 0, 1, 31, 0, .ro, false, 0, .any⟩
  | .CDC_HOLD_REFUSE_CNT => ⟨.CDC, 0x21C, 0, 1, 31, 0, .ro, false, 0, .any⟩
  | .CDC_CFG_ERR => ⟨.CDC, 0x3FC, 0, 1, 31, 0, .ro, false, 0, .any⟩
  | .CDC_SLOT_STATE => ⟨.CDC, 0x2000, 4, 256, 1, 0, .ro, false, 0, .any⟩
  | .CDC_HOLD => ⟨.CDC, 0x2000, 4, 256, 31, 8, .ro, false, 0, .any⟩
  | .CDC_HIST_LO => ⟨.CDC, 0x3000, 8, 272, 31, 0, .ro, false, 0, .any⟩
  | .CDC_HIST_HI => ⟨.CDC, 0x3004, 8, 272, 7, 0, .ro, false, 0, .any⟩
  | .CPL_ENABLE => ⟨.CPL, 0x0, 0, 1, 0, 0, .rw, true, 1, .any⟩
  | .CPL_RETRAIN => ⟨.CPL, 0x0, 0, 1, 1, 1, .wo, false, 0, .any⟩
  | .CPL_RESTART => ⟨.CPL, 0x0, 0, 1, 2, 2, .wo, false, 0, .any⟩
  | .CPL_SEAL_EN => ⟨.CPL, 0x0, 0, 1, 3, 3, .rw, true, 0, .any⟩
  | .CPL_MAX_WIDTH => ⟨.CPL, 0x0, 0, 1, 5, 4, .rw, true, 0, (.range 0 2)⟩
  | .CPL_RXADAPT_EN => ⟨.CPL, 0x0, 0, 1, 6, 6, .rw, true, 1, .any⟩
  | .CPL_TXEQ_EN => ⟨.CPL, 0x0, 0, 1, 7, 7, .rw, true, 1, .any⟩
  | .CPL_LINK_STATE => ⟨.CPL, 0x4, 0, 1, 2, 0, .ro, false, 0, .any⟩
  | .CPL_WIDTH => ⟨.CPL, 0x4, 0, 1, 5, 3, .ro, false, 0, .any⟩
  | .CPL_LONG => ⟨.CPL, 0x4, 0, 1, 6, 6, .ro, false, 0, .any⟩
  | .CPL_LP => ⟨.CPL, 0x4, 0, 1, 7, 7, .ro, false, 0, .any⟩
  | .CPL_LOCK => ⟨.CPL, 0x4, 0, 1, 8, 8, .ro, false, 0, .any⟩
  | .CPL_DOWN_CAUSE => ⟨.CPL, 0x4, 0, 1, 15, 12, .ro, false, 0, .any⟩
  | .CPL_LANES_GOOD => ⟨.CPL, 0x8, 0, 1, 7, 0, .ro, false, 0, .any⟩
  | .CPL_LANES_RETIRED => ⟨.CPL, 0xC, 0, 1, 7, 0, .ro, false, 0, .any⟩
  | .CPL_NEIGH => ⟨.CPL, 0x10, 0, 1, 31, 0, .ro, false, 0, .any⟩
  | .CPL_PATH_DELAY => ⟨.CPL, 0x14, 0, 1, 31, 0, .ro, false, 0, .any⟩
  | .CPL_TRAIN_FAIL_CNT => ⟨.CPL, 0x18, 0, 1, 31, 0, .ro, false, 0, .any⟩
  | .CPL_RETRAIN_CNT => ⟨.CPL, 0x1C, 0, 1, 31, 0, .ro, false, 0, .any⟩
  | .CPL_FEC_CORR_LO => ⟨.CPL, 0x20, 0, 1, 31, 0, .ro, false, 0, .any⟩
  | .CPL_FEC_CORR_HI => ⟨.CPL, 0x24, 0, 1, 31, 0, .ro, false, 0, .any⟩
  | .CPL_FEC_UNCORR_CNT => ⟨.CPL, 0x28, 0, 1, 31, 0, .ro, false, 0, .any⟩
  | .CPL_LOCK_LOSS_CNT => ⟨.CPL, 0x2C, 0, 1, 31, 0, .ro, false, 0, .any⟩
  | .CPL_EQ_UPD_CNT => ⟨.CPL, 0x30, 0, 1, 31, 0, .ro, false, 0, .any⟩
  | .CPL_EQ_NAK_CNT => ⟨.CPL, 0x34, 0, 1, 31, 0, .ro, false, 0, .any⟩
  | .CPL_LANE_SYM_ERR => ⟨.CPL, 0x40, 4, 4, 31, 0, .ro, false, 0, .any⟩
  | .CPL_TRAIN_RETRIES => ⟨.CPL, 0x50, 0, 1, 7, 0, .rw, true, 8, (.range 1 255)⟩
  | .CPL_LANE_RETIRE_LIMIT => ⟨.CPL, 0x54, 0, 1, 3, 0, .rw, true, 4, (.range 1 15)⟩
  | .CPL_LANE_SER_LIMIT => ⟨.CPL, 0x58, 0, 1, 19, 0, .rw, true, 20000, (.range 1 1000000)⟩
  | .CPL_EQ_LEAD => ⟨.CPL, 0x5C, 0, 1, 10, 0, .rw, true, 64, (.range 16 1024)⟩
  | .CPL_TXEQ => ⟨.CPL, 0x60, 4, 4, 31, 0, .ro, false, 0, .any⟩
  | .CPL_LANE_RETIRE_SEL => ⟨.CPL, 0x70, 0, 1, 2, 0, .rw, true, 0, .any⟩
  | .CPL_LANE_RETIRE_GO => ⟨.CPL, 0x70, 0, 1, 8, 8, .wo, false, 0, .any⟩
  | .CPL_CFG_ERR => ⟨.CPL, 0xFC, 0, 1, 31, 0, .ro, false, 0, .any⟩
  | .CPL_DATELINE => ⟨.CPL, 0x100, 0, 1, 0, 0, .rw, true, 0, .any⟩
  | .CPL_REPLAY_TO_NS => ⟨.CPL, 0x104, 0, 1, 15, 0, .rw, true, 2000, (.range 200 60000)⟩
  | .CPL_TX_SEQ => ⟨.CPL, 0x108, 0, 1, 11, 0, .ro, false, 0, .any⟩
  | .CPL_RX_SEQ => ⟨.CPL, 0x108, 0, 1, 27, 16, .ro, false, 0, .any⟩
  | .CPL_REPLAY_CNT => ⟨.CPL, 0x10C, 0, 1, 31, 0, .ro, false, 0, .any⟩
  | .CPL_CRC_ERR_CNT => ⟨.CPL, 0x110, 0, 1, 31, 0, .ro, false, 0, .any⟩
  | .CPL_REPLAY_FAIL_RUN => ⟨.CPL, 0x114, 0, 1, 3, 0, .ro, false, 0, .any⟩
  | .CPL_DROP_PKT_CNT => ⟨.CPL, 0x118, 0, 1, 31, 0, .ro, false, 0, .any⟩
  | .CPL_CREDIT_AVAIL => ⟨.CPL, 0x120, 4, 7, 9, 0, .ro, false, 0, .any⟩
  | .CPL_RXBUF => ⟨.CPL, 0x140, 4, 7, 9, 0, .ro, false, 0, .any⟩
  | .CPL_TAGS_FREE => ⟨.CPL, 0x160, 0, 1, 11, 0, .ro, false, 0, .any⟩
  | .CPL_AUDIT_ERR_CNT => ⟨.CPL, 0x164, 0, 1, 31, 0, .ro, false, 0, .any⟩
  | .CPL_CAPS => ⟨.CPL, 0x168, 0, 1, 7, 0, .ro, false, 0, .any⟩
  | .RTE_ACTIVE => ⟨.RTE, 0x0, 0, 1, 0, 0, .ro, false, 0, .any⟩
  | .RTE_DRAINING => ⟨.RTE, 0x0, 0, 1, 1, 1, .ro, false, 0, .any⟩
  | .RTE_ARMED => ⟨.RTE, 0x0, 0, 1, 2, 2, .ro, false, 0, .any⟩
  | .RTE_LOADED => ⟨.RTE, 0x4, 0, 1, 1, 0, .rw, true, 0, .any⟩
  | .RTE_FILL => ⟨.RTE, 0x8, 0, 1, 1, 0, .wo, false, 0, .any⟩
  | .RTE_FILL_BUSY => ⟨.RTE, 0xC, 0, 1, 0, 0, .ro, false, 0, .any⟩
  | .RTE_HOP_LIMIT => ⟨.RTE, 0x10, 0, 1, 7, 0, .rw, true, 32, (.range 1 255)⟩
  | .RTE_SW_LEAD => ⟨.RTE, 0x14, 0, 1, 19, 0, .rw, true, 4096, (.range 256 1048575)⟩
  | .RTE_SW_GO => ⟨.RTE, 0x18, 0, 1, 0, 0, .wo, false, 0, .any⟩
  | .RTE_SW_TICK_LO => ⟨.RTE, 0x20, 0, 1, 31, 0, .ro, false, 0, .any⟩
  | .RTE_SW_TICK_HI => ⟨.RTE, 0x24, 0, 1, 31, 0, .ro, false, 0, .any⟩
  | .RTE_SW_SEQ => ⟨.RTE, 0x28, 0, 1, 31, 0, .ro, false, 0, .any⟩
  | .RTE_DRAIN_US => ⟨.RTE, 0x2C, 0, 1, 16, 0, .rw, true, 2000, (.range 100 100000)⟩
  | .RTE_NOROUTE_CNT => ⟨.RTE, 0x30, 0, 1, 31, 0, .ro, false, 0, .any⟩
  | .RTE_HOP_DROP_CNT => ⟨.RTE, 0x34, 0, 1, 31, 0, .ro, false, 0, .any⟩
  | .RTE_OLD_DROP_CNT => ⟨.RTE, 0x38, 0, 1, 31, 0, .ro, false, 0, .any⟩
  | .RTE_SW_LATE_CNT => ⟨.RTE, 0x3C, 0, 1, 31, 0, .ro, false, 0, .any⟩
  | .RTE_SW_REFUSED_CNT => ⟨.RTE, 0x40, 0, 1, 31, 0, .ro, false, 0, .any⟩
  | .RTE_MCAST_COPIES_CNT => ⟨.RTE, 0x44, 0, 1, 31, 0, .ro, false, 0, .any⟩
  | .RTE_CFG_ERR => ⟨.RTE, 0xFC, 0, 1, 31, 0, .ro, false, 0, .any⟩
  | .CTX_STATE => ⟨.CTX, 0x0, 0, 1, 1, 0, .ro, false, 0, .any⟩
  | .CTX_CREATE => ⟨.CTX, 0x4, 0, 1, 0, 0, .wo, false, 0, .any⟩
  | .CTX_RESET => ⟨.CTX, 0x4, 0, 1, 1, 1, .wo, false, 0, .any⟩
  | .CTX_RESULT => ⟨.CTX, 0x8, 0, 1, 3, 0, .ro, false, 0, .any⟩
  | .CTX_OWNER_LO => ⟨.CTX, 0x10, 0, 1, 31, 0, .rw, true, 0, .any⟩
  | .CTX_OWNER_HI => ⟨.CTX, 0x14, 0, 1, 31, 0, .rw, true, 0, .any⟩
  | .CTX_EPOCH => ⟨.CTX, 0x18, 0, 1, 31, 0, .rw, false, 0, .any⟩
  | .CTX_RING_BASE_LO => ⟨.CTX, 0x20, 0, 1, 31, 6, .rw, false, 0, .any⟩
  | .CTX_RING_BASE_HI => ⟨.CTX, 0x24, 0, 1, 31, 0, .rw, false, 0, .any⟩
  | .CTX_RING_LOG2 => ⟨.CTX, 0x28, 0, 1, 4, 0, .rw, false, 8, (.range 8 16)⟩
  | .CTX_DB_ADDR_LO => ⟨.CTX, 0x30, 0, 1, 31, 6, .rw, false, 0, .any⟩
  | .CTX_DB_ADDR_HI => ⟨.CTX, 0x34, 0, 1, 31, 0, .rw, false, 0, .any⟩
  | .CTX_DB_POLL_NS => ⟨.CTX, 0x38, 0, 1, 16, 0, .rw, true, 400, (.range 100 100000)⟩
  | .CTX_HEADWB_EN => ⟨.CTX, 0x40, 0, 1, 0, 0, .rw, false, 0, .any⟩
  | .CTX_HEADWB_ADDR_LO => ⟨.CTX, 0x40, 0, 1, 31, 3, .rw, false, 0, .any⟩
  | .CTX_HEADWB_ADDR_HI => ⟨.CTX, 0x44, 0, 1, 31, 0, .rw, false, 0, .any⟩
  | .CTX_EVT_BASE_LO => ⟨.CTX, 0x48, 0, 1, 31, 6, .rw, false, 0, .any⟩
  | .CTX_EVT_BASE_HI => ⟨.CTX, 0x4C, 0, 1, 31, 0, .rw, false, 0, .any⟩
  | .CTX_EVT_LOG2 => ⟨.CTX, 0x50, 0, 1, 4, 0, .rw, false, 8, (.range 8 16)⟩
  | .CTX_EVT_ACK_ADDR_LO => ⟨.CTX, 0x58, 0, 1, 31, 6, .rw, false, 0, .any⟩
  | .CTX_EVT_ACK_ADDR_HI => ⟨.CTX, 0x5C, 0, 1, 31, 0, .rw, false, 0, .any⟩
  | .CTX_EVT_MSI_EN => ⟨.CTX, 0x60, 0, 1, 0, 0, .rw, true, 1, .any⟩
  | .CTX_EVT_MSI_VEC => ⟨.CTX, 0x60, 0, 1, 4, 1, .rw, true, 0, .any⟩
  | .CTX_EVT_HOLDOFF_US => ⟨.CTX, 0x60, 0, 1, 31, 16, .rw, true, 10, (.range 0 65535)⟩
  | .CTX_FENCE_BASE_LO => ⟨.CTX, 0x68, 0, 1, 31, 16, .rw, false, 0, .any⟩
  | .CTX_FENCE_BASE_HI => ⟨.CTX, 0x6C, 0, 1, 15, 0, .rw, false, 0, .any⟩
  | .CTX_FENCE_KEEP => ⟨.CTX, 0x70, 0, 1, 0, 0, .rw, false, 0, .any⟩
  | .CTX_RING_HEAD => ⟨.CTX, 0x88, 0, 1, 31, 0, .ro, false, 0, .any⟩
  | .CTX_RING_TAIL => ⟨.CTX, 0x8C, 0, 1, 31, 0, .ro, false, 0, .any⟩
  | .CTX_EVT_TAIL => ⟨.CTX, 0x90, 0, 1, 31, 0, .ro, false, 0, .any⟩
  | .CTX_EVT_ACK => ⟨.CTX, 0x94, 0, 1, 31, 0, .ro, false, 0, .any⟩
  | .CTX_EVT_LOST_CNT => ⟨.CTX, 0x98, 0, 1, 31, 0, .ro, false, 0, .any⟩
  | .CTX_DB_STALE_CNT => ⟨.CTX, 0x9C, 0, 1, 31, 0, .ro, false, 0, .any⟩
  | .CTX_DB_BAD_CNT => ⟨.CTX, 0xA0, 0, 1, 31, 0, .ro, false, 0, .any⟩
  | .CTX_DESC_ERR_CNT => ⟨.CTX, 0xA4, 0, 1, 31, 0, .ro, false, 0, .any⟩
  | .CTX_EFF_POLL_NS => ⟨.CTX, 0xA8, 0, 1, 16, 0, .ro, false, 400, .any⟩
  | .CTX_DB_ERR_CNT => ⟨.CTX, 0xAC, 0, 1, 31, 0, .ro, false, 0, .any⟩
  | .CTX_CFG_ERR => ⟨.CTX, 0xFC, 0, 1, 31, 0, .ro, false, 0, .any⟩
  | .FEN_OOO_CNT => ⟨.FEN, 0x0, 0, 1, 31, 0, .ro, false, 0, .any⟩
  | .FEN_SAT_CNT => ⟨.FEN, 0x4, 0, 1, 31, 0, .ro, false, 0, .any⟩
  | .FEN_ERR_CNT => ⟨.FEN, 0x8, 0, 1, 31, 0, .ro, false, 0, .any⟩
  | .FEN_INIT_SEL => ⟨.FEN, 0x10, 0, 1, 11, 0, .rw, false, 0, .any⟩
  | .FEN_INIT_VALUE_LO => ⟨.FEN, 0x18, 0, 1, 31, 0, .rw, false, 0, .any⟩
  | .FEN_INIT_VALUE_HI => ⟨.FEN, 0x1C, 0, 1, 31, 0, .rw, false, 0, .any⟩
  | .FEN_INIT_GO => ⟨.FEN, 0x20, 0, 1, 0, 0, .wo, false, 0, .any⟩
  | .FEN_CFG_ERR => ⟨.FEN, 0xFC, 0, 1, 31, 0, .ro, false, 0, .any⟩
  | .FEN_MIR_EN => ⟨.FEN, 0x100, 16, 64, 0, 0, .rw, true, 0, .any⟩
  | .FEN_MIR_MSI => ⟨.FEN, 0x100, 16, 64, 1, 1, .rw, true, 0, .any⟩
  | .FEN_MIR_VEC => ⟨.FEN, 0x100, 16, 64, 5, 2, .rw, true, 0, .any⟩
  | .FEN_MIR_FENCE => ⟨.FEN, 0x100, 16, 64, 27, 16, .rw, true, 0, .any⟩
  | .FEN_MIR_ADDR_LO => ⟨.FEN, 0x108, 16, 64, 31, 4, .rw, true, 0, .any⟩
  | .FEN_MIR_ADDR_HI => ⟨.FEN, 0x10C, 16, 64, 31, 0, .rw, true, 0, .any⟩
  | .HIF_IDS_VENDOR => ⟨.HIF, 0x0, 0, 1, 15, 0, .ro, false, 0, .any⟩
  | .HIF_IDS_DEVICE => ⟨.HIF, 0x0, 0, 1, 31, 16, .ro, false, 45668, .any⟩
  | .HIF_BAR2_BASE_LO => ⟨.HIF, 0x8, 0, 1, 31, 30, .rw, true, 0, .any⟩
  | .HIF_BAR2_BASE_HI => ⟨.HIF, 0xC, 0, 1, 15, 0, .rw, true, 0, .any⟩
  | .HIF_BAR2_TILE => ⟨.HIF, 0x10, 0, 1, 15, 0, .rw, true, 65535, (.except 0xFFFE)⟩
  | .HIF_CPL_TO_US => ⟨.HIF, 0x14, 0, 1, 15, 0, .rw, true, 5000, (.range 50 50000)⟩
  | .HIF_HOST_REQ_OUT => ⟨.HIF, 0x18, 0, 1, 9, 0, .ro, false, 0, .any⟩
  | .HIF_CPL_TO_CNT => ⟨.HIF, 0x20, 0, 1, 31, 0, .ro, false, 0, .any⟩
  | .HIF_BAR2_ERR_CNT => ⟨.HIF, 0x24, 0, 1, 31, 0, .ro, false, 0, .any⟩
  | .HIF_EP_RX_CNT => ⟨.HIF, 0x28, 0, 1, 31, 0, .ro, false, 0, .any⟩
  | .HIF_CFG_ERR => ⟨.HIF, 0xFC, 0, 1, 31, 0, .ro, false, 0, .any⟩
  | .CPR_STATE => ⟨.CPR, 0x0, 0, 1, 2, 0, .ro, false, 0, .any⟩
  | .CPR_DEPTH => ⟨.CPR, 0x0, 0, 1, 7, 4, .ro, false, 0, .any⟩
  | .CPR_LOOPS => ⟨.CPR, 0x0, 0, 1, 11, 8, .ro, false, 0, .any⟩
  | .CPR_CMD_ADDR_LO => ⟨.CPR, 0x8, 0, 1, 31, 0, .ro, false, 0, .any⟩
  | .CPR_CMD_ADDR_HI => ⟨.CPR, 0xC, 0, 1, 31, 0, .ro, false, 0, .any⟩
  | .CPR_NEXT_TASK_LO => ⟨.CPR, 0x10, 0, 1, 31, 0, .ro, false, 1, .any⟩
  | .CPR_NEXT_TASK_HI => ⟨.CPR, 0x14, 0, 1, 31, 0, .ro, false, 1, .any⟩
  | .CPR_TASKS_ACTIVE => ⟨.CPR, 0x18, 0, 1, 6, 0, .ro, false, 0, .any⟩
  | .CPR_TAGS_FREE => ⟨.CPR, 0x1C, 0, 1, 10, 0, .ro, false, 1024, .any⟩
  | .CPR_REQ_TIMEOUT_US => ⟨.CPR, 0x20, 0, 1, 16, 0, .rw, true, 10000, (.range 1000 100000)⟩
  | .CPR_TASK_EVT_ERR => ⟨.CPR, 0x24, 0, 1, 0, 0, .rw, true, 1, .any⟩
  | .CPR_CMD_CNT => ⟨.CPR, 0x30, 0, 1, 31, 0, .ro, false, 0, .any⟩
  | .CPR_CMD_ERR_CNT => ⟨.CPR, 0x34, 0, 1, 31, 0, .ro, false, 0, .any⟩
  | .CPR_EXCH_CNT => ⟨.CPR, 0x38, 0, 1, 31, 0, .ro, false, 0, .any⟩
  | .CPR_WAIT_TO_CNT => ⟨.CPR, 0x3C, 0, 1, 31, 0, .ro, false, 0, .any⟩
  | .CPR_TASK_CNT => ⟨.CPR, 0x40, 0, 1, 31, 0, .ro, false, 0, .any⟩
  | .CPR_TASK_ERR_CNT => ⟨.CPR, 0x44, 0, 1, 31, 0, .ro, false, 0, .any⟩
  | .CPR_CFG_ERR => ⟨.CPR, 0xFC, 0, 1, 31, 0, .ro, false, 0, .any⟩
  | .CPR_WATCH_STATE => ⟨.CPR, 0x100, 16, 16, 2, 0, .ro, false, 0, .any⟩
  | .CPR_WATCH_FIRE_LO => ⟨.CPR, 0x108, 16, 16, 31, 0, .ro, false, 0, .any⟩
  | .CPR_WATCH_FIRE_HI => ⟨.CPR, 0x10C, 16, 16, 31, 0, .ro, false, 0, .any⟩
  | .KIT_FREE => ⟨.KIT, 0x0, 0, 1, 13, 0, .ro, false, 8192, .any⟩
  | .KIT_READY => ⟨.KIT, 0x4, 0, 1, 13, 0, .ro, false, 0, .any⟩
  | .KIT_RESERVED => ⟨.KIT, 0x4, 0, 1, 29, 16, .ro, false, 0, .any⟩
  | .KIT_BURST => ⟨.KIT, 0x8, 0, 1, 8, 0, .rw, true, 16, (.range 1 256)⟩
  | .KIT_ENQ_CNT => ⟨.KIT, 0x10, 0, 1, 31, 0, .ro, false, 0, .any⟩
  | .KIT_FULL_CNT => ⟨.KIT, 0x14, 0, 1, 31, 0, .ro, false, 0, .any⟩
  | .KIT_APPLIED_CNT => ⟨.KIT, 0x18, 0, 1, 31, 0, .ro, false, 0, .any⟩
  | .KIT_BAD_CNT => ⟨.KIT, 0x1C, 0, 1, 31, 0, .ro, false, 0, .any⟩
  | .KIT_CFG_ERR => ⟨.KIT, 0xFC, 0, 1, 31, 0, .ro, false, 0, .any⟩
  | .PWR_TILE_STATE => ⟨.PWR, 0x0, 0, 1, 2, 0, .ro, false, 0, .any⟩
  | .PWR_WAKE_TOL_NS => ⟨.PWR, 0x4, 0, 1, 31, 0, .ro, false, 4000, .any⟩
  | .PWR_T3_EN => ⟨.PWR, 0x8, 0, 1, 0, 0, .rw, true, 1, .any⟩
  | .PWR_T4_EN => ⟨.PWR, 0x8, 0, 1, 1, 1, .rw, true, 0, .any⟩
  | .PWR_IDLE_MULT => ⟨.PWR, 0x8, 0, 1, 15, 8, .rw, true, 10, (.range 1 255)⟩
  | .PWR_LIMIT_W => ⟨.PWR, 0xC, 0, 1, 10, 0, .rw, true, 1100, (.range 200 1100)⟩
  | .PWR_THROTTLE_C => ⟨.PWR, 0x10, 0, 1, 6, 0, .rw, true, 105, (.range 85 110)⟩
  | .PWR_UV_ACTIVE => ⟨.PWR, 0x14, 0, 1, 0, 0, .ro, false, 0, .any⟩
  | .PWR_UV_COLLAPSE => ⟨.PWR, 0x14, 0, 1, 1, 1, .ro, false, 0, .any⟩
  | .PWR_TRIPPED => ⟨.PWR, 0x14, 0, 1, 2, 2, .ro, false, 0, .any⟩
  | .PWR_GOV_MHZ => ⟨.PWR, 0x18, 0, 1, 11, 0, .ro, false, 2000, .any⟩
  | .PWR_UV_CNT => ⟨.PWR, 0x20, 0, 1, 31, 0, .ro, false, 0, .any⟩
  | .PWR_GATE_FAULT_CNT => ⟨.PWR, 0x24, 0, 1, 31, 0, .ro, false, 0, .any⟩
  | .PWR_THROTTLE_CNT => ⟨.PWR, 0x28, 0, 1, 31, 0, .ro, false, 0, .any⟩
  | .PWR_WAKE_LATE_CNT => ⟨.PWR, 0x2C, 0, 1, 31, 0, .ro, false, 0, .any⟩
  | .PWR_BG_FORCED_CNT => ⟨.PWR, 0x30, 0, 1, 31, 0, .ro, false, 0, .any⟩
  | .PWR_RES_T_LO => ⟨.PWR, 0x40, 8, 5, 31, 0, .ro, false, 0, .any⟩
  | .PWR_RES_T_HI => ⟨.PWR, 0x44, 8, 5, 31, 0, .ro, false, 0, .any⟩
  | .PWR_CFG_ERR => ⟨.PWR, 0xFC, 0, 1, 31, 0, .ro, false, 0, .any⟩
  | .CRG_F_TARGET_MHZ => ⟨.CRG, 0x0, 0, 1, 11, 0, .rw, true, 2000, (.multiple 25 600 2000)⟩
  | .CRG_F_EFF_MHZ => ⟨.CRG, 0x4, 0, 1, 11, 0, .ro, false, 0, .any⟩
  | .CRG_F_LIMIT => ⟨.CRG, 0x4, 0, 1, 18, 16, .ro, false, 0, .any⟩
  | .CRG_V_SET => ⟨.CRG, 0x8, 0, 1, 9, 0, .ro, false, 0, .any⟩
  | .CRG_PRERAISE => ⟨.CRG, 0x8, 0, 1, 18, 16, .ro, false, 0, .any⟩
  | .CRG_GATE_STATE => ⟨.CRG, 0xC, 0, 1, 2, 0, .ro, false, 0, .any⟩
  | .CRG_NOTICE_PEND => ⟨.CRG, 0xC, 0, 1, 8, 8, .ro, false, 0, .any⟩
  | .CRG_GATE_OPEN => ⟨.CRG, 0xC, 0, 1, 9, 9, .ro, false, 0, .any⟩
  | .CRG_PHASE_GOOD => ⟨.CRG, 0x10, 0, 1, 7, 0, .ro, false, 255, .any⟩
  | .CRG_CAP_MA => ⟨.CRG, 0x14, 0, 1, 14, 0, .ro, false, 24000, .any⟩
  | .CRG_F_MAX_MHZ => ⟨.CRG, 0x18, 0, 1, 11, 0, .ro, false, 2000, .any⟩
  | .CRG_VFLOOR_V => ⟨.CRG, 0x20, 0, 1, 9, 0, .ro, false, 1023, .any⟩
  | .CRG_VFLOOR_TICK_LO => ⟨.CRG, 0x24, 0, 1, 31, 0, .ro, false, 0, .any⟩
  | .CRG_VFLOOR_TICK_HI => ⟨.CRG, 0x28, 0, 1, 31, 0, .ro, false, 0, .any⟩
  | .CRG_PHASE_RETIRE_SEL => ⟨.CRG, 0x30, 0, 1, 2, 0, .rw, true, 0, .any⟩
  | .CRG_PHASE_RETIRE_GO => ⟨.CRG, 0x30, 0, 1, 8, 8, .wo, false, 0, .any⟩
  | .CRG_VF => ⟨.CRG, 0x40, 4, 8, 9, 0, .ro, false, 0, .any⟩
  | .CRG_SHED_CNT => ⟨.CRG, 0x60, 0, 1, 31, 0, .ro, false, 0, .any⟩
  | .CRG_CLAMP_CNT => ⟨.CRG, 0x64, 0, 1, 31, 0, .ro, false, 0, .any⟩
  | .CRG_DROOP_CNT => ⟨.CRG, 0x68, 0, 1, 31, 0, .ro, false, 0, .any⟩
  | .CRG_NOTICE_CNT => ⟨.CRG, 0x6C, 0, 1, 31, 0, .ro, false, 0, .any⟩
  | .CRG_NOTICE_DROP_CNT => ⟨.CRG, 0x70, 0, 1, 31, 0, .ro, false, 0, .any⟩
  | .CRG_WAKE_CNT => ⟨.CRG, 0x74, 0, 1, 31, 0, .ro, false, 0, .any⟩
  | .CRG_CFG_ERR => ⟨.CRG, 0xFC, 0, 1, 31, 0, .ro, false, 0, .any⟩
  | .TLM_PERIOD_US => ⟨.TLM, 0x0, 0, 1, 9, 0, .rw, true, 100, (.range 10 1000)⟩
  | .TLM_SEQ => ⟨.TLM, 0x4, 0, 1, 31, 0, .ro, false, 0, .any⟩
  | .TLM_TIME_LO => ⟨.TLM, 0x8, 0, 1, 31, 0, .ro, false, 0, .any⟩
  | .TLM_TIME_HI => ⟨.TLM, 0xC, 0, 1, 31, 0, .ro, false, 0, .any⟩
  | .TLM_VIN_MV => ⟨.TLM, 0x10, 0, 1, 15, 0, .ro, false, 0, .any⟩
  | .TLM_VIN_MA => ⟨.TLM, 0x14, 0, 1, 31, 0, .ro, false, 0, .any⟩
  | .TLM_TILE_MW => ⟨.TLM, 0x18, 0, 1, 31, 0, .ro, false, 0, .any⟩
  | .TLM_TEMP_MAX_C => ⟨.TLM, 0x1C, 0, 1, 7, 0, .ro, false, 0, .any⟩
  | .TLM_TEMP_MAX_SENSOR => ⟨.TLM, 0x1C, 0, 1, 14, 8, .ro, false, 0, .any⟩
  | .TLM_CLU_V => ⟨.TLM, 0x100, 8, 64, 9, 0, .ro, false, 0, .any⟩
  | .TLM_CLU_F => ⟨.TLM, 0x100, 8, 64, 27, 16, .ro, false, 0, .any⟩
  | .TLM_CLU_MA => ⟨.TLM, 0x104, 8, 64, 15, 0, .ro, false, 0, .any⟩
  | .TLM_TEMP => ⟨.TLM, 0x300, 4, 80, 7, 0, .ro, false, 0, .any⟩
  | .TLM_CFG_ERR => ⟨.TLM, 0x4FC, 0, 1, 31, 0, .ro, false, 0, .any⟩
  | .MGC_SVC_STATUS => ⟨.MGC, 0x400, 0, 1, 11, 0, .ro, false, 0, .any⟩
  | .MGC_SVC_CLEAR => ⟨.MGC, 0x404, 0, 1, 0, 0, .wo, false, 0, .any⟩
  | .MGC_SVC_LIM => ⟨.MGC, 0x440, 4, 12, 15, 0, .rw, true, 0, .any⟩
  | .MGC_SVC_VAL => ⟨.MGC, 0x480, 4, 12, 31, 0, .ro, false, 0, .any⟩
  | .MGC_SRAM_CE_CNT => ⟨.MGC, 0x4C0, 0, 1, 31, 0, .ro, false, 0, .any⟩
  | .MGC_SRAM_UE_CNT => ⟨.MGC, 0x4C4, 0, 1, 31, 0, .ro, false, 0, .any⟩
  | .MGC_FATAL_CNT => ⟨.MGC, 0x4C8, 0, 1, 31, 0, .ro, false, 0, .any⟩
  | .MGC_FATAL_LAST => ⟨.MGC, 0x4CC, 0, 1, 15, 0, .ro, false, 0, .any⟩
  | .MGC_CLU_UE_LIMIT => ⟨.MGC, 0x4D0, 0, 1, 7, 0, .rw, true, 16, (.range 1 255)⟩
  | .MGC_CPL_DOWN_LIMIT => ⟨.MGC, 0x4D4, 0, 1, 7, 0, .rw, true, 4, (.range 1 255)⟩
  | .MGC_DRAIN_US => ⟨.MGC, 0x4D8, 0, 1, 19, 0, .rw, true, 10000, (.range 100 1000000)⟩
  | .MGC_RETIRE_KIND => ⟨.MGC, 0x4E0, 0, 1, 1, 0, .rw, false, 0, (.range 1 2)⟩
  | .MGC_RETIRE_UNIT => ⟨.MGC, 0x4E0, 0, 1, 13, 8, .rw, false, 0, .any⟩
  | .MGC_RETIRE_GO => ⟨.MGC, 0x4E4, 0, 1, 0, 0, .wo, false, 0, .any⟩
  | .MGC_RETIRE_BUSY => ⟨.MGC, 0x4E8, 0, 1, 0, 0, .ro, false, 0, .any⟩
  | .MGC_RETIRE_RESULT => ⟨.MGC, 0x4E8, 0, 1, 10, 8, .ro, false, 0, .any⟩
  | .MGC_LDG_SNAP => ⟨.MGC, 0x500, 0, 1, 0, 0, .wo, false, 0, .any⟩
  | .MGC_LDG_AUDIT => ⟨.MGC, 0x504, 0, 1, 0, 0, .wo, false, 0, .any⟩
  | .MGC_LDG_SNAP_TIME_LO => ⟨.MGC, 0x508, 0, 1, 31, 0, .ro, false, 0, .any⟩
  | .MGC_LDG_SNAP_TIME_HI => ⟨.MGC, 0x50C, 0, 1, 31, 0, .ro, false, 0, .any⟩
  | .MGC_LDG_ISSUED_LO => ⟨.MGC, 0x600, 32, 11, 31, 0, .ro, false, 0, .any⟩
  | .MGC_LDG_ISSUED_HI => ⟨.MGC, 0x604, 32, 11, 31, 0, .ro, false, 0, .any⟩
  | .MGC_LDG_RETURNED_LO => ⟨.MGC, 0x608, 32, 11, 31, 0, .ro, false, 0, .any⟩
  | .MGC_LDG_RETURNED_HI => ⟨.MGC, 0x60C, 32, 11, 31, 0, .ro, false, 0, .any⟩
  | .MGC_LDG_OUT => ⟨.MGC, 0x610, 32, 11, 31, 0, .ro, false, 0, .any⟩
  | .MGC_LDG_AUDITS => ⟨.MGC, 0x614, 32, 11, 31, 0, .ro, false, 0, .any⟩
  | .MGC_LDG_FAILS => ⟨.MGC, 0x618, 32, 11, 31, 0, .ro, false, 0, .any⟩
  | .MGC_LDG_LAST => ⟨.MGC, 0x61C, 32, 11, 23, 0, .ro, false, 0, .any⟩
  | .MGC_CFG_ERR => ⟨.MGC, 0x7FC, 0, 1, 31, 0, .ro, false, 0, .any⟩
  | .SEC_LC_STATE => ⟨.SEC, 0x0, 0, 1, 1, 0, .ro, false, 0, .any⟩
  | .SEC_LC_TOGGLES => ⟨.SEC, 0x0, 0, 1, 13, 8, .ro, false, 0, .any⟩
  | .SEC_LEVEL => ⟨.SEC, 0x4, 0, 1, 1, 0, .ro, false, 0, .any⟩
  | .SEC_LEVEL_FREE => ⟨.SEC, 0x4, 0, 1, 5, 4, .ro, false, 0, .any⟩
  | .SEC_LEVEL_OWNER => ⟨.SEC, 0x4, 0, 1, 9, 8, .ro, false, 0, .any⟩
  | .SEC_LEVEL_VENDOR => ⟨.SEC, 0x4, 0, 1, 13, 12, .ro, false, 0, .any⟩
  | .SEC_OWNER_REMAIN_S => ⟨.SEC, 0x8, 0, 1, 31, 0, .ro, false, 0, .any⟩
  | .SEC_VENDOR_REMAIN_S => ⟨.SEC, 0xC, 0, 1, 31, 0, .ro, false, 0, .any⟩
  | .SEC_OWNER_SLOT => ⟨.SEC, 0x10, 0, 1, 2, 0, .ro, false, 0, .any⟩
  | .SEC_SVN => ⟨.SEC, 0x14, 0, 1, 6, 0, .ro, false, 0, .any⟩
  | .SEC_TOKEN_FAIL_CNT => ⟨.SEC, 0x18, 0, 1, 31, 0, .ro, false, 0, .any⟩
  | .SEC_TOKEN_LOCK => ⟨.SEC, 0x1C, 0, 1, 0, 0, .ro, false, 0, .any⟩
  | .SEC_MBX_CMD => ⟨.SEC, 0x20, 0, 1, 3, 0, .wo, false, 0, .any⟩
  | .SEC_MBX_RESULT => ⟨.SEC, 0x24, 0, 1, 3, 0, .ro, false, 0, .any⟩
  | .SEC_MBX_BUSY => ⟨.SEC, 0x24, 0, 1, 4, 4, .ro, false, 0, .any⟩
  | .SEC_MBX_LEN => ⟨.SEC, 0x28, 0, 1, 10, 0, .rw, false, 0, (.range 0 1024)⟩
  | .SEC_SEAL_LIST_BASE_LO => ⟨.SEC, 0x100, 0, 1, 31, 12, .rw, true, 0, .any⟩
  | .SEC_SEAL_LIST_BASE_HI => ⟨.SEC, 0x104, 0, 1, 15, 0, .rw, true, 0, .any⟩
  | .SEC_SEAL_FAIL_CNT => ⟨.SEC, 0x108, 0, 1, 31, 0, .ro, false, 0, .any⟩
  | .SEC_CFG_ERR => ⟨.SEC, 0xFC, 0, 1, 31, 0, .ro, false, 0, .any⟩
  | .MGC_FW_VERSION => ⟨.MGC, 0x0, 0, 1, 31, 0, .ro, false, 0, .any⟩
  | .MGC_FW_SLOT => ⟨.MGC, 0x4, 0, 1, 0, 0, .ro, false, 0, .any⟩
  | .MGC_FW_TRIAL => ⟨.MGC, 0x4, 0, 1, 1, 1, .ro, false, 0, .any⟩
  | .MGC_RESTARTING => ⟨.MGC, 0x4, 0, 1, 2, 2, .ro, false, 0, .any⟩
  | .MGC_BOOT_CNT => ⟨.MGC, 0x8, 0, 1, 31, 0, .ro, false, 0, .any⟩
  | .PIN_STRAP_ADDR => ⟨.PIN, 0x0, 0, 1, 1, 0, .ro, false, 0, .any⟩
  | .PIN_STRAP_HOST_EN => ⟨.PIN, 0x0, 0, 1, 2, 2, .ro, false, 0, .any⟩
  | .PIN_STRAP_PERST_CTX => ⟨.PIN, 0x0, 0, 1, 3, 3, .ro, false, 0, .any⟩
  | .PIN_PERST_POLICY => ⟨.PIN, 0x4, 0, 1, 0, 0, .rw, true, 0, .any⟩
  | .PIN_RESET_CMD => ⟨.PIN, 0x8, 0, 1, 1, 0, .wo, false, 0, .any⟩
  | .PIN_RESET_CAUSE => ⟨.PIN, 0xC, 0, 1, 3, 0, .ro, false, 0, .any⟩
  | .PIN_FUNC => ⟨.PIN, 0x10, 4, 16, 2, 0, .rw, true, 0, .any⟩
  | .PIN_OUT => ⟨.PIN, 0x50, 0, 1, 15, 0, .rw, true, 0, .any⟩
  | .PIN_IN => ⟨.PIN, 0x54, 0, 1, 15, 0, .ro, false, 0, .any⟩
  | .PIN_SETTLE => ⟨.PIN, 0x58, 0, 1, 7, 0, .rw, true, 8, (.range 1 255)⟩
  | .PIN_UART_BAUD => ⟨.PIN, 0x5C, 0, 1, 1, 0, .rw, true, 0, (.range 0 2)⟩
  | .PIN_PMB_FAST => ⟨.PIN, 0x5C, 0, 1, 8, 8, .rw, true, 0, .any⟩
  | .PIN_TICK_LOG2 => ⟨.PIN, 0x5C, 0, 1, 20, 16, .rw, true, 20, (.range 1 24)⟩
  | .PIN_I2C_PEC_ERR_CNT => ⟨.PIN, 0x60, 0, 1, 31, 0, .ro, false, 0, .any⟩
  | .PIN_I2C_CMD_CNT => ⟨.PIN, 0x64, 0, 1, 31, 0, .ro, false, 0, .any⟩
  | .PIN_CFG_ERR => ⟨.PIN, 0xFC, 0, 1, 31, 0, .ro, false, 0, .any⟩
  | .CDC_STAGE => ⟨.CDC, 0x1000, 4, 64, 31, 0, .rw, false, 0, .any⟩
  | .SEC_MBX => ⟨.SEC, 0x1000, 4, 256, 31, 0, .rw, false, 0, .any⟩
  | .SEC_ID_PUBKEY => ⟨.SEC, 0x40, 4, 25, 31, 0, .ro, false, 0, .any⟩
  | .CDC_SLOT_IMG => ⟨.CDC, 0x10000, 4, 16384, 31, 0, .ro, false, 0, .any⟩
  | .COR_SLOT_STATE => ⟨.COR, 0x0, 0, 16, 3, 0, .ro, false, 0, .any⟩
  | .MGC_TILE_ID => ⟨.MGC, 0x10, 0, 1, 15, 0, .rw, true, 0, .any⟩
  | .MGC_TILE_ID_VALID => ⟨.MGC, 0x10, 0, 1, 31, 31, .rw, true, 0, .any⟩
  | .BANK_PLL_LOCK => ⟨.BANK, 0x0, 0, 1, 0, 0, .ro, false, 1, .any⟩
  | .BANK_BG_FORCED_CNT => ⟨.BANK, 0x4, 0, 1, 31, 0, .ro, false, 0, .any⟩
  | .BANK_CFG_ERR => ⟨.BANK, 0xFC, 0, 1, 31, 0, .ro, false, 0, .any⟩

/-- The fields of a block, in the order of its table. -/
def Block.fields : Block → List Field
  | .DECK => [
     .DECK_GEN_LO, .DECK_GEN_HI, .DECK_READY, .DECK_UPDATING, .DECK_CHG_EVT_EN, .DECK_CFG_ERR]
  | .TIK => [
     .TIK_TIME_LO, .TIK_TIME_HI, .TIK_ROOT, .TIK_ALIGN_EN, .TIK_JNL_EN, .TIK_REPLAY, .TIK_JOINED,
     .TIK_IS_ROOT, .TIK_HOLDOVER, .TIK_ROOT_CONFLICT, .TIK_DEPTH, .TIK_PARENT, .TIK_OFFSET,
     .TIK_STEP_CNT, .TIK_ROOT_VALID, .TIK_ROOT_ID, .TIK_JNL_BASE_LO, .TIK_JNL_BASE_HI, .TIK_JNL_LOG2,
     .TIK_JNL_PTR, .TIK_JNL_WRAPS, .TIK_RPL_PTR, .TIK_RPL_END, .TIK_MOOT_CNT, .TIK_CFG_ERR]
  | .COR => [
     .COR_VREG_FREE, .COR_OSB_FREE, .COR_ACC_FREE, .COR_SLOTS_FREE, .COR_ROT_PTR, .COR_ISSUE_CNT_LO,
     .COR_ISSUE_CNT_HI, .COR_DUAL_CNT_LO, .COR_DUAL_CNT_HI, .COR_IDLE_CNT_LO, .COR_IDLE_CNT_HI,
     .COR_DUAL_EN, .COR_CNT_CLR, .COR_CFG_ERR, .COR_SLOT_STATE]
  | .CTX => [
     .CTX_FP_ILLEGAL, .CTX_FP_MISALIGN, .CTX_FP_UNPOP, .CTX_FP_MATRIX, .CTX_FP_TRAP, .CTX_FP_POISON,
     .CTX_POISON_TRAP_EN, .CTX_STATE, .CTX_CREATE, .CTX_RESET, .CTX_RESULT, .CTX_OWNER_LO,
     .CTX_OWNER_HI, .CTX_EPOCH, .CTX_RING_BASE_LO, .CTX_RING_BASE_HI, .CTX_RING_LOG2, .CTX_DB_ADDR_LO,
     .CTX_DB_ADDR_HI, .CTX_DB_POLL_NS, .CTX_HEADWB_EN, .CTX_HEADWB_ADDR_LO, .CTX_HEADWB_ADDR_HI,
     .CTX_EVT_BASE_LO, .CTX_EVT_BASE_HI, .CTX_EVT_LOG2, .CTX_EVT_ACK_ADDR_LO, .CTX_EVT_ACK_ADDR_HI,
     .CTX_EVT_MSI_EN, .CTX_EVT_MSI_VEC, .CTX_EVT_HOLDOFF_US, .CTX_FENCE_BASE_LO, .CTX_FENCE_BASE_HI,
     .CTX_FENCE_KEEP, .CTX_RING_HEAD, .CTX_RING_TAIL, .CTX_EVT_TAIL, .CTX_EVT_ACK, .CTX_EVT_LOST_CNT,
     .CTX_DB_STALE_CNT, .CTX_DB_BAD_CNT, .CTX_DESC_ERR_CNT, .CTX_EFF_POLL_NS, .CTX_DB_ERR_CNT,
     .CTX_CFG_ERR]
  | .DBG => [
     .DBG_CORE, .DBG_SLOT, .DBG_SCOPE, .DBG_TASK_LO, .DBG_TASK_HI, .DBG_CMD, .DBG_RESULT, .DBG_PENDING,
     .DBG_SLOT_STATE, .DBG_LEVEL, .DBG_SPACE, .DBG_THREAD, .DBG_INDEX, .DBG_ACC_DATA_LO,
     .DBG_ACC_DATA_HI, .DBG_EVT_EN, .DBG_BP_ADDR_LO, .DBG_BP_EN, .DBG_BP_ADDR_HI, .DBG_BP_MASK,
     .DBG_WP_BASE_LO, .DBG_WP_BASE_HI, .DBG_WP_LOG2LEN, .DBG_WP_KIND, .DBG_WP_MASK, .DBG_CFG_ERR]
  | .BRK => [
     .BRK_BRAKED, .BRK_RO_AUTH, .BRK_TIME_LO, .BRK_TIME_HI, .BRK_SOURCES, .BRK_RX_COUPLER,
     .BRK_FATAL_EN, .BRK_MSI_EN, .BRK_MSI_VEC, .BRK_FWD_EN, .BRK_RX_EN, .BRK_RO_MEM, .BRK_RO_START,
     .BRK_RO_POS_LO, .BRK_RO_POS_HI, .BRK_RO_LEN_LO, .BRK_RO_LEN_HI, .BRK_CFG_ERR]
  | .TILE => [
     .TILE_WIN_VALID, .TILE_WIN_TYPE, .TILE_WIN_PREFETCH, .TILE_WIN_CMODE, .TILE_WIN_CSEL,
     .TILE_WIN_TILE_FIRST, .TILE_WIN_TILE_LAST, .TILE_WIN_BASE_LO, .TILE_WIN_BASE_HI,
     .TILE_WIN_LIMIT_LO, .TILE_WIN_LIMIT_HI, .TILE_WIN_COMMIT, .TILE_WIN_BUSY, .TILE_WIN_COMMITS,
     .TILE_UNPOP_REMOTE_CNT, .TILE_HOST_ATOM_CNT, .TILE_CFG_ERR]
  | .CLU => [
     .CLU_WIN_HOLD, .CLU_TAGS_FREE, .CLU_TAGS_QUAR, .CLU_REQ_TIMEOUT_US, .CLU_TIMEOUT_CNT,
     .CLU_LATE_RSP_CNT, .CLU_PF_ISSUED_CNT, .CLU_PF_SKIP_CNT, .CLU_SNP_HELD_CNT, .CLU_DEAD_DROP_CNT,
     .CLU_CFG_ERR]
  | .MEM => [
     .MEM_SNP_DEADLINE_US, .MEM_DIR_USED, .MEM_BACKINV_CNT, .MEM_COARSE_CNT, .MEM_LOST_LINES_CNT,
     .MEM_INBOUND_FREE, .MEM_NOTHELD_CNT, .MEM_STALE_WB_CNT, .MEM_RECLAIM_BUSY, .MEM_DEAD_AGENT,
     .MEM_DEAD_ALL, .MEM_DEAD_DECLARE, .MEM_DEAD_COUNT, .MEM_INIT_DONE, .MEM_RATE_FALLBACK,
     .MEM_SCRUB_HOURS, .MEM_SCRUB_EN, .MEM_CAL_RETIRE_EN, .MEM_SCRUB_PASSES, .MEM_CE_CNT, .MEM_UE_CNT,
     .MEM_PARTIAL_FIX_CNT, .MEM_PARTIAL_POISON_CNT, .MEM_POISON_CLR_CNT, .MEM_RETIRED_ACC_CNT,
     .MEM_ROW_SPARED_CNT, .MEM_SPARE_FAIL_CNT, .MEM_ROW_CE_LIMIT, .MEM_CH_UE_LIMIT, .MEM_CH_RETIRE_MASK,
     .MEM_CH_RETIRE_SEL, .MEM_CH_RETIRE_GO, .MEM_CH_RETIRE_BUSY, .MEM_CAL_ADJ_CNT, .MEM_CAL_FAIL_CNT,
     .MEM_STACK_TEMP, .MEM_REFRESH_FAST, .MEM_AGE_CNT, .MEM_BG_FORCED_CNT, .MEM_CH_CE_CNT,
     .MEM_CH_UE_CNT, .MEM_CFG_ERR]
  | .CDC => [
     .CDC_SLOT_SEL, .CDC_SLOT_OP, .CDC_SLOT_RESULT, .CDC_LMAP_BASE_LO, .CDC_LMAP_BASE_HI, .CDC_LMAP_EN,
     .CDC_EXPAND_CNT, .CDC_DEC_ERR_CNT, .CDC_RAW_FALLBACK_CNT, .CDC_PACKED_CNT, .CDC_ASM_PARTIAL_CNT,
     .CDC_NOMAP_CNT, .CDC_LMAP_LOSS_CNT, .CDC_HOLD_REFUSE_CNT, .CDC_CFG_ERR, .CDC_SLOT_STATE, .CDC_HOLD,
     .CDC_HIST_LO, .CDC_HIST_HI, .CDC_STAGE, .CDC_SLOT_IMG]
  | .BANK => [
     .BANK_PLL_LOCK, .BANK_BG_FORCED_CNT, .BANK_CFG_ERR]
  | .CPL => [
     .CPL_ENABLE, .CPL_RETRAIN, .CPL_RESTART, .CPL_SEAL_EN, .CPL_MAX_WIDTH, .CPL_RXADAPT_EN,
     .CPL_TXEQ_EN, .CPL_LINK_STATE, .CPL_WIDTH, .CPL_LONG, .CPL_LP, .CPL_LOCK, .CPL_DOWN_CAUSE,
     .CPL_LANES_GOOD, .CPL_LANES_RETIRED, .CPL_NEIGH, .CPL_PATH_DELAY, .CPL_TRAIN_FAIL_CNT,
     .CPL_RETRAIN_CNT, .CPL_FEC_CORR_LO, .CPL_FEC_CORR_HI, .CPL_FEC_UNCORR_CNT, .CPL_LOCK_LOSS_CNT,
     .CPL_EQ_UPD_CNT, .CPL_EQ_NAK_CNT, .CPL_LANE_SYM_ERR, .CPL_TRAIN_RETRIES, .CPL_LANE_RETIRE_LIMIT,
     .CPL_LANE_SER_LIMIT, .CPL_EQ_LEAD, .CPL_TXEQ, .CPL_LANE_RETIRE_SEL, .CPL_LANE_RETIRE_GO,
     .CPL_CFG_ERR, .CPL_DATELINE, .CPL_REPLAY_TO_NS, .CPL_TX_SEQ, .CPL_RX_SEQ, .CPL_REPLAY_CNT,
     .CPL_CRC_ERR_CNT, .CPL_REPLAY_FAIL_RUN, .CPL_DROP_PKT_CNT, .CPL_CREDIT_AVAIL, .CPL_RXBUF,
     .CPL_TAGS_FREE, .CPL_AUDIT_ERR_CNT, .CPL_CAPS]
  | .RTE => [
     .RTE_ACTIVE, .RTE_DRAINING, .RTE_ARMED, .RTE_LOADED, .RTE_FILL, .RTE_FILL_BUSY, .RTE_HOP_LIMIT,
     .RTE_SW_LEAD, .RTE_SW_GO, .RTE_SW_TICK_LO, .RTE_SW_TICK_HI, .RTE_SW_SEQ, .RTE_DRAIN_US,
     .RTE_NOROUTE_CNT, .RTE_HOP_DROP_CNT, .RTE_OLD_DROP_CNT, .RTE_SW_LATE_CNT, .RTE_SW_REFUSED_CNT,
     .RTE_MCAST_COPIES_CNT, .RTE_CFG_ERR]
  | .FEN => [
     .FEN_OOO_CNT, .FEN_SAT_CNT, .FEN_ERR_CNT, .FEN_INIT_SEL, .FEN_INIT_VALUE_LO, .FEN_INIT_VALUE_HI,
     .FEN_INIT_GO, .FEN_CFG_ERR, .FEN_MIR_EN, .FEN_MIR_MSI, .FEN_MIR_VEC, .FEN_MIR_FENCE,
     .FEN_MIR_ADDR_LO, .FEN_MIR_ADDR_HI]
  | .HIF => [
     .HIF_IDS_VENDOR, .HIF_IDS_DEVICE, .HIF_BAR2_BASE_LO, .HIF_BAR2_BASE_HI, .HIF_BAR2_TILE,
     .HIF_CPL_TO_US, .HIF_HOST_REQ_OUT, .HIF_CPL_TO_CNT, .HIF_BAR2_ERR_CNT, .HIF_EP_RX_CNT, .HIF_CFG_ERR]
  | .CPR => [
     .CPR_STATE, .CPR_DEPTH, .CPR_LOOPS, .CPR_CMD_ADDR_LO, .CPR_CMD_ADDR_HI, .CPR_NEXT_TASK_LO,
     .CPR_NEXT_TASK_HI, .CPR_TASKS_ACTIVE, .CPR_TAGS_FREE, .CPR_REQ_TIMEOUT_US, .CPR_TASK_EVT_ERR,
     .CPR_CMD_CNT, .CPR_CMD_ERR_CNT, .CPR_EXCH_CNT, .CPR_WAIT_TO_CNT, .CPR_TASK_CNT, .CPR_TASK_ERR_CNT,
     .CPR_CFG_ERR, .CPR_WATCH_STATE, .CPR_WATCH_FIRE_LO, .CPR_WATCH_FIRE_HI]
  | .KIT => [
     .KIT_FREE, .KIT_READY, .KIT_RESERVED, .KIT_BURST, .KIT_ENQ_CNT, .KIT_FULL_CNT, .KIT_APPLIED_CNT,
     .KIT_BAD_CNT, .KIT_CFG_ERR]
  | .PWR => [
     .PWR_TILE_STATE, .PWR_WAKE_TOL_NS, .PWR_T3_EN, .PWR_T4_EN, .PWR_IDLE_MULT, .PWR_LIMIT_W,
     .PWR_THROTTLE_C, .PWR_UV_ACTIVE, .PWR_UV_COLLAPSE, .PWR_TRIPPED, .PWR_GOV_MHZ, .PWR_UV_CNT,
     .PWR_GATE_FAULT_CNT, .PWR_THROTTLE_CNT, .PWR_WAKE_LATE_CNT, .PWR_BG_FORCED_CNT, .PWR_RES_T_LO,
     .PWR_RES_T_HI, .PWR_CFG_ERR]
  | .CRG => [
     .CRG_F_TARGET_MHZ, .CRG_F_EFF_MHZ, .CRG_F_LIMIT, .CRG_V_SET, .CRG_PRERAISE, .CRG_GATE_STATE,
     .CRG_NOTICE_PEND, .CRG_GATE_OPEN, .CRG_PHASE_GOOD, .CRG_CAP_MA, .CRG_F_MAX_MHZ, .CRG_VFLOOR_V,
     .CRG_VFLOOR_TICK_LO, .CRG_VFLOOR_TICK_HI, .CRG_PHASE_RETIRE_SEL, .CRG_PHASE_RETIRE_GO, .CRG_VF,
     .CRG_SHED_CNT, .CRG_CLAMP_CNT, .CRG_DROOP_CNT, .CRG_NOTICE_CNT, .CRG_NOTICE_DROP_CNT,
     .CRG_WAKE_CNT, .CRG_CFG_ERR]
  | .TLM => [
     .TLM_PERIOD_US, .TLM_SEQ, .TLM_TIME_LO, .TLM_TIME_HI, .TLM_VIN_MV, .TLM_VIN_MA, .TLM_TILE_MW,
     .TLM_TEMP_MAX_C, .TLM_TEMP_MAX_SENSOR, .TLM_CLU_V, .TLM_CLU_F, .TLM_CLU_MA, .TLM_TEMP, .TLM_CFG_ERR]
  | .MGC => [
     .MGC_SVC_STATUS, .MGC_SVC_CLEAR, .MGC_SVC_LIM, .MGC_SVC_VAL, .MGC_SRAM_CE_CNT, .MGC_SRAM_UE_CNT,
     .MGC_FATAL_CNT, .MGC_FATAL_LAST, .MGC_CLU_UE_LIMIT, .MGC_CPL_DOWN_LIMIT, .MGC_DRAIN_US,
     .MGC_RETIRE_KIND, .MGC_RETIRE_UNIT, .MGC_RETIRE_GO, .MGC_RETIRE_BUSY, .MGC_RETIRE_RESULT,
     .MGC_LDG_SNAP, .MGC_LDG_AUDIT, .MGC_LDG_SNAP_TIME_LO, .MGC_LDG_SNAP_TIME_HI, .MGC_LDG_ISSUED_LO,
     .MGC_LDG_ISSUED_HI, .MGC_LDG_RETURNED_LO, .MGC_LDG_RETURNED_HI, .MGC_LDG_OUT, .MGC_LDG_AUDITS,
     .MGC_LDG_FAILS, .MGC_LDG_LAST, .MGC_CFG_ERR, .MGC_FW_VERSION, .MGC_FW_SLOT, .MGC_FW_TRIAL,
     .MGC_RESTARTING, .MGC_BOOT_CNT, .MGC_TILE_ID, .MGC_TILE_ID_VALID]
  | .SEC => [
     .SEC_LC_STATE, .SEC_LC_TOGGLES, .SEC_LEVEL, .SEC_LEVEL_FREE, .SEC_LEVEL_OWNER, .SEC_LEVEL_VENDOR,
     .SEC_OWNER_REMAIN_S, .SEC_VENDOR_REMAIN_S, .SEC_OWNER_SLOT, .SEC_SVN, .SEC_TOKEN_FAIL_CNT,
     .SEC_TOKEN_LOCK, .SEC_MBX_CMD, .SEC_MBX_RESULT, .SEC_MBX_BUSY, .SEC_MBX_LEN,
     .SEC_SEAL_LIST_BASE_LO, .SEC_SEAL_LIST_BASE_HI, .SEC_SEAL_FAIL_CNT, .SEC_CFG_ERR, .SEC_MBX,
     .SEC_ID_PUBKEY]
  | .PIN => [
     .PIN_STRAP_ADDR, .PIN_STRAP_HOST_EN, .PIN_STRAP_PERST_CTX, .PIN_PERST_POLICY, .PIN_RESET_CMD,
     .PIN_RESET_CAUSE, .PIN_FUNC, .PIN_OUT, .PIN_IN, .PIN_SETTLE, .PIN_UART_BAUD, .PIN_PMB_FAST,
     .PIN_TICK_LOG2, .PIN_I2C_PEC_ERR_CNT, .PIN_I2C_CMD_CNT, .PIN_CFG_ERR]

/-- How many instances of a block the tile has (R76). -/
def Block.instances : Block → Nat
  | .COR => 256
  | .CLU => 64
  | .CPL => 64
  | .CRG => 64
  | .MEM => 8
  | .BANK => 8
  | .DECK => 1
  | .TIK => 1
  | .CTX => 1
  | .DBG => 1
  | .BRK => 1
  | .TILE => 1
  | .CDC => 1
  | .RTE => 1
  | .FEN => 1
  | .HIF => 1
  | .CPR => 1
  | .KIT => 1
  | .PWR => 1
  | .TLM => 1
  | .MGC => 1
  | .SEC => 1
  | .PIN => 1

/-- The configuration-error counter of a block (R25). -/
def Block.cfgErr : Block → Field
  | .DECK => .DECK_CFG_ERR
  | .TIK => .TIK_CFG_ERR
  | .COR => .COR_CFG_ERR
  | .CTX => .CTX_CFG_ERR
  | .DBG => .DBG_CFG_ERR
  | .BRK => .BRK_CFG_ERR
  | .TILE => .TILE_CFG_ERR
  | .CLU => .CLU_CFG_ERR
  | .MEM => .MEM_CFG_ERR
  | .CDC => .CDC_CFG_ERR
  | .BANK => .BANK_CFG_ERR
  | .CPL => .CPL_CFG_ERR
  | .RTE => .RTE_CFG_ERR
  | .FEN => .FEN_CFG_ERR
  | .HIF => .HIF_CFG_ERR
  | .CPR => .CPR_CFG_ERR
  | .KIT => .KIT_CFG_ERR
  | .PWR => .PWR_CFG_ERR
  | .CRG => .CRG_CFG_ERR
  | .TLM => .TLM_CFG_ERR
  | .MGC => .MGC_CFG_ERR
  | .SEC => .SEC_CFG_ERR
  | .PIN => .PIN_CFG_ERR

/-- What an offset of BAR0 reaches (R528): the Deck area, an offset that no Deck entry covers, or a register block.  The spec
leaves the base of each block to the Deck (R22), so a block is named with the offset in it. -/
inductive Bar0 where
  | deck (off : Nat)
  | hole (off : Nat)
  | block (b : Block) (inst off : Nat)
deriving DecidableEq, Repr

end Sys2Proof.Machine
end

