-- ==== Sys2Proof/Syntax.lean ====
section
/-!
DEFINITION. The commands of the tile: one constructor for each row of the opcode table of the spec.
The table gives no operands; each constructor carries what the spec lets the command name, and what comes from
outside the tile with it (a packet, a reading, the answer of a host or of a remote tile).
-/
namespace Sys2Proof

/-- A command of the tile (one row of the opcode table each). -/
inductive Instr where
  /-- REGISTER_WRITE (R26): A write to a register field that has no step of its own sets the field per its access code, or sets a class S shadow. -/
  | registerWrite (at' : Machine.Bar0) (bytes : List (Option Byte))
  /-- SHADOW_COMMIT (R676): At the first tick after a class S write reaches its domain, every pending shadow of the block commits as a class 9 event, or is voided if made moot. -/
  | shadowCommit (b : Machine.Block) (inst : Nat)
  /-- DECK_UPDATE (R81): The MGC sets UPDATING, writes the changed fields, increments GENERATION, recomputes CRC32 and clears UPDATING. -/
  | deckUpdate (finish : Bool)
  /-- DECK_READY (R726): Once every usable cluster is ready, every controller shows MEM_INIT_DONE and the Deck is built, the Deck becomes ready with GENERATION 1. -/
  | deckReady
  /-- TIME_ANN_SEND (R105): Every 65,536 ticks each coupler in TIME or ACTIVE of a tile with a root announces the root ID and depth. -/
  | timeAnnSend (n : Fin 64)
  /-- TIME_ANN (R105): A received announcement may make the tile choose or change its parent coupler and depth. -/
  | timeAnn (n : Fin 64)
  /-- TIME_MEASURE (R108): Every 65,536 ticks the tile starts a delay and offset measurement on its parent coupler by sending TIME_REQ. -/
  | timeMeasure (frac : Fin 256)
  /-- TIME_REQ (R506): A received TIME_REQ is timestamped and answered with a TIME_RSP carrying t1, t2 and t3. -/
  | timeReq (n : Fin 64) (t2 : Fin 256) (t3 : Fin 256)
  /-- TIME_RSP (R108): A received TIME_RSP completes the four-timestamp exchange, giving the path delay and offset. -/
  | timeRsp (n : Fin 64) (t4 : Fin 256)
  /-- TIME_STEP (R110): At the next tick boundary after an offset of one tick or more, fabric time steps by the offset, relative waits are moved, and a time-step event is posted. -/
  | timeStep
  /-- REPLAY_START (R124): The commit of TIK_REPLAY fixes the replay range from the journal and suspends live doorbell and class 10 events. -/
  | replayStart
  /-- REPLAY_APPLY (R124): A journal record is replayed as its own class and source at the first eligible tick once the CP has reached it, and its replayed flag is set. -/
  | replayApply (rec : Option (List Byte))
  /-- REPLAY_END (R124): When the replay range is exhausted, TIK_REPLAY clears at the next tick and live events resume. -/
  | replayEnd
  /-- HAND_PLACE (R591): The dispatcher places the next hand of the oldest task on the first candidate cluster and core that can take it. -/
  | handPlace
  /-- HAND_RELEASE (R132): In the cluster cycle after halt completes, or after a removed hand's last instruction completes, the hand's slot, blocks and pages are released. -/
  | handRelease (x : HandId)
  /-- STORAGE_ZEROED (R133): A released register block or OSB/ACC page becomes free once the core has zeroed it. -/
  | storageZeroed (core : Fin 256) (what : Store) (n : Nat)
  /-- BRANCH_WAIT_END (R140): A hand waiting 4 cluster cycles after a taken branch becomes ready to issue. -/
  | branchWaitEnd (x : HandId)
  /-- YIELD_END (R186): A hand that yielded becomes ready after 16 cluster cycles. -/
  | yieldEnd (x : HandId)
  /-- SLEEP_END (R190): A sleeping hand resumes when the core receives tick T + n. -/
  | sleepEnd (x : HandId)
  /-- INSTRUCTION_FETCH (R189): A fetch of instruction words fills the instruction cache or raises UNPOP, and poisoned words are delivered as zero. -/
  | instructionFetch (x : HandId)
  /-- MOV (R172): Vector mov copies a to d per enabled thread. -/
  | mov (h : Issue) (i : Insn)
  /-- ADD (R172): Vector add computes a + b per enabled thread, saturating or rounding per FUN. -/
  | add (h : Issue) (i : Insn)
  /-- SUB (R172): Vector sub computes a − b per enabled thread. -/
  | sub (h : Issue) (i : Insn)
  /-- MUL (R172): Vector mul computes a × b per enabled thread. -/
  | mul (h : Issue) (i : Insn)
  /-- MULHI (R172): Vector mulhi gives the high 32 bits of a × b. -/
  | mulhi (h : Issue) (i : Insn)
  /-- FMA (R172): Vector fma computes a × b + c with one rounding for floats. -/
  | fma (h : Issue) (i : Insn)
  /-- MIN (R178): Vector min gives the lesser of a and b, following minimumNumber for floats. -/
  | min (h : Issue) (i : Insn)
  /-- MAX (R178): Vector max gives the greater of a and b, following maximumNumber for floats. -/
  | max (h : Issue) (i : Insn)
  /-- ABS (R177): Vector abs gives |a|, changing only the sign bit for floats. -/
  | abs (h : Issue) (i : Insn)
  /-- NEG (R177): Vector neg gives −a, changing only the sign bit for floats. -/
  | neg (h : Issue) (i : Insn)
  /-- AND (R172): Vector and computes a bitwise AND. -/
  | and (h : Issue) (i : Insn)
  /-- OR (R172): Vector or computes a bitwise OR. -/
  | or (h : Issue) (i : Insn)
  /-- XOR (R172): Vector xor computes a bitwise XOR. -/
  | xor (h : Issue) (i : Insn)
  /-- NOT (R172): Vector not gives the bitwise complement of a. -/
  | not (h : Issue) (i : Insn)
  /-- SHL (R174): Vector shl shifts a left by b. -/
  | shl (h : Issue) (i : Insn)
  /-- SHR (R174): Vector shr shifts a right, logical or arithmetic by type. -/
  | shr (h : Issue) (i : Insn)
  /-- ROT (R172): Vector rot rotates a left by b mod width. -/
  | rot (h : Issue) (i : Insn)
  /-- POPC (R174): Vector popc counts the ones in a. -/
  | popc (h : Issue) (i : Insn)
  /-- CLZ (R174): Vector clz counts the leading zeros of a. -/
  | clz (h : Issue) (i : Insn)
  /-- BFE (R174): Vector bfe extracts a bit field of a. -/
  | bfe (h : Issue) (i : Insn)
  /-- BFI (R174): Vector bfi inserts a's low bits into c. -/
  | bfi (h : Issue) (i : Insn)
  /-- SEL (R172): Vector sel chooses a or b by the predicate named in FUN. -/
  | sel (h : Issue) (i : Insn)
  /-- CVT (R180): Vector cvt converts source A between integer and float types under the rounding, SAT and HI fields. -/
  | cvt (h : Issue) (i : Insn)
  /-- DIV (R175): Vector div computes a ÷ b, with the integer divide-by-zero result and flag. -/
  | div (h : Issue) (i : Insn)
  /-- REM (R175): Vector rem computes the remainder of a ÷ b. -/
  | rem (h : Issue) (i : Insn)
  /-- SQRT (R179): Vector sqrt computes √a, correctly rounded. -/
  | sqrt (h : Issue) (i : Insn)
  /-- RCP (R179): Vector rcp computes 1/a within 1 ulp. -/
  | rcp (h : Issue) (i : Insn)
  /-- RSQRT (R179): Vector rsqrt computes 1/√a within 1 ulp. -/
  | rsqrt (h : Issue) (i : Insn)
  /-- EXP2 (R179): Vector exp2 computes 2^a within 2 ulp. -/
  | exp2 (h : Issue) (i : Insn)
  /-- LOG2 (R179): Vector log2 computes log2 a within 2 ulp. -/
  | log2 (h : Issue) (i : Insn)
  /-- SIN (R179): Vector sin computes sin(2πa). -/
  | sin (h : Issue) (i : Insn)
  /-- COS (R179): Vector cos computes cos(2πa). -/
  | cos (h : Issue) (i : Insn)
  /-- LANE (R172): Vector lane writes each thread's index. -/
  | lane (h : Issue) (i : Insn)
  /-- UMOV (R181): Uniform move of a into u[DST]. -/
  | umov (h : Issue) (i : Insn)
  /-- UADD (R181): Uniform add, optionally saturating. -/
  | uadd (h : Issue) (i : Insn)
  /-- USUB (R181): Uniform subtract, optionally saturating. -/
  | usub (h : Issue) (i : Insn)
  /-- UMUL (R181): Uniform multiply, low bits. -/
  | umul (h : Issue) (i : Insn)
  /-- UMULHI (R181): Uniform multiply, high bits. -/
  | umulhi (h : Issue) (i : Insn)
  /-- UMIN (R181): Uniform minimum. -/
  | umin (h : Issue) (i : Insn)
  /-- UMAX (R181): Uniform maximum. -/
  | umax (h : Issue) (i : Insn)
  /-- UAND (R181): Uniform bitwise AND. -/
  | uand (h : Issue) (i : Insn)
  /-- UOR (R181): Uniform bitwise OR. -/
  | uor (h : Issue) (i : Insn)
  /-- UXOR (R181): Uniform bitwise XOR. -/
  | uxor (h : Issue) (i : Insn)
  /-- UNOT (R181): Uniform bitwise complement. -/
  | unot (h : Issue) (i : Insn)
  /-- USHL (R181): Uniform shift left. -/
  | ushl (h : Issue) (i : Insn)
  /-- USHR (R181): Uniform shift right. -/
  | ushr (h : Issue) (i : Insn)
  /-- UCMP (R184): Uniform compare writes 1 or 0 per the compare code. -/
  | ucmp (h : Issue) (i : Insn)
  /-- USEL (R181): Uniform select of a or b by c. -/
  | usel (h : Issue) (i : Insn)
  /-- CMP (R184): Compare writes a predicate per enabled thread. -/
  | cmp (h : Issue) (i : Insn)
  /-- PAND (R183): Predicate AND with optional source inversion. -/
  | pand (h : Issue) (i : Insn)
  /-- POR (R183): Predicate OR with optional source inversion. -/
  | por (h : Issue) (i : Insn)
  /-- PXOR (R183): Predicate XOR with optional source inversion. -/
  | pxor (h : Issue) (i : Insn)
  /-- PNOT (R183): Predicate complement. -/
  | pnot (h : Issue) (i : Insn)
  /-- PTEST (R183): Writes a uniform any/all/none test of a predicate over live threads. -/
  | ptest (h : Issue) (i : Insn)
  /-- PCNT (R183): Writes the count of live threads whose predicate bit is 1. -/
  | pcnt (h : Issue) (i : Insn)
  /-- PMOVU (R183): Moves a predicate ANDed with the live mask into a uniform register. -/
  | pmovu (h : Issue) (i : Insn)
  /-- UPMOV (R183): Moves a uniform register ANDed with the live mask into a predicate. -/
  | upmov (h : Issue) (i : Insn)
  /-- PTST (R183): Sets a predicate where the vector register is non-zero. -/
  | ptst (h : Issue) (i : Insn)
  /-- BRA (R186): Branch when the condition over live threads or a uniform register holds. -/
  | bra (h : Issue) (i : Insn)
  /-- LOOP_INSN (R186): Decrements u[DST] modulo 2^64 and branches when non-zero. -/
  | loopInsn (h : Issue) (i : Insn)
  /-- CALL_INSN (R186): Writes the return address into u[DST] and branches. -/
  | callInsn (h : Issue) (i : Insn)
  /-- RET (R186): Branches to u[SRA]. -/
  | ret (h : Issue) (i : Insn)
  /-- HALT (R132): The hand completes once every earlier instruction has completed. -/
  | halt (h : Issue) (i : Insn)
  /-- BRK (R261): The hand enters DEBUG with a BRK event at L2, or the TRAP policy applies otherwise. -/
  | brk (h : Issue) (i : Insn)
  /-- TRAP (R239): The hand raises the TRAP fault carrying FUN as its code. -/
  | trap (h : Issue) (i : Insn)
  /-- YIELD (R186): The hand becomes WAITING for 16 cluster cycles. -/
  | yield (h : Issue) (i : Insn)
  /-- SLEEP_TICKS (R190): The hand sleeps until tick T + n. -/
  | sleepTicks (h : Issue) (i : Insn)
  /-- NOTICE_INSN (R186): Sends a load notice for the core's cluster without waiting. -/
  | noticeInsn (h : Issue) (i : Insn)
  /-- NOP_INSN (R186): No effect. -/
  | nopInsn (h : Issue) (i : Insn)
  /-- LD (R191): Per enabled thread, loads memory at base plus offset into v[DST]. -/
  | ld (h : Issue) (i : Insn)
  /-- ST (R191): Per enabled thread, stores v[DST] to memory at base plus offset. -/
  | st (h : Issue) (i : Insn)
  /-- ULD (R191): Loads once for the hand into u[DST]. -/
  | uld (h : Issue) (i : Insn)
  /-- UST (R191): Stores u[DST] once for the hand. -/
  | ust (h : Issue) (i : Insn)
  /-- FENCE (R302): Orders the hand's accesses at the given scope and order, waiting for matrix rows. -/
  | fence (h : Issue) (i : Insn)
  /-- INV_INSN (R304): Performs the invalidation of an acquire at the scope, optionally ranged and including instruction caches. -/
  | invInsn (h : Issue) (i : Insn)
  /-- ATOM_ADD (R194): Atomic add per enabled thread returning the old value. -/
  | atomAdd (h : Issue) (i : Insn)
  /-- ATOM_MIN (R194): Atomic minimum returning the old value. -/
  | atomMin (h : Issue) (i : Insn)
  /-- ATOM_MAX (R194): Atomic maximum returning the old value. -/
  | atomMax (h : Issue) (i : Insn)
  /-- ATOM_AND (R194): Atomic AND returning the old value. -/
  | atomAnd (h : Issue) (i : Insn)
  /-- ATOM_OR (R194): Atomic OR returning the old value. -/
  | atomOr (h : Issue) (i : Insn)
  /-- ATOM_XOR (R194): Atomic XOR returning the old value. -/
  | atomXor (h : Issue) (i : Insn)
  /-- ATOM_XCHG (R194): Atomic exchange returning the old value. -/
  | atomXchg (h : Issue) (i : Insn)
  /-- ATOM_CAS (R194): Atomic compare-and-swap returning the old value. -/
  | atomCas (h : Issue) (i : Insn)
  /-- MEM_ACCESS_COMPLETE (R198): A memory instruction's data or acknowledgements return, writing its destination registers. -/
  | memAccessComplete (x : HandId) (op : Nat)
  /-- POISON_TRAP (R241): At the first instruction boundary after a poisoned load completes with the trap enabled, the hand raises an imprecise POISON fault. -/
  | poisonTrap (x : HandId)
  /-- MX_LD (R215): Fills an OSB page or scale slot from memory or registers. -/
  | mxLd (h : Issue) (i : Insn)
  /-- MMA (R216): Queues a multiply-accumulate of an A and B page into an accumulator tile. -/
  | mma (h : Issue) (i : Insn)
  /-- MMA_START (R234): An mma at the head of the compute queue starts once its gate is OPEN. -/
  | mmaStart (core : Fin 256)
  /-- MX_ST (R217): Converts and writes an accumulator tile to memory or registers, optionally clearing it. -/
  | mxSt (h : Issue) (i : Insn)
  /-- MX_CLR (R218): Zeroes an accumulator tile. -/
  | mxClr (h : Issue) (i : Insn)
  /-- MX_CVT_REG (R219): Register-mode mx.cvt converts between F32 and FP8 or E2M1 per thread. -/
  | mxCvtReg (h : Issue) (i : Insn)
  /-- MX_CVT_TILE (R219): Tile-mode mx.cvt converts an accumulator tile into an OSB page at position POS. -/
  | mxCvtTile (h : Issue) (i : Insn)
  /-- MATRIX_INSN_COMPLETE (R228): A matrix instruction completes at its completion time, releasing dependent pages, tiles and registers. -/
  | matrixInsnComplete (x : HandId) (op : Nat)
  /-- NOTICE_GATE_SHUT (R233): After 1,024 cluster cycles with no mma started the notice gate shuts. -/
  | noticeGateShut (core : Fin 256)
  /-- SHFL_IDX (R200): Shuffle by per-thread index. -/
  | shflIdx (h : Issue) (i : Insn)
  /-- SHFL_UP (R200): Shuffle up by b lanes. -/
  | shflUp (h : Issue) (i : Insn)
  /-- SHFL_DOWN (R200): Shuffle down by b lanes. -/
  | shflDown (h : Issue) (i : Insn)
  /-- SHFL_XOR (R200): Shuffle by lane XOR b. -/
  | shflXor (h : Issue) (i : Insn)
  /-- BCAST (R200): Broadcast lane b to enabled threads. -/
  | bcast (h : Issue) (i : Insn)
  /-- RDLANE (R200): Reads one lane into a uniform register. -/
  | rdlane (h : Issue) (i : Insn)
  /-- SCAN (R202): Inclusive or exclusive prefix over enabled threads in fixed order. -/
  | scan (h : Issue) (i : Insn)
  /-- RED (R202): Pairwise reduction over enabled threads into a uniform register. -/
  | red (h : Issue) (i : Insn)
  /-- ENQ (R203): Releases at tile scope and pushes one kitty record per enabled thread, setting p[DST] by success. -/
  | enq (h : Issue) (i : Insn)
  /-- FSIG (R204): Releases at system scope and signals a fence per enabled thread. -/
  | fsig (h : Issue) (i : Insn)
  /-- SYS (R205): Writes a system quantity selected by FUN into u[DST]. -/
  | sys (h : Issue) (i : Insn)
  /-- FLG (R206): Waits for flag-setting instructions, reads the sticky flags and clears the selected ones. -/
  | flg (h : Issue) (i : Insn)
  /-- HAND_REMOVE (R247): A removed hand stops at its next instruction boundary, or at once if sleeping. -/
  | handRemove (x : HandId)
  /-- DEBUG_STOP (R253): A halted, stepped or matched hand enters DEBUG once its issued instructions have completed and posts DEBUG_STOP. -/
  | debugStop (x : HandId)
  /-- DBG_HALT (R253): The HALT debug command stops issue for every hand in the scope. -/
  | dbgHalt
  /-- DBG_RUN (R253): The RUN debug command resumes DEBUG or FAULTED hands in the scope. -/
  | dbgRun
  /-- DBG_STEP (R253): The STEP debug command lets the selected hand issue exactly one instruction. -/
  | dbgStep
  /-- DBG_KILL (R253): The KILL debug command removes every hand in the scope. -/
  | dbgKill
  /-- DBG_BRAKE (R253): The BRAKE debug command applies the brake in the next tick with source 1. -/
  | dbgBrake
  /-- DBG_ACC_READ (R257): A debug access read fills DBG_ACC_DATA from the selected state of a halted hand. -/
  | dbgAccRead
  /-- DBG_ACC_WRITE (R257): A write of DBG_ACC_DATA_HI stores the value into the selected state of a halted hand. -/
  | dbgAccWrite (lo : Option Word) (hi : Word)
  /-- BRAKE_N_LOW (R265): A low BRAKE_N captured at a tick applies the brake with source 0. -/
  | brakeNLow
  /-- BRAKE (R267): A received brake flit applies the brake at the first tick boundary after arrival unless already braked. -/
  | brake (n : Fin 64)
  /-- BRAKE_APPLY (R265): At tick t the brake drives BRAKE_OUT_N, sends MSI-X, makes later classes moot and starts stopping. -/
  | brakeApply
  /-- BRAKE_STOP_DOMAINS (R268): Over ticks t + 1 to t + 3 the 88 domains stop in fixed order. -/
  | brakeStopDomains
  /-- BRK_RO_START (R275): Writing BRK_RO_START fixes the image layout and sets BRK_RO_LEN. -/
  | brkRoStart
  /-- TILE_WIN_COMMIT (R290): A write starts a class Q window commit at the next tick that holds accesses, drains and writes back the affected ranges. -/
  | tileWinCommit
  /-- WINDOW_DRAIN_DONE (R290): Once affected accesses complete and caches are cleaned, the changed entries take effect together and held accesses proceed. -/
  | windowDrainDone
  /-- RDS (R331): A home receiving RdS reads memory or snoops the owner and grants S or E. -/
  | rds (m : Msg)
  /-- RDX (R331): A home receiving RdX invalidates sharers, snoops the owner and grants E or M. -/
  | rdx (m : Msg)
  /-- WB (R331): A home receiving WB from the owner writes memory and acknowledges, or discards stale data. -/
  | wb (m : Msg)
  /-- CE (R331): A home receiving CE from the owner frees the entry and acknowledges. -/
  | ce (m : Msg)
  /-- NCRD (R331): A home receiving NcRd returns the owner's copy or memory. -/
  | ncrd (m : Msg)
  /-- NCWR (R331): A home receiving NcWr snoops out all copies and writes memory. -/
  | ncwr (m : Msg)
  /-- NCATOM (R331): A home receiving NcAtom snoops out copies and performs the atomic at memory. -/
  | ncatom (m : Msg)
  /-- STRD (R489): A home answers a Staged read with the raw line or the stored compressed or factored form in parts. -/
  | strd (m : Msg)
  /-- STWR (R484): A home performs a Staged write-through once all parts have arrived, as one access. -/
  | stwr (m : Msg)
  /-- REJOIN (R342): A REJOIN from a tile removes its entries from the dead-agent table. -/
  | rejoin (m : Msg)
  /-- DATA (R331): A requester receiving DATA fills its line in the granted state and completes the request. -/
  | data (m : Msg)
  /-- GRANT (R331): A requester receiving GRANT takes its held O line to M. -/
  | grant (m : Msg)
  /-- ACK (R322): A requester receiving ACK completes its write, WB, CE or REJOIN. -/
  | ack (m : Msg)
  /-- ATOM_RSP (R482): A requester receiving ATOM_RSP delivers the old value. -/
  | atomRsp (m : Msg)
  /-- SNPS (R325): An agent receiving SnpS supplies its data and moves to S or O, after any win hold. -/
  | snps (m : Msg)
  /-- SNPX (R325): An agent receiving SnpX supplies its data and invalidates. -/
  | snpx (m : Msg)
  /-- SNPNC (R325): An agent receiving SnpNc supplies a copy and keeps its state. -/
  | snpnc (m : Msg)
  /-- INV (R325): An agent receiving Inv drops its S copy and acknowledges. -/
  | inv (m : Msg)
  /-- MCAST_SNOOP (R333): A tile receiving a multicast copy answers NOT_HELD from its filter or delivers it to its clusters. -/
  | mcastSnoop (m : Msg)
  /-- SNP_RSP (R331): A home receiving a snoop reply updates the directory and sends DATA or GRANT to the requester. -/
  | snpRsp (m : Msg)
  /-- WIN_HOLD_END (R335): When the win hold ends, waiting snoops to the line are served in arrival order. -/
  | winHoldEnd (c : Fin 64) (line : Nat)
  /-- SNOOP_DEADLINE (R338): A snoop unanswered after MEM_SNP_DEADLINE_US makes the home declare the agent dead. -/
  | snoopDeadline (k : Fin 8) (ls : Nat) (a : Agent)
  /-- ROUTE_LOSS_TIMEOUT (R338): After 1 ms with no usable coupler to a tile, every agent of that tile is declared dead. -/
  | routeLossTimeout (d : Fin 65536)
  /-- MEM_DEAD_DECLARE (R338): A write declares the agent named by MEM_DEAD_AGENT dead. -/
  | memDeadDeclare
  /-- RECLAIM_WALK_DONE (R340): A reclamation walk finishes its directory pass, having reclaimed entries naming dead agents. -/
  | reclaimWalkDone (k : Fin 8)
  /-- LOSS_REPORT (R341): A loss report is posted when four ranges are ready, 1 ms after its first range, or at a walk's end. -/
  | lossReport (k : Fin 8)
  /-- REQ_TIMEOUT (R344): A request without completion after CLU_REQ_TIMEOUT_US completes with poison and its tag is quarantined. -/
  | reqTimeout (c : Fin 64) (tag : Nat)
  /-- TAG_QUARANTINE_END (R344): A quarantined tag is freed after a further timeout. -/
  | tagQuarantineEnd (c : Fin 64) (tag : Nat)
  /-- LEAVE_COHERENCE (R347): A cluster stops allocating, writes back M and O lines and sends CE for E lines before gating or retirement. -/
  | leaveCoherence (c : Fin 64)
  /-- LEAVE_COHERENCE_DONE (R347): Once every acknowledgement arrives the cluster invalidates its lines and its clock may stop. -/
  | leaveCoherenceDone (c : Fin 64)
  /-- CACHE_INIT_DONE (R320): Reset invalidation of a cache or directory completes and waiting requests proceed. -/
  | cacheInitDone (u : CacheUnit)
  /-- MEM_INIT_DONE (R365): Training, hard repair and zero fill of a stack complete and MEM_INIT_DONE is set. -/
  | memInitDone (k : Fin 8) (slow : Bool)
  /-- REFRESH (R368): The controller refreshes a bank at its interval, taking it at the postponement limit. -/
  | refresh (k : Fin 8) (forced : Bool)
  /-- SCRUB_STEP (R370): A due scrub step reads and decodes one line, correcting or poisoning granules. -/
  | scrubStep (k : Fin 8) (ch : Fin 32) (pc : Fin 2) (forced : Bool)
  /-- ROW_SPARE (R372): The controller holds the bank, copies the row into a spare row, records it and posts ROW_SPARED. -/
  | rowSpare (k : Fin 8) (ls : Nat) (left : Option Nat) (forced : Bool)
  /-- MEM_CH_RETIRE_GO (R374): A write commits a channel retirement that holds its requests and drains its queue. -/
  | memChRetireGo (k : Fin 8)
  /-- CH_RETIRE_WALK (R374): Once any reclamation walk ends the home walks its directory, snooping out and freeing the channel's lines. -/
  | chRetireWalk (k : Fin 8)
  /-- CH_RETIRE_DONE (R374): The channel is marked retired, the Deck updated, map granules handled and held requests released. -/
  | chRetireDone (k : Fin 8)
  /-- READ_TIMING_ADJUST (R378): After 65,536 beats a pin's read phase moves by 1/64 UI when early and late mismatch counts differ. -/
  | readTimingAdjust (k : Fin 8) (ch : Fin 32) (pc : Fin 2) (pin : Fin 128) (early : Nat) (late : Nat)
  /-- WRITE_TRAINING (R379): A training burst replaces a write slot, adjusts write delays and counts failures. -/
  | writeTraining (k : Fin 8) (ch : Fin 32) (pc : Fin 2) (moves : List (Fin 128 × Bool)) (ok : Bool) (forced : Bool)
  /-- STACK_TEMP_READ (R351): Every 1 ms the controller reads the stack temperature and sets the refresh interval. -/
  | stackTempRead (k : Fin 8) (temp : BitVec 8) (fast : Bool) (forced : Bool)
  /-- PACKER_BLOCK (R413): The packer holds a raw block, encodes it and writes it compressed if it fits. -/
  | packerBlock (k : Fin 8) (forced : Bool)
  /-- ASM_FLUSH_TIMEOUT (R425): An assembly buffer unused for 10 µs is flushed as a partial write. -/
  | asmFlushTimeout (c : Fin 64) (block : Nat)
  /-- SLOT_LOAD (R414): Slot operation LOAD seals a slot with the staging image if valid and unheld. -/
  | slotLoad
  /-- SLOT_ARM (R414): Slot operation ARM sets a slot SURVEYING with the staged descriptor. -/
  | slotArm
  /-- SLOT_CLEAR (R414): Slot operation CLEAR empties a slot. -/
  | slotClear
  /-- SLOT_HIST_CLR (R414): Slot operation HIST_CLR clears a slot's histogram. -/
  | slotHistClr
  /-- BEACON (R445): Every 1 ms in DETECT each good transmit lane sends a beacon. -/
  | beacon (n : Fin 64)
  /-- SIGNAL_DETECT (R445): Signal present on a receive lane moves the coupler from DETECT to TRAIN. -/
  | signalDetect (n : Fin 64)
  /-- TRAINING_FRAME (R447): A received training frame with good CRC updates lane status and applies equaliser requests. -/
  | trainingFrame (n : Fin 64) (phys : Fin 4) (ctl : List Byte)
  /-- TRAIN_PHASE_END (R449): A training phase ends when both ends signal ready in 16 frames on every lane. -/
  | trainPhaseEnd (n : Fin 64) (lanes : List (Nat × Nat))
  /-- TRAIN_TIMEOUT (R449): A phase passing its limit fails the attempt and returns to DETECT. -/
  | trainTimeout (n : Fin 64)
  /-- CODEWORD_LOCK (R452): After 8 good pairs the receiver holds codeword lock and leaves TRAIN. -/
  | codewordLock (n : Fin 64) (nonce : BitVec 128)
  /-- CODEWORD_LOCK_LOSS (R438): Sixteen bad pairs lose codeword lock and start a retrain. -/
  | codewordLockLoss (n : Fin 64)
  /-- IDENTIFY (R456): A received IDENTIFY payload is checked and IDENTIFY succeeds, waits, or goes DOWN. -/
  | identify (n : Fin 64)
  /-- IDENTIFY_SEAL (R457): A received key and signature are verified against the seal list. -/
  | identifySeal (n : Fin 64) (entry : Option (List Byte))
  /-- IDENTIFY_ACK (R504): An acknowledgement echoing the nonce stops IDENTIFY repeats. -/
  | identifyAck (n : Fin 64)
  /-- IDENTIFY_RESEND (R504): Every 1 ms an unacknowledged IDENTIFY is sent again. -/
  | identifyResend (n : Fin 64)
  /-- IDENTIFY_TIMEOUT (R440): No IDENTIFY message within 10 ms returns the coupler to DETECT. -/
  | identifyTimeout (n : Fin 64)
  /-- TIME_TIMEOUT (R440): A TIME state exceeding 1 ms fails the attempt. -/
  | timeTimeout (n : Fin 64)
  /-- LINK_UP (R442): After TIME the coupler enters ACTIVE or DEGRADED at a tick, updating the Deck and posting LINK_UP. -/
  | linkUp (n : Fin 64)
  /-- DOWN_EXIT (R462): A coupler in a one-tick DOWN, or retired, moves to DETECT at the next tick. -/
  | downExit (n : Fin 64)
  /-- LANE_SER_LIMIT (R461): A lane exceeding its corrected-symbol limit in 8 consecutive 1 ms windows starts a retrain. -/
  | laneSerLimit (n : Fin 64) (lane : Fin 4) (counts : List Nat)
  /-- CPL_RETRAIN (R461): A write starts a retrain of the coupler. -/
  | cplRetrain (n : Fin 64)
  /-- CPL_RESTART (R463): A write moves a DOWN coupler to DETECT and clears its failure run. -/
  | cplRestart (n : Fin 64)
  /-- CPL_LANE_RETIRE_GO (R453): A write retires the selected lane at the next retrain. -/
  | cplLaneRetireGo (n : Fin 64)
  /-- LP_REQ (R507): A received LP_REQ is answered with LP_ACK, accepting only when idle. -/
  | lpReq (n : Fin 64)
  /-- LP_ACK (R507): An accepting LP_ACK, once acknowledged, puts both ends in low power. -/
  | lpAck (n : Fin 64)
  /-- LP_EXIT (R465): A queued flit, T4 exit or neighbour beacon wakes the coupler through CDR and ALIGN. -/
  | lpExit (n : Fin 64) (beacon : Bool)
  /-- LP_EXIT_TIMEOUT (R465): A low-power exit not complete within 1 ms becomes a retrain. -/
  | lpExitTimeout (n : Fin 64)
  /-- EQ_UPD_SEND (R467): A receiver whose adaptation shows a better neighbour setting sends EQ_UPD with an APPLY_TICK. -/
  | eqUpdSend (n : Fin 64) (lane : Fin 4) (codes : List (Fin 4)) (forced : Bool)
  /-- EQ_UPD (R468): A received EQ_UPD is answered with EQ_ACK or EQ_NAK LIMIT or LATE. -/
  | eqUpd (n : Fin 64)
  /-- EQ_ACK (R468): A received EQ_ACK schedules the receiver's adaptation freeze around APPLY_TICK. -/
  | eqAck (n : Fin 64)
  /-- EQ_NAK (R468): A received EQ_NAK ends the outstanding update and counts the refusal. -/
  | eqNak (n : Fin 64)
  /-- EQ_APPLY (R468): The transmitter applies the new taps at the first pair boundary after APPLY_TICK as a class 9 commit. -/
  | eqApply (n : Fin 64) (lane : Fin 4)
  /-- BANK_PLL_UNLOCK (R473): A bank PLL losing lock takes its eight couplers through loss of codeword lock. -/
  | bankPllUnlock (b : Fin 8)
  /-- FLIT_RECEIVE (R475): A received flit is classified as lead, data or bad by its salted CRC. -/
  | flitReceive (n : Fin 64) (first : Bool) (ok : Bool) (corr : List Nat) (bs : List Byte)
  /-- LINK (R492): A received LINK flit applies acknowledgements, NAK, replay, credits and tags. -/
  | link (n : Fin 64)
  /-- LINK_SEND (R495): A LINK flit is sent on NAK, after 64 flits, after 256 bank cycles or every 10 µs. -/
  | linkSend (n : Fin 64)
  /-- REPLAY_TIMEOUT (R498): An unacknowledged flit older than CPL_REPLAY_TO_NS starts a replay. -/
  | replayTimeout (n : Fin 64)
  /-- COUPLER_AUDIT (R494): After 4,096 quiet bank cycles the coupler audits its credits and tags. -/
  | couplerAudit (n : Fin 64)
  /-- PACKET_FORWARD (R513): A packet not for this tile is routed onward, or waits, or is dropped. -/
  | packetForward (from' : Option (Fin 64))
  /-- ROUTE_WAIT_RELEASE (R511): A waiting packet takes a coupler as soon as one becomes usable. -/
  | routeWaitRelease
  /-- ROUTE_WAIT_TIMEOUT (R511): A packet waiting 1 ms meets no route. -/
  | routeWaitTimeout
  /-- RTE_SW_GO (R517): A write arms a route-generation switch and sends ROUTE_SW on every usable coupler. -/
  | rteSwGo
  /-- ROUTE_SW (R518): A newer ROUTE_SW is forwarded and arms or refuses the switch. -/
  | routeSw (n : Fin 64)
  /-- ROUTE_SWITCH (R519): An armed switch commits at its tick and new packets carry the new generation. -/
  | routeSwitch
  /-- ROUTE_DRAIN_END (R520): After RTE_DRAIN_US the former generation stops being live. -/
  | routeDrainEnd
  /-- RTE_FILL (R509): A write starts filling a non-live generation with invalid entries. -/
  | rteFill (mask : BitVec 2)
  /-- RTE_FILL_DONE (R509): The fill completes after 8,192 fabric cycles. -/
  | rteFillDone
  /-- RTE_ENT (R522): A route entry write takes effect at once in a non-live generation, or is discarded. -/
  | rteEnt (gen : Fin 2) (id : Fin 65536) (word : Fin 4) (v : Word)
  /-- RTE_LOADED (R516): A write of a generation's LOADED flag is accepted only for a non-live generation. -/
  | rteLoaded (mask : BitVec 2)
  /-- BAR2_READ (R530): A host BAR2 read is performed at the home as Uncached and completes with data or poisoned. -/
  | bar2Read (x : Nat) (n : Nat)
  /-- BAR2_WRITE (R530): A host BAR2 write is performed piece by piece as Uncached. -/
  | bar2Write (x : Nat) (bs : List Byte) (ep : Bool)
  /-- BAR2_ATOMIC (R525): A host AtomicOp to BAR2 is performed at the home and returns the old value. -/
  | bar2Atomic (x : Nat) (op : AmoOp) (wide : Bool) (c : Nat) (new : Nat)
  /-- HOST_COMPLETION (R531): A PCIe completion for a tile request completes it, or is discarded if late. -/
  | hostCompletion (tag : Nat) (data : Option (List Byte)) (ep : Bool)
  /-- HOST_CPL_TIMEOUT (R531): A host request unanswered after HIF_CPL_TO_US completes with poison. -/
  | hostCplTimeout (tag : Nat)
  /-- CTX_CREATE (R534): A write checks the settings at the next tick and makes the context ACTIVE or reports a failure. -/
  | ctxCreate
  /-- CTX_RESET (R562): A write invokes a context reset when the context is not NONE. -/
  | ctxReset
  /-- FUNCTION_LEVEL_RESET (R562): A PCIe Function Level Reset invokes a context reset. -/
  | functionLevelReset
  /-- D3HOT_ENTRY (R562): Entry into D3hot invokes a context reset. -/
  | d3hotEntry
  /-- CONTEXT_RESET_DONE (R564): Once removed hands have released and the CP is idle the context becomes NONE. -/
  | contextResetDone
  /-- DOORBELL_POLL (R541): One effective interval after the previous read completes the CP reads the doorbell word. -/
  | doorbellPoll
  /-- DOORBELL_OBSERVE (R540): An observed doorbell word makes descriptors available, or is ignored as stale or bad. -/
  | doorbellObserve
  /-- ACK_OBSERVE (R550): An observed acknowledgement word advances the event-ring acknowledgement. -/
  | ackObserve
  /-- HEAD_WRITEBACK (R542): The tile writes the ring head back when it has changed, at most once per interval. -/
  | headWriteback
  /-- DESC_FETCH (R538): The CP fetches the next available descriptor and checks it. -/
  | descFetch (b : Option (List Byte))
  /-- DESC_NOP (R543): A NOP descriptor completes as soon as it is fetched. -/
  | descNop
  /-- DESC_LIST (R543): A LIST descriptor starts its command list once the previous list has issued. -/
  | descList
  /-- DESC_EXCHANGE (R603): An EXCHANGE descriptor arms an exchange or acts as a LIST. -/
  | descExchange
  /-- EXCHANGE_COMMIT (R604): At the commit the old list's issue ends and the exchange list becomes current. -/
  | exchangeCommit
  /-- DESC_COMPLETE (R544): In ring order the descriptor signals its fence, causes mirrors, posts DESC_DONE and sends MSI-X. -/
  | descComplete
  /-- EVT_MSI (R552): After the hold-off an MSI-X announces records posted since the last message. -/
  | evtMsi
  /-- FENCE_SIGNAL (R555): A signal arriving at the fence home updates the record atomically per the signal table. -/
  | fenceSignal (m : Msg)
  /-- FENCE_OBSERVE (R556): A fence change seen by the CP at a tick is tested against waits. -/
  | fenceObserve (n : Fin 4096)
  /-- FEN_INIT_GO (R559): A write sets a fence to a value, clears its flags and raises INITS at the next tick. -/
  | fenInitGo
  /-- MIRROR_WRITE (R560): At a tick a mirror writes its changed fence record to host memory, with optional MSI-X. -/
  | mirrorWrite (m : Fin 64)
  /-- NOP (R570): Command NOP does nothing. -/
  | cpNop (ws : List (Option Nat))
  /-- BARRIER (R586): Command BARRIER waits for the list's asynchronous commands, and kitty tasks with ALL. -/
  | cpBarrier (ws : List (Option Nat))
  /-- LAUNCH (R589): Command LAUNCH creates a task with its shape, mask and parameters. -/
  | cpLaunch (ws : List (Option Nat))
  /-- LAUNCH_INDIRECT (R589): Command LAUNCH_INDIRECT reads the thread count from memory and creates a task. -/
  | cpLaunchIndirect (ws : List (Option Nat)) (t : Option Nat)
  /-- COPY (R588): Command COPY moves LEN bytes from SRC to DST asynchronously. -/
  | cpCopy (ws : List (Option Nat)) (data : List (Byte × GState))
  /-- FILL (R588): Command FILL writes a pattern over LEN bytes asynchronously. -/
  | cpFill (ws : List (Option Nat))
  /-- WRITE_VALUE (R572): Command WRITE_VALUE writes 4 or 8 bytes as a system release. -/
  | cpWriteValue (ws : List (Option Nat))
  /-- SIGNAL (R572): Command SIGNAL signals a fence with a value. -/
  | cpSignal (ws : List (Option Nat))
  /-- SIGNAL_ADD (R572): Command SIGNAL_ADD adds to a fence. -/
  | cpSignalAdd (ws : List (Option Nat))
  /-- WAIT (R584): Command WAIT blocks until a fence or watcher count reaches the target. -/
  | cpWait (ws : List (Option Nat))
  /-- WAIT_TIMEOUT (R585): A WAIT not satisfied within TIMEOUT ticks ends the list with WAIT_TIMEOUT. -/
  | waitTimeout
  /-- IF (R580): Command IF tests a masked memory word and skips to ELSE or ENDIF when false. -/
  | cpIf (ws : List (Option Nat)) (v : Option Nat) (t : Option Nat)
  /-- ELSE (R580): Command ELSE reached in order skips to its ENDIF. -/
  | cpElse (ws : List (Option Nat)) (t : Option Nat)
  /-- ENDIF (R580): Command ENDIF does nothing. -/
  | cpEndif (ws : List (Option Nat))
  /-- LOOP (R581): Command LOOP starts a counted loop or skips it. -/
  | cpLoop (ws : List (Option Nat)) (t : Option Nat)
  /-- LOOP_WHILE (R581): Command LOOP_WHILE evaluates its condition at a segment start and runs or skips the body. -/
  | cpLoopWhile (ws : List (Option Nat)) (v : Option Nat) (t : Option Nat)
  /-- ENDLOOP (R581): Command ENDLOOP starts the next iteration or pops the loop. -/
  | cpEndloop (ws : List (Option Nat))
  /-- CALL (R582): Command CALL opens a new frame on a list. -/
  | cpCall (ws : List (Option Nat))
  /-- RETURN (R582): Command RETURN closes the current frame. -/
  | cpReturn (ws : List (Option Nat))
  /-- PATCH (R583): Command PATCH writes or adds a value to DST as a system release. -/
  | cpPatch (ws : List (Option Nat)) (v : Option Nat)
  /-- TIMER_WAIT (R586): Command TIMER_WAIT waits until fabric time reaches an absolute or relative tick. -/
  | cpTimerWait (ws : List (Option Nat))
  /-- TIMER_WAIT_END (R586): A TIMER_WAIT ends when fabric time reaches its target. -/
  | timerWaitEnd
  /-- WATCH (R600): Command WATCH arms or adopts a watcher. -/
  | cpWatch (ws : List (Option Nat))
  /-- UNWATCH (R600): Command UNWATCH disarms a watcher, keeping its count. -/
  | cpUnwatch (ws : List (Option Nat))
  /-- SURVEY (R410): Command SURVEY tokenises a range, fills the histogram, builds a table and seals the slot. -/
  | cpSurvey (ws : List (Option Nat)) (data : List (Byte × GState))
  /-- ENCODE (R424): Command ENCODE writes compressed or factored units into a compressed window. -/
  | cpEncode (ws : List (Option Nat)) (data : List (Byte × GState))
  /-- SEAL (R412): Command SEAL builds or keeps a table and runs the packers over a range. -/
  | cpSeal (ws : List (Option Nat))
  /-- NOTICE (R625): Command NOTICE sends a load notice to each cluster in its mask. -/
  | cpNotice (ws : List (Option Nat))
  /-- SET_WAKE_TOLERANCE (R637): Command SET_WAKE_TOLERANCE commits a new tile wake tolerance at the next tick. -/
  | cpSetWakeTolerance (ws : List (Option Nat))
  /-- ASYNC_COMPLETE (R571): An asynchronous command completes and its completion tail signals the fence and may post events. -/
  | asyncComplete (id : Nat)
  /-- CP_REQ_TIMEOUT (R574): A CP request without completion after CPR_REQ_TIMEOUT_US completes with poison. -/
  | cpReqTimeout (tag : Nat)
  /-- LIST_COMPLETE (R587): A list completes once its issue has ended and its asynchronous commands have completed. -/
  | listComplete (id : Nat)
  /-- TASK_COMPLETE (R593): A task completes when every hand has halted or been removed and its writes are performed. -/
  | taskComplete (id : Nat)
  /-- KITTY_RECORD_READY (R596): A reserved kitty slot becomes ready when its record bytes are written. -/
  | kittyRecordReady (n : Nat)
  /-- KITTY_LAUNCH (R598): A ready LAUNCH record at the head reads its parameters and launches a task. -/
  | kittyLaunch (ps : List (Option Nat))
  /-- KITTY_SIGNAL (R597): A ready SIGNAL record signals its fence. -/
  | kittySignal
  /-- KITTY_SIGNAL_ADD (R597): A ready SIGNAL_ADD record adds to its fence. -/
  | kittySignalAdd
  /-- KITTY_LIST (R597): A ready LIST record runs as a list while no list is current. -/
  | kittyList
  /-- WATCH_TIMER_FIRE (R601): A timer watcher fires at its tick and every period if periodic. -/
  | watchTimerFire (n : Fin 16)
  /-- WATCH_EDGE_FIRE (R601): An edge watcher fires on a selected change of its pin's captured level. -/
  | watchEdgeFire (n : Fin 16)
  /-- WATCH_MEMORY_READ (R601): A memory watcher reads its word each interval and fires on a false-to-true result. -/
  | watchMemoryRead (n : Fin 16)
  /-- FREQ_CHANGE (R613): At a tick a change of effective frequency starts, moving the rail first when rising. -/
  | freqChange (c : Fin 64)
  /-- FREQ_SWITCH (R613): Once the rail is reached and the PLL relocked the cluster clock switches to the new frequency. -/
  | freqSwitch (c : Fin 64)
  /-- CURRENT_CLAMP (R614): Current above the cap removes clock edges; current below it restores them. -/
  | currentClamp (c : Fin 64) (above : Bool)
  /-- DROOP_GUARD (R615): A rail below V(f) − 50 mV drops every second clock edge until it recovers. -/
  | droopGuard (c : Fin 64) (code : Nat)
  /-- CRG_VFLOOR_V (R617): A read returns the recorded minimum, copies its tick and clears the recorder. -/
  | crgVfloorV (c : Fin 64)
  /-- PHASE_FAIL (R618): A failed regulator phase is shed, the cap and F_MAX updated, recorded and reported. -/
  | phaseFail (c : Fin 64) (phase : Fin 8) (driver : Bool)
  /-- CRG_PHASE_RETIRE_GO (R618): A write sheds the selected phase. -/
  | crgPhaseRetireGo (c : Fin 64)
  /-- TURN_ON (R622): A cluster turn-on closes header stages on a fixed schedule with rail and current checks. -/
  | turnOn (c : Fin 64)
  /-- GATE_FAULT (R624): A failed turn-on check opens every stage and retires the cluster with cause 0x03. -/
  | gateFault (c : Fin 64) (check : Fin 4) (stage : Fin 8) (mv : Nat)
  /-- CLUSTER_READY (R623): After zeroing and invalidation the cluster becomes ready at the next tick. -/
  | clusterReady (c : Fin 64)
  /-- NOTICE_RECEIVE (R627): A regulator receiving a notice merges it, starts a pre-raise, wakes the cluster or discards it. -/
  | noticeReceive
  /-- NOTICE_ACK (R627): When the rail reaches its setpoint the regulator acknowledges and the notice gates open. -/
  | noticeAck (c : Fin 64)
  /-- STATE_ENTRY (R632): A region idle long enough enters the deepest allowed power state. -/
  | stateEntry (x : Region)
  /-- WAKE (R634): A wake cause brings a region out of its power state within its wake latency. -/
  | wake (x : Region) (latency : Nat)
  /-- UV_EMERGENCY (R640): VIN_CORE below 1.62 V for 1 µs clamps clusters to 600 MHz and shuts notice gates. -/
  | uvEmergency (mv : Nat)
  /-- UV_CLEAR (R640): After 1 ms above 1.71 V the emergency clears. -/
  | uvClear (mv : Nat)
  /-- COLLAPSE (R641): VIN_CORE below 1.44 V darkens every cluster and is a fatal error. -/
  | collapse (mv : Nat)
  /-- THERMAL_THROTTLE (R643): Every 100 µs over threshold a thermal limit falls 100 MHz; every 1 ms below it rises 25 MHz. -/
  | thermalThrottle (temps : List (BitVec 8))
  /-- THERMAL_TRIP (R644): A sensor at 115 °C drives THERMTRIP_N and darkens every cluster. -/
  | thermalTrip (sensor : Fin 80) (temp : BitVec 8)
  /-- GOVERNOR (R645): Every 1 ms the governor lowers or raises its frequency limit by average power. -/
  | governor (watts : Nat)
  /-- TELEMETRY_SAMPLE (R648): Every period all sensors and rails are sampled and TLM_SEQ rises. -/
  | telemetrySample (mv : Nat) (ma : Nat) (clus : List (Nat × Nat)) (temps : List Nat) (forced : Bool)
  /-- COR_CNT_CLR (R157): A write clears the core's three issue counters. -/
  | corCntClr (core : Fin 256)
  /-- MGC_RETIRE_GO (R667): A write starts retirement of the selected cluster or coupler, or is refused. -/
  | mgcRetireGo
  /-- CLUSTER_RETIRE (R663): At its commit a drained cluster retirement stops new placement and lets hands run. -/
  | clusterRetire
  /-- DRAIN_DEADLINE (R663): After MGC_DRAIN_US remaining hands are removed and the cluster leaves coherence. -/
  | drainDeadline (c : Fin 64)
  /-- COUPLER_RETIRE (R666): At its commit a coupler leaves route use and sends its queued flits. -/
  | couplerRetire
  /-- COUPLER_RETIRE_DRAINED (R666): Once acknowledged or after 1 ms the coupler goes DOWN and is marked RETIRED. -/
  | couplerRetireDrained (n : Fin 64)
  /-- SERVICE_EVAL (R668): Each millisecond and on change the MGC evaluates the service thresholds. -/
  | serviceEval
  /-- MGC_SVC_CLEAR (R670): A write clears every latched threshold no longer crossed. -/
  | mgcSvcClear
  /-- LEDGER_AUDIT (R673): A book instance reaching a quiescent point is audited. -/
  | ledgerAudit (book : Fin 11) (inst : Nat)
  /-- MGC_LDG_AUDIT (R673): A write audits every instance of every book. -/
  | mgcLdgAudit
  /-- MGC_LDG_SNAP (R675): A write snapshots every book at one tick. -/
  | mgcLdgSnap (issued : Nat) (out : Nat)
  /-- ERROR_WINDOW_ROLL (R755): At each 24-hour window boundary the windowed error counts restart. -/
  | errorWindowRoll
  /-- GET_CHALLENGE (R700): Mailbox command GET_CHALLENGE returns a fresh challenge and voids the old one. -/
  | getChallenge (path : Path)
  /-- SUBMIT_TOKEN (R702): Mailbox command SUBMIT_TOKEN checks a token and grants its level or purpose. -/
  | submitToken (path : Path)
  /-- RELINQUISH (R698): Mailbox command RELINQUISH ends the owner or vendor token. -/
  | relinquish (path : Path)
  /-- LC_REQUEST (R694): Mailbox command LC_REQUEST performs a lifecycle transition. -/
  | lcRequest (path : Path)
  /-- LC_RESET (R695): The tick after a lifecycle transition the tile takes a warm reset. -/
  | lcReset
  /-- OWNER_SET (R704): Mailbox command OWNER_SET burns the first owner key hash. -/
  | ownerSet (path : Path)
  /-- OWNER_ROTATE (R704): Mailbox command OWNER_ROTATE burns the next owner key hash. -/
  | ownerRotate (path : Path)
  /-- ATTEST (R691): Mailbox command ATTEST returns a signed report. -/
  | attest (path : Path)
  /-- FW_STAGE (R705): Mailbox command FW_STAGE writes image bytes into the idle slot. -/
  | fwStage (path : Path)
  /-- FW_ACTIVATE (R705): Mailbox command FW_ACTIVATE checks the staged image, marks it trial and schedules an MGC restart. -/
  | fwActivate (path : Path)
  /-- MGC_RESTART (R706): At the next tick the MGC restarts into the new slot while other domains run on. -/
  | mgcRestart
  /-- MGC_RESTART_DONE (R706): The restart ends with a Deck update and deferred work is applied. -/
  | mgcRestartDone
  /-- FW_ACCEPT (R705): Mailbox command FW_ACCEPT clears the trial mark and burns SVN bits. -/
  | fwAccept (path : Path)
  /-- TOKEN_EXPIRE (R698): A token's duration ends and the level in effect may fall. -/
  | tokenExpire (vendor : Bool)
  /-- RESET_N_LOW (R722): RESET_N captured low invokes a cold reset held while it stays low. -/
  | resetNLow
  /-- RESET_N_RELEASE (R725): The captured release of RESET_N starts the cold bring-up. -/
  | resetNRelease (mf : BitVec 4)
  /-- PWRGD_LOW (R716): PWRGD_IO or PWRGD_CORE low for 1 µs invokes a cold reset. -/
  | pwrgdLow
  /-- PERST_N_LOW (R722): PERST_N captured low with HOST_EN invokes a warm or context reset per policy. -/
  | perstNLow
  /-- PIN_RESET_COLD (R722): PIN_RESET_CMD 1 invokes a cold reset. -/
  | pinResetCold
  /-- PIN_RESET_WARM (R722): PIN_RESET_CMD 2 invokes a warm reset. -/
  | pinResetWarm
  /-- PIN_RESET_CONTEXT (R722): PIN_RESET_CMD 3 invokes a context reset. -/
  | pinResetContext
  /-- PIN_FUNC_COMMIT (R733): A pin function change commits at a tick, holding the pad one tick before the new function takes it. -/
  | pinFuncCommit
  /-- PIN_SETTLE_END (R734): After PIN_SETTLE ticks the pin's edge detectors take a new reference without firing. -/
  | pinSettleEnd (n : Fin 16)
  /-- MGC_TILE_ID (R739): A write of the tile ID commits at a tick, or is discarded when reserved or a coupler is up. -/
  | mgcTileId (v : Word)
  /-- STATUS (R737): I²C command STATUS returns lifecycle, level, flags and IDs. -/
  | status (pec : Bool)
  /-- DECK_READ (R737): I²C command DECK_READ returns Deck bytes. -/
  | deckRead (pec : Bool) (off : Nat) (n : Nat)
  /-- REG_READ (R737): I²C command REG_READ reads a BAR0 register. -/
  | regRead (pec : Bool) (at' : Machine.Bar0)
  /-- REG_WRITE (R737): I²C command REG_WRITE writes a BAR0 register. -/
  | regWrite (pec : Bool) (at' : Machine.Bar0) (v : Word)
  /-- SET_TILE_ID (R739): I²C command SET_TILE_ID writes MGC_TILE_ID. -/
  | setTileId (pec : Bool) (id : BitVec 16) (valid : Bool)
  /-- RESET (R737): I²C command RESET invokes a cold, warm or context reset. -/
  | reset (pec : Bool) (level : BitVec 8)
  /-- RETIRE_AGENT (R737): I²C command RETIRE_AGENT declares an agent dead. -/
  | retireAgent (pec : Bool) (id : BitVec 16) (cluster : Fin 64) (all : Bool)
  /-- MBX_WRITE (R737): I²C command MBX_WRITE writes mailbox bytes. -/
  | mbxWrite (pec : Bool) (off : Nat) (bs : List Byte)
  /-- MBX_RUN (R737): I²C command MBX_RUN runs a mailbox command. -/
  | mbxRun (pec : Bool) (cmd : BitVec 8) (len : Nat)
  /-- MBX_READ (R737): I²C command MBX_READ returns mailbox bytes. -/
  | mbxRead (pec : Bool) (off : Nat) (n : Nat)
  /-- TLM_READ (R737): I²C command TLM_READ returns telemetry from one sample at L1. -/
  | tlmRead (pec : Bool) (off : Nat) (n : Nat)
  /-- JNL_READ (R737): I²C command JNL_READ returns journal records at L1. -/
  | jnlRead (pec : Bool) (idx : Nat) (n : Nat) (recs : List (Option (List Byte)))
  /-- PMB_XFER (R741): I²C command PMB_XFER starts a PMBus transaction. -/
  | pmbXfer (pec : Bool) (addr : BitVec 7) (txn : Nat) (code : Byte) (bs : List Byte)
  /-- PMB_DONE (R741): A PMBus transaction completes, fails or times out and its result is returned. -/
  | pmbDone (ok : Bool) (bs : List Byte)
  /-- BOARD_READ (R731): I²C command BOARD_READ returns board record bytes. -/
  | boardRead (pec : Bool) (off : Nat) (n : Nat)
  /-- BOARD_WRITE (R731): I²C command BOARD_WRITE writes the staging copy of the board record. -/
  | boardWrite (pec : Bool) (off : Nat) (bs : List Byte)
  /-- BOARD_COMMIT (R731): I²C command BOARD_COMMIT validates and stores the staging record. -/
  | boardCommit (pec : Bool)
  /-- TAP_RESET (R743): TRST_N or TAP reset returns the TAP and selects IDCODE. -/
  | tapReset
  /-- EXTEST (R745): TAP EXTEST takes the boundary pads from the tile's functions. -/
  | extest (pads : BitVec 32) (v : BitVec 32)
  /-- IDCODE (R743): TAP IDCODE selects the identification register. -/
  | idcode
  /-- SAMPLE_PRELOAD (R743): TAP SAMPLE/PRELOAD samples or preloads the boundary register. -/
  | samplePreload (pads : BitVec 32) (v : BitVec 32)
  /-- CLAMP (R745): TAP CLAMP holds the boundary pads and selects bypass. -/
  | clamp
  /-- HIGHZ (R745): TAP HIGHZ floats the boundary pads. -/
  | highz
  /-- OBS (R743): TAP OBS selects the access register for Deck and register reads at L1. -/
  | obs
  /-- TAP_MBX (R743): TAP MBX selects the access register for the SEC block. -/
  | tapMbx
  /-- TAP_DBG_ACC (R743): TAP DBG_ACC selects the access register for the DEBUG block at L2. -/
  | tapDbgAcc
  /-- TAP_ACCESS (R744): Update-DR with START performs the access register's read or write. -/
  | tapAccess (at' : Machine.Bar0) (write : Bool) (data : Word)
  /-- RO_ADDR (R744): TAP RO_ADDR sets the image offset and optionally starts read-out. -/
  | roAddr (v : DWord)
  /-- RO_DATA (R744): TAP RO_DATA returns 8 image bytes and advances the offset. -/
  | roData
  /-- TAP_SCAN (R743): TAP SCAN selects the internal scan chains at L3. -/
  | tapScan
  /-- BYPASS (R743): TAP BYPASS selects the 1-bit bypass register. -/
  | bypass
  /-- TICK_BOUNDARY (R99): Each rising edge of REFCLK_P/N is a tick boundary at which fabric time increments and the events sampled there are applied in trump order. -/
  | tickBoundary (mf : BitVec 16) (upsets : List Upset)
  /-- UNASSIGNED_OPCODE (R170): An instruction whose opcode no table assigns, including 0x00 and 0xF0–0xFF on B0, raises the illegal-instruction fault at issue. -/
  | unassignedOpcode (h : Issue) (opc : BitVec 8) (i : Insn)
  /-- PWRGD_RELEASE (R716): When PWRGD_IO and PWRGD_CORE are both high again after a PWRGD-caused cold reset, the tile leaves that reset and bring-up starts. -/
  | pwrgdRelease (mf : BitVec 4)
  /-- PERST_N_RELEASE (R723): The rise of PERST_N releases the PCIe endpoint, which the tile holds in reset while PERST_N is low. -/
  | perstNRelease
  /-- COUPLER_TIME_EXCHANGE (R458): In TIME the coupler starts each of its 16 four-timestamp exchanges 1 µs apart and then takes the least delay as its path delay. -/
  | couplerTimeExchange (n : Fin 64) (frac : Fin 256)
  /-- BANK_PLL_LOCK (R473): A coupler bank's transmit PLL regains lock and CPL_PLL_LOCK returns to 1, so its couplers can train again. -/
  | bankPllLock (b : Fin 8)
  /-- HOST_LINK_CHANGE (R526): The PCIe link trains or retrains to a rate and width, which LINK_GTS and LINK_WIDTH in the Deck then reflect. -/
  | hostLinkChange (gts : Nat) (width : Nat)
  /-- VFLOOR_RECORD (R616): The voltage floor recorder's 1 ns sample finds a rail code lower than the recorded one and records it with its tick. -/
  | vfloorRecord (c : Fin 64) (code : BitVec 10)
deriving DecidableEq, Repr

end Sys2Proof
end

