-- ==== Sys2Proof/Decode.lean ====
section
/-!
DEFINITION. The words of a hand's instructions (R159, R160), and the reading of a command from a word of the opcode
table: the table gives no row any bits, so no word spells a command.
-/
namespace Sys2Proof

/-- The command that a word of the opcode table spells: none, for the table gives no row any bits. -/
def decodeTableWord (_nbits _w : Nat) : Option Instr := none

/-- The fields of an instruction word W0 other than its opcode, with W1 beside them (R160). -/
def insnOfWords (w0 w1 : DWord) : Insn where
  prd := w0.extractLsb' 53 3
  piv := w0.getLsbD 52
  dst := w0.extractLsb' 44 8
  sra := w0.extractLsb' 36 8
  srb := w0.extractLsb' 28 8
  src := w0.extractLsb' 20 8
  lng := w0.getLsbD 19
  ua := w0.getLsbD 18
  ub := w0.getLsbD 17
  uc := w0.getLsbD 16
  imb := w0.getLsbD 15
  typ := w0.extractLsb' 11 4
  fn := w0.extractLsb' 0 11
  w1 := if w0.getLsbD 19 then w1 else 0

/-- The opcode of an instruction word (R160). -/
def opcodeOfWord (w0 : DWord) : BitVec 8 := w0.extractLsb' 56 8

/-- A truth value as one bit. -/
def bitVecOf (b : Bool) : BitVec 1 := BitVec.ofBool b

/-- The instruction word W0 of an opcode and its fields (R160). -/
def wordOfInsn (opc : BitVec 8) (i : Insn) : DWord :=
  opc ++ i.prd ++ bitVecOf i.piv ++ i.dst ++ i.sra ++ i.srb ++ i.src ++ bitVecOf i.lng ++ bitVecOf i.ua
    ++ bitVecOf i.ub ++ bitVecOf i.uc ++ bitVecOf i.imb ++ i.typ ++ i.fn

end Sys2Proof
end

