-- ==== Sys2Proof/Machine/StateCodec.lean ====
section
/-!
DEFINITION. The state of compression (chapter 11): the images and histograms of the table slots.
-/
namespace Sys2Proof.Machine

/-- A SURVEY or SEAL that waits for its commit (R410, R412): its slot, its range, the table's FORMAT, ZERO_BYTE and
TABLE_ID, and the counts by symbol that a SURVEY has made. -/
structure CodecJob where
  slot : Nat
  survey : Bool
  build : Bool := false
  format : Nat := 0
  zero : Nat := 0
  tableId : Nat := 0
  addr : Nat := 0
  len : Nat := 0
  hist : NMap Nat := []
deriving DecidableEq, Repr

/-- A block that a packer is still to look at (R413): its tile-local offset, the slot of its pass, and the command. -/
structure PackJob where
  block : Nat
  slot : Nat
  id : Nat
deriving DecidableEq, Repr

/-- Table slots: images of 256 bytes by slot, histograms by slot × 272 + symbol, and how many encodes, decodes and
packer passes in progress use a slot (R400, R408, R415). -/
structure CodecSt where
  img : NMap (List Byte) := []
  hist : NMap Nat := []
  passes : NMap Nat := []
  /-- The slot operation that waits for its tick (R429). -/
  op : Option Nat := none
  /-- SURVEY and SEAL commands that wait for their commit, by the number of their command. -/
  jobs : NMap CodecJob := []
  /-- The packers' queue, in order. -/
  pack : List PackJob := []
deriving DecidableEq, Repr

end Sys2Proof.Machine
end

