-- ==== Sys2Proof/Machine/StateCp.lean ====
section
/-!
DEFINITION. The state of tasks, the command processor, the kitty and the watchers (chapters 14 and 15).
-/
namespace Sys2Proof.Machine

/-- A completion tail: the fence to signal with its value, whether to add, and whether to post an event (R571). -/
structure Tail where
  fence : Nat := 0xFFFF
  value : Nat := 0
  add : Bool := false
  evt : Bool := false
deriving DecidableEq, Repr

/-- Where a command stood, as CMD_ERROR names it (R605). -/
structure CmdAt where
  op : Nat
  addr : Nat
  /-- 0 from a list, 1 from the kitty. -/
  origin : Nat
  dseq : Nat
deriving DecidableEq, Repr

/-- A task (R590, R591, R593, R594, R246, R250). -/
structure Task where
  id : Nat
  threads : Nat
  vregs : Nat
  opg : Nat
  apg : Nat
  pc : Nat
  mask : Nat
  nweight : Nat
  params : List Byte
  tail : Tail
  /-- 0 from a list, 1 from the kitty. -/
  origin : Nat
  /-- The list whose command launched it (R587). -/
  list : Option Nat := none
  cmd : Option CmdAt := none
  /-- The cluster from which the next hand is tried. -/
  cursor : Option Nat := none
  placed : Nat := 0
  lost : Nat := 0
  flags : BitVec 6 := 0
  faults : Nat := 0
  posted : Nat := 0
  firstPlaced : Option Nat := none
  /-- No further hand is placed: ABORT (R245). -/
  aborted : Bool := false
  /-- A HALT with task scope stops placement until a RUN with task scope (R253). -/
  held : Bool := false
  /-- Some hand was dropped, aborted or killed (R246). -/
  faulted : Bool := false
  /-- Hands lost because their cluster went dark (R593). -/
  dark : Bool := false
  noCluster : Bool := false
  /-- The clusters to which its load notice has been sent, and when (R592). -/
  noticed : NMap Nat := []
deriving DecidableEq, Repr

/-- An entry of a frame's loop stack (R581): where its body or its LOOP_WHILE stands, the count of a LOOP, and the
iterations completed. -/
structure LoopEnt where
  start : Nat
  count : Option Nat
  done : Nat := 0
  /-- Its ENDLOOP has just returned to the LOOP_WHILE. -/
  back : Bool := false
deriving DecidableEq, Repr

/-- A frame: a list of `len` bytes at `base`, and the address of its current command (R575, R582). -/
structure Frame where
  base : Nat
  len : Nat
  pc : Nat
  loops : List LoopEnt := []
deriving DecidableEq, Repr

/-- What a command that waits is waiting for (R584–R586). -/
inductive CpWait where
  | fence (n target erract : Nat) (deadline : Option Nat)
  | watcher (n target : Nat) (deadline : Option Nat)
  | timer (until' : Nat) (abs : Bool)
deriving DecidableEq, Repr

/-- The list that issues (R575–R577): its number, its frames with the innermost first, word 0 of a command that
waits at its start, what it waits in, and the requests that its last command still awaits (R572, R583). -/
structure Cur where
  list : Nat
  frames : List Frame
  w0 : Option Nat := none
  wait : Option CpWait := none
  hold : List Nat := []
deriving DecidableEq, Repr

/-- A list that has begun and not completed (R587): of a descriptor, or of a kitty record with its tail. -/
structure ListRun where
  desc : Option Nat
  tail : Tail := {}
  status : Nat := 0
  ended : Bool := false
deriving DecidableEq, Repr

/-- A descriptor that the CP has fetched (R537). -/
structure Desc where
  num : Nat
  kind : Nat
  flags : Nat
  msiVec : Nat
  len : Nat
  addr : Nat
  fence : Nat
  value : Nat
  user : Nat
  /-- Its completion status, once it has one. -/
  status : Option Nat := none
  /-- The requests of its fence signal, once the signal has been sent. -/
  signalled : Option (List Nat) := none
deriving DecidableEq, Repr

/-- An asynchronous command of the data mover or of the codec engine (R571–R573, R588). -/
structure AsyncCmd where
  codec : Bool
  list : Nat
  cmd : CmdAt
  tail : Tail
  status : Nat := 0
  /-- Whether it still has work to do other than the writes it awaits. -/
  busy : Bool := false
  slot : Nat := 0
deriving DecidableEq, Repr

/-- A kitty slot that has been reserved (R596): the access whose bytes it waits for, or its record, `none` where the
read returned poison. -/
inductive KSlot where
  | reserved (core slot op part : Nat)
  | ready (rec' : Option (List Byte))
deriving DecidableEq, Repr

/-- A watcher (R600): armed or not; its kind (0 timer, 1 edge, 2 memory), what it watches, and its fire count. -/
structure Watcher where
  armed : Bool := false
  kind : Nat := 0
  edge : Nat := 0
  pin : Nat := 0
  periodic : Bool := false
  evt : Bool := false
  cmp : Nat := 0
  size8 : Bool := false
  period : Nat := 0
  addr : Nat := 0
  value : Nat := 0
  mask : Nat := 0
  fence : Nat := 0xFFFF
  /-- The next firing tick of a timer; the last captured level or result otherwise. -/
  next : Nat := 0
  last : Bool := false
  fires : Nat := 0
  /-- The boundary count at which a memory watch last completed a read. -/
  readAt : Nat := 0
deriving DecidableEq, Repr

/-- Reads that the CP makes on its own (R539, R550, R601). -/
inductive CpRead where
  | doorbell
  | ack
  | watch (n : Nat)
deriving DecidableEq, Repr

/-- What an outstanding request of a non-caching requester of this tile is for: a write or signal, with the
asynchronous command it belongs to, or a read of the CP (R321, R574). -/
inductive PostUse where
  | write (async : Option Nat)
  | read (r : CpRead)
deriving DecidableEq, Repr

/-- An outstanding request of a non-caching requester of this tile, by its tag. -/
structure PostReq where
  unit : Nat
  use : PostUse
  since : Nat
  /-- What it asks for, or writes, within one line. -/
  part : Option Part := none
  /-- The line that it concerns; none for a request to the host. -/
  line : Option Nat := none
  /-- It has timed out, and its tag is quarantined (R574). -/
  quar : Bool := false
deriving DecidableEq, Repr

/-- The command processor. -/
structure CpSt where
  /-- The descriptor fetched and not begun, and those begun whose completion actions are still to be taken. -/
  next : Option Desc := none
  descs : List Desc := []
  cur : Option Cur := none
  lists : NMap ListRun := []
  nextList : Nat := 0
  asyncs : NMap AsyncCmd := []
  nextAsync : Nat := 0
  /-- The kitty's slots in order, each reserved or ready (R596). -/
  kitty : List KSlot := []
  /-- Kitty records applied at the current command boundary (R597). -/
  burst : Nat := 0
  watch : NMap Watcher := []
  /-- What a read of the CP returned and no tick has observed yet; `none` is poison. -/
  got : List (CpRead × Option Nat) := []
  /-- The boundary count from which the next doorbell read may be made (R541). -/
  nextPoll : Nat := 0
  /-- Fences that have changed and whose change the CP has not observed (R556). -/
  fenSeen : List Nat := []
  /-- Mirrors whose record has changed since their last write, and the boundary count of each one's last write (R560). -/
  mirDue : List Nat := []
  mirLast : NMap Nat := []
  /-- The head last written back, and when (R542). -/
  headWritten : Option Nat := none
  headAt : Nat := 0
  /-- The boundary count at which an exchange was armed (R603). -/
  armed : Option Nat := none
deriving DecidableEq, Repr

end Sys2Proof.Machine
end

