-- ==== Sys2Proof/Machine/StateDeck.lean ====
section
/-!
DEFINITION. The service state of the units and what the Deck shows of it (chapters 2 and 17), and the captured pins.
-/
namespace Sys2Proof.Machine

/-- Whether a unit is retired, fused off or degraded, each with its CAUSE (R71, R75). -/
structure UnitSt where
  retired : Option Nat := none
  fused : Option Nat := none
  degraded : Option Nat := none
deriving DecidableEq, Repr

/-- What the Deck shows of one entry: STATUS, CAUSE and the words of its capability block (R79, R80). -/
structure DeckEnt where
  status : Nat
  cause : Nat
  words : List Nat
deriving DecidableEq, Repr

/-- The Deck and the units it describes. -/
structure DeckSt where
  /-- Units whose service state is not plain, by Deck entry index. -/
  units : NMap UnitSt := []
  /-- What the Deck shows, by entry index. -/
  shown : NMap DeckEnt := []
  crc : Nat := 0
  /-- Clusters being retired that still drain, with the boundary count of their deadline (R663). -/
  draining : NMap Nat := []
deriving DecidableEq, Repr

/-- The selected instruction of the test port (R743); codes that the table does not list act as BYPASS. -/
inductive TapIr where
  | extest | idcode | samplePreload | clamp | highz | obs | mbx | dbgAcc | roAddr | roData | scan | bypass
deriving DecidableEq, Repr

/-- A PMBus transaction in progress: address, transaction code, command code, bytes to write, and since when (R741);
whether the I²C command that asked for it still waits for its response (R735). -/
structure Pmb where
  addr : Nat
  txn : Nat
  code : Nat
  data : List Byte
  since : Nat
  asked : Bool := true
deriving DecidableEq, Repr

/-- The pins, the management target and the test port (chapter 19). -/
structure PinSt where
  /-- The levels of MF0–MF15 as the last tick captured them (R114). -/
  cap : Nat := 0
  /-- RESET_N, or a PWRGD pin, is low: the tile is held in a cold reset (R716, R723). -/
  resetLow : Bool := false
  pwrLow : Bool := false
  /-- By pin: the boundary count of the last function commit while its settle window may run, and the level that its pad
  held then, where the old function drove it (R733, R734). -/
  settle : NMap Nat := []
  keep : NMap (Option Bool) := []
  /-- The response that the I²C target holds: status and data (R735). -/
  resp : Option (Nat × List Byte) := none
  pmb : Option Pmb := none
  ir : TapIr := .idcode
  /-- What the last access of the test port read, and whether it was done or denied (R744). -/
  tapData : Nat := 0
  tapDone : Bool := false
  tapDenied : Bool := false
  /-- The boundary register: what was captured last, and what EXTEST and CLAMP drive (R745). -/
  bsr : Nat := 0
  bsrOut : Nat := 0
deriving DecidableEq, Repr

end Sys2Proof.Machine
end

