-- ==== Sys2Proof/Machine/StateCore.lean ====
section
/-!
DEFINITION. The state of cores, hands, clusters and home agents (chapters 4 to 9 of the spec).
-/
namespace Sys2Proof.Machine

/-- What a WAITING hand waits for (R136). -/
inductive Wait where
  | operand | branch | yield | fetch
deriving DecidableEq, Repr

/-- The states of a resident hand (R136); a slot that lists no hand is EMPTY. -/
inductive HandSt where
  | ready
  | waiting (w : Wait)
  | sleeping
  | faulted
  | debug
  | releasing
deriving DecidableEq, Repr

/-- What a fault or debug stop reports (R239, R249). -/
structure FaultRec where
  kind : Nat
  pc : DWord
  resume : DWord
  thread : Nat := 0xFF
  code : Nat := 0
  addr : Nat := 0
  time : Nat := 0
  insn : Nat := 0
  /-- A `brk` that issued without L2: CTX_FP_TRAP governs it (R261). -/
  policy : Bool := false
deriving DecidableEq, Repr

/-- Why a hand stops once its issued instructions have completed (R132, R240, R253, R259, R260, R261). -/
inductive Stop where
  | halt
  | fault (f : FaultRec)
  | debug (f : FaultRec)
deriving DecidableEq, Repr

/-- A memory or matrix instruction that has issued and not completed (R132, R198, R227).
`res` holds what each of its accesses returned, by the access's index. -/
structure MemOp where
  id : Nat
  opc : Nat
  insn : Insn
  pc : DWord
  w0 : Nat
  parts : List Part
  res : NMap PartRes := []
  started : Bool := false
deriving DecidableEq, Repr

/-- A resident hand (R129, R142, R146, R154). -/
structure Hand where
  task : Nat
  vregs : Nat
  vblk : List Nat
  osbPages : List Nat
  accPages : List Nat
  pc : DWord
  live : DWord
  preds : NMap DWord := []
  ureg : NMap DWord := []
  flags : BitVec 6 := 0
  st : HandSt := .ready
  sleepEnd : Nat := 0
  stop : Option Stop := none
  removed : Bool := false
  poison : Option FaultRec := none
  skipBp : Bool := false
  stepping : Bool := false
  ops : List MemOp := []
  nextOp : Nat := 0
  /-- The lines of the last Uncached or Host fetch, which no cache keeps (R314): the line of the program counter, and
  the next one where a long instruction crosses into it. -/
  fetchBuf : List (Nat × LineData) := []
deriving DecidableEq, Repr

/-- A register block, OSB page or ACC page: free and zeroed, held by a hand, or being zeroed (R133). -/
inductive BlkSt where
  | free | used | zeroing
deriving DecidableEq, Repr

/-- The states of a cached line (R325); an invalid line is not listed. -/
inductive CState where
  | s | e | m | o | v
deriving DecidableEq, Repr

/-- One cached line: its line address, state, data, the cores whose L1 holds it (R311), whether the win hold
runs (R335) and which snoops wait for it, and whether a prefetch filled it and nothing has used it yet (R350). -/
structure CLine where
  line : Nat
  st : CState
  data : LineData
  pres : Nat := 0
  hold : Bool := false
  snoops : List Msg := []
  pfUnused : Bool := false
deriving DecidableEq, Repr

/-- A core (R126).  Blocks and pages are physical; each hand's tables map onto them (R131). -/
structure Core where
  slots : NMap Hand := []
  rot : Nat := 0
  /-- The slot and unit of the first choice of the current cycle, while a second choice may still issue. -/
  last : Option (Nat × Nat) := none
  vb : NMap BlkSt := []
  ob : NMap BlkSt := []
  ab : NMap BlkSt := []
  vrf : NMap (List Word) := []
  osb : NMap Byte := []
  acc : NMap Word := []
  l1 : NMap CLine := []
  l1lru : NMap Nat := []
  /-- Reset invalidation of the L1 is not complete (R320). -/
  l1init : Bool := true
  ic : NMap CLine := []
  iclru : NMap Nat := []
  /-- Reset invalidation of the instruction cache is not complete. -/
  icinit : Bool := true
  /-- The load/store and compute queues of the matrix engine: slot and operation number, oldest first. -/
  lsq : List (Nat × Nat) := []
  cq : List (Nat × Nat) := []
  gate : Bool := false
  /-- The boundary at which the notice gate opened or an `mma` last started (R233). -/
  mmaAt : Nat := 0
deriving DecidableEq, Repr

/-- The access that waits for a request: an operation of a hand, and the index of its access. -/
structure Waiter where
  core : Nat
  slot : Nat
  op : Nat
  part : Nat
deriving DecidableEq, Repr

/-- What an outstanding request of a cluster is for: a demand access, an instruction fetch of a hand, or a prefetch,
which may fill the L1 (`false`) or the instruction cache (`true`) of a core too (R317, R318). -/
inductive ReqUse where
  | demand
  | fetch (core slot : Nat)
  | prefetch (l1 : Option (Nat × Bool))
deriving DecidableEq, Repr

/-- A request tag in use (R343): what was asked, who waits, when the tag was taken, whether it is quarantined (R344),
and whether its fill may not allocate (R303). -/
structure Req where
  kind : MsgKind
  home : HomeId
  line : Nat
  use : ReqUse := .demand
  waiters : List Waiter := []
  part : Option Part := none
  /-- CMODE of a Staged request, and HINT of its access (R313, R389). -/
  cmode : Nat := 0
  hint : Nat := 0
  since : Nat
  quar : Bool := false
  noAlloc : Bool := false
deriving DecidableEq, Repr

/-- An assembly buffer: a block of an entropy window being gathered (R425). -/
structure AsmBuf where
  block : Nat
  bytes : NMap Byte
  /-- The boundary count of the last store to it. -/
  since : Nat
  /-- An uncorrectable array word has made every granule of it POISON (R659). -/
  poison : Bool := false
deriving DecidableEq, Repr

/-- A cluster: its cluster cache, writeback buffer, request tags and assembly buffers. -/
structure Cluster where
  cc : NMap CLine := []
  cclru : NMap Nat := []
  /-- Reset invalidation of the cluster cache is not complete. -/
  ccinit : Bool := true
  wbuf : List CLine := []
  reqs : NMap Req := []
  /-- The cluster is leaving coherence: it allocates nothing (R347). -/
  leaving : Bool := false
  asm : List AsmBuf := []
deriving DecidableEq, Repr

/-- Directory states (R327); a FREE entry is not listed. -/
inductive DirSt where
  | shared | excl | owned
deriving DecidableEq, Repr

/-- A directory entry (R327, R328). -/
structure DirEntry where
  ls : Nat
  st : DirSt
  owner : Option Agent
  ptrs : List Agent := []
  coarse : Bool := false
  cvec : Nat := 0
  gvec : Nat := 0
deriving DecidableEq, Repr

/-- What a home does once every snoop of a PENDING line has been answered. -/
inductive TxnGoal where
  | request
  | backInval (forReq : Msg)
  | reclaim
  | retireWalk
deriving DecidableEq, Repr

/-- A PENDING line: its request, the agents still to answer (unit 64 of a tile stands for the tile's copy of a
multicast), when the snoops fall overdue, and the data supplied so far (R330, R338, R515). -/
structure Txn where
  ls : Nat
  req : Msg
  goal : TxnGoal
  wait : List Agent := []
  due : Nat
  data : Option LineData := none
  dirty : Bool := false
  /-- The owner did not supply the line (R338, R340). -/
  lost : Bool := false
deriving DecidableEq, Repr

/-- An entry of the dead-agent table: one agent, or with `all` every agent of its tile (R339). -/
structure DeadEntry where
  agent : Agent
  all : Bool
  time : Nat
deriving DecidableEq, Repr

/-- A range of lost lines of one home, waiting to be reported (R341). -/
structure LossRange where
  agent : Agent
  all : Bool
  time : Nat
  first : Nat
  count : Nat
  found : Nat
deriving DecidableEq, Repr

/-- A home agent and the coherence side of its memory controller. -/
structure HomeSt where
  dir : NMap DirEntry := []
  dirlru : NMap Nat := []
  /-- Reset invalidation of the directory is not complete. -/
  dirinit : Bool := true
  inbound : List Msg := []
  txns : List Txn := []
  /-- Reclamation walks still to run, the running one included (R340). -/
  walks : Nat := 0
  /-- The declarations that the walks still to run carry (R340). -/
  reclaim : List DeadEntry := []
  losses : List LossRange := []
  /-- Reset invalidation of the length-map cache is not complete (R392). -/
  lmapinit : Bool := true
deriving DecidableEq, Repr

end Sys2Proof.Machine
end

