-- ==== Sys2Proof/Machine/StateHost.lean ====
section
/-!
DEFINITION. The state of the host interface (chapter 14): what the tile has sent through its PCIe port, and what
it waits for.
-/
namespace Sys2Proof.Machine

/-- What the tile has sent through its PCIe port, in posted order (R305, R307, R546). -/
inductive HostMsg where
  | write (addr : Nat) (data : List Byte) (ep : Bool)
  | msi (vec : Nat)
  | read (tag addr size : Nat)
  | atomic (tag addr : Nat) (op : AmoOp) (size c new : Nat)
  | completion (data : List Byte) (ep : Bool)
deriving DecidableEq, Repr

/-- What a non-posted host request is for: an access of a hand, or a poll of the CP. -/
inductive HostUse where
  | hand (w : Waiter) (amo : Bool)
  | fetch (core slot : Nat)
  | cp (r : CpRead)
  | post (tag : Nat)
deriving DecidableEq, Repr

/-- A non-posted request toward the host (R531). -/
structure HostReq where
  use : HostUse
  since : Nat
deriving DecidableEq, Repr

/-- A BAR2 request under way: what it is, how many pieces it has, and what each answered piece gave (R530). -/
structure BarReq where
  write : Bool
  total : Nat
  res : NMap (PartRes × Bool) := []
deriving DecidableEq, Repr

/-- The host interface. -/
structure HostSt where
  out : List HostMsg := []
  reqs : NMap HostReq := []
  /-- BAR2 requests under way, by a number of the model's. -/
  bar : NMap BarReq := []
  /-- DROPPED of the next event record (R549). -/
  dropped : Nat := 0
  /-- The MSI-X hold-off: records posted since the last message, and when that message was sent (R552). -/
  posted : Bool := false
  lastMsi : Option Nat := none
  /-- When RING_ERROR cause 6 was last posted (R551). -/
  lastRead : Option Nat := none
  /-- The PCIe link: rate and width in use, as LINK_GTS and LINK_WIDTH show them (R526). -/
  linkGts : Nat := 0
  linkWidth : Nat := 0
  /-- The endpoint is held in reset (R723). -/
  inReset : Bool := false
  /-- The MSI-X table's sixteen entries (address, data, mask) and the pending-bit array (R527); an unlisted entry is
  masked. -/
  msixTable : NMap (Nat × Nat × Bool) := []
  msixPending : List Nat := []
  /-- The epoch of the last context created since the last cold or warm reset (R534). -/
  lastEpoch : Option Nat := none
deriving DecidableEq, Repr

end Sys2Proof.Machine
end

