-- ==== Sys2Proof/Machine/StateLink.lean ====
section
/-!
DEFINITION. The state of the couplers and of the route table (chapters 12 and 13).
-/
namespace Sys2Proof.Machine

/-- A flit: its 60 body bytes, and whether it is a lead flit (R474, R475). -/
structure Flit where
  lead : Bool
  body : List Byte
deriving DecidableEq, Repr

/-- A packet that waits to leave: its receive sub-channel at the neighbour, whether it takes a coupler tag, and its
flits (R477, R491, R493). -/
structure TxPkt where
  sub : Nat
  tagged : Bool
  flits : List Flit
deriving DecidableEq, Repr

/-- The books and the replay state of one coupler (R491–R501).  Sub-channels are 0–6; index 7 of the books stands for
the coupler tags. -/
structure RolSt where
  txSeq : Nat := 0
  rxSeq : Nat := 0
  queue : List TxPkt := []
  /-- Flits sent and not acknowledged, oldest first, by number. -/
  unack : List (Nat × Flit) := []
  /-- Credits and tags available to send, and the last cumulative return received. -/
  credit : NMap Nat := []
  /-- The neighbour's grants. -/
  grant : NMap Nat := []
  base : NMap Nat := []
  /-- Returns made so far. -/
  ret : NMap Nat := []
  /-- The neighbour's grants have been taken, and it has acknowledged a flit of this end (R501). -/
  granted : Bool := false
  heard : Bool := false
  /-- Whether a sequenced flit has been accepted, so that ACK_SEQ means something. -/
  accepted : Bool := false
  /-- The receiver discards (R497), and how many sequenced flits it still drops after a REPLAY. -/
  disc : Bool := false
  skip : Nat := 0
  /-- The lead flit and data flits of a packet that still waits for data. -/
  open' : List Flit := []
  /-- Sequenced flits accepted since the last LINK sent, and when it was sent. -/
  arrived : Nat := 0
  linkAt : Nat := 0
  /-- When ACK_SEQ last rose or the oldest unacknowledged flit was sent (R498). -/
  ackAt : Nat := 0
  /-- REPLAY_SEQ of the last replay, until a flit at or after it is acknowledged (R499). -/
  replay : Option Nat := none
  failRun : Nat := 0
  /-- When a sequenced flit was last sent or received, and whether the audit of this quiet time is done (R494). -/
  busyAt : Nat := 0
  audited : Bool := false
deriving DecidableEq, Repr

/-- An equaliser update under way (R467, R468): its sequence number, its tick, and the new taps. -/
structure EqUpd where
  seq : Nat
  tick : Nat
  taps : Nat
deriving DecidableEq, Repr

/-- One coupler. -/
structure CplSt where
  /-- The boundary at which the link state, and at which TRAIN and its phase, began. -/
  since : Nat := 0
  trainAt : Nat := 0
  phase : Nat := 0
  phaseAt : Nat := 0
  /-- When the coupler last left ACTIVE and DEGRADED (R338). -/
  downAt : Nat := 0
  /-- TRAIN and IDENTIFY run as a retrain (R461). -/
  retrain : Bool := false
  /-- Consecutive failed attempts (R441). -/
  failRun : Nat := 0
  /-- The logical number of each physical receive lane (R431). -/
  laneOf : NMap Nat := []
  /-- Receive lanes that the last frames of the neighbour report ready in the phase, as runs of frames (R449). -/
  ready : NMap Nat := []
  /-- Qualified receive lanes, and the neighbour's report of this end's transmit lanes, by logical number. -/
  qual : Nat := 0
  farQual : Nat := 0
  farMax : Nat := 0
  /-- Consecutive attempts in which a receive lane did not qualify (R453). -/
  badRun : NMap Nat := []
  /-- Lanes to retire at the next retrain, as codes of CPL_LANE_RETIRE_SEL. -/
  retireDue : List Nat := []
  width : Nat := 0
  /-- The tile retired the coupler because a direction has no lane left (R453), or by command (R666). -/
  gone : Bool := false
  /-- Route use has ended and the coupler drains before retirement, since a boundary (R666). -/
  leaving : Option Nat := none
  /-- IDENTIFY: this end's NONCE, whether the neighbour acknowledged, its payload, and the state of the seal. -/
  nonce : List Byte := []
  acked : Bool := false
  sentValid : Bool := false
  /-- A retrain has found its neighbour again, and the coupler returns at a tick (R462). -/
  resume : Bool := false
  far : Option (List Byte) := none
  sealed : Bool := false
  sentAt : Nat := 0
  heardAt : Nat := 0
  /-- No IDENTIFY has been sent since the last cold or warm reset (R454). -/
  fresh : Bool := true
  /-- TIME: exchanges started and finished, SEQ of the last TIME_REQ, its t1, and the least delay (R458). -/
  started : Nat := 0
  ended : Nat := 0
  seq : Nat := 0
  t1 : Option Nat := none
  least : Option Nat := none
  /-- Low power: this end asked, since when; it accepted; exit in progress since (R464, R465, R507). -/
  lpAsked : Option Nat := none
  lpRefused : Nat := 0
  lpGoing : Bool := false
  lpExit : Option Nat := none
  /-- Updates that this end asked for, by logical receive lane, and those it has accepted, by transmit lane. -/
  eqOut : NMap EqUpd := []
  eqIn : NMap EqUpd := []
  eqSeq : Nat := 0
  /-- Adaptation of a receive lane is frozen around this tick (R468). -/
  freeze : NMap Nat := []
  rol : RolSt := {}
  /-- What Rollipor holds while a retrain runs (R462, R500). -/
  held : Option RolSt := none
  /-- Good control flits that wait to be acted on, oldest first: body and data. -/
  ctl : List (List Byte × List Byte) := []
  /-- Packets in the receive buffer that wait to be forwarded: their flits, by arrival. -/
  transit : List (List Flit) := []
  /-- What this end has sent on its lanes, oldest first: 64-byte flits. -/
  wire : List (List Byte) := []
  /-- Beacons sent (R445). -/
  beacons : Nat := 0
  /-- When the coupler last announced root and depth, or sent a beacon (R105, R445). -/
  annAt : Option Nat := none
  beaconAt : Option Nat := none
deriving DecidableEq, Repr

/-- The route table and the packets that wait for a route (chapter 13). -/
structure RteSt where
  /-- Entries of R508 as 128-bit numbers, by generation × 65,536 + tile ID; they are not reset (R509). -/
  ent : NMap Nat := []
  /-- The route-wait queue: lead flit and data flits, whether this tile originated the packet, the message it carries,
  and since when it waits (R511). -/
  wait : List (List Flit × Option Msg × Nat) := []
  /-- Parts of transactions received so far: source tile, RQ, part, last part, and flits (R484). -/
  parts : List (Nat × Nat × Nat × Nat × List Flit) := []
  /-- Requests of other tiles that lie in two lines: tile, unit, tag, line, part; and the acknowledgements seen. -/
  split : List (Nat × Nat × Nat × Nat × Nat) := []
  splitBad : NMap Nat := []
  /-- Requests sent to other tiles, as unit, tag and line (R487). -/
  flight : List (Nat × Nat × Nat) := []
  /-- Generations being filled, as a mask, and the generation of the armed switch. -/
  fill : Nat := 0
  swGen : Nat := 0
  /-- When the switch was armed, and when the drain of the former generation ends. -/
  swAt : Nat := 0
  drainEnd : Nat := 0
  /-- The former generation once its drain has ended, until the next switch is armed (R520). -/
  stale : Option Nat := none
deriving DecidableEq, Repr

end Sys2Proof.Machine
end

