-- ==== Sys2Proof/Machine/StateMgc.lean ====
section
/-!
DEFINITION. The management controller's record and books (chapter 17).
-/
namespace Sys2Proof.Machine

/-- A retirement with a drain (R662, R663, R666): 1 a cluster, 2 a coupler; its number, its cause, and the hands removed
so far. -/
structure Retire where
  kind : Nat
  unit : Nat
  cause : Nat
  hands : Nat := 0
  /-- The boundary count at which it fell due. -/
  since : Nat := 0
deriving DecidableEq, Repr

/-- The record of the management controller and the ledger. -/
structure MgcSt where
  /-- Failed audits, fatal errors, thermal trips and collapses, kept for thresholds 7 and 9–11 across resets (R668). -/
  kept : NMap Nat := []
  /-- The 24-hour window of fabric time to which the counts below belong (R662). -/
  window : Nat := 0
  /-- Uncorrectable granules and array words of the current window since the last cold or warm reset (R668). -/
  ueGran : Nat := 0
  ueWord : Nat := 0
  /-- Uncorrectable array words of a cluster, and entries of a coupler into DOWN with cause 4, in the current window
  (R755). -/
  cluUe : NMap Nat := []
  cplDown : NMap Nat := []
  /-- When a cluster, or 64 for the rest of the tile, last posted SRAM_ERROR, and how many it has held back since
  (R659). -/
  sram : NMap (Nat × Nat) := []
  /-- The retirement with a drain in progress, and those that wait (R667). -/
  busy : Option Retire := none
  due : List Retire := []
  /-- ISSUED of each instance of each book, by book × 65,536 + instance (R671). -/
  issued : NMap Nat := []
  /-- What an instance counts as outstanding beyond what is allocated: a leak that no audit has found yet (R674). -/
  leak : NMap Nat := []
  /-- Instances that have been out of their quiescent point since their last audit (R673). -/
  unquiet : NMap Bool := []
deriving DecidableEq, Repr

end Sys2Proof.Machine
end

