-- ==== Sys2Proof/Machine/StatePwr.lean ====
section
/-!
DEFINITION. The state of power delivery and power states (chapter 16).
-/
namespace Sys2Proof.Machine

/-- A change of frequency under way (R613): the new frequency, and the boundary count at which the rail has moved as far
as the frequency needs. -/
structure FreqChange where
  target : Nat
  at' : Nat
deriving DecidableEq, Repr

/-- One regulator with its cluster's clock. -/
structure RegSt where
  /-- The frequency of the cluster's clock while it runs, in MHz. -/
  freq : Nat := 0
  change : Option FreqChange := none
  /-- The cluster's thermal limit, and the boundary counts at which it last fell and rose (R643). -/
  thermal : Nat := 2000
  fellAt : Nat := 0
  roseAt : Nat := 0
  /-- Clock edges that the clamp removes, in 16, and when it last changed (R614). -/
  edges : Nat := 0
  clampAt : Nat := 0
  /-- The droop guard drops every second edge (R615). -/
  droop : Bool := false
  /-- The weight of the notice that awaits acknowledgement, and the boundary count from which the rail can have reached
  its setpoint (R627). -/
  wait : Option Nat := none
  waitAt : Nat := 0
  /-- The boundary at which the turn-on in progress began (R622), and at which the wake that asked for it was seen. -/
  onAt : Nat := 0
  wakeAt : Option Nat := none
  /-- The earliest tick at which the voltage floor recorder's code was reached (R616). -/
  floorTick : Nat := 0
  /-- The cluster is leaving coherence for T2 (R632). -/
  entering : Bool := false
deriving DecidableEq, Repr

/-- Power delivery. -/
structure PwrSt where
  /-- Load notices on their way: the cluster and the weight, oldest first (R625). -/
  notices : List (Nat × Nat) := []
  regs : NMap RegSt := []
  /-- The boundary count since which a region has met its condition: clusters 0–63, memory controllers 64–71, coupler
  banks 72–79 (R632). -/
  idle : NMap Nat := []
  /-- Coupler banks in T4. -/
  t4 : List Nat := []
  /-- Boundaries spent in the tile state `n` beyond the whole microseconds that PWR_RES_T_n shows (R652). -/
  part : NMap Nat := []
  /-- When the governor last acted (R645). -/
  govAt : Nat := 0
  /-- When telemetry was last sampled (R648, R649). -/
  sampleAt : Nat := 0
deriving DecidableEq, Repr

end Sys2Proof.Machine
end

