-- ==== Sys2Proof/Machine/StateSec.lean ====
section
/-!
DEFINITION. The security state (chapter 18): fuses, package flash, tokens, the mailbox path, and the bring-up.
-/
namespace Sys2Proof.Machine

/-- The one-time fuses that a tile burns itself (R683). -/
structure Fuses where
  /-- Every bit of DEVICE_SECRET is burned (R690, R694). -/
  secretGone : Bool := false
  provisioned : Bool := false
  retired : Bool := false
  /-- LC_TOGGLES bits burned. -/
  toggles : Nat := 0
  /-- OWNER_HASH_0 and on, as far as they are burned. -/
  owners : List (List Byte) := []
  /-- SVN bits burned. -/
  svn : Nat := 0
deriving DecidableEq, Repr

/-- A token in force: its level, its duration in seconds (0 until a reset), and the boundary count of its acceptance
(R698, R701). -/
structure Token where
  level : Nat
  secs : Nat
  since : Nat
deriving DecidableEq, Repr

/-- A security event: what it does and what SEC_EVENT says of it (R707). -/
inductive SecAct where
  | grant (vendor : Bool) (level secs : Nat) (path : Path)
  | rejected (path : Path) (result : Nat)
  | expired (vendor : Bool)
  | relinquish (vendor : Bool) (path : Path)
  | lifecycle (target : Nat) (path : Path)
  | activated (path : Path)
  | badImage (path : Path) (result : Nat)
  | sealFail (coupler : Nat)
  | ownerKey (path : Path)
deriving DecidableEq, Repr

/-- The security hardware, the package flash and the state of the MGC firmware. -/
structure SecSt where
  fuses : Fuses := {}
  /-- The contents of slots A (0) and B (1); an unlisted slot A holds the image it left the factory with (R685). -/
  flash : NMap (List Byte) := []
  /-- The slot that holds a trial mark (R688, R705). -/
  trial : Option Nat := none
  /-- How many bytes FW_STAGE has written into the slot that is not running. -/
  staged : Nat := 0
  /-- Challenges issued since the tile left BLANK (R700). -/
  issued : Nat := 0
  /-- The current challenge and the boundary count of its issue (R702). -/
  challenge : Option (List Byte × Nat) := none
  owner : Option Token := none
  vendor : Option Token := none
  /-- Tokens rejected since the last cold or warm reset (R703). -/
  rejected : Nat := 0
  /-- RELINQUISH in BLANK has lowered the free level to L0 until the next reset (R708). -/
  lowered : Bool := false
  /-- A lifecycle transition has been made, at this boundary: a warm reset follows (R695). -/
  resetDue : Option Nat := none
  /-- The persistent record is to be cleared, for the tile has left BLANK (R694). -/
  clearRecord : Bool := false
  /-- An activation has been accepted, at this boundary and by this path: a restart follows (R705). -/
  restartDue : Option (Nat × Path) := none
  /-- Neither slot is valid: the MGC stays in recovery (R689). -/
  recovery : Bool := false
  /-- The stored board record, and the staging copy (R730, R731). -/
  board : Option (List Byte) := none
  staging : List Byte := List.replicate 128 0
  /-- The stored record that was last applied was not valid (R730). -/
  badBoard : Bool := false
  /-- The subsystem IDs, where a board record has set them (R730). -/
  subsys : Option (Nat × Nat) := none
deriving DecidableEq, Repr

end Sys2Proof.Machine
end

