-- ==== Sys2Proof/Machine/StateTick.lean ====
section
/-!
DEFINITION. Tick events as data (R116, R750), the state of the tick domain and of fabric time (chapter 3),
and the state of local memory (chapter 10).
-/
namespace Sys2Proof.Machine

/-- The reset levels, deepest first (R116). -/
inductive ResetLevel where
  | cold | warm | context
deriving DecidableEq, Repr

/-- What one sample of the sensor network reads (R648): VIN_CORE in mV and mA, the rail code and the current of each
cluster, and the temperature of each sensor. -/
structure Sample where
  mv : Nat
  ma : Nat
  clus : List (Nat × Nat)
  temps : List Nat
deriving DecidableEq, Repr

/-- What an event does when it is applied: one constructor for each kind of event that the spec places in a class
of the trump order and that can wait for the next tick. -/
inductive TickAct where
  | reset (level : ResetLevel) (cause : Nat)
  | brake (src : Nat) (coupler : Option Nat)
  | undervoltage (mv : Nat)
  | gateFault (cluster check stage mv : Nat)
  | thermalTrip (sensor temp : Nat)
  | fatal (cond entry : Nat)
  | security (a : SecAct)
  | debugCmd (cmd core slot scope task : Nat)
  | doorbell (tail epoch : Nat)
  | ackWord (ack epoch : Nat)
  | fenceSeen (n value : Nat)
  | shadowCommit (b : Block) (inst : Nat)
  | windowCommit
  | ctxCreate
  | slotOp (op : Nat)
  | codecOp (id : Nat)
  | fenceInit
  | ledgerSnap (issued out : Nat)
  | channelRetire (k ch cause : Nat)
  | unitRetire (kind unit cause : Nat)
  | phaseRetire (cluster : Nat)
  | routeSwitch
  | wakeTolerance (ns : Nat)
  | exchange
  | replayStart
  | replayEnd
  | pinFunc
  | watchFire (id kind level : Nat)
  | telemetry (s : Sample)
  | linkUp (coupler : Nat)
  | eqApply (coupler lane : Nat)
  | tileId
deriving DecidableEq, Repr

/-- An event with its class and source index (R116). -/
structure TickEvt where
  cls : Nat
  src : Nat
  act : TickAct
deriving DecidableEq, Repr

/-- The record of the current tick that the trump order needs: how far application has come, and what has been
applied that can make later events moot (R117). -/
structure TickRec where
  cls : Nat := 0
  src : Nat := 0
  reset : Option ResetLevel := none
  brake : Bool := false
  dark : List Nat := []
  level : Option Nat := none
deriving DecidableEq, Repr

/-- An offered parent: what a coupler last announced (R105). -/
structure Offer where
  root : Nat
  depth : Nat
deriving DecidableEq, Repr

/-- Fabric time, the tick record, the events that belong to the next tick, and time alignment (chapter 3). -/
structure TimeSt where
  /-- Fabric time (R99). -/
  now : Nat := 0
  /-- Tick boundaries since the last cold reset; unlike fabric time it is never stepped, so waits in µs count on it. -/
  bnd : Nat := 0
  /-- A cold reset has been released: fabric time is 0 at the next boundary (R100). -/
  restart : Bool := false
  cur : TickRec := {}
  due : List TickEvt := []
  /-- Events of the current tick that wait for the brake of this tick to be applied, in trump order. -/
  ready : List TickEvt := []
  offers : NMap Offer := []
  parent : Option Nat := none
  hadParent : Bool := false
  /-- Timestamps of the running exchange with the parent, in 1/256 tick: t1 as sent (R108). -/
  t1 : Option Nat := none
  /-- The slew still to be made, in 1/256 tick (R109). -/
  slew : Int := 0
  /-- A step of fabric time that falls due at the next boundary, with the boundary it was found at (R109). -/
  step : Option (Int × Nat) := none
  /-- When the last measurement on the parent began (R108). -/
  measured : Option Nat := none
  /-- The ring that a replay reads, fixed at its commit: its base, its records, how many are still to be stepped through,
  and the boundary at which one was last applied (R124). -/
  replayBase : Nat := 0
  replaySize : Nat := 0
  replayLeft : Nat := 0
  replayLast : Nat := 0
deriving DecidableEq, Repr

/-- The brake record and the progress of the stop (R265, R268, R279), and the image layout of the read-out (R275). -/
structure BrkSt where
  /-- The boundary count at which the brake was applied. -/
  bnd : Nat := 0
  held : List TickEvt := []
  heldTimes : List Nat := []
  heldCount : Nat := 0
  /-- The fabric time at which each row of R268 stopped, by row. -/
  rows : NMap Nat := []
  /-- What a received brake flit says: ORIGIN, ORIGIN_VALID, ORIGIN_TICK and HOPS (R505). -/
  origin : Option (Nat × Nat × Nat × Nat) := none
  /-- The image layout is fixed, and for which setting of BRK_RO_MEM (R275). -/
  layout : Option Bool := none
  /-- BRAKE_OUT_N is driven low (R270). -/
  outLow : Bool := false
  /-- The offset of the next byte the test port reads (R744). -/
  roAddr : Nat := 0
deriving DecidableEq, Repr

/-- Local memory (chapter 10): its bytes, the granules that are not GOOD, the symbol errors that a granule's stored
code word has taken (position and exclusive-or value, R356), and the spare rows and channels' housekeeping.
An unlisted byte reads 0 and an unlisted granule is GOOD, as initialisation leaves them (R365). -/
structure MemSt where
  cells : List Host.Cell := []
  gran : NMap GState := []
  err : NMap (List (Nat × BitVec 16)) := []
  /-- Errors of a row since it was spared, by controller and row (R372). -/
  rowErr : NMap Nat := []
  /-- Rows that need sparing, by controller and row, with the boundary since which they wait. -/
  rowDue : NMap Nat := []
  /-- When a pseudo-channel last posted MEM_UE, and how many it has held back since (R383). -/
  uePost : NMap (Nat × Nat) := []
  /-- By pseudo-channel: the index of the next line its scrub reads, and when it last took a step; by controller: the
  pseudo-channels that have wrapped since the last pass, as a mask (R369–R371). -/
  scrub : NMap Nat := []
  scrubAt : NMap Nat := []
  scrubWrapped : NMap Nat := []
  /-- The rows on the persistent record of each controller: they have been replaced by spare rows (R372). -/
  spared : NMap (List Nat) := []
  /-- New uncorrectable granules of a channel in the current window (R374, R755). -/
  ueWin : NMap Nat := []
  /-- Training failures in a row of a pseudo-channel (R379). -/
  calRun : NMap Nat := []
  /-- Read phase and write delay of a pin, in 1/64 UI (R378, R379). -/
  phase : NMap Int := []
  wdelay : NMap Int := []
  /-- The channel retirement in progress at a controller: its channel and cause, and how far it has come (R374). -/
  retire : NMap (Nat × Nat × Nat) := []
  selfRefresh : NMap Bool := []
deriving DecidableEq, Repr

end Sys2Proof.Machine
end

