-- ==== Sys2Proof/Machine/State.lean ====
section
/-!
DEFINITION. The state of the tile as plain data, the reasons a command can stop, and the state after reset.
-/
namespace Sys2Proof.Machine

/-- Why the machine stops with a fault. -/
inductive Fault where
  /-- A write sets a reserved bit, or breaks another "must" for which the spec gives no outcome: the behaviour of
  the tile is then not defined (R8, R30).  Raised by register writes.  Safe: nothing is claimed of such a run. -/
  | notDefined
deriving DecidableEq, Repr

/-- Why a command is refused. -/
inductive Refusal where
  /-- The command has no meaning yet.  Raised only by arms of `exec`.  Safe. -/
  | notModelled (mnemonic : String)
deriving DecidableEq, Repr

/-- The tile. -/
structure State where
  /-- The commands that wait, first in, first out. -/
  pending : List Instr := []
  /-- The model's own counter for free values; no rule of the spec names it. -/
  free : Nat := 0
  /-- Register fields in force, by field, instance and index; an unlisted field holds its reset value. -/
  regs : NMap Nat := []
  /-- Class S shadows that wait for their commit (R676). -/
  shadow : NMap Nat := []
  time : TimeSt := {}
  mem : MemSt := {}
  cores : NMap Core := []
  clus : NMap Cluster := []
  homes : NMap HomeSt := []
  /-- Messages on the mesh of this tile, oldest first. -/
  mesh : List Msg := []
  /-- Messages for other tiles that no coupler has taken yet, with the tile each is for. -/
  xmit : List (Nat × Msg) := []
  /-- The dead-agent table (R339). -/
  dead : List DeadEntry := []
  /-- The remote line filter (R333). -/
  filter : NMap Nat := []
  /-- Reset invalidation of the remote line filter is not complete (R320). -/
  filterInit : Bool := true
  /-- The window entries that a commit in progress changes, and their new fields (R290). -/
  winEntries : List Nat := []
  winNew : NMap Nat := []
  /-- Outstanding requests of the non-caching requesters of this tile, by tag (R321, R574). -/
  posted : NMap PostReq := []
  /-- Home tiles from which a DEAD completion has come and whose REJOIN is not yet acknowledged, with the cluster or 64
  for the whole tile (R342). -/
  rejoin : List (Option Nat × Nat) := []
  rte : RteSt := {}
  /-- The couplers, by number. -/
  cpls : NMap CplSt := []
  host : HostSt := {}
  /-- The tasks issued and not complete, by task ID (R590). -/
  tasks : NMap Task := []
  cp : CpSt := {}
  brk : BrkSt := {}
  pwr : PwrSt := {}
  mgc : MgcSt := {}
  codec : CodecSt := {}
  sec : SecSt := {}
  deck : DeckSt := {}
  pin : PinSt := {}
deriving DecidableEq, Repr

/-- The tile right after reset: every part at the value its own declaration gives. -/
def State.reset : State := {}

end Sys2Proof.Machine
end

