-- ==== Sys2Proof/Machine/Ops.lean ====
section
/-!
DEFINITION. The operations that every family shares: reading and writing register fields, addresses and windows,
sending messages and host writes, posting events, and applying events in the trump order.
-/
namespace Sys2Proof.Machine

/-- The outcome of a command that always completes. -/
def done (s : State) : Host.Outcome State Fault Refusal := .next s

/-! ### Register fields -/

/-- The key of entry `n` of a field in instance `inst` of its block. -/
def regKey (f : Field) (inst n : Nat) : Nat := Nat.pair f.ctorIdx (Nat.pair inst n)

/-- The reset value of entry `n` of a field: the table's, or by entry where the table gives one for each
(R491, R668; the fused voltage table of R653 is a DESIGN CHOICE of the model, log entry 6). -/
def resetValue (f : Field) (n : Nat) : Nat :=
  match f with
  | .CPL_RXBUF => [192, 64, 192, 64, 96, 32, 16].getD n 0
  | .MGC_SVC_LIM => [2, 8, 2, 1, 1024, 8, 2, 1, 64, 1, 1, 1].getD n 0
  | .CRG_VF => 220 + 20 * n
  | f => f.spec.reset

/-- The value in force of a field. -/
def State.reg (s : State) (f : Field) (inst : Nat := 0) (n : Nat := 0) : Nat :=
  NMap.get (resetValue f n) s.regs (regKey f inst n)

/-- Puts a value into force. -/
def State.setReg (s : State) (f : Field) (v : Nat) (inst : Nat := 0) (n : Nat := 0) : State :=
  { s with regs := NMap.set (resetValue f n) s.regs (regKey f inst n) v }

/-- A 64-bit quantity from its LO and HI fields (R23); LO fields that start above bit 0 keep their place. -/
def State.reg64 (s : State) (lo hi : Field) (inst : Nat := 0) (n : Nat := 0) : Nat :=
  (s.reg lo inst n) <<< lo.spec.lo + (s.reg hi inst n) * 2 ^ 32

/-- Sets a 64-bit quantity kept as LO and HI fields. -/
def State.setReg64 (s : State) (lo hi : Field) (v : Nat) (inst : Nat := 0) (n : Nat := 0) : State :=
  (s.setReg lo ((v % 2 ^ 32) >>> lo.spec.lo) inst n).setReg hi (v / 2 ^ 32 % 2 ^ 32) inst n

/-- Adds to a counter that saturates at 0xFFFF_FFFF. -/
def State.count (s : State) (f : Field) (inst : Nat := 0) (n : Nat := 0) (by' : Nat := 1) : State :=
  s.setReg f (satAdd32 (s.reg f inst n) by') inst n

/-- Whether a one-bit field is 1. -/
def State.isSet (s : State) (f : Field) (inst : Nat := 0) (n : Nat := 0) : Bool := s.reg f inst n == 1

/-- What a read of a shadowed field returns: the value that waits for its commit, or the value in force (R26, R676). -/
def State.regS (s : State) (f : Field) (inst : Nat := 0) (n : Nat := 0) : Nat :=
  (NMap.find? s.shadow (regKey f inst n)).getD (s.reg f inst n)

/-- Writes the shadow of a field. -/
def State.setShadow (s : State) (f : Field) (v : Nat) (inst : Nat := 0) (n : Nat := 0) : State :=
  { s with shadow := NMap.insert s.shadow (regKey f inst n) v }

/-- The class S fields of a block that commit together at the first tick after their writes; the window table and the tile
ID have commits of their own (R290, R739). -/
def Block.shadows (b : Block) : List Field :=
  if b = .TILE then [] else
  b.fields.filter fun f => f.spec.shadowed && f != .MGC_TILE_ID && f != .MGC_TILE_ID_VALID

/-- The entries of a block's instance whose shadows wait, as field, instance and index.  The breakpoints and watchpoints
of the DEBUG block belong to each core; a TIK_REPLAY of 1 has a commit of its own (R124). -/
def State.waiting (s : State) (b : Block) (inst : Nat) : List (Field × Nat × Nat) :=
  if s.shadow.isEmpty then [] else
  b.shadows.flatMap fun f =>
    (if b = .DBG then List.range 256 else [inst]).flatMap fun i =>
      ((List.range f.spec.count).filter fun n => match NMap.find? s.shadow (regKey f i n) with
        | some v => !(f == .TIK_REPLAY && v == 1)
        | none => false).map fun n => (f, i, n)

/-- Drops shadows: they hold the values in force again (R676). -/
def State.dropShadows (s : State) (l : List (Field × Nat × Nat)) : State :=
  { s with shadow := foldState (fun m x => NMap.erase m (regKey x.1 x.2.1 x.2.2)) l s.shadow }

/-- Counts an allocation in an instance of a book, which is then out of its quiescent point (R671, R673). -/
def State.issue (s : State) (book inst : Nat) (n : Nat := 1) : State :=
  if n = 0 then s else
  let key := book * 65536 + inst
  { s with mgc := { s.mgc with issued := NMap.set 0 s.mgc.issued key (NMap.get 0 s.mgc.issued key + n),
                               unquiet := NMap.insert s.mgc.unquiet key true } }

/-- Counts a configuration error of a block (R25, R28). -/
def State.cfgErr (s : State) (b : Block) (inst : Nat := 0) : State := s.count b.cfgErr inst

/-! ### Parts of the state by number -/

def State.core (s : State) (c : Nat) : Core := NMap.get {} s.cores c
def State.setCore (s : State) (c : Nat) (v : Core) : State := { s with cores := NMap.set {} s.cores c v }
def State.clu (s : State) (c : Nat) : Cluster := NMap.get {} s.clus c
def State.setClu (s : State) (c : Nat) (v : Cluster) : State := { s with clus := NMap.set {} s.clus c v }
def State.home (s : State) (k : Nat) : HomeSt := NMap.get {} s.homes k
def State.setHome (s : State) (k : Nat) (v : HomeSt) : State := { s with homes := NMap.set {} s.homes k v }

/-- The hand in a slot, if the slot is not EMPTY. -/
def State.hand (s : State) (c slot : Nat) : Option Hand := NMap.find? (s.core c).slots slot

def State.setHand (s : State) (c slot : Nat) (h : Hand) : State :=
  let co := s.core c
  s.setCore c { co with slots := NMap.insert co.slots slot h }

def State.dropHand (s : State) (c slot : Nat) : State :=
  let co := s.core c
  s.setCore c { co with slots := NMap.erase co.slots slot }

/-- The service state of a Deck entry. -/
def State.unitSt (s : State) (entry : Nat) : UnitSt := NMap.get {} s.deck.units entry

/-- Whether a unit is usable: neither retired nor fused off (R72). -/
def State.usable (s : State) (entry : Nat) : Bool :=
  let u := s.unitSt entry
  u.retired.isNone && u.fused.isNone

/-- Whether a cluster takes no new hand: it leaves coherence, or is being retired (R347, R663). -/
def State.drains (s : State) (c : Nat) : Bool := (NMap.get {} s.clus c : Cluster).leaving || (NMap.find? s.deck.draining c).isSome

/-- The cluster of a core (R76). -/
def clusterOf (core : Nat) : Nat := core / 4

/-! ### Braking and clocks -/

/-- Whether the tile is held in a cold reset by a pin (R716, R723). -/
def State.inReset (s : State) : Bool := s.pin.resetLow || s.pin.pwrLow

/-- Whether the brake has stopped a domain that stops `after` ticks after it was applied (R268), or the tile is held in
reset. -/
def State.stopped (s : State) (after : Nat) : Bool :=
  s.inReset || (s.isSet .BRK_BRAKED && decide (s.brk.bnd + after ≤ s.time.bnd))

/-- EXTEST, CLAMP or HIGHZ takes the pads from the tile's functions, whose inputs see idle levels (R745). -/
def State.padsTaken (s : State) : Bool := s.pin.ir == .extest || s.pin.ir == .clamp || s.pin.ir == .highz

/-- Whether bring-up can go on past the boot ROM: not in recovery (R689, R725). -/
def State.booted (s : State) : Bool := !s.inReset && !s.sec.recovery

/-- Whether a cluster's clock runs: gate state T0 (R97, R653), and not stopped by the brake (R268). -/
def State.clocked (s : State) (c : Nat) : Bool :=
  s.reg .CRG_GATE_STATE c == 1 && !s.stopped 1

/-- A duration in µs, in tick boundaries. -/
def ticksOfUs (us : Nat) : Nat := us * 100

/-! ### Addresses and windows -/

/-- The tile's own ID, where it has one (R52, R739). -/
def State.tileId (s : State) : Option Nat :=
  if s.isSet .MGC_TILE_ID_VALID then some (s.reg .MGC_TILE_ID) else none

/-- The normalised address: a tile field of 0xFFFF becomes the tile's own ID (R281, R50). -/
def State.normalise (s : State) (a : Nat) : Nat :=
  let a := a % 2 ^ 64
  if a / 2 ^ 48 = 0xFFFF then (s.tileId.getD 0xFFFF) * 2 ^ 48 + a % 2 ^ 48 else a

def tileOf (a : Nat) : Nat := a / 2 ^ 48
def offsetOf (a : Nat) : Nat := a % 2 ^ 48

/-- Whether a normalised address names this tile (R50). -/
def State.isOwn (s : State) (a : Nat) : Bool := tileOf a == s.tileId.getD 0xFFFF

/-- The bytes of one stack's range (R281, R68). -/
def stackBytes : Nat := 0xC00000000

/-- Whether a tile-local offset lies in a stack's range (R281); every stack of B0 is present. -/
def populatedOffset (o : Nat) : Bool := decide (o < 8 * stackBytes)

/-- Whether a normalised address is populated as the issuing tile sees it (R282). -/
def State.populated (s : State) (a : Nat) : Bool := !s.isOwn a || populatedOffset (offsetOf a)

/-- The memory types (R292). -/
inductive MemTy where
  | coherent | uncached | staged | host
deriving DecidableEq, Repr

/-- Whether window `n`, with its fields read by `rd`, matches a normalised address (R287). -/
def winHit (rd : Field → Nat) (a : Nat) : Bool :=
  rd .TILE_WIN_VALID == 1
    && decide (rd .TILE_WIN_TILE_FIRST ≤ tileOf a) && decide (tileOf a ≤ rd .TILE_WIN_TILE_LAST)
    && decide (rd .TILE_WIN_BASE_LO <<< 12 + rd .TILE_WIN_BASE_HI * 2 ^ 32 ≤ offsetOf a)
    && decide (offsetOf a ≤ rd .TILE_WIN_LIMIT_LO <<< 12 + rd .TILE_WIN_LIMIT_HI * 2 ^ 32 + 0xFFF)

/-- Whether window `n` as in force matches a normalised address. -/
def State.winMatches (s : State) (a n : Nat) : Bool := winHit (fun f => s.reg f 0 n) a

/-- Whether a commit of the window table holds a piece: it falls in the old or the new range of a changed entry
(R290). -/
def State.winHeld (s : State) (a : Nat) : Bool :=
  s.winEntries.any fun n => s.winMatches a n
    || winHit (fun f => NMap.get (s.reg f 0 n) s.winNew (regKey f 0 n)) a

/-- The window that applies to a normalised address: the lowest-numbered that matches (R287). -/
def State.winOf (s : State) (a : Nat) : Option Nat :=
  if tileOf a = 0xFFFE then none else firstWhere 256 (s.winMatches a)

/-- The memory type of a normalised address (R287). -/
def State.memTy (s : State) (a : Nat) : MemTy :=
  if tileOf a = 0xFFFE then .host else
  match s.winOf a with
  | none => .coherent
  | some n => match s.reg .TILE_WIN_TYPE 0 n with
    | 0 => .coherent
    | 1 => .uncached
    | _ => .staged

/-- Whether next-line prefetch is allowed at a normalised address (R287). -/
def State.prefetchOk (s : State) (a : Nat) : Bool :=
  match s.memTy a with
  | .uncached => false
  | .host => false
  | _ => match s.winOf a with
    | none => true
    | some n => s.isSet .TILE_WIN_PREFETCH 0 n

/-- CMODE and CSEL of a normalised address; CMODE counts as 0 unless the type is Staged (R287). -/
def State.codecOf (s : State) (a : Nat) : Nat × Nat :=
  match s.winOf a with
  | none => (0, 0)
  | some n => if s.reg .TILE_WIN_TYPE 0 n = 2 then (s.reg .TILE_WIN_CMODE 0 n, s.reg .TILE_WIN_CSEL 0 n) else (0, 0)

/-- Whether the window that applies at a unit's first byte covers a weight tile whole (R385). -/
def State.tileWhole (s : State) (a : Nat) : Bool :=
  let u := a / 32768 * 32768
  let w := s.winOf u
  (List.range 8).all fun i => s.winOf (u + 4096 * i) == w

/-- The mode through which an access of this tile at a normalised address goes: 0, 1 entropy, 2 low-rank (R385). -/
def State.modeAt (s : State) (a : Nat) : Nat :=
  match (s.codecOf a).1 with
  | 1 => 1
  | 2 => if s.tileWhole a then 2 else 0
  | _ => 0

/-- The line address of a normalised address (R309). -/
def lineOf (a : Nat) : Nat := a / 128

/-- The home of a line: its tile (`none` is this one) and the controller whose stack holds it (R321). -/
def State.homeOf (s : State) (line : Nat) : HomeId :=
  let a := line * 128
  ⟨if s.isOwn a then none else some (tileOf a), offsetOf a / stackBytes % 8⟩

/-- The index of a line within its stack (R326). -/
def lsOf (line : Nat) : Nat := offsetOf (line * 128) % stackBytes / 128

/-! ### Messages -/

/-- Puts a message on the way to its home, or to the agent it is for: on this tile's mesh, or out to a coupler. -/
def State.sendTo (s : State) (tile : Option Nat) (m : Msg) : State :=
  match tile with
  | none => { s with mesh := s.mesh ++ [m] }
  | some t => { s with xmit := s.xmit ++ [(t, m)] }

/-- Takes the first occurrence of a message off the mesh. -/
def dropFirst (m : Msg) : List Msg → List Msg
  | [] => []
  | x :: t => if x = m then t else x :: dropFirst m t

/-- Whether a message can be received now: it is on the mesh, and no older message of the same agent about the same
line is on its way to the same place (R298, R330). -/
def receivable (m : Msg) : List Msg → Bool
  | [] => false
  | x :: t => if x = m then true
    else if x.line = m.line ∧ x.agent = m.agent ∧ x.home = m.home then false else receivable m t

def State.takeMsg (s : State) (m : Msg) : State := { s with mesh := dropFirst m s.mesh }

/-- The agent that stands for the CP, the dispatcher and the kitty (R321). -/
def cpAgent : Agent := ⟨none, 64⟩
/-- The agent that stands for the host's BAR2 accesses. -/
def barAgent : Agent := ⟨none, 65⟩
/-- The agent that stands for the codecs and the packer. -/
def codecAgent : Agent := ⟨none, 66⟩

/-- Splits bytes into the pieces that 64-byte boundaries make of them (R283); `fuel` bounds the pieces. -/
def pieces : Nat → Nat → List Byte → List (Nat × List Byte)
  | 0, _, _ => []
  | fuel + 1, a, bs =>
    if bs.isEmpty then [] else
    let n := 64 - a % 64
    if bs.length ≤ n then [(a, bs)] else (a, bs.take n) :: pieces fuel (a + n) (bs.drop n)

/-- Whether the host port is in use (R719, R720). -/
def State.hostEn (s : State) : Bool := s.isSet .PIN_STRAP_HOST_EN

/-- A posted write toward the host: data that carries POISON or LOST goes as zeros with EP set (R295).  Without a host
it is discarded and counted (R720). -/
def State.hostWrite (s : State) (addr : Nat) (bs : List Byte) (carry : GState) : State :=
  if !s.hostEn then s.count .HIF_CPL_TO_CNT else
  let w := if carry = .good then HostMsg.write addr bs false else .write addr (bs.map fun _ => 0) true
  { s with host := { s.host with out := s.host.out ++ [w] } }

/-- The effective interval of the CP's polls, in ns (R541). -/
def State.effPollNs (s : State) : Nat := max 100 (min (s.reg .CTX_DB_POLL_NS) (s.reg .PWR_WAKE_TOL_NS / 2))

/-- A duration in ns, in tick boundaries, rounded up. -/
def ticksOfNs (ns : Nat) : Nat := (ns + 9) / 10

/-- The tag of the next request of a non-caching requester: above every one that is outstanding, and above those that
the protocol uses for other ends. -/
def State.nextPost (s : State) : Nat :=
  match s.posted.getLast? with
  | some p => max 4096 (p.1 + 1)
  | none => 4096

/-- Sends a request of a non-caching requester of this tile and remembers it. -/
def State.sendPost (s : State) (use : PostUse) (m : Msg) : State :=
  let t := s.nextPost
  let s := if m.agent.unit = 64 then s.issue 5 0 else s
  { s with posted := NMap.insert s.posted t { unit := m.agent.unit, use := use, since := s.time.bnd, part := m.part, line := some m.line } }.sendTo
    m.home.tile { m with tag := t }

/-- One piece of a write by a non-caching requester of this tile (R289, R322): a posted write for a Host piece, a
Staged write-through, or an NcWr to the home. -/
def State.writePiece (s : State) (who : Agent) (a : Nat) (bs : List Byte) (carry : GState := .good)
    (async : Option Nat := none) : State :=
  let a := s.normalise a
  match s.memTy a with
  | .host => s.hostWrite (offsetOf a) bs carry
  | ty =>
    let line := lineOf a
    let k := if ty = .staged then MsgKind.stWr else .ncWr
    s.sendPost (.write async)
      { kind := k, agent := who, home := s.homeOf line, line := line, cmode := s.modeAt a, carry := carry,
        part := some { thread := 0, addr := a, size := bs.length, op := .store bs } }

/-- A write of bytes at a fabric address by a non-caching requester of this tile. -/
def State.fabricWrite (s : State) (who : Agent) (a : Nat) (bs : List Byte) (carry : GState := .good)
    (async : Option Nat := none) : State :=
  foldState (fun s p => s.writePiece who p.1 p.2 carry async) (pieces (bs.length + 1) a bs) s

/-- A write at a tile-local offset of this tile. -/
def State.localWrite (s : State) (o : Nat) (bs : List Byte) : State :=
  s.fabricWrite cpAgent (0xFFFF * 2 ^ 48 + o % 2 ^ 48) bs

/-! ### Events -/

/-- The Deck entry index of a unit, in the order of R76. -/
def deckIndex : Block → Nat → Nat
  | .TILE, _ => 0
  | .CLU, n => 1 + n
  | .COR, n => 65 + n
  | .MEM, n => 321 + n
  | .BANK, n => 337 + n
  | .CPL, n => 345 + n
  | .RTE, _ => 409
  | .HIF, _ => 410
  | .CTX, _ => 411
  | .CPR, _ => 412
  | .KIT, _ => 413
  | .FEN, _ => 414
  | .CDC, _ => 415
  | .PWR, _ => 416
  | .CRG, n => 417 + n
  | .TLM, _ => 481
  | .SEC, _ => 482
  | .MGC, _ => 483
  | .PIN, _ => 484
  | .TIK, _ => 485
  | .BRK, _ => 486
  | .DBG, _ => 487
  | .DECK, _ => 488

/-- A retirement by an error limit falls due (R662, R667): 1 a cluster, 2 a coupler. -/
def State.fallDue (s : State) (kind unit : Nat) : State :=
  let e := if kind = 1 then deckIndex .CLU unit else deckIndex .CPL unit
  let same (r : Retire) : Bool := r.kind == kind && r.unit == unit
  if !s.usable e || (s.mgc.busy.map same).getD false || s.mgc.due.any same then s
  else { s with mgc := { s.mgc with due := s.mgc.due ++ [{ kind := kind, unit := unit, cause := 5, since := s.time.bnd }] } }

/-- A payload of 48 bytes from byte fields at offsets (R545): each pair is an offset and little-endian bytes. -/
def payload (fields : List (Nat × List Byte)) : List Byte :=
  foldState (fun acc p => acc.take p.1 ++ p.2 ++ acc.drop (p.1 + p.2.length)) fields (List.replicate 48 0)

/-- A record of the event ring: its envelope and its payload (R545). -/
def eventRecord (e source dropped : Nat) (phase : Bool) (pay : List Byte) : List Byte :=
  leBytes 4 e ++ [BitVec.ofNat 8 (bit phase), 0] ++ leBytes 2 source ++ leBytes 4 dropped ++ leBytes 4 0 ++ pay

/-- Posts an event: bytes 0x08 to the end of its record and then bytes 0x00–0x07 (R546), or discards and counts it
when the ring is full (R549).  Outside an ACTIVE context nothing is posted (R533); under the brake neither (R270). -/
def State.postEvent (s : State) (source : Nat) (pay : List Byte) : State :=
  if s.reg .CTX_STATE ≠ 1 ∨ s.isSet .BRK_BRAKED then s else
  let e := s.reg .CTX_EVT_TAIL
  let a := s.reg .CTX_EVT_ACK
  let m := 2 ^ s.reg .CTX_EVT_LOG2
  if (e + 2 ^ 32 - a) % 2 ^ 32 = m then
    { s.count .CTX_EVT_LOST_CNT with host := { s.host with dropped := satAdd32 s.host.dropped 1 } }
  else
    let r := eventRecord e source s.host.dropped (e / m % 2 == 0) pay
    let at' := s.reg64 .CTX_EVT_BASE_LO .CTX_EVT_BASE_HI + 64 * (e % m)
    let s := s.fabricWrite cpAgent (at' + 8) (r.drop 8)
    let s := s.fabricWrite cpAgent at' (r.take 8)
    let s := s.setReg .CTX_EVT_TAIL ((e + 1) % 2 ^ 32)
    { s with host := { s.host with dropped := 0, posted := true } }.issue 9 0

/-- Sends one MSI-X message: at once, or by setting its pending bit while its vector is masked (R527); none without a
host (R720). -/
def State.sendMsi (s : State) (vec : Nat) : State :=
  if !s.hostEn then s else
  match NMap.find? s.host.msixTable vec with
  | some (_, _, false) => { s with host := { s.host with out := s.host.out ++ [.msi vec] } }
  | _ => { s with host := { s.host with msixPending := s.host.msixPending.erase vec ++ [vec] } }

/-! ### The trump order -/

/-- Whether an event is moot because of what the current tick has applied before it (R117, R751). -/
def State.moot (s : State) (cls : Nat) (act : TickAct) : Bool :=
  let r := s.time.cur
  (match r.reset with
    | some .cold => true
    | some .warm => true
    | some .context =>
      cls == 7 || cls == 8 || cls == 10 ||
      (cls == 9 && match act with
        | .shadowCommit b _ => b == .CTX || b == .CPR || b == .KIT || b == .FEN || b == .CDC
        | .ctxCreate => true
        | .slotOp _ => true
        | .codecOp _ => true
        | .fenceInit => true
        | .exchange => true
        | _ => false)
    | none => false)
  || (decide (7 ≤ cls) && (r.brake || s.isSet .BRK_BRAKED))
  || (cls == 7 && match act with
        | .debugCmd c core _ _ _ =>
          r.dark.contains (clusterOf core)
            || (match r.level with
                | some l => decide (l < if c = 5 then 3 else 2)
                | none => false)
        | _ => false)

/-- The bytes of a journal record (R123). -/
def journalBytes (time cls flags src data : Nat) : List Byte :=
  leBytes 8 time ++ leBytes 1 cls ++ leBytes 1 flags ++ leBytes 2 src ++ leBytes 4 data

/-- The source index of a class 9 event: the Deck entry index, then the register offset (R116). -/
def cfgSrc (b : Block) (inst : Nat) (off : Nat := 0) : Nat := deckIndex b inst * 2 ^ 20 + off

/-- The source index as a journal record holds it: of a class 9 event, its Deck entry index (R123; DEDUCED, log
entry 10). -/
def journalSrc (cls src : Nat) : Nat := if cls = 9 then src / 2 ^ 20 else src

/-- DATA of an event's journal record (R123). -/
def journalData : TickAct → Nat
  | .doorbell tail _ => tail
  | .ackWord ack _ => ack
  | .watchFire _ kind level => kind % 4 + 4 * (level % 2)
  | .fenceSeen _ v => v % 2 ^ 32
  | _ => 0

/-- Writes an event's journal record, for classes 2 and 7–10 while JNL_EN is set and REPLAY is clear (R123). -/
def State.journal (s : State) (cls src flags : Nat) (act : TickAct) : State :=
  if !(cls == 2 || (decide (7 ≤ cls) && decide (cls ≤ 10))) || !s.isSet .TIK_JNL_EN || s.isSet .TIK_REPLAY
      || (s.isSet .BRK_BRAKED && decide (s.brk.bnd < s.time.bnd)) then s else
  let p := s.reg .TIK_JNL_PTR
  let n := 2 ^ s.reg .TIK_JNL_LOG2
  let s := s.localWrite (s.reg64 .TIK_JNL_BASE_LO .TIK_JNL_BASE_HI + 16 * p)
    (journalBytes s.time.now cls flags (journalSrc cls src) (journalData act))
  if p + 1 < n then s.setReg .TIK_JNL_PTR (p + 1)
  else (s.setReg .TIK_JNL_PTR 0).count .TIK_JNL_WRAPS

/-- What becomes of a moot event: it is counted in the counter of its class and journalled with the moot flag
(R117); one of a cold reset's own tick leaves nothing (R120), and so does a class 1 event, which no counter has. -/
def State.discardMoot (s : State) (cls src : Nat) (act : TickAct) : State :=
  if s.time.cur.reset = some .cold then s else
  let n := match act with
    | .telemetry _ => 80
    | _ => 1
  let s := if 2 ≤ cls ∧ cls ≤ 11 then s.count .TIK_MOOT_CNT 0 cls n else s
  let s := if cls = 7 then (s.setReg .DBG_RESULT 6).setReg .DBG_PENDING 0 else s
  let s := match act with
    | .shadowCommit b i => s.dropShadows (s.waiting b i)
    | .pinFunc => s.dropShadows (s.waiting .PIN 0)
    | .replayStart => s.dropShadows [(.TIK_REPLAY, 0, 0)]
    | .tileId => s.dropShadows [(.MGC_TILE_ID, 0, 0), (.MGC_TILE_ID_VALID, 0, 0)]
    | _ => s
  s.journal cls src 2 act

/-- Whether an event of this class and source index still comes after everything applied in the current tick. -/
def State.inOrder (s : State) (cls src : Nat) : Bool :=
  decide (s.time.cur.cls < cls) || (s.time.cur.cls == cls && decide (s.time.cur.src ≤ src))

/-- Whether the tick domain still applies events: fabric time stops three ticks after a brake (R268, R751). -/
def State.ticking (s : State) : Bool := !s.stopped 4

/-- An event of the next tick (R750). -/
def State.later (s : State) (cls src : Nat) (act : TickAct) : State :=
  if s.time.due.contains ⟨cls, src, act⟩ then s
  else { s with time := { s.time with due := s.time.due ++ [⟨cls, src, act⟩] } }

/-- Keeps an event of classes 3–6 in the brake record: 64 are stored, all are counted (R118, R279). -/
def State.hold (s : State) (e : TickEvt) : State :=
  let b := s.brk
  if b.held.length < 64 then
    { s with brk := { b with held := b.held ++ [e], heldTimes := b.heldTimes ++ [s.time.now], heldCount := b.heldCount + 1 } }
  else { s with brk := { b with heldCount := b.heldCount + 1 } }

/-- Applies an event now: held in the brake record for classes 3–6 under a brake (R118), moot (R117), or applied
and journalled (R121, R123).  `f` is what the event does. -/
def State.applyEvent (s : State) (cls src : Nat) (act : TickAct) (f : State → State) : State :=
  let r := s.time.cur
  let s := { s with time := { s.time with cur := { r with cls := cls, src := src } } }
  if 3 ≤ cls ∧ cls ≤ 6 ∧ (r.brake ∨ s.isSet .BRK_BRAKED) ∧ r.reset ≠ some .cold ∧ r.reset ≠ some .warm then s.hold ⟨cls, src, act⟩
  else if s.moot cls act then s.discardMoot cls src act
  else f (s.journal cls src 1 act)

/-- Whether an event comes before another of the same tick (R116). -/
def TickEvt.before (a b : TickEvt) : Bool := decide (a.cls < b.cls) || (a.cls == b.cls && decide (a.src ≤ b.src))

/-- Puts an event into a list in trump order, after those it does not come before. -/
def insertEvt (e : TickEvt) : List TickEvt → List TickEvt
  | [] => [e]
  | x :: t => if x.before e then x :: insertEvt e t else e :: x :: t

/-- An event of the current tick while a brake of this tick still has to be applied. -/
def State.atOnce (s : State) (e : TickEvt) : State := { s with time := { s.time with ready := insertEvt e s.time.ready } }

/-- An event sampled now (R113): applied where the trump order still has a place for it in the current tick,
otherwise an event of the next tick (R116, R750). -/
def State.tickEvent (s : State) (cls src : Nat) (act : TickAct) (f : State → State) : State :=
  if !s.ticking then s
  else if !s.inOrder cls src then s.later cls src act
  else if s.time.ready.isEmpty then s.applyEvent cls src act f
  else s.atOnce ⟨cls, src, act⟩

end Sys2Proof.Machine
end

