-- ==== Sys2Proof/Machine/Operands.lean ====
section
/-!
DEFINITION. Operand forms of the instructions of a hand: its register spaces, which threads an instruction enables,
the sources A, B and C, immediates, and the table of rules that make an instruction legal (R142–R168, R207).
-/
namespace Sys2Proof.Machine

/-! ### Register spaces -/

/-- The lanes of a register that nothing has written: all zero (R133, R142). -/
def zeroLanes : List Word := List.replicate 64 0

/-- The physical register that vector register `r` of a hand stands on (R131). -/
def Hand.phys (h : Hand) (r : Nat) : Nat := h.vblk.getD (r / 16) 0 * 16 + r % 16

/-- Lane `i` of vector register `r`. -/
def Core.v (co : Core) (h : Hand) (r i : Nat) : Word := (NMap.get zeroLanes co.vrf (h.phys r)).getD i 0

/-- Writes the lanes of vector register `r` for which `f` gives a value. -/
def Core.setV (co : Core) (h : Hand) (r : Nat) (f : Nat → Option Word) : Core :=
  let old := NMap.get zeroLanes co.vrf (h.phys r)
  let new := (List.range 64).map fun i => (f i).getD (old.getD i 0)
  { co with vrf := NMap.set zeroLanes co.vrf (h.phys r) new }

/-- A uniform register; u0 reads zero (R142). -/
def Hand.u (h : Hand) (n : Nat) : DWord := if n = 0 then 0 else NMap.get 0 h.ureg n

/-- Writes a uniform register; a write of u0 is discarded (R164). -/
def Hand.setU (h : Hand) (n : Nat) (v : DWord) : Hand :=
  if n = 0 then h else { h with ureg := NMap.set 0 h.ureg n v }

/-- A predicate register; p0 reads all ones (R142). -/
def Hand.p (h : Hand) (n : Nat) : DWord := if n = 0 then BitVec.allOnes 64 else NMap.get 0 h.preds n

/-- Writes a predicate register; a write of p0 is discarded (R164). -/
def Hand.setPRaw (h : Hand) (n : Nat) (v : DWord) : Hand :=
  if n = 0 then h else { h with preds := NMap.set 0 h.preds n v }

/-- The number whose bit `i` is `f i`, for `i` below `n`. -/
def natOfBits (n : Nat) (f : Nat → Bool) : Nat :=
  (List.range n).foldl (fun acc i => acc + if f i then 2 ^ i else 0) 0

/-- A mask over the 64 threads. -/
def maskOf (f : Nat → Bool) : DWord := BitVec.ofNat 64 (natOfBits 64 f)

/-- Whether thread `i` takes part in an instruction: it is live and its predicate bit, inverted by PIV, is 1. -/
def Hand.enabled (h : Hand) (ins : Insn) (i : Nat) : Bool :=
  h.live.getLsbD i && ((h.p ins.prd.toNat).getLsbD i != ins.piv)

/-- Writes a predicate register for the threads that `who` selects: bits of threads that are not live become 0, and
bits of live threads that are not selected stay (R148). -/
def Hand.setP (h : Hand) (n : Nat) (who : Nat → Bool) (f : Nat → Bool) : Hand :=
  h.setPRaw n (maskOf fun i => h.live.getLsbD i && if who i then f i else (h.p n).getLsbD i)

/-! ### Types -/

/-- The operand types (R168). -/
inductive Ty where
  | u32 | s32 | f32 | u64 | s64 | f16x2 | bf16x2
deriving DecidableEq, Repr

/-- The type a TYP code names; 0x7–0xF are reserved (R168). -/
def Ty.ofCode : Nat → Option Ty
  | 0 => some .u32
  | 1 => some .s32
  | 2 => some .f32
  | 3 => some .u64
  | 4 => some .s64
  | 5 => some .f16x2
  | 6 => some .bf16x2
  | _ => none

def Ty.wide : Ty → Bool
  | .u64 => true
  | .s64 => true
  | _ => false

def Ty.signed : Ty → Bool
  | .s32 => true
  | .s64 => true
  | _ => false

def Ty.isInt : Ty → Bool
  | .u32 => true
  | .s32 => true
  | .u64 => true
  | .s64 => true
  | _ => false

/-- The width of a value of the type in bits. -/
def Ty.width (t : Ty) : Nat := if t.wide then 64 else 32

/-- The type of an instruction; only asked for once its TYP has been found to be listed. -/
def insnTy (ins : Insn) : Ty := (Ty.ofCode ins.typ.toNat).getD .u32

/-- The 16-bit immediate of IMB: bits 35:20 of W0 (R160, R165). -/
def imm16 (ins : Insn) : Nat := ins.srb.toNat * 256 + ins.src.toNat

/-- The sign extension of the low `w` bits of `n` to 64 bits. -/
def sext64 (w n : Nat) : Nat :=
  let n := n % 2 ^ w
  if n < 2 ^ (w - 1) then n else n + (2 ^ 64 - 2 ^ w)

/-- The immediate as source B, widened by TYP (R165). -/
def immB (ins : Insn) : Ty → Nat
  | .u32 => imm16 ins
  | .u64 => imm16 ins
  | .s32 => sext64 16 (imm16 ins) % 2 ^ 32
  | .s64 => sext64 16 (imm16 ins)
  | .f32 => imm16 ins * 2 ^ 16
  | .f16x2 => imm16 ins * 2 ^ 16 + imm16 ins
  | .bf16x2 => imm16 ins * 2 ^ 16 + imm16 ins

/-! ### Sources of a vector instruction -/

/-- A vector operand of a type at lane `i`: one register, or an even pair with the low word first (R163, R168). -/
def Core.vTy (co : Core) (h : Hand) (t : Ty) (r i : Nat) : Nat :=
  if t.wide then (co.v h r i).toNat + (co.v h (r + 1) i).toNat * 2 ^ 32 else (co.v h r i).toNat

/-- A uniform operand broadcast to every thread; a 32-bit type uses bits 31:0 (R164). -/
def Hand.uTy (h : Hand) (t : Ty) (r : Nat) : Nat := (h.u (r % 64)).toNat % 2 ^ t.width

def srcA (co : Core) (h : Hand) (ins : Insn) (t : Ty) (i : Nat) : Nat :=
  if ins.ua then h.uTy t ins.sra.toNat else co.vTy h t ins.sra.toNat i

/-- Source B: W1 in the long form, the immediate under IMB, a uniform register under UB, else a vector register. -/
def srcB (co : Core) (h : Hand) (ins : Insn) (t : Ty) (i : Nat) : Nat :=
  if ins.lng then ins.w1.toNat % 2 ^ t.width
  else if ins.imb then immB ins t
  else if ins.ub then h.uTy t ins.srb.toNat
  else co.vTy h t ins.srb.toNat i

def srcC (co : Core) (h : Hand) (ins : Insn) (t : Ty) (i : Nat) : Nat :=
  if ins.uc then h.uTy t ins.src.toNat else co.vTy h t ins.src.toNat i

/-- Writes a result of a type for the threads for which `f` gives one. -/
def Core.setVTy (co : Core) (h : Hand) (t : Ty) (r : Nat) (f : Nat → Option Nat) : Core :=
  let co := co.setV h r fun i => (f i).map fun v => BitVec.ofNat 32 v
  if t.wide then co.setV h (r + 1) fun i => (f i).map fun v => BitVec.ofNat 32 (v / 2 ^ 32) else co

/-! ### Sources of a uniform instruction (R181) -/

def uniA (h : Hand) (ins : Insn) (t : Ty) : Nat := h.uTy t ins.sra.toNat

def uniB (h : Hand) (ins : Insn) (t : Ty) : Nat :=
  if ins.lng then ins.w1.toNat % 2 ^ t.width
  else if ins.imb then immB ins t
  else h.uTy t ins.srb.toNat

/-- A uniform result of a type: zero-extended for U32 and sign-extended for S32 (R181). -/
def uniResult (t : Ty) (v : Nat) : DWord :=
  match t with
  | .s32 => BitVec.ofNat 64 (sext64 32 v)
  | _ => BitVec.ofNat 64 (v % 2 ^ t.width)

/-! ### Legality (R145, R163, R166, R167, R207, R754) -/

/-- The space of an operand as its opcode gives it: unused, a vector, uniform or predicate register, or left open to
its UA, UB or UC bit (R163, R754). -/
inductive Spc where
  | no | vec | uni | pred | opn
deriving DecidableEq, Repr

/-- What an opcode demands of its fields: the TYP codes it lists, the space of each operand, the FUN bits that its
class defines, whether PRD and PIV must be zero, and whether its source B may be an immediate or W1. -/
structure OpRule where
  types : List Nat
  d : Spc
  a : Spc
  b : Spc
  c : Spc
  fnMask : Nat := 0
  p0 : Bool := false
  immOk : Bool := true
  lngOk : Bool := true
deriving DecidableEq, Repr

/-- Whether a register field is allowed for its space and a footprint of `n` vector registers (R145, R163). -/
def fieldOk (vregs n : Nat) (sp : Spc) (bitU : Bool) (v : Nat) : Bool :=
  match sp with
  | .no => v == 0 && !bitU
  | .vec => !bitU && decide (v + n ≤ vregs) && decide (v % n = 0)
  | .uni => !bitU && decide (v < 64)
  | .pred => !bitU && decide (v < 8)
  | .opn => if bitU then decide (v < 64) else decide (v + n ≤ vregs) && decide (v % n = 0)

/-- Whether an instruction's fields satisfy its opcode's rule, with footprints of `nd`, `na`, `nb` and `nc` vector
registers for its operands (R207). -/
def ruleOk (r : OpRule) (vregs nd na nb nc : Nat) (ins : Insn) : Bool :=
  r.types.contains ins.typ.toNat
    && fieldOk vregs nd r.d false ins.dst.toNat
    && fieldOk vregs na r.a ins.ua ins.sra.toNat
    && decide (ins.fn.toNat &&& (0x7FF - r.fnMask) = 0)
    && (!r.p0 || (ins.prd == 0 && !ins.piv))
    && (if ins.imb then r.immOk && r.b != .no && r.c == .no && !ins.lng && !ins.ub && !ins.uc
        else if ins.lng then
          r.lngOk && r.b != .no && ins.srb == 0 && !ins.ub && fieldOk vregs nc r.c ins.uc ins.src.toNat
        else fieldOk vregs nb r.b ins.ub ins.srb.toNat && fieldOk vregs nc r.c ins.uc ins.src.toNat)

/-- The footprint of a type in vector registers (R168). -/
def footprint (typ : Nat) : Nat := if typ = 3 ∨ typ = 4 then 2 else 1

/-- The vector registers an operand names, for the waits of R137. -/
def vecNames (sp : Spc) (bitU : Bool) (v n : Nat) : List Nat :=
  match sp with
  | .vec => (List.range n).map (v + ·)
  | .opn => if bitU then [] else (List.range n).map (v + ·)
  | _ => []

/-- The uniform registers an operand names. -/
def uniNames (sp : Spc) (bitU : Bool) (v : Nat) : List Nat :=
  match sp with
  | .uni => [v % 64]
  | .opn => if bitU then [v % 64] else []
  | _ => []

end Sys2Proof.Machine
end

