-- ==== Sys2Proof/Machine/Flags.lean ====
section
/-!
DEFINITION. What each arithmetic instruction computes for one thread, with the sticky flags it raises (R172–R180,
R181, R184), and the combinations of the lane-exchange instructions (R201, R202).
-/
namespace Sys2Proof.Machine

/-- The value of a pattern as its type reads it. -/
def intOf (t : Ty) (v : Nat) : Int :=
  let v := v % 2 ^ t.width
  if t.signed && decide (2 ^ (t.width - 1) ≤ v) then (v : Int) - 2 ^ t.width else v

/-- An integer as a pattern of its type, modulo 2^width (R174). -/
def wrapInt (t : Ty) (v : Int) : Nat := (v % (2 ^ t.width : Int)).toNat

def loOf (t : Ty) : Int := if t.signed then -(2 ^ (t.width - 1)) else 0
def hiOf (t : Ty) : Int := if t.signed then 2 ^ (t.width - 1) - 1 else 2 ^ t.width - 1

/-- An integer clamped to the range of a type (R173). -/
def clampInt (t : Ty) (v : Int) : Nat := wrapInt t (max (loOf t) (min (hiOf t) v))

/-- The rounding mode in FUN bits 1:0 (R173). -/
def fnMode (ins : Insn) : RMode := RMode.ofCode (ins.fn.toNat % 4)

/-- A float operation on one value, on the value of F32 or on both halves of a packed type (R176). -/
def fmap1 (t : Ty) (f : Fmt → Nat → Nat × FFlags) (a : Nat) : Nat × FFlags :=
  match t with
  | .f16x2 =>
    let l := f fmtF16 (a % 2 ^ 16)
    let h := f fmtF16 (a / 2 ^ 16 % 2 ^ 16)
    (l.1 + h.1 * 2 ^ 16, l.2 ||| h.2)
  | .bf16x2 =>
    let l := f fmtBF16 (a % 2 ^ 16)
    let h := f fmtBF16 (a / 2 ^ 16 % 2 ^ 16)
    (l.1 + h.1 * 2 ^ 16, l.2 ||| h.2)
  | _ => f fmtF32 (a % 2 ^ 32)

def fmap2 (t : Ty) (f : Fmt → Nat → Nat → Nat × FFlags) (a b : Nat) : Nat × FFlags :=
  match t with
  | .f16x2 =>
    let l := f fmtF16 (a % 2 ^ 16) (b % 2 ^ 16)
    let h := f fmtF16 (a / 2 ^ 16 % 2 ^ 16) (b / 2 ^ 16 % 2 ^ 16)
    (l.1 + h.1 * 2 ^ 16, l.2 ||| h.2)
  | .bf16x2 =>
    let l := f fmtBF16 (a % 2 ^ 16) (b % 2 ^ 16)
    let h := f fmtBF16 (a / 2 ^ 16 % 2 ^ 16) (b / 2 ^ 16 % 2 ^ 16)
    (l.1 + h.1 * 2 ^ 16, l.2 ||| h.2)
  | _ => f fmtF32 (a % 2 ^ 32) (b % 2 ^ 32)

def fmap3 (t : Ty) (f : Fmt → Nat → Nat → Nat → Nat × FFlags) (a b c : Nat) : Nat × FFlags :=
  match t with
  | .f16x2 =>
    let l := f fmtF16 (a % 2 ^ 16) (b % 2 ^ 16) (c % 2 ^ 16)
    let h := f fmtF16 (a / 2 ^ 16 % 2 ^ 16) (b / 2 ^ 16 % 2 ^ 16) (c / 2 ^ 16 % 2 ^ 16)
    (l.1 + h.1 * 2 ^ 16, l.2 ||| h.2)
  | .bf16x2 =>
    let l := f fmtBF16 (a % 2 ^ 16) (b % 2 ^ 16) (c % 2 ^ 16)
    let h := f fmtBF16 (a / 2 ^ 16 % 2 ^ 16) (b / 2 ^ 16 % 2 ^ 16) (c / 2 ^ 16 % 2 ^ 16)
    (l.1 + h.1 * 2 ^ 16, l.2 ||| h.2)
  | _ => f fmtF32 (a % 2 ^ 32) (b % 2 ^ 32) (c % 2 ^ 32)

/-! ### Vector operations on one thread -/

/-- add and sub of an integer type: SAT in FUN bit 0 clamps to the type's range (R173, R174). -/
def intSum (t : Ty) (sat : Bool) (v : Int) : Nat := if sat then clampInt t v else wrapInt t v

def aluAdd (t : Ty) (ins : Insn) (a b : Nat) : Nat × FFlags :=
  if t.isInt then (intSum t (ins.fn.getLsbD 0) (intOf t a + intOf t b), 0)
  else fmap2 t (fun f => f.fadd (fnMode ins)) a b

def aluSub (t : Ty) (ins : Insn) (a b : Nat) : Nat × FFlags :=
  if t.isInt then (intSum t (ins.fn.getLsbD 0) (intOf t a - intOf t b), 0)
  else fmap2 t (fun f => f.fsub (fnMode ins)) a b

def aluMul (t : Ty) (ins : Insn) (a b : Nat) : Nat × FFlags :=
  if t.isInt then (a * b % 2 ^ t.width, 0) else fmap2 t (fun f => f.fmul (fnMode ins)) a b

/-- The high bits of a × b of the type's width (R172, R181). -/
def aluMulhi (t : Ty) (a b : Nat) : Nat := wrapInt t (intOf t a * intOf t b / 2 ^ t.width)

def aluFma (t : Ty) (ins : Insn) (a b c : Nat) : Nat × FFlags :=
  if t.isInt then ((a * b + c) % 2 ^ t.width, 0) else fmap3 t (fun f => f.ffma (fnMode ins)) a b c

def aluMinMax (t : Ty) (isMin : Bool) (a b : Nat) : Nat × FFlags :=
  if t.isInt then (if (decide (intOf t a ≤ intOf t b)) == isMin then a else b, 0)
  else fmap2 t (fun f => f.minMax isMin) a b

/-- abs: floats change only the sign bit and raise no flag (R177). -/
def aluAbs (t : Ty) (a : Nat) : Nat :=
  if t.isInt then wrapInt t |intOf t a|
  else (fmap1 t (fun f x => (x % 2 ^ (f.ebits + f.fbits), 0)) a).1

def aluNeg (t : Ty) (a : Nat) : Nat :=
  if t.isInt then wrapInt t (-intOf t a)
  else (fmap1 t (fun f x => (x ^^^ 2 ^ (f.ebits + f.fbits), 0)) a).1

def aluNot (t : Ty) (a : Nat) : Nat := 2 ^ t.width - 1 - a % 2 ^ t.width

/-- shl: a count of width or more gives 0 (R174). -/
def aluShl (t : Ty) (a b : Nat) : Nat := if t.width ≤ b then 0 else a * 2 ^ b % 2 ^ t.width

/-- shr: logical for U, arithmetic for S; a count of width or more gives 0 or copies of the sign bit (R174). -/
def aluShr (t : Ty) (a b : Nat) : Nat := wrapInt t (intOf t a / 2 ^ (min b t.width))

def aluRot (t : Ty) (a b : Nat) : Nat :=
  let k := b % t.width
  a * 2 ^ k % 2 ^ t.width + a / 2 ^ (t.width - k)

def aluPopc (t : Ty) (a : Nat) : Nat := ((List.range t.width).filter a.testBit).length

def aluClz (t : Ty) (a : Nat) : Nat :=
  let a := a % 2 ^ t.width
  if a = 0 then t.width else t.width - 1 - Nat.log2 a

/-- bfe: the field of `a` at b[7:0] of width b[15:8], with only the bits that exist (R172, R174). -/
def aluBfe (t : Ty) (a b : Nat) : Nat :=
  let start := b % 256
  let w := min (b / 256 % 256) (32 - start)
  if w = 0 then 0 else
  let v := a / 2 ^ start % 2 ^ w
  if t.signed && decide (2 ^ (w - 1) ≤ v) then v + (2 ^ 32 - 2 ^ w) else v

/-- bfi: `c` with the low b[15:8] bits of `a` inserted at b[7:0], with only the bits that exist (R172, R174). -/
def aluBfi (a b c : Nat) : Nat :=
  let start := b % 256
  let w := min (b / 256 % 256) (32 - start)
  if w = 0 then c else putBits c (start + w - 1) start a

/-- Integer division by zero gives all ones and sets the division-by-zero flag; −2^31 ÷ −1 wraps (R175). -/
def aluDiv (t : Ty) (ins : Insn) (a b : Nat) : Nat × FFlags :=
  if t.isInt then
    if b = 0 then (2 ^ t.width - 1, flDivZero)
    else (wrapInt t (Int.tdiv (intOf t a) (intOf t b)), 0)
  else fmap2 t (fun f => f.fdiv (fnMode ins)) a b

/-- Integer remainder by zero gives `a`; otherwise the remainder has the sign of `a` (R172, R175). -/
def aluRem (t : Ty) (a b : Nat) : Nat × FFlags :=
  if b = 0 then (a, flDivZero) else (wrapInt t (Int.tmod (intOf t a) (intOf t b)), 0)

/-! ### cvt (R180) -/

/-- The source of a conversion: an integer, or a float datum of a format. -/
inductive CvtSrc where
  | int (t : Ty) (v : Int)
  | float (v : FV)
deriving DecidableEq, Repr

/-- Source A of a conversion: packed types give the low half, or the high half when HI is 1. -/
def cvtSource (t : Ty) (hi : Bool) (a : Nat) : CvtSrc :=
  let half := if hi then a / 2 ^ 16 % 2 ^ 16 else a % 2 ^ 16
  match t with
  | .f32 => .float (fmtF32.decode (a % 2 ^ 32))
  | .f16x2 => .float (fmtF16.decode half)
  | .bf16x2 => .float (fmtBF16.decode half)
  | t => .int t (intOf t a)

def cvtToFloat (f : Fmt) (mode : RMode) : CvtSrc → Nat × FFlags
  | .int _ v => f.ofInt mode v
  | .float v =>
    let w := f.write mode v
    (w.1, w.2 ||| snanFlag [v])

/-- Integer to integer: extended or truncated; SAT clamps where the destination is narrower (R180). -/
def cvtInt (src dst : Ty) (sat : Bool) (v : Int) : Nat :=
  if sat && decide (dst.width < src.width) then clampInt dst v else wrapInt dst v

/-- cvt of one thread.  `b` fills the high half of a packed destination. -/
def aluCvt (dst : Ty) (ins : Insn) (src : Ty) (a b : Nat) : Nat × FFlags :=
  let mode := RMode.ofCode (ins.fn.toNat / 16 % 4)
  let sat := ins.fn.getLsbD 6
  let hi := ins.fn.getLsbD 7
  let pack (f : Fmt) : Nat × FFlags :=
    let l := cvtToFloat f mode (cvtSource src hi a)
    let h := cvtToFloat f mode (cvtSource src hi b)
    (l.1 + h.1 * 2 ^ 16, l.2 ||| h.2)
  match dst with
  | .f32 => cvtToFloat fmtF32 mode (cvtSource src hi a)
  | .f16x2 => pack fmtF16
  | .bf16x2 => pack fmtBF16
  | t =>
    match cvtSource src hi a with
    | .int s v => (cvtInt s t sat v, 0)
    | .float v => let r := fToInt mode (loOf t) (hiOf t) v; (wrapInt t r.1, r.2)

/-! ### Compares (R184) -/

/-- An integer compare by code; codes 8–15 are illegal and never reach here. -/
def cmpInt (t : Ty) (code a b : Nat) : Bool :=
  let x := intOf t a
  let y := intOf t b
  match code with
  | 0 => decide (x = y)
  | 1 => decide (x ≠ y)
  | 2 => decide (x < y)
  | 3 => decide (x ≤ y)
  | 4 => decide (y < x)
  | 5 => decide (y ≤ x)
  | 6 => true
  | _ => false

/-- A float compare by code, with invalid operation for a signalling NaN. -/
def cmpFloat (f : Fmt) (code a b : Nat) : Bool × FFlags :=
  let x := f.decode a
  let y := f.decode b
  let un := x.isNan || y.isNan
  let lt := FV.lt x y
  let gt := FV.lt y x
  let r := match code with
    | 0 => !un && !lt && !gt
    | 1 => un || lt || gt
    | 2 => !un && lt
    | 3 => !un && !gt
    | 4 => !un && gt
    | 5 => !un && !lt
    | 6 => !un
    | _ => un
  (r, snanFlag [x, y])

/-- cmp of one thread; a packed type compares its low halves only. -/
def aluCmp (t : Ty) (code a b : Nat) : Bool × FFlags :=
  match t with
  | .f32 => cmpFloat fmtF32 code (a % 2 ^ 32) (b % 2 ^ 32)
  | .f16x2 => cmpFloat fmtF16 code (a % 2 ^ 16) (b % 2 ^ 16)
  | .bf16x2 => cmpFloat fmtBF16 code (a % 2 ^ 16) (b % 2 ^ 16)
  | t => (cmpInt t code a b, 0)

/-! ### scan and red (R201, R202) -/

/-- The combination of two values by the operation code of scan and red. -/
def combine (t : Ty) (op : Nat) (mode : RMode) (a b : Nat) : Nat × FFlags :=
  match op with
  | 0 => if t.isInt then ((a + b) % 2 ^ t.width, 0) else fmtF32.fadd mode a b
  | 1 => aluMinMax t true a b
  | 2 => aluMinMax t false a b
  | 3 => (a &&& b, 0)
  | 4 => (a ||| b, 0)
  | _ => (a ^^^ b, 0)

/-- The identity of a combination. -/
def combineId (t : Ty) (op : Nat) : Nat :=
  match op with
  | 0 => if t.isInt then 0 else 0x80000000
  | 1 => if t.isInt then wrapInt t (hiOf t) else fmtF32.infBits false
  | 2 => if t.isInt then wrapInt t (loOf t) else fmtF32.infBits true
  | 3 => 2 ^ t.width - 1
  | _ => 0

/-- Combines neighbours pairwise, the lower on the left: one round of `red`. -/
def redRound (f : Nat → Nat → Nat × FFlags) : List Nat → List Nat × FFlags
  | a :: b :: t =>
    let r := f a b
    let rest := redRound f t
    (r.1 :: rest.1, r.2 ||| rest.2)
  | l => (l, 0)

/-- The six rounds of `red` over 64 lanes. -/
def redTree (f : Nat → Nat → Nat × FFlags) : Nat → List Nat → Nat × FFlags
  | 0, l => (l.headD 0, 0)
  | n + 1, l =>
    let r := redRound f l
    let rest := redTree f n r.1
    (rest.1, r.2 ||| rest.2)

/-- The prefixes of a scan in ascending thread order: for each enabled thread its value, and the flags raised by the
combinations that some thread receives.  `acc` is the combination of the enabled threads before the last one, and
`pend` that last one, not yet combined. -/
def scanList (f : Nat → Nat → Nat × FFlags) (ident : Nat) (excl : Bool) :
    List (Nat × Option Nat) → Option Nat → Option Nat → NMap Nat × FFlags
  | [], _, _ => ([], 0)
  | (_, none) :: t, acc, pend => scanList f ident excl t acc pend
  | (i, some v) :: t, acc, pend =>
    let r : Option Nat × FFlags := match acc, pend with
      | some a, some p => let x := f a p; (some x.1, x.2)
      | some a, none => (some a, 0)
      | none, p => (p, 0)
    if excl then
      let rest := scanList f ident excl t r.1 (some v)
      ((i, r.1.getD ident) :: rest.1, r.2 ||| rest.2)
    else
      let y : Nat × FFlags := match r.1 with
        | none => (v, 0)
        | some a => f a v
      let rest := scanList f ident excl t (some y.1) none
      ((i, y.1) :: rest.1, y.2 ||| rest.2)

end Sys2Proof.Machine
end

