-- ==== Sys2Proof/Machine/Memory.lean ====
section
/-!
DEFINITION. A memory controller and its stack: where a line lies, the error code of a granule, reads, writes and
atomics of local memory, and the events they post (R351–R364, R375, R383).
-/
namespace Sys2Proof.Machine

/-- Memory is in its one canonical form: keys rise strictly, and nothing is listed that an unlisted entry reads as (a zero
byte, a GOOD granule, no error). -/
def MemSt.wf (m : MemSt) : Bool := NMap.canonical 0 m.cells && NMap.canonical .good m.gran && NMap.canonical [] m.err

/-! ### Where a line lies -/

/-- The channel of a line (R353). -/
def channelOf (ls : Nat) : Nat := (ls % 32) ^^^ (ls / 2 ^ 10 % 32)

/-- The pseudo-channel of a line (R353). -/
def pcOf (ls : Nat) : Nat := (ls / 32 % 2) ^^^ (ls / 2 ^ 15 % 2)

/-- The controller and the line index of a tile-local offset (R321, R326). -/
def ctlOf (o : Nat) : Nat := o / stackBytes % 8
def lsOfOffset (o : Nat) : Nat := o % stackBytes / 128

/-- Whether a channel is retired (R374). -/
def State.chRetired (s : State) (k ch : Nat) : Bool := (s.reg .MEM_CH_RETIRE_MASK k).testBit ch

/-- Whether the line of a tile-local offset lies in a retired channel. -/
def State.retiredAt (s : State) (o : Nat) : Bool := s.chRetired (ctlOf o) (channelOf (lsOfOffset o))

/-! ### The error code (R356–R359) -/

/-- Multiplication by α in GF(2^16), whose polynomial is x^16 + x^12 + x^3 + x + 1. -/
def gfDouble (a : Nat) : Nat := if 2 * a < 65536 then 2 * a else (2 * a) ^^^ 0x1100B

def gfMulAlpha : Nat → Nat → Nat
  | 0, a => a
  | n + 1, a => gfMulAlpha n (gfDouble a)

/-- Multiplication in GF(2^16). -/
def gfMul (a b : Nat) : Nat :=
  (List.range 16).foldl (fun acc i => if b.testBit i then acc ^^^ gfMulAlpha i a else acc) 0

/-- The syndromes of a pattern of symbol errors: the code is linear, so the stored data does not matter (R358). -/
def syndrome (k : Nat) (err : List (Nat × BitVec 16)) : Nat :=
  err.foldl (fun acc e => acc ^^^ gfMulAlpha (k * e.1) e.2.toNat) 0

/-- What decoding finds: no error, one symbol to correct, or an uncorrectable error (R358). -/
inductive Decoded where
  | clean
  | fix (pos : Nat) (val : Nat)
  | bad
deriving DecidableEq, Repr

def decodeErr (err : List (Nat × BitVec 16)) : Decoded :=
  let s0 := syndrome 0 err
  let s1 := syndrome 1 err
  let s2 := syndrome 2 err
  if s0 = 0 ∧ s1 = 0 ∧ s2 = 0 then .clean
  else if s0 ≠ 0 ∧ gfMul s1 s1 = gfMul s0 s2 then
    match firstWhere 20 fun j => gfMulAlpha j s0 == s1 with
    | some j => .fix j s0
    | none => .bad
  else .bad

/-- The value of T for a state (R359). -/
def stateSymbol : GState → Nat
  | .good => 0
  | .poison => 0x5A5A
  | .lost => 0xA5A5

def stateOfSymbol (t : Nat) : Option GState :=
  if t = 0 then some .good else if t = 0x5A5A then some .poison else if t = 0xA5A5 then some .lost else none

/-- The exclusive-or of all errors at a position. -/
def errAt (err : List (Nat × BitVec 16)) (pos : Nat) : Nat :=
  err.foldl (fun acc e => if e.1 = pos then acc ^^^ e.2.toNat else acc) 0

/-- A granule as a read finds it: its state and bytes, and whether it was corrected; `none` is uncorrectable. -/
structure GranRead where
  st : GState
  bytes : List Byte
  fixed : Bool
deriving DecidableEq, Repr

/-- The bytes of granule `g` as they were written (`g` is a tile-local offset divided by 32). -/
def rawBytes (m : MemSt) (g : Nat) : List Byte := (List.range 32).map fun i => NMap.get 0 m.cells (32 * g + i)

/-- Reads and decodes a granule (R358, R359). -/
def decodeGran (m : MemSt) (g : Nat) : Option GranRead :=
  let err := NMap.get [] m.err g
  let st := NMap.get .good m.gran g
  if err = [] then some ⟨st, rawBytes m g, false⟩ else
  let left : Option (List (Nat × BitVec 16) × Bool) := match decodeErr err with
    | .clean => some (err, false)
    | .fix j v => some ((j, BitVec.ofNat 16 v) :: err, true)
    | .bad => none
  match left with
  | none => none
  | some (e, fixed) =>
    let data := (rawBytes m g).zipIdx.map fun b =>
      b.1 ^^^ BitVec.ofNat 8 (errAt e (3 + b.2 / 2) / 2 ^ (8 * (b.2 % 2)))
    match stateOfSymbol (stateSymbol st ^^^ errAt e 19) with
    | none => none
    | some t => some ⟨t, data, fixed⟩

/-- Stores a granule with a fresh check word; one that is not GOOD stores zero data (R359). -/
def State.putGran (s : State) (g : Nat) (st : GState) (bytes : List Byte) : State :=
  let bs := if st = .good then bytes else List.replicate 32 0
  let cells := foldState (fun c i => NMap.set 0 c (32 * g + i) (bs.getD i 0)) (List.range 32) s.mem.cells
  let gran := NMap.set .good s.mem.gran g st
  { s with mem := { s.mem with cells := cells, gran := gran, err := NMap.erase s.mem.err g } }

/-! ### Counts and events -/

/-- Where a read comes from, as MEM_UE names it (R383). -/
inductive MemSrc where
  | demand | partialWrite | scrub | sparing
deriving DecidableEq, Repr

def MemSrc.code : MemSrc → Nat
  | .demand => 0
  | .partialWrite => 1
  | .scrub => 2
  | .sparing => 3

/-- A memory event's payload (R383). -/
def memPayload (kind k ch pc src cause time addr row suppressed left : Nat) : List Byte :=
  payload [(0, leBytes 1 kind), (1, leBytes 1 k), (2, leBytes 1 ch), (3, leBytes 1 pc), (4, leBytes 1 src),
    (5, leBytes 1 cause), (8, leBytes 8 time), (0x10, leBytes 8 addr), (0x18, leBytes 4 row),
    (0x1C, leBytes 4 suppressed), (0x20, leBytes 4 left)]

/-- Posts MEM_UE for a granule, at most once per 1 ms for each pseudo-channel (R383). -/
def State.postUe (s : State) (g : Nat) (src : MemSrc) : State :=
  let o := 32 * g
  let k := ctlOf o
  let ls := lsOfOffset o
  let key := k * 64 + channelOf ls * 2 + pcOf ls
  let old := NMap.find? s.mem.uePost key
  let quiet := match old with
    | some (t, _) => decide (s.time.bnd < t + ticksOfUs 1000)
    | none => false
  let held := match old with
    | some (_, n) => n
    | none => 0
  if quiet then
    let t := match old with
      | some (t, _) => t
      | none => 0
    { s with mem := { s.mem with uePost := NMap.insert s.mem.uePost key (t, satAdd32 held 1) } }
  else
    let s := s.postEvent (deckIndex .MEM k)
      (memPayload 0x21 k (channelOf ls) (pcOf ls) src.code 0 s.time.now o 0 held 0)
    { s with mem := { s.mem with uePost := NMap.insert s.mem.uePost key (s.time.bnd, 0) } }

/-- The key of a physical row of a controller. -/
def rowKey (k ls : Nat) : Nat := Nat.pair k (Config.rowOf k ls)

/-- Marks a row as needing a spare (R372). -/
def State.rowNeeds (s : State) (k ls : Nat) : State :=
  let key := rowKey k ls
  if (NMap.find? s.mem.rowDue key).isSome then s
  else { s with mem := { s.mem with rowDue := NMap.insert s.mem.rowDue key s.time.bnd } }

/-- Counts a corrected granule (R364), for its row too (R372). -/
def State.countCe (s : State) (g : Nat) : State :=
  let k := ctlOf (32 * g)
  let ls := lsOfOffset (32 * g)
  let s := (s.count .MEM_CE_CNT k).count .MEM_CH_CE_CNT k (channelOf ls)
  let n := NMap.get 0 s.mem.rowErr (rowKey k ls) + 1
  let s := { s with mem := { s.mem with rowErr := NMap.set 0 s.mem.rowErr (rowKey k ls) n } }
  if s.reg .MEM_ROW_CE_LIMIT k ≤ n then s.rowNeeds k ls else s

/-- Counts and reports an uncorrectable granule: its channel's window count may start a retirement (R360, R372, R374). -/
def State.countUe (s : State) (g : Nat) (src : MemSrc) : State :=
  let k := ctlOf (32 * g)
  let ls := lsOfOffset (32 * g)
  let ch := channelOf ls
  let s := (s.count .MEM_UE_CNT k).count .MEM_CH_UE_CNT k ch
  let n := NMap.get 0 s.mem.ueWin (k * 32 + ch) + 1
  let s := { s with mem := { s.mem with ueWin := NMap.set 0 s.mem.ueWin (k * 32 + ch) n },
                    mgc := { s.mgc with ueGran := s.mgc.ueGran + 1 } }
  let s := if s.reg .MEM_CH_UE_LIMIT k ≤ n ∧ !s.isSet .MEM_CH_RETIRE_BUSY k ∧ !s.chRetired k ch then s.later 9 (cfgSrc .MEM k 0x3C) (.channelRetire k ch 2) else s
  (s.rowNeeds k ls).postUe g src

/-! ### Reads and writes -/

/-- Reads granule `g`: a corrected one is rewritten and counted, an uncorrectable one becomes POISON, counted and
reported (R358, R360, R364). -/
def State.readGran (s : State) (g : Nat) (src : MemSrc) : GranRead × State :=
  match decodeGran s.mem g with
  | none => (⟨.poison, List.replicate 32 0, false⟩, (s.putGran g .poison []).countUe g src)
  | some r =>
    if r.fixed then (r, (s.putGran g r.st r.bytes).countCe g)
    else (r, s)

/-- The four granules of a line at a tile-local offset, as a request reads them; a retired channel gives POISON
(R375). -/
def State.readLine (s : State) (o : Nat) (src : MemSrc := .demand) : LineData × State :=
  let g0 := o / 128 * 4
  if s.retiredAt o then
    (⟨List.replicate 128 0, List.replicate 4 .poison⟩, s.count .MEM_RETIRED_ACC_CNT (ctlOf o))
  else
    let r0 := s.readGran g0 src
    let r1 := r0.2.readGran (g0 + 1) src
    let r2 := r1.2.readGran (g0 + 2) src
    let r3 := r2.2.readGran (g0 + 3) src
    let clean (r : GranRead) : List Byte := if r.st = .good then r.bytes else List.replicate 32 0
    (⟨clean r0.1 ++ clean r1.1 ++ clean r2.1 ++ clean r3.1, [r0.1.st, r1.1.st, r2.1.st, r3.1.st]⟩, r3.2)

/-- Writes a whole line granule by granule, each a full write with the state it carries (R363, R752). -/
def State.writeLine (s : State) (o : Nat) (d : LineData) : State :=
  if s.retiredAt o then s.count .MEM_RETIRED_ACC_CNT (ctlOf o) else
  foldState (fun s i => s.putGran (o / 128 * 4 + i) (d.gran.getD i .good) ((d.bytes.drop (32 * i)).take 32))
    (List.range 4) s

/-- Overlays bytes at an offset of a granule. -/
def overlay (old : List Byte) (at' : Nat) (new : List Byte) : List Byte :=
  old.take at' ++ new ++ old.drop (at' + new.length)

/-- A write of bytes that lie within one granule (R363). -/
def State.writeGran (s : State) (o : Nat) (bs : List Byte) (carry : GState) : State :=
  let g := o / 32
  let k := ctlOf o
  if bs.length = 32 then s.putGran g carry bs
  else if carry ≠ .good then (s.putGran g carry []).count .MEM_PARTIAL_POISON_CNT k
  else match decodeGran s.mem g with
    | none =>
      ((s.putGran g .poison []).countUe g .partialWrite).count .MEM_PARTIAL_POISON_CNT k
    | some r =>
      let s := if r.fixed then s.countCe g else s
      if r.st = .good then
        let s := if r.fixed then s.count .MEM_PARTIAL_FIX_CNT k else s
        s.putGran g .good (overlay r.bytes (o % 32) bs)
      else
        let s := if r.fixed then s.putGran g r.st [] else s
        s.count .MEM_PARTIAL_POISON_CNT k

/-- Splits bytes at granule boundaries. -/
def granPieces : Nat → Nat → List Byte → List (Nat × List Byte)
  | 0, _, _ => []
  | fuel + 1, a, bs =>
    if bs.isEmpty then [] else
    let n := 32 - a % 32
    if bs.length ≤ n then [(a, bs)] else (a, bs.take n) :: granPieces fuel (a + n) (bs.drop n)

/-- A write of bytes within one line at a tile-local offset; `carry` is the state the bytes travel with (R361). -/
def State.writeBytes (s : State) (o : Nat) (bs : List Byte) (carry : GState := .good) : State :=
  if s.retiredAt o then s.count .MEM_RETIRED_ACC_CNT (ctlOf o) else
  foldState (fun s p => s.writeGran p.1 p.2 carry) (granPieces (bs.length + 1) o bs) s

/-- The worse of two granule states: LOST, then POISON. -/
def worse (a b : GState) : GState :=
  match a, b with
  | .good, x => x
  | .lost, _ => .lost
  | .poison, .lost => .lost
  | .poison, _ => .poison

/-- The states of the granules that bytes at an offset of a line touch, taken together. -/
def granOver (d : LineData) (off n : Nat) : GState :=
  (List.range 4).foldl (fun acc i =>
    if off < 32 * (i + 1) ∧ 32 * i < off + n then worse acc (d.gran.getD i .good) else acc) .good

/-- What a read of `n` bytes at an offset of a line returns. -/
def partOf (d : LineData) (off n : Nat) : PartRes :=
  { bytes := (d.bytes.drop off).take n, gran := granOver d off n, grans := (d.gran.drop (off / 32)).take ((n + 31) / 32) }

/-- A read of bytes within one line at a tile-local offset. -/
def State.readBytes (s : State) (o n : Nat) : PartRes × State :=
  let r := s.readLine o
  (partOf r.1 (o % 128) n, r.2)

/-! ### Atomics (R191, R194) -/

/-- The value that an atomic stores over an old one; `typ` is a TYP code.  `cas` stores `new` on equality. -/
def amoValue (op : AmoOp) (t : Ty) (old c new : Nat) : Nat :=
  match op with
  | .add => if t = .f32 then (fmtF32.fadd .near old c).1 else (old + c) % 2 ^ t.width
  | .min => (aluMinMax t true old c).1
  | .max => (aluMinMax t false old c).1
  | .and => old &&& c
  | .or => old ||| c
  | .xor => old ^^^ c
  | .xchg => c
  | .cas => if old = c then new else old

/-- Applies an access to the data of a line: what it returns, and the line after it.  Bytes that go to part of a
granule that is not GOOD are discarded, and an atomic there returns poison; a write of a whole granule makes it GOOD
(R753). -/
def applyPart (d : LineData) (p : Part) : PartRes × LineData :=
  let off := p.addr % 128
  let put (bs : List Byte) : LineData :=
    foldState (fun (d : LineData) (q : Nat × List Byte) =>
      let i := q.1 / 32
      if d.gran.getD i .good = .good ∨ q.2.length = 32 then
        { bytes := overlay d.bytes q.1 q.2, gran := d.gran.set i .good }
      else d) (granPieces (bs.length + 1) off bs) d
  match p.op with
  | .load => (partOf d off p.size, d)
  | .store bs => (okRes, put bs)
  | .amo op typ c new =>
    let r := partOf d off p.size
    if r.gran = .good then
      (r, put (leBytes p.size (amoValue op ((Ty.ofCode typ).getD .u32) (leNat r.bytes) c new)))
    else (r, d)
  | .signal _ _ => (okRes, d)

/-- An atomic performed at memory, at a tile-local offset (R293). -/
def State.memAmo (s : State) (o : Nat) (p : Part) : PartRes × State :=
  if s.retiredAt o then (poisonRes p.size, s.count .MEM_RETIRED_ACC_CNT (ctlOf o)) else
  match p.op with
  | .amo op typ c new =>
    let g := s.readGran (o / 32) .demand
    if g.1.st = .good then
      let old := (g.1.bytes.drop (o % 32)).take p.size
      let v := amoValue op ((Ty.ofCode typ).getD .u32) (leNat old) c new
      ({ bytes := old, gran := .good }, g.2.writeGran o (leBytes p.size v) .good)
    else ({ bytes := List.replicate p.size 0, gran := g.1.st }, g.2.count .MEM_PARTIAL_POISON_CNT (ctlOf o))
  | _ => (okRes, s)

end Sys2Proof.Machine
end

