-- ==== Sys2Proof/Machine/Compress.lean ====
section
/-!
DEFINITION. Compressed tensors: symbols, table images and codes, the stored block, table building, factored tiles,
the length map, and what each kind of access does to a slot (R385–R428).
-/
namespace Sys2Proof.Machine

/-! ### Symbols (R398, R399) -/

/-- The lengths of the run symbols 256 + m. -/
def runLengths : List Nat := [2, 3, 4, 6, 8, 12, 16, 24, 32, 48, 64, 96, 128, 192, 256, 512]

def runLen (m : Nat) : Nat := runLengths.getD m 0

/-- How many bytes equal to `z` stand at the front. -/
def leadRun (z : Byte) : List Byte → Nat
  | [] => 0
  | b :: t => if b = z then leadRun z t + 1 else 0

/-- The longest run symbol of length at most `n` that has a code. -/
def bestRun (coded : Nat → Bool) (n : Nat) : Option Nat :=
  (List.range 16).reverse.find? fun m => coded (256 + m) && decide (runLen m ≤ n)

/-- The greedy tokeniser; `fuel` bounds the symbols (R399). -/
def tokenise (z : Byte) (coded : Nat → Bool) : Nat → List Byte → List Nat
  | 0, _ => []
  | _ + 1, [] => []
  | fuel + 1, b :: t =>
    match (if b = z then bestRun coded (leadRun z (b :: t)) else none) with
    | some m => (256 + m) :: tokenise z coded fuel ((b :: t).drop (runLen m))
    | none => b.toNat :: tokenise z coded fuel t

/-- The bytes of a symbol. -/
def symBytes (z : Byte) (sym : Nat) : List Byte :=
  if sym < 256 then [BitVec.ofNat 8 sym] else List.replicate (runLen (sym - 256)) z

/-! ### Table slot images (R400–R402) -/

def imgNat (img : List Byte) (off n : Nat) : Nat := leNat ((img.drop off).take n)

/-- The code length of a symbol; 0 means no code. -/
def codeLen (img : List Byte) (sym : Nat) : Nat := imgNat img 0x10 170 / 2 ^ (5 * sym) % 32

def zeroByte (img : List Byte) : Byte := img.getD 1 0

/-- TABLE_CHECK: the low 16 bits of CRC32. -/
def tableCheck (img : List Byte) : Nat := imgNat img 0xFC 2

/-- Whether an image is valid (R401). -/
def imageValid (img : List Byte) : Bool :=
  let ls := (List.range 272).map (codeLen img)
  (ls.take 256).all (fun l => decide (1 ≤ l ∧ l ≤ 16)) && (ls.drop 256).all (fun l => decide (l ≤ 16))
    && decide (((ls.filter (· ≠ 0)).map fun l => 2 ^ (16 - l)).sum ≤ 2 ^ 16)
    && decide (imgNat img 2 1 = ls.foldl max 0)
    && decide (imgNat img 0 1 ≤ 4)
    && decide (imgNat img 3 1 = 0) && decide (imgNat img 8 8 = 0)
    && decide (imgNat img 0x10 170 / 2 ^ 1360 = 0) && decide (imgNat img 0xBA 66 = 0)
    && decide (imgNat img 0xFC 4 = crc32 (img.take 0xFC))

/-- The codewords of one length, from the first free code on: symbol, length, word. -/
def codesOfLen (img : List Byte) (l : Nat) : List Nat → Nat → List (Nat × Nat × Nat)
  | [], _ => []
  | sym :: t, code =>
    if codeLen img sym = l then (sym, l, code) :: codesOfLen img l t (code + 1) else codesOfLen img l t code

/-- The canonical code (R402): symbol, length and codeword of every coded symbol, from length `l` on. -/
def codeTable (img : List Byte) : Nat → Nat → Nat → List (Nat × Nat × Nat)
  | 0, _, _ => []
  | fuel + 1, l, code =>
    let cs := codesOfLen img l (List.range 272) code
    cs ++ codeTable img fuel (l + 1) (2 * (code + cs.length))

def codesOf (img : List Byte) : List (Nat × Nat × Nat) := codeTable img 16 1 0

/-! ### The stored block (R403–R405) -/

/-- The bits of a codeword, most significant first. -/
def codeBits (l w : Nat) : List Bool := (List.range l).map fun i => w.testBit (l - 1 - i)

/-- Bytes from bits, bit 0 of each byte first; a last byte is padded with zero bits (R404). -/
def packBits : Nat → List Bool → List Byte
  | 0, _ => []
  | fuel + 1, bs =>
    if bs.isEmpty then [] else
    BitVec.ofNat 8 ((bs.take 8).zipIdx.foldl (fun acc b => acc + if b.1 then 2 ^ b.2 else 0) 0)
      :: packBits fuel (bs.drop 8)

/-- The bits of bytes, bit 0 of each byte first. -/
def unpackBits (bs : List Byte) : List Bool :=
  bs.flatMap fun b => (List.range 8).map fun i => b.getLsbD i

/-- Every sixteenth symbol, from number `k` on, as one sub-stream. -/
def subStream (codes : List (Nat × Nat × Nat)) (syms : List Nat) (k : Nat) : List Byte :=
  let mine := (syms.zipIdx.filter fun p => p.2 % 16 == k).map (·.1)
  let bits := mine.flatMap fun sym => match codes.find? fun c => c.1 == sym with
    | some (_, l, w) => codeBits l w
    | none => []
  packBits (bits.length + 1) bits

/-- The compressed form of a block under a table: its header and sub-streams, or nothing where it is too long. -/
def encodeBlock (img : List Byte) (bytes : List Byte) : Option (List Byte) :=
  let codes := codesOf img
  let syms := tokenise (zeroByte img) (fun sym => decide (codeLen img sym ≠ 0)) (bytes.length + 1) bytes
  let subs := (List.range 16).map (subStream codes syms)
  let form : List Byte := leBytes 2 (tableCheck img) ++ [0, 0] ++ (subs.flatMap fun x => leBytes 2 x.length) ++ subs.flatten
  if form.length ≤ 1920 then some form else none

/-- The lines that a form takes (R405). -/
def linesOf (form : List Byte) : Nat := (form.length + 127) / 128

/-! ### Decoding (R406) -/

/-- Reads one codeword from the front of a sub-stream: the symbol and the rest. -/
def readCode (codes : List (Nat × Nat × Nat)) (bits : List Bool) : Option (Nat × List Bool) :=
  match codes.find? fun c => decide (c.2.1 ≤ bits.length) && bits.take c.2.1 == codeBits c.2.1 c.2.2 with
  | some (sym, l, _) => some (sym, bits.drop l)
  | none => none

/-- Decodes symbols from the sixteen sub-streams in turn until 2,048 bytes stand; `rev` holds them in reverse. -/
def decodeSyms (codes : List (Nat × Nat × Nat)) (z : Byte) : Nat → Nat → List (List Bool) → Nat → List (List Byte) →
    Option (List Byte × List (List Bool))
  | 0, _, _, _, _ => none
  | fuel + 1, n, subs, len, rev =>
    if len = 2048 then some (rev.reverse.flatten, subs)
    else match readCode codes (subs.getD (n % 16) []) with
      | none => none
      | some (sym, rest) =>
        let bs := symBytes z sym
        if 2048 < len + bs.length then none
        else decodeSyms codes z fuel (n + 1) (subs.set (n % 16) rest) (len + bs.length) (bs :: rev)

/-- Splits a form into its sub-streams by the lengths of its header. -/
def splitSubs : List Nat → List Byte → List (List Byte)
  | [], _ => []
  | l :: t, bs => bs.take l :: splitSubs t (bs.drop l)

/-- The bytes of a compressed block, or nothing for a decode error. -/
def decodeBlock (img : List Byte) (entry : Nat) (form : List Byte) : Option (List Byte) :=
  let lens := (List.range 16).map fun k => imgNat form (4 + 2 * k) 2
  let total := 36 + (lens.map (· % 512)).sum
  if imgNat form 0 2 ≠ tableCheck img ∨ imgNat form 2 2 ≠ 0 ∨ lens.any (fun l => decide (512 ≤ l))
      ∨ 128 * entry < total then none
  else match decodeSyms (codesOf img) (zeroByte img) 2049 0 ((splitSubs lens (form.drop 36)).map unpackBits) 0 [] with
    | none => none
    | some (bs, rest) => if rest.any (fun r => decide (8 ≤ r.length) || r.any id) then none else some bs

/-! ### Building a table (R408, R409) -/

/-- An item of the package-merge: its weight, and its leaves with multiplicity. -/
abbrev Coin := Nat × List Nat

/-- Inserts by ascending weight, after items of equal weight. -/
def insertCoin (c : Coin) : List Coin → List Coin
  | [] => [c]
  | x :: t => if x.1 ≤ c.1 then x :: insertCoin c t else c :: x :: t

def sortCoins (cs : List Coin) : List Coin := cs.foldl (fun acc c => insertCoin c acc) []

/-- Pairs of neighbours as packages; an odd last item is dropped. -/
def packages : List Coin → List Coin
  | a :: b :: t => (a.1 + b.1, a.2 ++ b.2) :: packages t
  | _ => []

/-- Code lengths of the 272 symbols from a histogram. -/
def buildLengths (h : Nat → Nat) : List Nat :=
  let weight (sym : Nat) : Nat := if sym < 256 then h sym + 1 else h sym
  let coded := (List.range 272).filter fun sym => decide (weight sym ≠ 0)
  let leaves := sortCoins (coded.map fun sym => (weight sym, [sym]))
  let list := (List.range 15).foldl (fun l _ => sortCoins (leaves ++ packages l)) leaves
  let chosen := (list.take (2 * coded.length - 2)).flatMap (·.2)
  (List.range 272).map fun sym => chosen.count sym

/-- The image of a table: LENGTHS, MAX_LEN and CRC32 from the builder, the rest from the request. -/
def buildImage (format : Nat) (z : Byte) (tableId : Nat) (h : Nat → Nat) : List Byte :=
  let ls := buildLengths h
  let packed := ls.zipIdx.foldl (fun acc p => acc + p.1 * 2 ^ (5 * p.2)) 0
  let body := [BitVec.ofNat 8 format, z, BitVec.ofNat 8 (ls.foldl max 0), 0] ++ leBytes 4 tableId ++ leBytes 8 0
    ++ leBytes 170 packed ++ List.replicate 66 0
  body ++ leBytes 4 (crc32 body)

/-! ### Table slots (R408, R411, R414, R415) -/

def State.slotState (s : State) (n : Nat) : Nat := s.reg .CDC_SLOT_STATE 0 n
def State.slotImg (s : State) (n : Nat) : List Byte := NMap.get (List.replicate 256 0) s.codec.img n
def State.setSlot (s : State) (n st : Nat) (img : List Byte) : State :=
  let s := s.setReg .CDC_SLOT_STATE st 0 n
  { s with codec := { s.codec with img := NMap.set (List.replicate 256 0) s.codec.img n img } }

def State.hist (s : State) (n sym : Nat) : Nat := NMap.get 0 s.codec.hist (n * 272 + sym)

/-- Adds symbols to a slot's histogram; the counters saturate at 40 bits. -/
def State.addHist (s : State) (n : Nat) (syms : List Nat) : State :=
  let h := foldState (fun h sym => NMap.set 0 h (n * 272 + sym) (min (NMap.get 0 h (n * 272 + sym) + 1) (2 ^ 40 - 1)))
    syms s.codec.hist
  { s with codec := { s.codec with hist := h } }

def State.clearHist (s : State) (n : Nat) : State :=
  { s with codec := { s.codec with hist := s.codec.hist.filter fun p => p.1 / 272 != n } }

/-- The hold count of a slot (R415). -/
def State.slotHold (s : State) (n : Nat) : Nat :=
  (numsWhere 256 fun w => s.isSet .TILE_WIN_VALID 0 w && s.reg .TILE_WIN_TYPE 0 w == 2
    && s.reg .TILE_WIN_CMODE 0 w == 1 && s.reg .TILE_WIN_CSEL 0 w == n).length + NMap.get 0 s.codec.passes n

/-- What an encoder does with a full block of good bytes for a slot: the map entry and stored form it would write,
entry 0 being raw, counting and surveying as it goes (R405, R411). -/
def State.encodeFor (s : State) (slot : Nat) (bytes : List Byte) : (Nat × List Byte) × State :=
  let s := s.issue 10 slot
  if s.slotState slot = 2 then
    match encodeBlock (s.slotImg slot) bytes with
    | some form => ((linesOf form, form), s)
    | none => ((0, bytes), s.count .CDC_RAW_FALLBACK_CNT)
  else if s.slotState slot = 1 then
    ((0, bytes), s.addHist slot (tokenise (zeroByte (s.slotImg slot)) (fun _ => true) (bytes.length + 1) bytes))
  else ((0, bytes), s)

/-! ### Factored tiles (R421, R422) -/

/-- The rank that a map entry of a weight tile names (R389). -/
def rankOf (entry : Nat) : Nat := 2 ^ (entry + 1)

/-- An exact sum of exact products, rounded once to BF16 (R422). -/
def dotBf16 (ps : List (Nat × Nat)) : Nat :=
  let prod (p : Nat × Nat) : FV := (FV.mul (fmtBF16.decode p.1) (fmtBF16.decode p.2)).1
  let total := match ps with
    | [] => FV.num false 0 0
    | p :: t => t.foldl (fun acc q => (FV.add .near acc (prod q)).1) (prod p)
  (fmtBF16.write .near total).1

/-- The 32 KiB of a factored tile from its factors. -/
def expandTile (r : Nat) (form : List Byte) : List Byte :=
  let h (off : Nat) : Nat := imgNat form off 2
  (List.range 128).flatMap fun i => (List.range 128).flatMap fun j =>
    leBytes 2 (dotBf16 ((List.range r).map fun k => (h (2 * (r * i + k)), h (256 * r + 2 * (128 * k + j)))))

/-! ### Decoding a unit (R389, R406, R407, R423) -/

/-- The worst state among granules. -/
def worstOf (gs : List GState) : GState := gs.foldl worse .good

def poisoned (n : Nat) (g : GState) : LineData := ⟨List.replicate n 0, List.replicate (n / 32) g⟩

/-- Decodes the stored form of an entropy block with the table of a slot of this tile. -/
def State.decodeEntropy (s : State) (slot entry : Nat) (d : LineData) : LineData × State :=
  let s := s.issue 10 slot
  if worstOf d.gran ≠ .good then (poisoned 2048 (worstOf d.gran), s)
  else match (if s.slotState slot = 2 then decodeBlock (s.slotImg slot) entry d.bytes else none) with
    | some bs => (⟨bs, List.replicate 64 .good⟩, s)
    | none => (poisoned 2048 .poison, s.count .CDC_DEC_ERR_CNT)

/-- Multiplies out the stored form of a factored tile. -/
def decodeFactored (entry : Nat) (d : LineData) : LineData :=
  if worstOf d.gran ≠ .good then poisoned 32768 (worstOf d.gran)
  else ⟨expandTile (rankOf entry) d.bytes, List.replicate 1024 .good⟩

/-! ### The length map (R388–R394, R756) -/

def State.mapBase (s : State) (k : Nat) : Nat := s.reg64 .CDC_LMAP_BASE_LO .CDC_LMAP_BASE_HI 0 k

/-- The bytes of a length-map area. -/
def mapBytes : Nat := 12 * 2 ^ 20

/-- Whether a tile-local offset lies inside a length-map area in use (R391). -/
def State.inMap (s : State) (o : Nat) : Bool :=
  (List.range 8).any fun k => s.isSet .CDC_LMAP_EN 0 k && decide (s.mapBase k ≤ o) && decide (o < s.mapBase k + mapBytes)

/-- Where the entry of a block stands: its byte, and whether it is the high nibble; nothing where the block has no
entry in use (R390, R391, R756). -/
def State.mapAt (s : State) (o : Nat) : Option (Nat × Bool) :=
  let k := ctlOf o
  let b := o % stackBytes / 2048
  let a := s.mapBase k + b / 2
  if !s.isSet .CDC_LMAP_EN 0 k || s.inMap o || s.retiredAt a then none else some (a, b % 2 == 1)

/-- Writes every granule of a range with a state (R394). -/
def State.loseRange (s : State) (o n : Nat) (g : GState) : State :=
  foldState (fun s i => if s.retiredAt (o + 128 * i) then s else s.writeLine (o + 128 * i) (poisoned 128 g))
    (List.range (n / 128)) s

/-- Handles a map granule that a read found bad: its 64 blocks are lost with it, and it is rewritten with entries 0
(R394). -/
def State.mapLoss (s : State) (k a : Nat) (g : GState) : State :=
  let g0 := a / 32 * 32
  let first := k * stackBytes + (g0 - s.mapBase k) * 2 * 2048
  let s := s.loseRange first (64 * 2048) (if g = .lost then .lost else .poison)
  (s.putGran (g0 / 32) .good (List.replicate 32 0)).count .CDC_LMAP_LOSS_CNT

/-- The map entry of the block at a tile-local offset. -/
def State.mapEntry (s : State) (o : Nat) : Nat × State :=
  match s.mapAt o with
  | none => (0, s)
  | some (a, high) =>
    let r := s.readGran (a / 32) .demand
    if r.1.st = .good then
      let v := (r.1.bytes.getD (a % 32) 0).toNat
      (if high then v / 16 else v % 16, r.2)
    else (0, r.2.mapLoss (ctlOf o) a r.1.st)

/-- Writes the map entry of the block at a tile-local offset, where it has one in use. -/
def State.setMapEntry (s : State) (o v : Nat) : State :=
  match s.mapAt o with
  | none => s
  | some (a, high) =>
    let r := s.readGran (a / 32) .demand
    let s := if r.1.st = .good then r.2 else r.2.mapLoss (ctlOf o) a r.1.st
    let old := (NMap.get 0 s.mem.cells a).toNat
    let new := if high then old % 16 + 16 * v else old / 16 * 16 + v
    s.writeBytes a [BitVec.ofNat 8 new]

/-- Writes the entry of a unit: of a weight tile its first block's, and 0 for the others (R389). -/
def State.setUnitEntry (s : State) (o v : Nat) (tile : Bool) : State :=
  if tile then foldState (fun s i => s.setMapEntry (o + 2048 * i) (if i = 0 then v else 0)) (List.range 16) s
  else s.setMapEntry o v

/-! ### Units at the home -/

def unitBytes (tile : Bool) : Nat := if tile then 32768 else 2048

/-- The start of the unit that holds a tile-local offset. -/
def unitOf (tile : Bool) (o : Nat) : Nat := o / unitBytes tile * unitBytes tile

/-- Reads `n` whole lines from a tile-local offset. -/
def State.readLines (s : State) (o n : Nat) : LineData × State :=
  foldState (fun (acc : LineData × State) i =>
    let r := acc.2.readLine (o + 128 * i)
    (⟨acc.1.bytes ++ r.1.bytes, acc.1.gran ++ r.1.gran⟩, r.2)) (List.range n) (⟨[], []⟩, s)

/-- Writes whole lines from a tile-local offset. -/
def State.writeLines (s : State) (o : Nat) (d : LineData) : State :=
  foldState (fun s i => s.writeLine (o + 128 * i) ⟨(d.bytes.drop (128 * i)).take 128, (d.gran.drop (4 * i)).take 4⟩)
    (List.range (d.bytes.length / 128)) s

/-- The stored lines that a map entry of a unit stands for; 0 for a raw or a reserved one. -/
def storedLines (tile : Bool) (entry : Nat) : Nat :=
  if tile then (if 1 ≤ entry ∧ entry ≤ 4 then 4 * rankOf entry else 0) else entry

/-- The decoded bytes of a unit with entry `entry`, as the merge unit sees it. -/
def State.decodeUnit (s : State) (tile : Bool) (slot o entry : Nat) : LineData × State :=
  if entry = 0 then s.readLines o (unitBytes tile / 128)
  else if tile then
    if 4 < entry then (poisoned 32768 .poison, s)
    else
      let r := s.readLines o (storedLines true entry)
      (decodeFactored entry r.1, r.2)
  else
    let r := s.readLines o entry
    r.2.decodeEntropy slot entry r.1

/-- Writes a whole unit with its entry; its map granule is read first, so that one found bad loses what the unit held
before and not what is written (R394). -/
def State.writeUnit (s : State) (tile : Bool) (o entry : Nat) (d : LineData) : State :=
  ((s.mapEntry o).2.writeLines o d).setUnitEntry o entry tile

/-- Writes a whole unit raw, with entry 0. -/
def State.writeRawUnit (s : State) (tile : Bool) (o : Nat) (d : LineData) : State := s.writeUnit tile o 0 d

/-- The slot that this tile's window table names at a tile-local offset of its own. -/
def State.cselAt (s : State) (o : Nat) : Nat := (s.codecOf (s.normalise (0xFFFF * 2 ^ 48 + o))).2

/-- Fills a form up to whole lines. -/
def padForm (form : List Byte) : List Byte :=
  form ++ List.replicate ((128 - form.length % 128) % 128) Config.formPad

/-- Stores a compressed or factored form with its entry; where the stack has no map in use, or a stored line lies in a
retired channel, the merge unit stores it raw (R386, R390, R428). -/
def State.storeForm (s : State) (tile : Bool) (o entry : Nat) (form : List Byte) : State :=
  let d : LineData := ⟨padForm form, List.replicate (linesOf form * 4) .good⟩
  let raw (s : State) : State :=
    if tile then s.writeRawUnit true o (decodeFactored entry d)
    else
      let r := s.decodeEntropy (s.cselAt o) entry d
      r.2.writeRawUnit false o r.1
  if s.inMap o then raw s
  else if (s.mapAt o).isNone then raw (s.count .CDC_NOMAP_CNT)
  else if (List.range (linesOf form)).any fun i => s.retiredAt (o + 128 * i) then raw (s.count .CDC_EXPAND_CNT)
  else s.writeUnit tile o entry d

/-- What a write of bytes does to the granules of a decoded unit, counted as R363 and R752 say. -/
def mergeGran (k off : Nat) (carry : GState) (acc : LineData × State) (p : Nat × List Byte) : LineData × State :=
  let i := (p.1 - off) / 32
  let old := acc.1.gran.getD i .good
  if p.2.length = 32 then
    let s := if carry = .good ∧ old ≠ .good then acc.2.count .MEM_POISON_CLR_CNT k else acc.2
    (⟨overlay acc.1.bytes (p.1 - off) p.2, acc.1.gran.set i carry⟩, s)
  else if carry ≠ .good then (⟨acc.1.bytes, acc.1.gran.set i carry⟩, acc.2.count .MEM_PARTIAL_POISON_CNT k)
  else if old ≠ .good then (acc.1, acc.2.count .MEM_PARTIAL_POISON_CNT k)
  else (⟨overlay acc.1.bytes (p.1 - off) p.2, acc.1.gran⟩, acc.2)

/-- A partial write to a unit of a compressed window: on a raw slot an ordinary write, otherwise a rewrite by the
merge unit (R427). -/
def State.mergeWrite (s : State) (tile : Bool) (runs : List (Nat × List Byte)) (carry : GState) : State :=
  match runs with
  | [] => s
  | (o, _) :: _ =>
    let u := unitOf tile o
    let e := s.mapEntry u
    if e.1 = 0 then foldState (fun s r => foldState (fun s p => s.writeBytes p.1 p.2 carry)
      (granPieces (r.2.length + 1) r.1 r.2) s) runs e.2
    else
      let d := e.2.decodeUnit tile (s.cselAt u) u e.1
      let s := d.2.count .CDC_EXPAND_CNT
      let ps := runs.flatMap fun r => granPieces (r.2.length + 1) r.1 r.2
      let m := foldState (mergeGran (ctlOf u) u carry) ps (d.1, s)
      m.2.writeRawUnit tile u m.1

/-- An atomic to a unit of a compressed window (R427). -/
def State.mergeAmo (s : State) (tile : Bool) (o : Nat) (p : Part) : PartRes × State :=
  let u := unitOf tile o
  let e := s.mapEntry u
  if e.1 = 0 then e.2.memAmo o p else
  let d := e.2.decodeUnit tile (s.cselAt u) u e.1
  let s := d.2.count .CDC_EXPAND_CNT
  let line : LineData := ⟨(d.1.bytes.drop ((o - u) / 128 * 128)).take 128, (d.1.gran.drop ((o - u) / 128 * 4)).take 4⟩
  let a := applyPart line { p with addr := o }
  let s := if a.1.gran = .good then s else s.count .MEM_PARTIAL_POISON_CNT (ctlOf u)
  let i := (o - u) / 128
  let full : LineData := ⟨d.1.bytes.take (128 * i) ++ a.2.bytes ++ d.1.bytes.drop (128 * (i + 1)),
    d.1.gran.take (4 * i) ++ a.2.gran ++ d.1.gran.drop (4 * (i + 1))⟩
  (a.1, s.writeRawUnit tile u full)

end Sys2Proof.Machine
end

