-- ==== Sys2Proof/Machine/Fence.lean ====
section
/-!
DEFINITION. Fence records: where they lie, what each signal does to one, and what the CP and the mirrors learn of it
(R553–R560).
-/
namespace Sys2Proof.Machine

/-- RING_ERROR (R548). -/
def State.ringError (s : State) (cause value : Nat) : State :=
  s.postEvent (deckIndex .CTX 0) (payload [(0, leBytes 1 0x43), (1, leBytes 1 cause), (8, leBytes 8 s.time.now),
    (0x10, leBytes 4 value)])

/-- The tile-local offset of the fence area (R553). -/
def State.fenceBase (s : State) : Nat := s.reg64 .CTX_FENCE_BASE_LO .CTX_FENCE_BASE_HI % 2 ^ 48

/-- The tile-local offset of a fence's record. -/
def State.fenceOffset (s : State) (n : Nat) : Nat := s.fenceBase + 16 * n

/-- The normalised address of a fence's record. -/
def State.fenceAddr (s : State) (n : Nat) : Nat := s.normalise (0xFFFF * 2 ^ 48 + s.fenceOffset n % 2 ^ 48)

/-- A fence record (R553). -/
structure FenceRec where
  value : Nat
  sat : Bool
  err : Bool
  inits : Nat
  ooo : Nat
deriving DecidableEq, Repr

/-- The 16 bytes of a record. -/
def FenceRec.bytes (r : FenceRec) : List Byte :=
  leBytes 8 r.value ++ leBytes 4 (bit r.sat + 2 * bit r.err + 65536 * r.inits) ++ leBytes 4 r.ooo

/-- The record that 16 bytes hold. -/
def fenceOfBytes (b : List Byte) : FenceRec :=
  let fl := leNat ((b.drop 8).take 4)
  { value := leNat (b.take 8), sat := fl.testBit 0, err := fl.testBit 1, inits := fl / 65536 % 65536,
    ooo := leNat ((b.drop 12).take 4) }

/-- What a fence whose granule is POISON or LOST becomes (R558). -/
def fenceLost : FenceRec := { value := 2 ^ 64 - 1, sat := true, err := true, inits := 0, ooo := 0 }

/-- The effect of an operation on a record (R555, R559). -/
def FenceRec.apply (r : FenceRec) (op : FenceOp) (err : Bool) : FenceRec :=
  let r' := match op with
    | .init v => { value := v % 2 ^ 64, sat := false, err := false, inits := (r.inits + 1) % 65536, ooo := 0 }
    | .set v =>
      if r.sat then r
      else if r.value < v then { r with value := v }
      else if v < r.value then { r with ooo := satAdd32 r.ooo 1 }
      else r
    | .add v =>
      if r.sat then r
      else if r.value + v ≤ 2 ^ 64 - 1 then { r with value := r.value + v }
      else { r with value := 2 ^ 64 - 1, sat := true }
  if err then { r' with err := true } else r'

/-- The counters that an operation raises (R555). -/
def State.countFence (s : State) (r : FenceRec) (op : FenceOp) (err : Bool) : State :=
  let s := match op with
    | .set v => if !r.sat && decide (v < r.value) then s.count .FEN_OOO_CNT else s
    | .add v => if !r.sat && decide (2 ^ 64 - 1 < r.value + v) then s.count .FEN_SAT_CNT else s
    | .init _ => s
  if err && !r.err then s.count .FEN_ERR_CNT else s

/-- Adds a number to a list that holds it at most once. -/
def addOnce (l : List Nat) (n : Nat) : List Nat := if l.contains n then l else l ++ [n]

/-- A changed record is still to be observed by the CP and written by the mirrors that name it (R556, R560). -/
def State.fenceChanged (s : State) (n : Nat) : State :=
  let ms := numsWhere 64 fun m => s.isSet .FEN_MIR_EN 0 m && s.reg .FEN_MIR_FENCE 0 m == n
  { s with cp := { s.cp with fenSeen := addOnce s.cp.fenSeen n, mirDue := ms.foldl addOnce s.cp.mirDue } }

/-- Rewrites the two records of a granule that is POISON or LOST, and reports both (R558); `g` is the granule's index. -/
def State.fenceRewrite (s : State) (g : Nat) : State :=
  let n := (32 * g - s.fenceBase) / 16
  let s := s.putGran g .good (fenceLost.bytes ++ fenceLost.bytes)
  foldState (fun s n => (s.ringError 5 n).fenceChanged n) [n, n + 1] s

/-- The record at a tile-local offset as its home holds it; a granule that is not GOOD is rewritten first (R558). -/
def State.fenceRead (s : State) (o : Nat) : FenceRec × State :=
  let r := s.readGran (o / 32) .demand
  if r.1.st = .good ∧ !s.retiredAt o then (fenceOfBytes ((r.1.bytes.drop (o % 32)).take 16), r.2)
  else (fenceLost, r.2.fenceRewrite (o / 32))

/-- Applies an operation to the record at a tile-local offset of this tile, as one atomic update (R554, R555). -/
def State.fenceApply (s : State) (o : Nat) (op : FenceOp) (err : Bool) : State :=
  let r := s.fenceRead o
  let new := r.1.apply op err
  let s := r.2.countFence r.1 op err
  if new = r.1 then s else (s.writeGran o new.bytes .good).fenceChanged ((o - s.fenceBase) / 16)

/-- The message that carries an operation to a fence's home (R555). -/
def State.fenceMsg (s : State) (who : Agent) (n : Nat) (op : FenceOp) (err : Bool) : Msg :=
  let a := s.fenceAddr n
  { kind := .ncAtom, agent := who, home := s.homeOf (lineOf a), line := lineOf a,
    part := some { thread := 0, addr := a, size := 16, op := .signal op err } }

/-- Sends a signal from the CP to a fence's home (R555, R571). -/
def State.sendSignal (s : State) (n : Nat) (op : FenceOp) (err : Bool) (async : Option Nat := none) : State :=
  s.sendPost (.write async) (s.fenceMsg cpAgent n op err)

end Sys2Proof.Machine
end

