-- ==== Sys2Proof/Machine/Plru.lean ====
section
/-!
DEFINITION. Tree pseudo-LRU replacement, as the caches (R309) and the directory (R334) use it.
-/
namespace Sys2Proof.Machine

/-- Points the tree of a set at a way (`toward`) or away from it; node `i` has children `2i` and `2i + 1`. -/
def plruMark (toward : Bool) : Nat → Nat → Nat → Nat
  | 0, _, bits => bits
  | fuel + 1, leaf, bits =>
    if leaf ≤ 1 then bits else
    let right := leaf % 2 == 1
    let parent := leaf / 2
    let want := if toward then right else !right
    plruMark toward fuel parent (putBits bits parent parent (bit want))

/-- The way the tree points at, among the ways that are allowed; the other side of a node is taken only where its own
side has no allowed way. -/
def plruPick (ways bits : Nat) (ok : Nat → Bool) : Nat → Nat → Option Nat
  | 0, _ => none
  | fuel + 1, node =>
    if ways ≤ node then (if ok (node - ways) then some (node - ways) else none) else
    let d := bit (bits.testBit node)
    match plruPick ways bits ok fuel (2 * node + d) with
    | some w => some w
    | none => plruPick ways bits ok fuel (2 * node + (1 - d))

/-- The way to fill in a set: a free one first, else the pseudo-LRU one among those allowed. -/
def pickWay {α : Type} (m : NMap α) (lru : NMap Nat) (ways set : Nat) (ok : Nat → Bool) : Option Nat :=
  match firstWhere ways fun w => (NMap.find? m (set * ways + w)).isNone with
  | some w => some w
  | none => plruPick ways (NMap.get 0 lru set) ok 5 1

/-- Marks a way of a set as most recently used, or as the next victim. -/
def touchWay (lru : NMap Nat) (ways set w : Nat) (toward : Bool) : NMap Nat :=
  NMap.set 0 lru set (plruMark toward 5 (ways + w) (NMap.get 0 lru set))

end Sys2Proof.Machine
end

