-- ==== Sys2Proof/Machine/Home.lean ====
section
/-!
DEFINITION. The home agents: the directory, the snoops of PENDING lines, the state table of R331, dead agents and
their reclamation, and lost lines (R284, R321–R334, R338–R342, R346, R375, R484, R489, R514, R515).
-/
namespace Sys2Proof.Machine

/-! ### Lines and entries -/

/-- The tile-local offset of line `ls` of home `k`. -/
def offsetOfLs (k ls : Nat) : Nat := k * stackBytes + 128 * ls

/-- The line address of line `ls` of home `k`, as this tile names it. -/
def State.lineAt (s : State) (k ls : Nat) : Nat := ((s.tileId.getD 0xFFFF) * 2 ^ 48 + offsetOfLs k ls) / 128

/-- The directory set of a line (R326). -/
def dirSet (ls : Nat) : Nat := (ls % 2 ^ 17) ^^^ (ls / 2 ^ 17 % 2 ^ 12)

/-- The entry of a line, with its place. -/
def HomeSt.find (hs : HomeSt) (ls : Nat) : Option (Nat × DirEntry) :=
  let hit (w : Nat) : Bool := match NMap.find? hs.dir (dirSet ls * 16 + w) with
    | some e => e.ls == ls
    | none => false
  match firstWhere 16 hit with
  | none => none
  | some w => (NMap.find? hs.dir (dirSet ls * 16 + w)).map fun e => (dirSet ls * 16 + w, e)

def State.onHome (s : State) (k : Nat) (f : HomeSt → HomeSt) : State := s.setHome k (f (s.home k))

/-- Whether a line is PENDING (R330): a transaction is about it, or gets it an entry. -/
def HomeSt.isPending (hs : HomeSt) (ls : Nat) : Bool :=
  hs.txns.any fun t => t.ls == ls || match t.goal with
    | .backInval m => lsOf m.line == ls
    | _ => false

def State.setEntry (s : State) (k key : Nat) (e : DirEntry) : State :=
  s.onHome k fun hs => { hs with dir := NMap.insert hs.dir key e }

/-- Frees the entry of a line. -/
def State.freeEntry (s : State) (k ls : Nat) : State :=
  match (s.home k).find ls with
  | none => s
  | some (key, _) => s.onHome k fun hs => { hs with dir := NMap.erase hs.dir key }

/-- Adds a sharer: a fifth one turns the entry coarse (R328). -/
def addSharer (e : DirEntry) (a : Agent) : DirEntry :=
  let mark (e : DirEntry) (a : Agent) : DirEntry := match a.tile with
    | none => { e with cvec := putBits e.cvec a.unit a.unit 1 }
    | some t => { e with gvec := putBits e.gvec (t / 1024) (t / 1024) 1 }
  if e.coarse then mark e a
  else if e.ptrs.contains a then e
  else if e.ptrs.length < 4 then { e with ptrs := e.ptrs ++ [a] }
  else foldState mark (e.ptrs ++ [a]) { e with coarse := true, ptrs := [] }

/-- Adds a sharer to an entry, counting one that turns coarse. -/
def State.share (s : State) (k key : Nat) (e : DirEntry) (a : Agent) : State :=
  let e' := addSharer e a
  let s := if e'.coarse ∧ !e.coarse then s.count .MEM_COARSE_CNT k else s
  s.setEntry k key e'

/-- The sharers to invalidate but for one agent: agents named directly, and groups. -/
def sharersBut (e : DirEntry) (a : Option Agent) : List Agent × List Nat :=
  let keep (l : List Agent) : List Agent := l.filter fun x => some x != a
  if e.coarse then
    (keep (((numsWhere 64 e.cvec.testBit).map fun c => (⟨none, c⟩ : Agent)).filter fun x => some x != e.owner),
      numsWhere 64 e.gvec.testBit)
  else (keep e.ptrs, [])

/-! ### Answers -/

/-- Answers a request. -/
def State.reply (s : State) (m : Msg) (kind : MsgKind) (data : Option LineData := none) (res : Option PartRes := none)
    (status : Status := .ok) : State :=
  s.sendTo m.agent.tile { kind := kind, agent := m.agent, home := m.home, line := m.line, tag := m.tag, data := data,
                          res := res, status := status }

/-- The answer that a request with a status other than OK receives (R284, R342). -/
def State.refuse (s : State) (m : Msg) (st : Status) : State :=
  match m.kind with
  | .rdS => s.reply m (.data .copy) none none st
  | .rdX _ => s.reply m (.data .copy) none none st
  | .ncRd => s.reply m (.data .copy) none none st
  | .stRd => s.reply m (.data .staged) none none st
  | .ncAtom => s.reply m .atomRsp none none st
  | _ => s.reply m .ack none none st

/-! ### Snoops (R332, R514) -/

/-- The tiles of a group to which the route table in use has a route (R514). -/
def State.routedTiles (s : State) (g : Nat) : List Nat :=
  let gen := s.reg .RTE_ACTIVE
  if !(s.reg .RTE_LOADED).testBit gen then [] else
  (s.rte.ent.filter fun e =>
    let id := e.1 % 65536
    e.1 / 65536 == gen && id / 1024 == g && decide (id < 0xFFFE) && s.tileId != some id
      && e.2.testBit 64 && e.2 % 2 ^ 64 != 0).map fun e => e.1 % 65536

/-- Sends a snoop to one agent. -/
def State.snoop (s : State) (k ls : Nat) (kind : MsgKind) (a : Agent) : State :=
  s.sendTo a.tile { kind := kind, agent := a, home := ⟨none, k⟩, line := s.lineAt k ls }

/-- Sends one copy of a multicast to each routed tile of a group, counting the copies. -/
def State.multicast (s : State) (k ls : Nat) (kind : MsgKind) (g : Nat) : State :=
  foldState (fun s d => (s.sendTo (some d)
      { kind := kind, agent := ⟨some d, 64⟩, home := ⟨none, k⟩, line := s.lineAt k ls, mc := some g }).count
      .RTE_MCAST_COPIES_CNT) (s.routedTiles g) s

/-- Sends Inv to the sharers of an entry but for one agent, and answers who has to reply. -/
def State.invalidate (s : State) (k : Nat) (e : DirEntry) (but : Option Agent) : List Agent × State :=
  let t := sharersBut e but
  let wait := t.1 ++ t.2.flatMap fun g => (s.routedTiles g).map fun d => (⟨some d, 64⟩ : Agent)
  let s := foldState (fun s a => s.snoop k e.ls .inv a) t.1 s
  (wait, foldState (fun s g => s.multicast k e.ls .inv g) t.2 s)

/-- When a snoop sent now falls overdue (R338). -/
def State.snoopDue (s : State) (k : Nat) : Nat := s.time.bnd + ticksOfUs (s.reg .MEM_SNP_DEADLINE_US k)

def State.addTxn (s : State) (k : Nat) (t : Txn) : State := s.onHome k fun hs => { hs with txns := hs.txns ++ [t] }

/-! ### Lost lines (R340, R341) -/

/-- The payload of a loss report. -/
def lossPayload (k : Nat) (l : List LossRange) : List Byte :=
  match l with
  | [] => payload []
  | r :: _ =>
    let agent := (r.agent.tile.getD 0) * 64 + r.agent.unit % 64 + 2 ^ 22 * bit r.agent.tile.isNone + 2 ^ 23 * bit r.all
    payload ([(0, leBytes 1 0x20), (1, leBytes 1 l.length), (2, leBytes 1 k), (4, leBytes 4 agent),
      (8, leBytes 8 r.time)] ++ l.zipIdx.map fun x => (0x10 + 8 * x.2, leBytes 8 (x.1.first + 2 ^ 41 * (x.1.count - 1))))

/-- Posts what a home has gathered. -/
def State.reportLoss (s : State) (k : Nat) : State :=
  match (s.home k).losses with
  | [] => s
  | l => (s.postEvent (deckIndex .MEM k) (lossPayload k l)).onHome k fun hs => { hs with losses := [] }

/-- Adds a lost line to the report being gathered: it lengthens the last range, or starts one; a report holds four
ranges of one declaration (DEDUCED, log entry 13). -/
def State.addLoss (s : State) (k : Nat) (d : DeadEntry) (o : Nat) : State :=
  let n := o / 128
  let l := (s.home k).losses
  let same := l.all fun r => r.agent == d.agent && r.all == d.all && r.time == d.time
  let new : LossRange := { agent := d.agent, all := d.all, time := d.time, first := n, count := 1, found := s.time.bnd }
  match l.getLast? with
  | none => s.onHome k fun hs => { hs with losses := [new] }
  | some r =>
    if same ∧ r.first + r.count = n then
      s.onHome k fun hs => { hs with losses := l.dropLast ++ [{ r with count := r.count + 1 }] }
    else
      let s := if same ∧ l.length < 4 then s else s.reportLoss k
      s.onHome k fun hs => { hs with losses := hs.losses ++ [new] }

/-- Writes every granule of a line with the lost pattern, counts it and adds it to the loss report. -/
def State.loseLine (s : State) (k ls : Nat) (d : DeadEntry) : State :=
  let o := offsetOfLs k ls
  let s := if s.retiredAt o then s else s.writeLine o (poisoned 128 .lost)
  (s.count .MEM_LOST_LINES_CNT k).addLoss k d o

/-- A line that is lost without a declaration of its owner. -/
def State.loseOwn (s : State) (k ls : Nat) (a : Agent) : State :=
  (s.count .MEM_NOTHELD_CNT k).loseLine k ls { agent := a, all := false, time := s.time.now }

/-! ### Dead agents (R338–R340) -/

/-- Whether a declaration names an agent. -/
def DeadEntry.names (d : DeadEntry) (a : Agent) : Bool :=
  if d.all then d.agent.tile == a.tile else d.agent == a

/-- The declaration that names an agent, if any. -/
def State.deadOf (s : State) (k : Nat) (a : Agent) : Option DeadEntry :=
  (s.dead ++ (s.home k).reclaim).find? fun d => d.names a

/-- Whether the dead-agent table names an agent. -/
def State.isDead (s : State) (a : Agent) : Bool := s.dead.any fun d => d.names a

/-- Reclaims one entry of the directory from the agents declared dead (R340); its owner's line is lost once every
sharer has answered. -/
def State.reclaimEntry (s : State) (k key : Nat) (e : DirEntry) : State :=
  if (s.home k).isPending e.ls then s else
  let dead (a : Agent) : Bool := (s.deadOf k a).isSome
  let e := { e with ptrs := e.ptrs.filter fun a => !dead a,
                    cvec := natOfBits 64 fun c => e.cvec.testBit c && !dead ⟨none, c⟩ }
  match e.owner.bind fun a => s.deadOf k a with
  | some d =>
    if e.st = .owned then
      let r := (s.setEntry k key e).invalidate k e none
      if r.1.isEmpty then (r.2.loseLine k e.ls d).freeEntry k e.ls
      else
        let req : Msg := { kind := .snpX, agent := e.owner.getD ⟨none, 0⟩, home := ⟨none, k⟩, line := s.lineAt k e.ls }
        r.2.addTxn k { ls := e.ls, req := req, goal := .reclaim, wait := r.1, due := s.snoopDue k, lost := true }
    else (s.loseLine k e.ls d).freeEntry k e.ls
  | none =>
    if e.st = .shared ∧ !e.coarse ∧ e.ptrs.isEmpty then s.freeEntry k e.ls else s.setEntry k key e

/-- What a PENDING line does when one of the agents it waits for will not answer: as if that agent, where it is the
owner, had supplied lost data. -/
def dropWaiter (owner : Option Agent) (a : Agent) (t : Txn) : Txn :=
  if t.wait.contains a then
    { t with wait := t.wait.filter (· ≠ a), lost := t.lost || owner == some a }
  else t

/-- The owner of a line, if its entry has one. -/
def HomeSt.ownerOf (hs : HomeSt) (ls : Nat) : Option Agent := (hs.find ls).bind fun e => e.2.owner

/-- Enters a declaration in the dead-agent table and starts a reclamation walk at every home (R339, R340). -/
def State.declareDead (s : State) (k : Nat) (a : Agent) (all : Bool) : State :=
  let d : DeadEntry := { agent := if all then ⟨a.tile, 0⟩ else a, all := all, time := s.time.now }
  let known := s.dead.any fun x => x.agent == d.agent && x.all == d.all
  let s := if known then s
    else if s.dead.length < 1024 then { s with dead := s.dead ++ [d] }
    else s.later 5 (deckIndex .MEM k) (.fatal 2 (deckIndex .MEM k))
  foldState (fun s j => s.onHome j fun hs =>
    let hit (x : Agent) : Bool := d.names x || (all && x.tile == a.tile)
    let fix (t : Txn) : Txn := foldState (fun t x => if hit x then dropWaiter (hs.ownerOf t.ls) x t else t) t.wait t
    { hs with inbound := hs.inbound.filter (fun m => !hit m.agent),
              txns := hs.txns.map fix, walks := if hs.walks = 0 then 1 else 2, reclaim := hs.reclaim ++ [d] })
    (List.range 8) s

/-! ### Requests (R331) -/

/-- Whether a line's channel is being retired, so that requests to it are held (R374). -/
def State.heldByRetire (s : State) (k ls : Nat) : Bool :=
  match NMap.find? s.mem.retire k with
  | some (ch, _, _) => channelOf ls == ch
  | none => false

/-- A place for a new entry: a free way, or the pseudo-LRU way that is not PENDING (R334). -/
def HomeSt.place (hs : HomeSt) (ls : Nat) : Option Nat :=
  let set := dirSet ls
  let ok (w : Nat) : Bool := match NMap.find? hs.dir (set * 16 + w) with
    | some e => !hs.isPending e.ls
    | none => true
  (pickWay hs.dir hs.dirlru 16 set ok).map (set * 16 + ·)

/-- Marks an entry of the directory as most recently used. -/
def HomeSt.touch (hs : HomeSt) (key : Nat) : HomeSt :=
  { hs with dirlru := touchWay hs.dirlru 16 (key / 16) (key % 16) false }

/-- Grants a line from UNCACHED: reads memory, and lists the requester as the owner. -/
def State.grantFresh (s : State) (k key : Nat) (m : Msg) : State :=
  let ls := lsOf m.line
  let r := s.readLine (offsetOfLs k ls)
  ((r.2.setEntry k key { ls := ls, st := .excl, owner := some m.agent }).onHome k (·.touch key)).reply m
    (.data .e) (some r.1)

/-- RdS or RdX of a line with no entry; a full set first loses a victim (R334). -/
def State.fromUncached (s : State) (k : Nat) (m : Msg) : Option State :=
  let hs := s.home k
  match hs.place (lsOf m.line) with
  | none => none
  | some key => match NMap.find? hs.dir key with
    | none => some (s.grantFresh k key m)
    | some v =>
      let s := s.count .MEM_BACKINV_CNT k
      let r := s.invalidate k v v.owner
      let s := match v.owner with
        | some a => r.2.snoop k v.ls .snpX a
        | none => r.2
      some (s.addTxn k { ls := v.ls, req := m, goal := .backInval m, wait := v.owner.toList ++ r.1, due := s.snoopDue k })

/-- The bytes of a line that an access reads. -/
def readReply (s : State) (m : Msg) (d : LineData) : State :=
  match m.part with
  | some p => s.reply m (.data .copy) (if p.size = 128 then some d else none) (some (partOf d (p.addr % 128) p.size))
  | none => s.reply m (.data .copy) (some d)

/-- A Staged read (R489): the raw line, or the stored form of its unit with its map entry. -/
def State.stagedRead (s : State) (k : Nat) (m : Msg) : State :=
  let o := offsetOfLs k (lsOf m.line)
  let raw (s : State) : State :=
    let r := s.readLine o
    r.2.reply m (.data .staged) (some r.1)
  if m.cmode = 0 then raw s else
  let tile := m.cmode == 2
  let u := unitOf tile o
  let e := s.mapEntry u
  if e.1 = 0 then raw e.2
  else if tile && decide (4 < e.1) then e.2.refuse m .poison
  else
    let r := e.2.readLines u (storedLines tile e.1)
    r.2.sendTo m.agent.tile { kind := .data .staged, agent := m.agent, home := m.home, line := m.line, tag := m.tag,
                              data := some r.1, cmode := m.cmode, entry := e.1 }

/-- A write at memory: of an access, of the runs of an assembly buffer, or of an encoded unit (R363, R425–R428). -/
def State.performWrite (s : State) (k : Nat) (m : Msg) : State :=
  let tile := m.cmode == 2
  let o := offsetOfLs k (lsOf m.line)
  match m.part with
  | some p => match p.op with
    | .store bs =>
      if m.cmode = 0 then s.writeBytes (offsetOf p.addr) bs m.carry
      else s.mergeWrite tile [(offsetOf p.addr, bs)] m.carry
    | _ => s
  | none => match m.data with
    | some d =>
      if m.entry = 0 then s.writeRawUnit tile (unitOf tile o) d else s.storeForm tile (unitOf tile o) m.entry d.bytes
    | none => s.mergeWrite tile m.runs m.carry

/-- An atomic at memory. -/
def State.performAtomic (s : State) (k : Nat) (m : Msg) : State :=
  match m.part with
  | none => s.refuse m .poison
  | some p =>
    let o := offsetOf p.addr
    match p.op with
    | .signal op err => (s.fenceApply o op err).reply m .atomRsp none (some okRes)
    | _ =>
    let r := if m.cmode = 0 then s.memAmo o p else s.mergeAmo (m.cmode == 2) o p
    let _ := k
    r.2.reply m .atomRsp none (some r.1)

/-- Takes one request that no PENDING line keeps waiting (R331); nothing where it must go on waiting. -/
def State.serve (s : State) (k : Nat) (m : Msg) : Option State :=
  let ls := lsOf m.line
  let o := offsetOfLs k ls
  let hs := s.home k
  let due := s.snoopDue k
  let ent := hs.find ls
  let txn (s : State) (wait : List Agent) (lost : Bool) : State :=
    s.addTxn k { ls := ls, req := m, goal := .request, wait := wait, due := due, lost := lost }
  let toOwner (e : DirEntry) (kind : MsgKind) : State := match e.owner with
    | some a => txn (s.snoop k ls kind a) [a] false
    | none => txn s [] true
  let lostOwner (e : DirEntry) : State :=
    let r := s.invalidate k e (some m.agent)
    txn r.2 r.1 true
  match m.kind with
  | .rdS => match ent with
    | none => s.fromUncached k m
    | some (key, e) =>
      if e.st = .shared then
        let r := s.readLine o
        some (((r.2.share k key e m.agent).onHome k (·.touch key)).reply m (.data .s) (some r.1))
      else if e.owner = some m.agent then some (lostOwner e)
      else some (toOwner e .snpS)
  | .rdX held => match ent with
    | none => s.fromUncached k m
    | some (_, e) =>
      if e.st = .shared then
        let r := s.invalidate k e (some m.agent)
        some (txn r.2 r.1 false)
      else if e.owner = some m.agent then
        if e.st = .owned ∧ held = true then
          let r := s.invalidate k e (some m.agent)
          some (txn r.2 r.1 false)
        else some (lostOwner e)
      else if e.st = .excl then some (toOwner e .snpX)
      else
        let r := s.invalidate k e (some m.agent)
        match e.owner with
        | some a => some (txn (r.2.snoop k ls .snpX a) (a :: r.1) false)
        | none => some (txn r.2 r.1 true)
  | .wb => match ent with
    | some (key, e) =>
      if e.owner = some m.agent ∧ !s.isDead m.agent then
        let s := match m.data with
          | some d => s.writeLine o d
          | none => s
        let left := sharersBut e none
        let s := if e.st = .owned ∧ (!left.1.isEmpty ∨ !left.2.isEmpty) then
            s.setEntry k key { e with st := .shared, owner := none }
          else s.freeEntry k ls
        some (s.reply m .ack)
      else some ((s.count .MEM_STALE_WB_CNT k).reply m .ack)
    | none => some ((s.count .MEM_STALE_WB_CNT k).reply m .ack)
  | .ce => match ent with
    | some (_, e) =>
      if e.owner = some m.agent ∧ e.st = .excl ∧ !s.isDead m.agent then some ((s.freeEntry k ls).reply m .ack)
      else some ((s.count .MEM_STALE_WB_CNT k).reply m .ack)
    | none => some ((s.count .MEM_STALE_WB_CNT k).reply m .ack)
  | .ncRd => match ent.bind fun x => x.2.owner with
    | some a => some (txn (s.snoop k ls .snpNc a) [a] false)
    | none =>
      let r := s.readLine o
      some (readReply r.2 m r.1)
  | .ncWr => match ent with
    | none => some ((s.performWrite k m).reply m .ack)
    | some (_, e) =>
      let r := s.invalidate k e e.owner
      let s := match e.owner with
        | some a => r.2.snoop k ls .snpX a
        | none => r.2
      some (txn s (e.owner.toList ++ r.1) false)
  | .ncAtom => match ent with
    | none => some (s.performAtomic k m)
    | some (_, e) =>
      let r := s.invalidate k e e.owner
      let s := match e.owner with
        | some a => r.2.snoop k ls .snpX a
        | none => r.2
      some (txn s (e.owner.toList ++ r.1) false)
  | .stRd => some (s.stagedRead k m)
  | .stWr => some ((s.performWrite k m).reply m .ack)
  | _ => some s

/-- Ends a PENDING line whose every snoop has been answered. -/
def State.completeTxn (s : State) (k : Nat) (t : Txn) : State :=
  let s := s.onHome k fun hs => { hs with txns := hs.txns.erase t }
  let m := t.req
  let o := offsetOfLs k t.ls
  let again (s : State) (m : Msg) : State := s.onHome k fun hs => { hs with inbound := m :: hs.inbound }
  let owner := (s.home k).ownerOf t.ls
  let putDirty (s : State) : State := match t.data with
    | some d => if t.dirty then s.writeLine o d else s
    | none => s
  let lose (s : State) : State :=
    if t.lost then
      let a := owner.getD ⟨none, 0⟩
      match s.deadOf k a with
      | some d => (s.loseLine k t.ls d).freeEntry k t.ls
      | none => (s.loseOwn k t.ls a).freeEntry k t.ls
    else s
  match t.goal with
  | .reclaim => lose s
  | .retireWalk => s.freeEntry k t.ls
  | .backInval r => again ((lose (putDirty s)).freeEntry k t.ls) r
  | .request =>
    if t.lost then
      match (s.home k).find t.ls with
      | some (_, e) =>
        let r := s.invalidate k e none
        if (m.kind = .rdS ∨ m.kind = .ncRd) ∧ owner ≠ some m.agent ∧ !r.1.isEmpty then
          (again r.2 m).addTxn k { ls := t.ls, req := m, goal := .reclaim, wait := r.1, due := s.snoopDue k, lost := true }
        else again (lose s) m
      | none => again s m
    else
    match m.kind, (s.home k).find t.ls with
    | .rdS, some (key, e) =>
      let e' : DirEntry := if e.st = .excl ∧ !t.dirty then { e with st := .shared, owner := none, ptrs := owner.toList }
        else { e with st := .owned }
      (s.share k key e' m.agent).reply m (.data .s) t.data
    | .rdX _, some (key, e) =>
      let fresh : DirEntry := { ls := t.ls, st := .excl, owner := some m.agent }
      if e.st = .shared then
        let r := s.readLine o
        (r.2.setEntry k key fresh).reply m (.data .e) (some r.1)
      else if owner = some m.agent then (s.setEntry k key fresh).reply m .grant
      else
        let g := if e.st = .owned ∨ t.dirty then Grant.m else .e
        (s.setEntry k key fresh).reply m (.data g) t.data
    | .ncRd, _ => match t.data with
      | some d => readReply s m d
      | none => again s m
    | .ncWr, _ => (((putDirty s).freeEntry k t.ls).performWrite k m).reply m .ack
    | .ncAtom, _ => ((putDirty s).freeEntry k t.ls).performAtomic k m
    | _, _ => s

/-- The first waiting request that can be taken now, in the order of arrival for each line; the request leaves its
inbound entry. -/
def State.serveFirst (s : State) (k : Nat) : List Msg → List Nat → Option State
  | [], _ => none
  | m :: rest, seen =>
    let ls := lsOf m.line
    let take : Option State :=
      if seen.contains ls || (s.home k).isPending ls || s.heldByRetire k ls then none else
      let s := s.onHome k fun hs => { hs with inbound := dropFirst m hs.inbound }
      match (s.home k).find ls with
      | some (key, e) =>
        let s' := s.reclaimEntry k key e
        if (s'.home k).isPending ls then some (s'.onHome k fun hs => { hs with inbound := m :: hs.inbound })
        else s'.serve k m
      | none => s.serve k m
    match take with
    | some s => some s
    | none => s.serveFirst k rest (ls :: seen)

/-- Moves a home on until nothing can proceed. -/
def State.homeRun : Nat → Nat → State → State
  | 0, _, s => s
  | fuel + 1, k, s =>
    match (s.home k).txns.find? fun t => t.wait.isEmpty with
    | some t => State.homeRun fuel k (s.completeTxn k t)
    | none => match s.serveFirst k (s.home k).inbound [] with
      | some s => State.homeRun fuel k s
      | none => s

/-- Moves a home on. -/
def State.pumpHome (s : State) (k : Nat) : State :=
  State.homeRun (8 * ((s.home k).inbound.length + (s.home k).txns.length) + 16) k s

/-! ### Arrival -/

/-- Whether a request is a read, a write or an atomic, as REMOTE_UNPOP codes it. -/
def accessCode : MsgKind → Nat
  | .ncWr => 1
  | .stWr => 1
  | .wb => 1
  | .ce => 1
  | .ncAtom => 2
  | _ => 0

/-- A request of another tile to an offset that is not populated here (R284). -/
def State.remoteUnpop (s : State) (m : Msg) : State :=
  let s := s.count .TILE_UNPOP_REMOTE_CNT
  let s := s.postEvent (deckIndex .TILE 0) (payload [(0, leBytes 1 0x45), (1, leBytes 1 (accessCode m.kind)),
    (2, leBytes 2 (m.agent.tile.getD 0)), (8, leBytes 8 s.time.now), (0x10, leBytes 8 (offsetOf (128 * m.line)))])
  s.refuse m .poison

/-- Whether a home and its memory serve requests: the controller takes new work (R268), the directory and the stack are initialised
(R320, R365), and the stack is not in self-refresh. -/
def State.homeReady (s : State) (k : Nat) : Bool :=
  !s.stopped 1 && !(s.home k).dirinit && !(s.home k).lmapinit && s.isSet .MEM_INIT_DONE k
    && !(NMap.get false s.mem.selfRefresh k)

/-- Whether a home has an inbound entry for a request: 512 of its 8,192 are kept for WB and CE (R346). -/
def HomeSt.hasRoom (hs : HomeSt) (kind : MsgKind) : Bool :=
  decide (hs.inbound.length + hs.txns.length < (if kind = .wb ∨ kind = .ce then 8192 else 7680))

/-- Whether a request is a signal to a fence. -/
def isSignalMsg (m : Msg) : Bool := match m.part with
  | some p => match p.op with
    | .signal _ _ => true
    | _ => false
  | none => false

/-- A home receives a request of the expected kind. -/
def receiveAtHome (m : Msg) (kindOk : MsgKind → Bool) (s : State) (signal : Bool := false) : State :=
  let k := m.home.k
  if !kindOk m.kind || isSignalMsg m != signal || m.home.tile.isSome || decide (8 ≤ k) || !receivable m s.mesh || !s.homeReady k
      || !(s.home k).hasRoom m.kind then s
  else
    let s := s.takeMsg m
    if m.agent.tile.isSome && !populatedOffset (offsetOf (128 * m.line)) then s.remoteUnpop m
    else if s.isDead m.agent && m.kind != .wb && m.kind != .ce then s.refuse m .dead
    else ((s.onHome k fun hs => { hs with inbound := hs.inbound ++ [{ m with arrived := s.time.now }] }).issue 1 k).pumpHome k

def isRdX : MsgKind → Bool
  | .rdX _ => true
  | _ => false

def execRds (m : Msg) (s : State) : Host.Outcome State Fault Refusal := done (receiveAtHome m (· == .rdS) s)
def execRdx (m : Msg) (s : State) : Host.Outcome State Fault Refusal := done (receiveAtHome m isRdX s)
def execWb (m : Msg) (s : State) : Host.Outcome State Fault Refusal := done (receiveAtHome m (· == .wb) s)
def execCe (m : Msg) (s : State) : Host.Outcome State Fault Refusal := done (receiveAtHome m (· == .ce) s)
def execNcrd (m : Msg) (s : State) : Host.Outcome State Fault Refusal := done (receiveAtHome m (· == .ncRd) s)
def execNcwr (m : Msg) (s : State) : Host.Outcome State Fault Refusal := done (receiveAtHome m (· == .ncWr) s)
def execNcatom (m : Msg) (s : State) : Host.Outcome State Fault Refusal := done (receiveAtHome m (· == .ncAtom) s)

/-- A signal arrives at its fence's home, which updates the record (R555, R558). -/
def execFenceSignal (m : Msg) (s : State) : Host.Outcome State Fault Refusal :=
  done (receiveAtHome m (· == .ncAtom) s (signal := true))

def execStrd (m : Msg) (s : State) : Host.Outcome State Fault Refusal := done (receiveAtHome m (· == .stRd) s)
def execStwr (m : Msg) (s : State) : Host.Outcome State Fault Refusal := done (receiveAtHome m (· == .stWr) s)

/-- REJOIN removes from the dead-agent table the entries that name the requesting tile, or the one local cluster it
names (R342); it is acknowledged. -/
def execRejoin (m : Msg) (s : State) : Host.Outcome State Fault Refusal :=
  done (if m.kind ≠ .rejoin ∨ m.home.tile.isSome ∨ !receivable m s.mesh ∨ s.stopped 2 then s else
    let s := s.takeMsg m
    let one := m.agent.tile.isNone && decide (m.agent.unit < 64)
    let keep (d : DeadEntry) : Bool := if one then d.all || d.agent != m.agent else d.agent.tile != m.agent.tile
    { s with dead := s.dead.filter keep }.reply m .ack)

/-! ### Snoop replies and deadlines -/

/-- A home receives a snoop's answer (R331, R338): an owner that does not hold the line has lost it; a DARK answer
declares the agent dead. -/
def State.snoopAnswer (s : State) (k : Nat) (m : Msg) (r : SnpReply) : State :=
  let ls := lsOf m.line
  let hs := s.home k
  match hs.txns.find? fun t => t.ls == ls && t.wait.contains m.agent with
  | none => s
  | some t =>
    if r = .dark then (s.declareDead k m.agent false).pumpHome k else
    let isOwner := hs.ownerOf ls == some m.agent
    let lost := t.lost || (isOwner && r == .notHeld)
    let rest := t.wait.filter (· ≠ m.agent)
    let t' := { t with wait := rest, lost := lost, dirty := t.dirty || r == .dirty,
                       data := if m.data.isSome then m.data else t.data }
    (s.onHome k fun hs => { hs with txns := hs.txns.map fun x => if x = t then t' else x }).pumpHome k

def execSnpRsp (m : Msg) (s : State) : Host.Outcome State Fault Refusal :=
  done (match m.kind with
    | .snpRsp r =>
      if m.home.tile.isSome || decide (8 ≤ m.home.k) || !receivable m s.mesh || !s.homeReady m.home.k then s
      else (s.takeMsg m).snoopAnswer m.home.k m r
    | _ => s)

/-- A snoop of home `k` to an agent about line `ls` is overdue: the agent, or every agent of a tile that has not
answered a multicast, is declared dead (R338, R515). -/
def execSnoopDeadline (k : Fin 8) (ls : Nat) (a : Agent) (s : State) : Host.Outcome State Fault Refusal :=
  done (if s.stopped 2 then s else
    match (s.home k).txns.find? fun t => t.ls == ls && t.wait.contains a with
    | none => s
    | some t =>
      if s.time.bnd < t.due then s else
      let s := s.declareDead k a (a.unit == 64)
      let t' := dropWaiter ((s.home k).ownerOf ls) a t
      (foldState (fun s (j : Nat) => s.pumpHome j) (List.range 8)
        (s.onHome k fun hs => { hs with txns := hs.txns.map fun x => if x = t then t' else x })))

/-- Declares an agent dead by command: a cluster of a tile, or with `all` the whole tile (R338, R339). -/
def State.declareAgent (s : State) (k id cluster : Nat) (all : Bool) : State :=
  let tile := if id = 0xFFFF ∨ s.tileId = some id then none else some id
  let s := s.declareDead k ⟨tile, cluster⟩ all
  foldState (fun s (j : Nat) => s.pumpHome j) (List.range 8) s

/-- A write of MEM_DEAD_DECLARE declares the agent, or with MEM_DEAD_ALL the tile, that MEM_DEAD_AGENT names; these
registers stand in the block of controller 0 alone (R349). -/
def execMemDeadDeclare (s : State) : Host.Outcome State Fault Refusal :=
  let v := s.reg .MEM_DEAD_AGENT
  done (if s.stopped 2 then s else s.declareAgent 0 (v / 64 % 65536) (v % 64) (s.isSet .MEM_DEAD_ALL))

/-- The end of a reclamation walk of home `k`: every entry that names a dead agent has been reclaimed (R340), and what
was lost is reported (R341). -/
def execReclaimWalkDone (k : Fin 8) (s : State) : Host.Outcome State Fault Refusal :=
  done (if s.stopped 2 ∨ (s.home k).walks = 0 ∨ (NMap.find? s.mem.retire k).any (fun r => r.2.2 == 1) then s else
    let s := foldState (fun s x => match NMap.find? (s.home k).dir x.1 with
      | some e => s.reclaimEntry k x.1 e
      | none => s) (s.home k).dir s
    let s := s.onHome k fun hs => { hs with walks := hs.walks - 1, reclaim := if hs.walks = 1 then [] else hs.reclaim }
    (s.pumpHome k).reportLoss k)

/-- A loss report is posted once four ranges are ready, or 1 ms after its first range was found (R341). -/
def execLossReport (k : Fin 8) (s : State) : Host.Outcome State Fault Refusal :=
  done (match (s.home k).losses with
    | [] => s
    | r :: rest =>
      if !s.stopped 2 && (decide (4 ≤ rest.length + 1) || decide (r.found + ticksOfUs 1000 ≤ s.time.bnd)) then s.reportLoss k
      else s)

end Sys2Proof.Machine
end

