-- ==== Sys2Proof/Machine/Issue.lean ====
section
/-!
DEFINITION. Issuing an instruction of a hand: fetching its words, the order of checks, faults and the fault policy,
stops, and the completion of what has issued (R132, R137, R138, R239–R250, R259).
-/
namespace Sys2Proof.Machine

/-! ### Fetch -/

/-- The way of a set that holds a line, if any. -/
def wayOf (m : NMap CLine) (ways set line : Nat) : Option Nat :=
  firstWhere ways fun w => match NMap.find? m (set * ways + w) with
    | some l => l.line == line
    | none => false

/-- The set index of an L1 or instruction cache (R309). -/
def l1Set (line : Nat) : Nat := line % 64

/-- The bytes of a line from an offset; a byte of a poisoned or lost granule is zero, as a fetch delivers it (R285). -/
def fetchBytes (d : LineData) (off n : Nat) : List Byte :=
  (List.range n).map fun i =>
    if d.gran.getD ((off + i) / 32) .good = .good then d.bytes.getD (off + i) 0 else 0

/-- The instruction word at an address, from the core's instruction cache or the hand's fetch buffer (R314). -/
def fetchWord (s : State) (co : Core) (h : Hand) (addr : Nat) : Option DWord :=
  let a := s.normalise addr
  let line := lineOf a
  let from' (d : LineData) : Option DWord := some (BitVec.ofNat 64 (leNat (fetchBytes d (a % 128) 8)))
  match wayOf co.ic 8 (l1Set line) line with
  | some w => match NMap.find? co.ic (l1Set line * 8 + w) with
    | some l => from' l.data
    | none => none
  | none => match NMap.find? h.fetchBuf line with
    | some d => from' d
    | none => none

/-- Whether the words at the hand's program counter are this opcode with these fields. -/
def fetched (s : State) (co : Core) (h : Hand) (opc : Nat) (ins : Insn) : Bool :=
  fetchWord s co h h.pc.toNat == some (wordOfInsn (BitVec.ofNat 8 opc) ins)
    && (if ins.lng then fetchWord s co h (h.pc.toNat + 8) == some ins.w1 else ins.w1 == 0)

/-! ### Tasks and hands -/

def State.task (s : State) (id : Nat) : Option Task := NMap.find? s.tasks id

/-- Changes a task, if it exists. -/
def State.onTask (s : State) (id : Nat) (f : Task → Task) : State :=
  match s.task id with
  | none => s
  | some t => { s with tasks := NMap.insert s.tasks id (f t) }

/-- Marks a hand for removal; it stops at its next instruction boundary (R247, R248). -/
def removeHand (s : State) (c slot : Nat) : State :=
  match s.hand c slot with
  | none => s
  | some h =>
    if h.removed then s else
    let s := s.setHand c slot { h with removed := true }
    s.onTask h.task fun t => { t with lost := t.lost + 1, faulted := true }

/-- The resident hands for which `p` holds, as pairs of core and slot. -/
def handsWhere (s : State) (p : Nat → Nat → Hand → Bool) : List (Nat × Nat) :=
  s.cores.flatMap fun co => (co.2.slots.filter fun h => p co.1 h.1 h.2).map fun h => (co.1, h.1)

/-- Removes every resident hand for which `p` holds. -/
def removeWhere (s : State) (p : Nat → Nat → Hand → Bool) : State :=
  foldState (fun s ch => removeHand s ch.1 ch.2) (handsWhere s p) s

/-! ### Fault events (R249, R250) -/

/-- The payload of a fault or debug event (R249). -/
def faultPayload (f : FaultRec) (action c slot task : Nat) : List Byte :=
  payload [(0, leBytes 1 f.kind), (1, leBytes 1 action), (2, leBytes 1 f.thread), (3, leBytes 1 slot),
    (4, leBytes 2 c), (6, leBytes 2 f.code), (8, leBytes 8 task), (0x10, leBytes 8 f.pc.toNat),
    (0x18, leBytes 8 f.addr), (0x20, leBytes 8 f.time), (0x28, leBytes 8 f.insn)]

/-- Posts a fault event: only the first 16 of a task are posted, and all are counted (R250). -/
def postFault (s : State) (f : FaultRec) (action c slot task : Nat) : State :=
  let n := match s.task task with
    | some t => t.posted
    | none => 0
  let s := s.onTask task fun t => { t with faults := satAdd32 t.faults 1, posted := min 16 (t.posted + 1) }
  if n < 16 then s.postEvent (deckIndex .COR c) (faultPayload f action c slot task) else s

/-- Posts a debug event, while DBG_EVT_EN is 1 (R250). -/
def postDebug (s : State) (f : FaultRec) (action c slot task : Nat) : State :=
  if s.isSet .DBG_EVT_EN then s.postEvent (deckIndex .COR c) (faultPayload f action c slot task) else s

/-- The policy action for a kind of fault (R244). -/
def policyOf (s : State) (kind : Nat) : Nat :=
  match kind with
  | 1 => s.reg .CTX_FP_ILLEGAL
  | 2 => s.reg .CTX_FP_MISALIGN
  | 3 => s.reg .CTX_FP_UNPOP
  | 4 => s.reg .CTX_FP_MATRIX
  | 6 => s.reg .CTX_FP_POISON
  | _ => s.reg .CTX_FP_TRAP

/-- Applies a policy action to a hand (R245). -/
def applyPolicy (s : State) (action c slot task : Nat) : State :=
  match action with
  | 0 => s
  | 1 => removeHand s c slot
  | 2 =>
    let s := removeWhere s fun _ _ h => h.task == task
    s.onTask task fun t => { t with aborted := true, faulted := true }
  | _ => s.later 2 2 (.brake 2 none)

/-! ### Stops -/

/-- Completes `halt`: the sticky flags go to the task and the holdings are released in the next cycle (R132, R156). -/
def finishHalt (s : State) (c slot : Nat) (h : Hand) : State :=
  let s := s.onTask h.task fun t => { t with flags := t.flags ||| h.flags }
  s.setHand c slot { h with st := .releasing, stop := none }

/-- Applies a fault to a hand whose earlier instructions have completed (R240, R245, R254). -/
def finishFault (s : State) (c slot : Nat) (h : Hand) (f : FaultRec) : State :=
  let action := if h.stepping then 0 else policyOf s f.kind
  let s := s.setHand c slot { h with st := .faulted, stop := none, pc := f.resume, stepping := false }
  let s := postFault s f action c slot h.task
  applyPolicy s action c slot h.task

/-- Acts on a hand's stop once everything it issued has completed (R132, R240, R247).  A stop for a debugger is left
to the row that enters DEBUG. -/
def settle (s : State) (c slot : Nat) : State :=
  match s.hand c slot with
  | none => s
  | some h =>
    if !h.ops.isEmpty then s else
    match h.stop with
    | some .halt => finishHalt s c slot h
    | some (.fault f) => finishFault s c slot h f
    | _ => s

/-- Records a fault found at an instruction boundary of a hand and applies it when it can be. -/
def raiseFault (s : State) (c slot : Nat) (h : Hand) (f : FaultRec) : State :=
  settle (s.setHand c slot { h with stop := some (.fault f), poison := none }) c slot

/-- The fabric time that a core last received (R103). -/
def State.coreTime (s : State) : Nat := s.time.now

/-! ### Breakpoints -/

/-- The breakpoints of a core that match a hand about to issue at its program counter (R259). -/
def breakMask (s : State) (c slot : Nat) (h : Hand) : Nat :=
  natOfBits 8 fun n =>
    s.isSet .DBG_BP_EN c n && (s.reg .DBG_BP_MASK c n).testBit slot
      && s.reg64 .DBG_BP_ADDR_LO .DBG_BP_ADDR_HI c n == h.pc.toNat

/-! ### Waits (R137, R230) -/

/-- The registers an instruction names: vector, uniform and predicate registers it reads or writes, and the vector
registers it writes. -/
structure Names where
  v : List Nat := []
  u : List Nat := []
  p : List Nat := []
  wv : List Nat := []
deriving DecidableEq, Repr

/-- The registers that an outstanding instruction has still to write, and those it has still to read (R230). -/
structure Pending where
  v : List Nat := []
  u : List Nat := []
  p : List Nat := []
  readV : List Nat := []
deriving DecidableEq, Repr

def runOf (r n : Nat) : List Nat := (List.range n).map (r + ·)

/-- The footprint in registers of a memory access of SIZE (R193). -/
def sizeRegs (size : Nat) : Nat := if size = 4 then 4 else if size = 3 then 2 else 1

/-- The registers an outstanding memory or matrix instruction still writes, and a register-form `mx.ld` still reads. -/
def pendingOf (o : MemOp) : Pending :=
  let d := o.insn.dst.toNat
  let fn := o.insn.fn.toNat
  match o.opc with
  | 0x80 => { v := runOf d (sizeRegs (fn % 8)) }
  | 0x82 => { u := [d % 64] }
  | 0xA0 => if o.insn.fn.getLsbD 3 then { readV := runOf o.insn.sra.toNat (if o.insn.fn.getLsbD 5 then 2 else 32) } else {}
  | 0xA2 => if o.insn.fn.getLsbD 3 then
      { v := runOf o.insn.sra.toNat (if fn % 8 = 0 ∨ fn % 8 = 5 then 64 else if fn % 8 ≤ 2 then 32 else 16) } else {}
  | 0xA4 => if o.insn.fn.getLsbD 10 then {} else
      { v := runOf d (match fn % 8 with
          | 2 => 4
          | 3 => 4
          | 5 => 8
          | _ => 1) }
  | 0xC0 => {}
  | 0xC1 => {}
  | opc => if 0x88 ≤ opc ∧ opc ≤ 0x8F then { v := runOf d (footprint o.insn.typ.toNat) } else {}

/-- Whether two lists of register numbers share one. -/
def meets (a b : List Nat) : Bool := a.any b.contains

/-- Whether an instruction naming these registers must wait for an earlier one of the hand (R137, R230). -/
def mustWait (h : Hand) (n : Names) : Bool :=
  h.ops.any fun o =>
    let q := pendingOf o
    meets n.v q.v || meets n.wv q.v || meets n.u (q.u.filter (· ≠ 0)) || meets n.p (q.p.filter (· ≠ 0))
      || meets n.wv q.readV

/-! ### Issue -/

/-- The unit that executes an instruction (R127). -/
inductive ExecUnit where
  | vector | memory | matrix | uniform
deriving DecidableEq, Repr

def ExecUnit.code : ExecUnit → Nat
  | .vector => 0
  | .memory => 1
  | .matrix => 2
  | .uniform => 3

/-- What the issue of an instruction needs to know about it. -/
structure IssueSpec where
  opc : Nat
  unit : ExecUnit
  names : Names := {}
  /-- Whether its fields are legal for a hand (R207). -/
  legal : Hand → Bool
  /-- Whether it raises the matrix fault (R235). -/
  matrix : Hand → Bool := fun _ => false
  /-- MISALIGN or UNPOP: the kind, the lowest failing thread and its address (R187, R196, R236). -/
  access : State → Core → Hand → Option (Nat × Nat × Nat) := fun _ _ _ => none
  /-- Whether everything else it must wait for is there. -/
  ready : State → Core → Hand → Bool := fun _ _ _ => true
  /-- What it sets going while it must wait. -/
  prep : State → Hand → State := fun s _ => s
  /-- Its effect, on a state in which the hand's program counter already names the next instruction. -/
  body : State → Core → Hand → State

/-- A fault record for the instruction at the hand's program counter. -/
def faultAt (s : State) (h : Hand) (opc : Nat) (ins : Insn) (kind thread addr : Nat) : FaultRec :=
  { kind := kind, pc := h.pc, resume := h.pc, thread := thread, addr := addr, time := s.coreTime,
    insn := (wordOfInsn (BitVec.ofNat 8 opc) ins).toNat }

/-- Whether the core's choice rules let this hand issue (R138, R141): as a second choice only after a first choice of
another hand for another unit in the same cycle, while DUAL_EN is 1. -/
def choiceOk (s : State) (co : Core) (h : Issue) (u : ExecUnit) : Bool :=
  if h.second then
    s.isSet .COR_DUAL_EN h.core && match co.last with
      | some (sl, un) => sl != h.slot.val && un != u.code
      | none => false
  else true

/-- Counts an issue, and a second one of a cycle as such (R157). -/
def issueCounts (s : State) (h : Issue) : State :=
  let c := h.core.val
  let t := s.setReg64 .COR_ISSUE_CNT_LO .COR_ISSUE_CNT_HI (s.reg64 .COR_ISSUE_CNT_LO .COR_ISSUE_CNT_HI c + 1) c
  if h.second then t.setReg64 .COR_DUAL_CNT_LO .COR_DUAL_CNT_HI (t.reg64 .COR_DUAL_CNT_LO .COR_DUAL_CNT_HI c + 1) c else t

/-- A core after an issue: the rotation pointer moves to the slot after the first choice (R138). -/
def Core.chosen (co : Core) (h : Issue) (u : ExecUnit) : Core :=
  if h.second then { co with last := none } else { co with last := some (h.slot.val, u.code), rot := (h.slot.val + 1) % 16 }

/-- Counts an issue and moves the rotation pointer (R138, R157). -/
def countIssue (s : State) (h : Issue) (u : ExecUnit) : State :=
  (issueCounts s h).setCore h.core ((s.core h.core).chosen h u)

/-- Whether a hand is at an instruction boundary at which it may issue. -/
def Hand.canIssue (h : Hand) : Bool :=
  !h.removed && h.stop.isNone && (h.st == .ready || h.st == .waiting .operand || h.st == .waiting .fetch)

/-- The hand that an instruction would issue from, with its core: its cluster is clocked, it is at an instruction
boundary, the choice rules let it issue, and the words at its program counter are this instruction. -/
def issuer (s : State) (i : Issue) (opc : Nat) (u : ExecUnit) (ins : Insn) : Option (Core × Hand) :=
  let c := i.core.val
  if !s.clocked (clusterOf c) then none else
  let co := s.core c
  match NMap.find? co.slots i.slot.val with
  | none => none
  | some h => if h.canIssue && choiceOk s co i u && fetched s co h opc ins then some (co, h) else none

/-- A hand once its instruction has issued: its program counter names the next one; where it takes one step for a debugger
it stops there (R137, R258, R260). -/
def Hand.issued (h : Hand) (now : Nat) (ins : Insn) : Hand :=
  let next := h.pc + (if ins.lng then 16 else 8)
  let stepped : FaultRec := { kind := 0x10, pc := next, resume := next, code := 0x2000, time := now }
  { h with pc := next, st := .ready, skipBp := false, stepping := false,
           stop := if h.stepping then some (Stop.debug stepped) else none }

/-- Issues an instruction, checking the conditions of R242 in their order; the checks that read registers come once
those registers have been written (R137). -/
def issue (s : State) (i : Issue) (ins : Insn) (sp : IssueSpec) : State :=
  match issuer s i sp.opc sp.unit ins with
  | none => s
  | some (co, h) =>
    let c := i.core.val
    let sl := i.slot.val
    let bm := breakMask s c sl h
    if bm ≠ 0 ∧ h.skipBp = false then
      s.setHand c sl { h with stop := some (.debug { faultAt s h sp.opc ins 0x10 0xFF 0 with code := bm }) }
    else match h.poison with
    | some f => raiseFault s c sl h { f with resume := h.pc }
    | none =>
    if !sp.legal h then raiseFault s c sl h (faultAt s h sp.opc ins 1 0xFF 0)
    else if sp.matrix h then raiseFault s c sl h (faultAt s h sp.opc ins 4 0xFF 0)
    else if mustWait h sp.names || !sp.ready s co h then sp.prep (s.setHand c sl { h with st := .waiting .operand }) h
    else match sp.access s co h with
    | some (k, t, a) => raiseFault s c sl h (faultAt s h sp.opc ins k t a)
    | none =>
      let s := countIssue s i sp.unit
      let h := h.issued s.coreTime ins
      sp.body (s.setHand c sl h) (s.core c) h

end Sys2Proof.Machine
end

