-- ==== Sys2Proof/Machine/Cache.lean ====
section
/-!
DEFINITION. The L1, instruction and cluster caches: replacement, fills and evictions, request tags, prefetches, and
the win hold's book-keeping (R309–R319, R323–R325, R333, R343).
-/
namespace Sys2Proof.Machine

/-! ### Lookup -/

/-- The set of a line in the cluster cache (R309). -/
def ccSet (line : Nat) : Nat := (line % 1024) ^^^ (line / 1024 % 1024)

/-- The entry of the cluster cache that holds a line: its key and contents. -/
def Cluster.find (cl : Cluster) (line : Nat) : Option (Nat × CLine) :=
  match wayOf cl.cc 16 (ccSet line) line with
  | none => none
  | some w => (NMap.find? cl.cc (ccSet line * 16 + w)).map fun x => (ccSet line * 16 + w, x)

/-- The entry of a core's L1 that holds a line. -/
def Core.findL1 (co : Core) (line : Nat) : Option (Nat × CLine) :=
  match wayOf co.l1 8 (l1Set line) line with
  | none => none
  | some w => (NMap.find? co.l1 (l1Set line * 8 + w)).map fun x => (l1Set line * 8 + w, x)

/-- Changes a cluster. -/
def State.onClu (s : State) (c : Nat) (f : Cluster → Cluster) : State := s.setClu c (f (s.clu c))
def State.onCore (s : State) (c : Nat) (f : Core → Core) : State := s.setCore c (f (s.core c))

/-- Replaces the cluster cache's entry of a line it holds. -/
def State.setCc (s : State) (c key : Nat) (x : CLine) : State :=
  s.onClu c fun cl => { cl with cc := NMap.insert cl.cc key x }

def State.touchCc (s : State) (c key : Nat) (toward : Bool) : State :=
  s.onClu c fun cl => { cl with cclru := touchWay cl.cclru 16 (key / 16) (key % 16) toward }

/-! ### L1 -/

/-- Drops a line from a core's L1, with its presence bit. -/
def State.dropL1 (s : State) (core line : Nat) : State :=
  match (s.core core).findL1 line with
  | none => s
  | some (key, _) =>
    let s := s.onCore core fun co => { co with l1 := NMap.erase co.l1 key }
    match (s.clu (clusterOf core)).find line with
    | none => s
    | some (k, x) => s.setCc (clusterOf core) k { x with pres := putBits x.pres (core % 4) (core % 4) 0 }

/-- Drops a line from the L1s of a cluster's cores, but for `keep` (R311, R312). -/
def State.dropL1s (s : State) (c line : Nat) (keep : Option Nat := none) : State :=
  foldState (fun s i => if keep = some (4 * c + i) then s else s.dropL1 (4 * c + i) line) (List.range 4) s

/-- Fills a core's L1 with a copy; the copy it replaces loses its presence bit (R310, R311, R313). -/
def State.fillL1 (s : State) (core line : Nat) (st : CState) (d : LineData) (lru : Bool) : State :=
  let co := s.core core
  let set := l1Set line
  let way := match wayOf co.l1 8 set line with
    | some w => some w
    | none => pickWay co.l1 co.l1lru 8 set fun _ => true
  match way with
  | none => s
  | some w =>
    let key := set * 8 + w
    let s := match NMap.find? co.l1 key with
      | some old => if old.line = line then s else s.dropL1 core old.line
      | none => s
    let s := s.onCore core fun co =>
      { co with l1 := NMap.insert co.l1 key { line := line, st := st, data := d },
                l1lru := touchWay co.l1lru 8 set w lru }
    match (s.clu (clusterOf core)).find line with
    | none => s
    | some (k, x) => s.setCc (clusterOf core) k { x with pres := putBits x.pres (core % 4) (core % 4) 1 }

/-- Fills a core's instruction cache. -/
def State.fillIc (s : State) (core line : Nat) (d : LineData) : State :=
  let co := s.core core
  let set := l1Set line
  let way := match wayOf co.ic 8 set line with
    | some w => some w
    | none => pickWay co.ic co.iclru 8 set fun _ => true
  match way with
  | none => s
  | some w => s.onCore core fun co =>
    { co with ic := NMap.insert co.ic (set * 8 + w) { line := line, st := .s, data := d },
              iclru := touchWay co.iclru 8 set w false }

/-- Updates a core's L1 copy of a line, where it has one, to new data (R310). -/
def State.updateL1 (s : State) (core line : Nat) (d : LineData) : State :=
  match (s.core core).findL1 line with
  | none => s
  | some (key, x) => s.onCore core fun co => { co with l1 := NMap.insert co.l1 key { x with data := d } }

/-! ### Request tags (R343) -/

def Cluster.tagsFree (cl : Cluster) : Nat := 2048 - cl.reqs.length

/-- The lowest tag that is neither held nor quarantined. -/
def Cluster.freeTag (cl : Cluster) : Option Nat := firstWhere 2048 fun t => (NMap.find? cl.reqs t).isNone

/-- The request outstanding for a line, if any; quarantined tags do not count. -/
def Cluster.reqFor (cl : Cluster) (line : Nat) : Option (Nat × Req) :=
  List.find? (fun (r : Nat × Req) => r.2.line == line && !r.2.quar) cl.reqs

/-- The agent that a cluster of this tile is. -/
def cluAgent (c : Nat) : Agent := ⟨none, c⟩

/-- Whether a request about a line can be sent: a tag is free, and a line of another tile has no other request
outstanding (R343, R487). -/
def State.canSend (s : State) (c line : Nat) : Bool :=
  let cl := s.clu c
  cl.freeTag.isSome && ((s.homeOf line).tile.isNone || (cl.reqFor line).isNone)

/-- Sends a request with a fresh tag; it waits where it cannot be sent. -/
def State.sendReq (s : State) (c : Nat) (r : Req) (data : Option LineData := none)
    (runs : List (Nat × List Byte) := []) (entry : Nat := 0) (carry : GState := .good) : State :=
  if !s.canSend c r.line then s else
  match (s.clu c).freeTag with
  | none => s
  | some tag =>
    let s := (s.onClu c fun cl => { cl with reqs := NMap.insert cl.reqs tag r }).issue 0 c
    s.sendTo r.home.tile { kind := r.kind, agent := cluAgent c, home := r.home, line := r.line, tag := tag,
                           part := r.part, cmode := r.cmode, data := data, runs := runs, entry := entry,
                           carry := carry }

/-- A request of a cluster about a line, to be sent now. -/
def State.mkReq (s : State) (kind : MsgKind) (line : Nat) (use : ReqUse) (waiters : List Waiter) : Req :=
  { kind := kind, home := s.homeOf line, line := line, use := use, waiters := waiters, since := s.time.bnd }

/-! ### The remote line filter (R333) -/

def filterIndex (line : Nat) : Nat := (line % 2 ^ 20) ^^^ (line / 2 ^ 20 % 2 ^ 20) ^^^ (line / 2 ^ 40 % 2 ^ 17)

/-- Whether a line counts in the filter: Coherent, with its home on another tile. -/
def State.filtered (s : State) (line : Nat) (st : CState) : Bool := st != .v && (s.homeOf line).tile.isSome

def State.filterAdd (s : State) (line : Nat) (st : CState) : State :=
  if s.filtered line st then
    { s with filter := NMap.set 0 s.filter (filterIndex line) (NMap.get 0 s.filter (filterIndex line) + 1) }
  else s

def State.filterSub (s : State) (line : Nat) (st : CState) : State :=
  if s.filtered line st then
    { s with filter := NMap.set 0 s.filter (filterIndex line) (NMap.get 0 s.filter (filterIndex line) - 1) }
  else s

/-! ### Cluster-cache lines -/

/-- Removes a line from a cluster cache and from the L1s below it, without writing it back. -/
def State.dropCc (s : State) (c line : Nat) : State :=
  let s := s.dropL1s c line
  match (s.clu c).find line with
  | none => s
  | some (key, x) => (s.onClu c fun cl => { cl with cc := NMap.erase cl.cc key }).filterSub line x.st

/-- Whether the writeback buffer has room; it holds 32 lines (R350). -/
def Cluster.wbRoom (cl : Cluster) : Bool := decide (cl.wbuf.length < 32)

/-- Whether a line can leave the cluster cache now: a dirty or exclusive one needs a place in the writeback buffer, a
tag, and no other request for it outstanding; one whose win hold keeps snoops waiting stays until they are served
(R335; DESIGN CHOICE, log entry 14). -/
def State.canEvict (s : State) (c : Nat) (x : CLine) : Bool :=
  ((s.clu c).reqFor x.line).isNone && x.snoops.isEmpty
    && (x.st == .s || x.st == .v || ((s.clu c).wbRoom && s.canSend c x.line))

/-- Evicts a line: S and V silently, E with CE, M and O with WB, through the writeback buffer (R324, R325). -/
def State.evict (s : State) (c : Nat) (x : CLine) : State :=
  let s := s.dropCc c x.line
  if x.st = .s ∨ x.st = .v then s else
  let s := s.onClu c fun cl => { cl with wbuf := cl.wbuf ++ [{ x with pres := 0, hold := false }] }
  let kind := if x.st = .e then MsgKind.ce else .wb
  s.sendReq c (s.mkReq kind x.line .demand []) (if x.st = .e then none else some x.data)

/-- Makes room for a line in its set: the key to fill, and the state with any victim evicted. -/
def State.roomCc (s : State) (c line : Nat) : Option (Nat × State) :=
  let cl := s.clu c
  let set := ccSet line
  match wayOf cl.cc 16 set line with
  | some w => some (set * 16 + w, s)
  | none =>
    let ok (w : Nat) : Bool := match NMap.find? cl.cc (set * 16 + w) with
      | some x => s.canEvict c x
      | none => true
    match pickWay cl.cc cl.cclru 16 set ok with
    | none => none
    | some w => match NMap.find? cl.cc (set * 16 + w) with
      | some x => some (set * 16 + w, s.evict c x)
      | none => some (set * 16 + w, s)

/-- Puts a line into the cluster cache, most or least recently used (R313); nothing where no way can be freed. -/
def State.fillCc (s : State) (c : Nat) (x : CLine) (lru : Bool) : Option State :=
  match s.roomCc c x.line with
  | none => none
  | some (key, s) =>
    let old := (s.clu c).find x.line
    let s := match old with
      | some (_, o) => s.filterSub x.line o.st
      | none => s
    some (((s.setCc c key x).touchCc c key lru).filterAdd x.line x.st)

/-! ### Reads of lines, and prefetch (R317, R318) -/

/-- Whether line L + 1 lies in the same 4 KiB region as L. -/
def sameRegion (line : Nat) : Bool := (line + 1) / 32 == line / 32

/-- The kind of request and CMODE with which a line is read into a cache. -/
def State.readKind (s : State) (line : Nat) : MsgKind × Nat :=
  if s.memTy (128 * line) = .staged then (.stRd, s.modeAt (128 * line)) else (.rdS, 0)

/-- The first line of the unit that a Staged read of a compressed window brings, and its number of lines (R397). -/
def unitLines (cmode line : Nat) : Nat × Nat :=
  match cmode with
  | 1 => (line / 16 * 16, 16)
  | 2 => (line / 256 * 256, 256)
  | _ => (line, 1)

/-- An outstanding read that will bring a line: of the line itself, or of its compressed unit (R423). -/
def State.readFor (s : State) (c line : Nat) : Option (Nat × Req) :=
  let mode := (s.readKind line).2
  List.find? (fun (r : Nat × Req) => !r.2.quar && !r.2.noAlloc &&
    ((r.2.line == line && (r.2.kind == .rdS || r.2.kind == .stRd || r.2.kind == .rdX true || r.2.kind == .rdX false))
      || (r.2.kind == .stRd && mode != 0 && r.2.cmode == mode && unitLines mode r.2.line == unitLines mode line)))
    (s.clu c).reqs

/-- Whether a line is held in no state and nothing about it is outstanding. -/
def State.absent (s : State) (c line : Nat) : Bool :=
  ((s.clu c).find line).isNone && (s.readFor c line).isNone && ((s.clu c).reqFor line).isNone

/-- Sends a read of a line for a cache. -/
def State.sendRead (s : State) (c line hint : Nat) (use : ReqUse) (waiters : List Waiter) : State :=
  let k := s.readKind line
  s.sendReq c { s.mkReq k.1 line use waiters with cmode := k.2, hint := hint }

/-- The cluster cache's own next-line prefetch on a demand miss (R318). -/
def State.prefetchCc (s : State) (c line hint : Nat) : State :=
  if hint = 2 ∨ !sameRegion line ∨ !s.prefetchOk (128 * line) ∨ !s.absent c (line + 1) ∨ (s.clu c).leaving then s
  else if (s.clu c).tagsFree < 256 then s.count .CLU_PF_SKIP_CNT c
  else if !s.canSend c (line + 1) then s
  else (s.sendRead c (line + 1) hint (.prefetch none) []).count .CLU_PF_ISSUED_CNT c

/-- The next-line prefetch of an L1 (`ic = false`) or instruction cache on a demand miss: line L + 1 from the cluster
cache, which reads it from its home where it does not hold it (R317). -/
def State.prefetchL1 (s : State) (core line hint : Nat) (ic : Bool) : State :=
  let c := clusterOf core
  let n := line + 1
  let have' := if ic then (wayOf (s.core core).ic 8 (l1Set n) n).isSome else ((s.core core).findL1 n).isSome
  if hint = 2 ∨ !sameRegion line ∨ have' ∨ !s.prefetchOk (128 * line) then s else
  match (s.clu c).find n with
  | some (_, x) => if ic then s.fillIc core n x.data else s.fillL1 core n x.st x.data (hint == 1)
  | none => match s.readFor c n with
    | some (tag, r) =>
      if r.use = .prefetch none then
        s.onClu c fun cl => { cl with reqs := NMap.insert cl.reqs tag { r with use := .prefetch (some (core, ic)) } }
      else s
    | none => if (s.clu c).leaving then s else s.sendRead c n hint (.prefetch (some (core, ic))) []

/-- A demand miss of the cluster cache on a line: joins a read outstanding for it, or sends one and prefetches. -/
def State.missRead (s : State) (core line hint : Nat) (use : ReqUse) (waiters : List Waiter) : State :=
  let c := clusterOf core
  match s.readFor c line with
  | some (tag, r) =>
    let use' := match r.use with
      | .prefetch _ => use
      | u => u
    s.onClu c fun cl => { cl with reqs := NMap.insert cl.reqs tag { r with waiters := r.waiters ++ waiters, use := use' } }
  | none =>
    if (s.clu c).leaving || !s.canSend c line || ((s.clu c).reqFor line).isSome then s
    else (s.sendRead c line hint use waiters).prefetchCc c line hint

end Sys2Proof.Machine
end

