-- ==== Sys2Proof/Machine/Access.lean ====
section
/-!
DEFINITION. How the accesses of hands are performed: in the caches, at a home, in an assembly buffer or at the host
(R292–R299, R310–R312, R325, R337, R425, R531).
-/
namespace Sys2Proof.Machine

/-! ### Assembly buffers (R425) -/

/-- The entropy block of a normalised address. -/
def blockOf (a : Nat) : Nat := a / 2048

/-- The runs of neighbouring bytes of a buffer, each at its tile-local offset. -/
def runsOf : NMap Byte → List (Nat × List Byte)
  | [] => []
  | (k, b) :: t =>
    match runsOf t with
    | (j, bs) :: rest => if j = k + 1 then (k, b :: bs) :: rest else (k, [b]) :: (j, bs) :: rest
    | [] => [(k, [b])]

/-- Sends a buffer to its block's home: encoded when it covers the block, otherwise as a partial write.  It stays where
no request can be sent. -/
def State.flushAsm (s : State) (c block : Nat) : State :=
  let cl := s.clu c
  match cl.asm.find? fun b => b.block == block with
  | none => s
  | some b =>
    let line := block * 16
    if !s.canSend c line then s else
    let s := s.onClu c fun cl => { cl with asm := cl.asm.filter fun x => x.block != block }
    let req : Req := { s.mkReq .stWr line .demand [] with cmode := 1 }
    let runs := (runsOf b.bytes).map fun r => (offsetOf (2048 * block) + r.1, r.2)
    if b.poison then
      if b.bytes.length = 2048 then s.sendReq c req (some ⟨b.bytes.map (·.2), List.replicate 64 .poison⟩)
      else (s.count .CDC_ASM_PARTIAL_CNT).sendReq c req none runs 0 .poison
    else if b.bytes.length = 2048 then
      let e := s.encodeFor (s.codecOf (2048 * block)).2 (b.bytes.map (·.2))
      e.2.sendReq c req (some ⟨e.1.2, List.replicate 64 .good⟩) [] e.1.1
    else
      (s.count .CDC_ASM_PARTIAL_CNT).sendReq c req none runs

/-- Flushes every buffer of a cluster. -/
def State.flushAllAsm (s : State) (c : Nat) : State :=
  foldState (fun s b => s.flushAsm c b.block) (s.clu c).asm s

/-- Whether a cluster holds a buffer for a block. -/
def Cluster.hasAsm (cl : Cluster) (block : Nat) : Bool := cl.asm.any fun b => b.block == block

/-- Whether a write of a block by a cluster is still on its way. -/
def Cluster.flushing (cl : Cluster) (block : Nat) : Bool :=
  cl.reqs.any fun r => r.2.kind == .stWr && !r.2.quar && r.2.line / 16 == block

/-- Gathers a store to an entropy window: a seventeenth block flushes the least recently written buffer, and a buffer
that covers its block is flushed.  Nothing where no buffer can be freed. -/
def State.storeAsm (s : State) (c a : Nat) (bs : List Byte) : Option State :=
  let block := blockOf a
  let s := if (s.clu c).hasAsm block ∨ (s.clu c).asm.length < 16 then s else
    match (s.clu c).asm with
    | b :: _ => s.flushAsm c b.block
    | [] => s
  let cl := s.clu c
  if !cl.hasAsm block && decide (16 ≤ cl.asm.length) then none else
  let was := cl.asm.find? fun b => b.block == block
  let old := match was with
    | some b => b.bytes
    | none => []
  let bytes := foldState (fun m i => NMap.insert m (a % 2048 + i) (bs.getD i 0)) (List.range bs.length) old
  let buf : AsmBuf :=
    { block := block, bytes := bytes, since := s.time.bnd,
      poison := (was.map (·.poison)).getD false }
  let s := s.setClu c { cl with asm := (cl.asm.filter fun b => b.block != block) ++ [buf] }
  some (if bytes.length = 2048 then s.flushAsm c block else s)

/-! ### The host port (R295, R531, R720) -/

/-- Takes a free tag for a non-posted request toward the host; at most 768 are outstanding (R531). -/
def State.hostReq (s : State) (use : HostUse) (m : Nat → HostMsg) : Option State :=
  match firstWhere 768 fun t => (NMap.find? s.host.reqs t).isNone with
  | none => none
  | some t =>
    let reqs := NMap.insert s.host.reqs t { use := use, since := s.time.bnd }
    some ({ s with host := { s.host with reqs := reqs, out := s.host.out ++ [m t] } }.issue 6 0)

/-- Whether an atomic can be sent as a PCIe AtomicOp: integer add, exchange or compare-and-swap (R295). -/
def hostAtomOk (op : AmoOp) (typ : Nat) : Bool :=
  (op == .add || op == .xchg || op == .cas) && (typ == 0 || typ == 1 || typ == 3 || typ == 4)

/-! ### The accesses of a hand -/

/-- Records what an access of a hand returned. -/
def State.setRes (s : State) (w : Waiter) (r : PartRes) : State :=
  match s.hand w.core w.slot with
  | none => s
  | some h =>
    let ops := h.ops.map fun o =>
      let done : MemOp := { o with res := NMap.insert o.res w.part r }
      (if o.id = w.op then done else o)
    s.setHand w.core w.slot { h with ops := ops }

/-- Whether an access already waits for an answer. -/
def State.asked (s : State) (w : Waiter) : Bool :=
  ((s.clu (clusterOf w.core)).reqs.any fun r => r.2.waiters.contains w && !r.2.quar)
    || s.host.reqs.any fun r => r.2.use == .hand w true || r.2.use == .hand w false

/-- Whether two accesses overlap. -/
def overlaps (p q : Part) : Bool := decide (p.addr < q.addr + q.size) && decide (q.addr < p.addr + p.size)

/-- Whether an access must wait for an earlier one of its hand to overlapping bytes (R197, R298). -/
def partBlocked : List MemOp → Nat → Nat → Part → Bool
  | [], _, _, _ => false
  | o :: t, op, idx, p =>
    let mine := o.id == op
    (o.parts.zipIdx.any fun q => (!mine || decide (q.2 < idx)) && overlaps q.1 p && (NMap.find? o.res q.2).isNone)
      || (!mine && partBlocked t op idx p)

/-- Reads of a Staged line or unit that are under way allocate nowhere once the line has been written (R298, R303). -/
def State.stopFills (s : State) (c : Nat) (hit : Nat → Req → Bool) : State :=
  let mark (r : Nat × Req) : Nat × Req :=
    if r.2.kind = .stRd ∧ hit r.1 r.2 then (r.1, { r.2 with noAlloc := true }) else r
  s.onClu c fun cl => { cl with reqs := cl.reqs.map mark }

/-- Stops the fills of the unit that a written Staged line belongs to. -/
def State.stopFillsOf (s : State) (c line : Nat) : State :=
  s.stopFills c fun _ r => unitLines r.cmode r.line == unitLines r.cmode line

/-- Applies a write to the copies of its line in the issuing cluster's cache and the issuing core's L1 (R292). -/
def State.updateCopies (s : State) (core : Nat) (p : Part) : State :=
  let line := lineOf p.addr
  let c := clusterOf core
  let s := match (s.clu c).find line with
    | some (key, x) => s.setCc c key { x with data := (applyPart x.data p).2 }
    | none => s
  match (s.core core).findL1 line with
  | some (_, x) => s.updateL1 core line (applyPart x.data p).2
  | none => s

/-- A load of a Coherent or Staged piece: from the L1, from the cluster cache, or by a read of its home (R310, R325). -/
def tryLoad (s : State) (w : Waiter) (p : Part) (mode : Nat) : State :=
  let c := clusterOf w.core
  let line := lineOf p.addr
  let off := p.addr % 128
  match (s.core w.core).findL1 line with
  | some (key, x) =>
    let s := s.onCore w.core fun co => { co with l1lru := touchWay co.l1lru 8 (key / 8) (key % 8) false }
    s.setRes w (partOf x.data off p.size)
  | none =>
  match (s.clu c).find line with
  | some (key, x) =>
    let s := (s.setCc c key { x with pfUnused := false }).touchCc c key false
    let s := (s.fillL1 w.core line x.st x.data (p.hint == 1)).setRes w (partOf x.data off p.size)
    s.prefetchL1 w.core line p.hint false
  | none =>
    let block := blockOf p.addr
    if mode = 1 ∧ (s.clu c).hasAsm block then s.flushAsm c block
    else if mode = 1 ∧ (s.clu c).flushing block then s
    else
      let s' := s.missRead w.core line p.hint .demand [w]
      if s'.asked w then s'.prefetchL1 w.core line p.hint false else s'

/-- A store or atomic of a Coherent piece: in the cluster cache once it holds the line in E or M (R310, R312, R323,
R325). -/
def tryOwn (s : State) (w : Waiter) (p : Part) : State :=
  let c := clusterOf w.core
  let line := lineOf p.addr
  let ask (s : State) (held : Bool) : State :=
    match (s.clu c).reqFor line with
    | some (tag, r) =>
      if r.kind = .rdX true ∨ r.kind = .rdX false then
        s.onClu c fun cl => { cl with reqs := NMap.insert cl.reqs tag { r with waiters := r.waiters ++ [w] } }
      else s
    | none =>
      if (s.clu c).leaving || !s.canSend c line then s else
      let s := if held then s else s.dropCc c line
      s.sendReq c { s.mkReq (.rdX held) line .demand [w] with hint := p.hint }
  match (s.clu c).find line with
  | some (key, x) =>
    if x.st = .e ∨ x.st = .m then
      let s := s.dropL1s c line (some w.core)
      let r := applyPart x.data p
      let pres := (((s.clu c).find line).map fun y => y.2.pres).getD 0
      let s := (s.setCc c key { x with st := .m, data := r.2, pres := pres, pfUnused := false }).touchCc c key false
      (s.updateL1 w.core line r.2).setRes w r.1
    else ask s (x.st == .o)
  | none => ask s false

/-- An access performed at its home by one request of its own: Uncached, or the write or atomic of a Staged piece
(R292, R293, R322). -/
def tryHome (s : State) (w : Waiter) (p : Part) (kind : MsgKind) (mode : Nat) : State :=
  let c := clusterOf w.core
  s.sendReq c { s.mkReq kind (lineOf p.addr) .demand [w] with part := some p, cmode := mode }

/-- A store or atomic of a Staged piece (R292, R425). -/
def tryStaged (s : State) (w : Waiter) (p : Part) (mode : Nat) : State :=
  let c := clusterOf w.core
  let line := lineOf p.addr
  match p.op with
  | .store bs =>
    if mode = 1 then
      match s.storeAsm c p.addr bs with
      | none => s
      | some s => ((s.stopFillsOf c line).updateCopies w.core p).setRes w okRes
    else if !s.canSend c line then s
    else tryHome ((s.stopFillsOf c line).updateCopies w.core p) w p .stWr mode
  | _ =>
    if mode = 1 ∧ (s.clu c).hasAsm (blockOf p.addr) then s.flushAsm c (blockOf p.addr)
    else if (mode = 1 ∧ (s.clu c).flushing (blockOf p.addr)) ∨ !s.canSend c line then s
    else tryHome ((s.stopFillsOf c line).dropCc c line) w p .ncAtom mode

/-- An access to a Host piece (R292, R295, R531, R720). -/
def tryHost (s : State) (w : Waiter) (p : Part) : State :=
  let a := offsetOf p.addr
  match p.op with
  | .store bs => (s.hostWrite a bs .good).setRes w okRes
  | .load =>
    if !s.hostEn then (s.count .HIF_CPL_TO_CNT).setRes w (poisonRes p.size) else
    (s.hostReq (.hand w false) fun t => .read t a p.size).getD s
  | .amo op typ c new =>
    if !s.hostEn then ((s.count .HIF_CPL_TO_CNT).count .TILE_HOST_ATOM_CNT).setRes w (poisonRes p.size)
    else if !hostAtomOk op typ then (s.count .TILE_HOST_ATOM_CNT).setRes w (poisonRes p.size)
    else (s.hostReq (.hand w true) fun t => .atomic t a op p.size c new).getD s
  | .signal _ _ => s.setRes w okRes

/-- Whether an access is a signal to a fence: it goes to the fence's home whatever its window says (R554). -/
def isSignalPart (p : Part) : Bool := match p.op with
  | .signal _ _ => true
  | _ => false

/-- Performs an access of a hand as far as it can go now. -/
def tryPart (s : State) (w : Waiter) (p : Part) : State :=
  let c := clusterOf w.core
  if (s.clu c).ccinit ∨ (s.core w.core).l1init then s
  else if isSignalPart p then tryHome s w p .ncAtom 0 else
  match s.memTy p.addr with
  | .host => tryHost s w p
  | .uncached => match p.op with
    | .load => tryHome s w p .ncRd 0
    | .store _ => tryHome s w p .ncWr 0
    | _ => tryHome s w p .ncAtom 0
  | .coherent => match p.op with
    | .load => tryLoad s w p 0
    | _ => tryOwn s w p
  | .staged => match p.op with
    | .load => tryLoad s w p (s.modeAt p.addr)
    | _ => tryStaged s w p (s.modeAt p.addr)

/-- Moves on every access of one instruction of a hand that is neither done, nor waiting, nor held back. -/
def pumpOp (s : State) (c slot op : Nat) : State :=
  match (s.hand c slot).bind fun h => h.ops.find? fun o => o.id == op with
  | none => s
  | some o => foldState (fun s q =>
      let w : Waiter := ⟨c, slot, op, q.2⟩
      match s.hand c slot with
      | none => s
      | some h => match h.ops.find? fun o => o.id == op with
        | none => s
        | some o =>
          if (NMap.find? o.res q.2).isSome || s.asked w || partBlocked h.ops op q.2 q.1 then s
          else tryPart s w q.1) o.parts.zipIdx s

/-- Moves on everything a hand has issued. -/
def pumpHand (s : State) (c slot : Nat) : State :=
  match s.hand c slot with
  | none => s
  | some h => foldState (fun s o => pumpOp s c slot o.id) h.ops s

/-- Moves on everything that the hands of a cluster have issued, while its clock runs. -/
def pumpCluster (s : State) (c : Nat) : State :=
  if !s.clocked c then s else
  foldState (fun s i => foldState (fun s slot => pumpHand s (4 * c + i) slot) (List.range 16) s) (List.range 4) s

/-- Whether every access of an instruction has been answered. -/
def MemOp.answered (o : MemOp) : Bool := decide (o.res.length = o.parts.length)

end Sys2Proof.Machine
end

