-- ==== Sys2Proof/Machine/Control.lean ====
section
/-!
DEFINITION. The control instructions of a hand, its sleeps and waits (R140, R186–R190), and an unassigned opcode
(R170).
-/
namespace Sys2Proof.Machine

/-- Whether the operand fields SRA, SRB and SRC, and every space and immediate bit, are zero. -/
def noSources (ins : Insn) : Bool :=
  ins.sra == 0 && ins.srb == 0 && ins.src == 0 && !ins.ua && !ins.ub && !ins.uc && !ins.imb

/-- TYP, PRD and PIV are zero. -/
def plainCtl (ins : Insn) : Bool := ins.typ == 0 && ins.prd == 0 && !ins.piv

/-- A FUN field with no bits outside a mask. -/
def fnWithin (ins : Insn) (mask : Nat) : Bool := decide (ins.fn.toNat &&& (0x7FF - mask) = 0)

/-! ### Targets (R187) -/

/-- Whether a branch's target is given in the indirect form. -/
def indirect (ins : Insn) : Bool := ins.fn.getLsbD 3

/-- The target: a uniform register, W1, or a signed count of words in bits 43:20 from the branch's own address. -/
def targetOf (h : Hand) (ins : Insn) : DWord :=
  if indirect ins then h.u ins.sra.toNat
  else if ins.lng then ins.w1
  else h.pc + BitVec.ofNat 64 (8 * sext64 24 (ins.sra.toNat * 65536 + imm16 ins))

/-- Whether the fields that give a target are legal: in the indirect form SRA is a uniform register and bits 35:20
are zero; in the long form bits 43:20 are zero (R166, R167, R187). -/
def targetOk (ins : Insn) : Bool :=
  !ins.ua && !ins.ub && !ins.uc && !ins.imb &&
    (if indirect ins then !ins.lng && decide (ins.sra.toNat < 64) && ins.srb == 0 && ins.src == 0
     else if ins.lng then ins.sra == 0 && ins.srb == 0 && ins.src == 0
     else true)

/-- Whether instruction words stand at an address in the core's instruction cache or the hand's fetch buffer. -/
def inCache (s : State) (co : Core) (h : Hand) (a : DWord) : Bool := (fetchWord s co h a.toNat).isSome

/-- Moves a hand to a taken branch's target: it waits for the refetch, or for the fill (R136, R140). -/
def jump (s : State) (i : Issue) (h : Hand) (a : DWord) : State :=
  let w := if inCache s (s.core i.core) h a then Wait.branch else .fetch
  s.setHand i.core i.slot { h with pc := a, st := .waiting w }

/-- The fault of a transfer to a target that is not a multiple of 8; only a transfer that is made is checked
(DEDUCED, log entry 7). -/
def targetFault (taken : Bool) (a : DWord) : Option (Nat × Nat × Nat) :=
  if taken && a.toNat % 8 ≠ 0 then some (2, 0xFF, 0) else none

/-- The words of a transfer name these uniform registers. -/
def targetNames (ins : Insn) : List Nat := if indirect ins then [ins.sra.toNat % 64] else []

/-- Whether the condition of bra holds (R186, R188). -/
def braTaken (h : Hand) (ins : Insn) : Bool :=
  let m := (if ins.piv then ~~~(h.p ins.prd.toNat) else h.p ins.prd.toNat) &&& h.live
  match ins.fn.toNat % 8 with
  | 0 => true
  | 1 => m != 0
  | 2 => m == h.live
  | 3 => m == 0
  | 4 => h.u ins.dst.toNat == 0
  | _ => h.u ins.dst.toNat != 0

/-- The hand as a control instruction found it, before its program counter moved on. -/
def atPc (h : Hand) (ins : Insn) : Hand := { h with pc := h.pc - (if ins.lng then 16 else 8) }

/-- What the issue of `bra` asks, and its effect. -/
def braSpec (i : Issue) (ins : Insn) : IssueSpec :=
  let cond := ins.fn.toNat % 8
  let onU := decide (4 ≤ cond)
  { opc := 0x70, unit := .uniform,
      names := { u := targetNames ins ++ (if onU then [ins.dst.toNat % 64] else []),
                 p := if onU ∨ cond = 0 then [] else [ins.prd.toNat] },
      legal := fun _ => ins.typ == 0 && fnWithin ins 15 && decide (cond ≤ 5) && targetOk ins
        && (if onU then decide (ins.dst.toNat < 64) else ins.dst == 0)
        && (decide (1 ≤ cond ∧ cond ≤ 3) || plainCtl ins),
      access := fun _ _ h => targetFault (braTaken h ins) (targetOf h ins),
      body := fun s _ h =>
        let h0 := atPc h ins
        if braTaken h0 ins then jump s i h (targetOf h0 ins) else s }

def execBra (i : Issue) (ins : Insn) (s : State) : Host.Outcome State Fault Refusal :=
  done (issue s i ins (braSpec i ins))

/-- What the issue of `loop` asks, and its effect. -/
def loopInsnSpec (i : Issue) (ins : Insn) : IssueSpec :=
  let d := ins.dst.toNat
  { opc := 0x71, unit := .uniform, names := { u := d % 64 :: targetNames ins },
      legal := fun _ => plainCtl ins && fnWithin ins 8 && targetOk ins && decide (d < 64),
      access := fun _ _ h => targetFault (h.u d - 1 != 0) (targetOf h ins),
      body := fun s _ h =>
        let n := h.u d - 1
        let h' := h.setU d n
        if n != 0 then jump s i h' (targetOf (atPc h ins) ins) else s.setHand i.core i.slot h' }

/-- loop: counts a uniform register down and branches while it is not zero (R186). -/
def execLoopInsn (i : Issue) (ins : Insn) (s : State) : Host.Outcome State Fault Refusal :=
  done (issue s i ins (loopInsnSpec i ins))

/-- What the issue of `call` asks, and its effect. -/
def callInsnSpec (i : Issue) (ins : Insn) : IssueSpec :=
  let d := ins.dst.toNat
  { opc := 0x72, unit := .uniform, names := { u := d % 64 :: targetNames ins },
      legal := fun _ => plainCtl ins && fnWithin ins 8 && targetOk ins && decide (d < 64),
      access := fun _ _ h => targetFault true (targetOf h ins),
      body := fun s _ h => jump s i (h.setU d h.pc) (targetOf (atPc h ins) ins) }

/-- call: the link register takes the address of the next instruction; the target is read before it (DEDUCED, log
entry 7). -/
def execCallInsn (i : Issue) (ins : Insn) (s : State) : Host.Outcome State Fault Refusal :=
  done (issue s i ins (callInsnSpec i ins))

/-- What the issue of `ret` asks, and its effect. -/
def retSpec (i : Issue) (ins : Insn) : IssueSpec :=
  { opc := 0x73, unit := .uniform, names := { u := [ins.sra.toNat % 64] },
      legal := fun _ => plainCtl ins && fnWithin ins 0 && !ins.lng && ins.dst == 0 && decide (ins.sra.toNat < 64)
        && noSources { ins with sra := 0 },
      access := fun _ _ h => targetFault true (h.u ins.sra.toNat),
      body := fun s _ h => jump s i h (h.u ins.sra.toNat) }

def execRet (i : Issue) (ins : Insn) (s : State) : Host.Outcome State Fault Refusal :=
  done (issue s i ins (retSpec i ins))

/-- An instruction without operands other than FUN. -/
def bareOk (ins : Insn) (fnMask : Nat) : Bool :=
  plainCtl ins && fnWithin ins fnMask && !ins.lng && ins.dst == 0 && noSources ins

/-- What the issue of `halt` asks, and its effect. -/
def haltSpec (i : Issue) (ins : Insn) : IssueSpec :=
  { opc := 0x74, unit := .uniform, legal := fun _ => bareOk ins 0,
      body := fun s _ h => settle (s.setHand i.core i.slot { h with stop := some .halt }) i.core i.slot }

/-- halt: completes once everything the hand issued has completed (R132, R156). -/
def execHalt (i : Issue) (ins : Insn) (s : State) : Host.Outcome State Fault Refusal :=
  done (issue s i ins (haltSpec i ins))

/-- The lifecycle state: 0 BLANK, 1 SEALED, 2 OPEN, 3 RETIRED (R693). -/
def State.lifecycle (s : State) : Nat :=
  let f := s.sec.fuses
  if f.retired then 3 else if !f.provisioned then 0 else if f.toggles % 2 = 0 then 1 else 2

/-- The free level of the lifecycle state (R697, R708). -/
def State.freeLevel (s : State) : Nat := [1, 0, 2, 1].getD s.lifecycle 0

/-- The level that a token in force grants. -/
def tokenLevel (t : Option Token) : Nat := (t.map (·.level)).getD 0

/-- The debug level in effect (R263, R697). -/
def State.level (s : State) : Nat :=
  max (if s.sec.lowered then 0 else s.freeLevel) (max (tokenLevel s.sec.owner) (tokenLevel s.sec.vendor))

/-- What the issue of `brk` asks, and its effect. -/
def brkSpec (i : Issue) (ins : Insn) : IssueSpec :=
  { opc := 0x75, unit := .uniform, legal := fun _ => bareOk ins 0x7FF,
      body := fun s _ h =>
        let pol := decide (s.level < 2)
        let f : FaultRec := { kind := 0x11, pc := h.pc, resume := h.pc, code := ins.fn.toNat, time := s.coreTime, policy := pol }
        s.setHand i.core i.slot { h with stop := some (.debug f) } }

/-- brk: at L2 the hand enters DEBUG with a BRK event; below L2 the TRAP policy governs (R261).  It stops when what it
has issued has completed, by the row that enters DEBUG. -/
def execBrk (i : Issue) (ins : Insn) (s : State) : Host.Outcome State Fault Refusal :=
  done (issue s i ins (brkSpec i ins))

/-- What the issue of `trap` asks, and its effect. -/
def trapSpec (i : Issue) (ins : Insn) : IssueSpec :=
  { opc := 0x76, unit := .uniform, legal := fun _ => bareOk ins 0x7FF,
      body := fun s _ h =>
        let f := { faultAt s (atPc h ins) 0x76 ins 5 0xFF 0 with resume := h.pc, code := ins.fn.toNat }
        raiseFault s i.core i.slot { h with stepping := h.stop.isSome } f }

/-- trap: the hand faults with FUN as the code; it resumes at the next instruction (R239). -/
def execTrap (i : Issue) (ins : Insn) (s : State) : Host.Outcome State Fault Refusal :=
  done (issue s i ins (trapSpec i ins))

/-- What the issue of `yield` asks, and its effect. -/
def yieldSpec (i : Issue) (ins : Insn) : IssueSpec :=
  { opc := 0x77, unit := .uniform, legal := fun _ => bareOk ins 0,
      body := fun s _ h => s.setHand i.core i.slot { h with st := .waiting .yield } }

/-- yield: the hand waits 16 cluster cycles (R186). -/
def execYield (i : Issue) (ins : Insn) (s : State) : Host.Outcome State Fault Refusal :=
  done (issue s i ins (yieldSpec i ins))

/-- The count of a sleep: the immediate, W1 or the low 32 bits of u[SRB] (R190). -/
def sleepCount (h : Hand) (ins : Insn) : Nat :=
  if ins.imb then imm16 ins else if ins.lng then ins.w1.toNat % 2 ^ 32 else (h.u ins.srb.toNat).toNat % 2 ^ 32

/-- What the issue of `sleepTicks` asks, and its effect. -/
def sleepTicksSpec (i : Issue) (ins : Insn) : IssueSpec :=
  let reg := !ins.imb && !ins.lng
  { opc := 0x78, unit := .uniform, names := { u := if reg then [ins.srb.toNat % 64] else [] },
      legal := fun _ => plainCtl ins && fnWithin ins 0 && ins.dst == 0 && ins.sra == 0 && !ins.ua && !ins.ub && !ins.uc
        && (if ins.imb then !ins.lng
            else if ins.lng then ins.srb == 0 && ins.src == 0
            else decide (ins.srb.toNat < 64) && ins.src == 0),
      body := fun s _ h =>
        let n := sleepCount h ins
        if n = 0 then s
        else s.setHand i.core i.slot { h with st := .sleeping, sleepEnd := s.coreTime + n } }

/-- sleep.ticks: the hand sleeps until its core receives tick T + n; a count of 0 does not sleep (R190). -/
def execSleepTicks (i : Issue) (ins : Insn) (s : State) : Host.Outcome State Fault Refusal :=
  done (issue s i ins (sleepTicksSpec i ins))

/-- Sends a load notice to a cluster's regulator (R625). -/
def State.sendNotice (s : State) (cluster weight : Nat) : State :=
  { s with pwr := { s.pwr with notices := s.pwr.notices ++ [(cluster, weight)] } }

/-- What the issue of `notice` asks, and its effect. -/
def noticeInsnSpec (i : Issue) (ins : Insn) : IssueSpec :=
  { opc := 0x79, unit := .uniform, legal := fun _ => bareOk ins 3,
      body := fun s _ _ => s.sendNotice (clusterOf i.core) (ins.fn.toNat % 4) }

def execNoticeInsn (i : Issue) (ins : Insn) (s : State) : Host.Outcome State Fault Refusal :=
  done (issue s i ins (noticeInsnSpec i ins))

/-- What the issue of `nop` asks, and its effect. -/
def nopInsnSpec (ins : Insn) : IssueSpec :=
  { opc := 0x7A, unit := .uniform, legal := fun _ => bareOk ins 0, body := fun s _ _ => s }

def execNopInsn (i : Issue) (ins : Insn) (s : State) : Host.Outcome State Fault Refusal :=
  done (issue s i ins (nopInsnSpec ins))

/-- The opcodes that a table of chapter 5 assigns (R170). -/
def opcodeAssigned (o : Nat) : Bool :=
  decide (0x01 ≤ o ∧ o ≤ 0x21) || decide (0x40 ≤ o ∧ o ≤ 0x4E) || decide (0x60 ≤ o ∧ o ≤ 0x69)
    || decide (0x70 ≤ o ∧ o ≤ 0x7A) || decide (0x80 ≤ o ∧ o ≤ 0x85) || decide (0x88 ≤ o ∧ o ≤ 0x8F)
    || decide (0xA0 ≤ o ∧ o ≤ 0xA4) || decide (0xB0 ≤ o ∧ o ≤ 0xB7) || decide (0xC0 ≤ o ∧ o ≤ 0xC1)
    || decide (0xC8 ≤ o ∧ o ≤ 0xC9)

/-- What the issue of `unassignedOpcode` asks, and its effect. -/
def unassignedOpcodeSpec (opc : BitVec 8) : IssueSpec :=
  { opc := opc.toNat, unit := .uniform, legal := fun _ => false, body := fun s _ _ => s }

/-- An unassigned opcode raises the illegal-instruction fault, whatever its fields (R170, R207). -/
def execUnassignedOpcode (i : Issue) (opc : BitVec 8) (ins : Insn) (s : State) : Host.Outcome State Fault Refusal :=
  done (if opcodeAssigned opc.toNat then s else issue s i ins (unassignedOpcodeSpec opc))

/-! ### Ends of waits -/

/-- Makes a hand that waits in a given state ready to issue. -/
def endWait (s : State) (c slot : Nat) (st : HandSt) : State :=
  if !s.clocked (clusterOf c) then s else
  match s.hand c slot with
  | none => s
  | some h => if h.st = st then s.setHand c slot { h with st := .ready } else s

/-- Four cluster cycles after a taken branch the hand is ready (R140). -/
def execBranchWaitEnd (x : HandId) (s : State) : Host.Outcome State Fault Refusal :=
  done (endWait s x.core x.slot (.waiting .branch))

/-- Sixteen cluster cycles after `yield` the hand is ready (R186). -/
def execYieldEnd (x : HandId) (s : State) : Host.Outcome State Fault Refusal :=
  done (endWait s x.core x.slot (.waiting .yield))

/-- A sleep ends when the core receives its end tick (R190). -/
def execSleepEnd (x : HandId) (s : State) : Host.Outcome State Fault Refusal :=
  done (match s.hand x.core x.slot with
    | none => s
    | some h =>
      if s.clocked (clusterOf x.core) && h.st == .sleeping && decide (h.sleepEnd ≤ s.coreTime) then
        s.setHand x.core x.slot { h with st := .ready, sleepEnd := 0 }
      else s)

end Sys2Proof.Machine
end

