-- ==== Sys2Proof/Machine/Vector.lean ====
section
/-!
DEFINITION. The vector integer and floating-point instructions (R172–R180): each acts on every enabled thread
independently and ORs the flags that enabled threads raise into the hand's sticky flags (R147, R154).
-/
namespace Sys2Proof.Machine

/-- The TYP codes of R172's type lists. -/
def tyAll : List Nat := [0, 1, 2, 3, 4, 5, 6]
def tyInt : List Nat := [0, 1, 3, 4]
def ty32 : List Nat := [0, 1]
def tyFloat : List Nat := [2, 5, 6]

/-- The rule of a vector opcode with `n` sources. -/
def vecRule (types : List Nat) (n fnMask : Nat) : OpRule :=
  { types := types, d := .vec, a := if n = 0 then .no else .opn, b := if n ≤ 1 then .no else .opn,
    c := if n ≤ 2 then .no else .opn, fnMask := fnMask }

/-- FUN bits of an opcode that saturates integers and rounds floats, and of one that only rounds floats (R173). -/
def satMask (ins : Insn) : Nat := if (insnTy ins).isInt then 1 else 3
def rndMask (ins : Insn) : Nat := if (insnTy ins).isInt then 0 else 3

/-- The registers that a vector instruction names. -/
def vecNamesOf (r : OpRule) (ins : Insn) (nd na nb nc : Nat) (extraP : List Nat) : Names :=
  let d := vecNames r.d false ins.dst.toNat nd
  let useB := !ins.imb && !ins.lng
  { v := d ++ vecNames r.a ins.ua ins.sra.toNat na
      ++ (if useB then vecNames r.b ins.ub ins.srb.toNat nb else [])
      ++ (if ins.imb then [] else vecNames r.c ins.uc ins.src.toNat nc),
    u := uniNames r.d false ins.dst.toNat ++ uniNames r.a ins.ua ins.sra.toNat
      ++ (if useB then uniNames r.b ins.ub ins.srb.toNat else [])
      ++ (if ins.imb then [] else uniNames r.c ins.uc ins.src.toNat),
    p := ins.prd.toNat :: extraP, wv := d }

/-- The flags that the selected threads raise, together. -/
def orFlags (f : Nat → FFlags) (who : Nat → Bool) : FFlags :=
  foldState (fun acc i => if who i then acc ||| f i else acc) (List.range 64) (0 : FFlags)

/-- The effect of a vector instruction: per enabled thread `f` gives the result and its flags. -/
def vecBody (i : Issue) (ins : Insn) (f : Core → Hand → Nat → Nat × FFlags) (s : State) (co : Core) (h : Hand) : State :=
  let t := insnTy ins
  let en := h.enabled ins
  let co' := co.setVTy h t ins.dst.toNat fun k => if en k then some (f co h k).1 else none
  let fl := orFlags (fun k => (f co h k).2) en
  let s := s.setCore i.core co'
  s.setHand i.core i.slot { h with flags := h.flags ||| fl }

/-- A vector instruction with `n` sources of its own type. -/
def vecOp (opc : Nat) (types : List Nat) (n fnMask : Nat) (i : Issue) (ins : Insn)
    (f : Ty → Nat → Nat → Nat → Nat × FFlags) (s : State) : State :=
  let r := vecRule types n fnMask
  let fp := footprint ins.typ.toNat
  let t := insnTy ins
  issue s i ins
    { opc := opc, unit := .vector, names := vecNamesOf r ins fp fp fp fp [],
      legal := fun h => ruleOk r h.vregs fp fp fp fp ins,
      body := vecBody i ins fun co h k =>
        f t (if n = 0 then k else srcA co h ins t k) (if n ≤ 1 then 0 else srcB co h ins t k)
          (if n ≤ 2 then 0 else srcC co h ins t k) }

def execMov (i : Issue) (ins : Insn) (s : State) : Host.Outcome State Fault Refusal :=
  done (vecOp 0x01 tyAll 1 0 i ins (fun _ a _ _ => (a, 0)) s)

def execAdd (i : Issue) (ins : Insn) (s : State) : Host.Outcome State Fault Refusal :=
  done (vecOp 0x02 tyAll 2 (satMask ins) i ins (fun t a b _ => aluAdd t ins a b) s)

def execSub (i : Issue) (ins : Insn) (s : State) : Host.Outcome State Fault Refusal :=
  done (vecOp 0x03 tyAll 2 (satMask ins) i ins (fun t a b _ => aluSub t ins a b) s)

def execMul (i : Issue) (ins : Insn) (s : State) : Host.Outcome State Fault Refusal :=
  done (vecOp 0x04 tyAll 2 (rndMask ins) i ins (fun t a b _ => aluMul t ins a b) s)

def execMulhi (i : Issue) (ins : Insn) (s : State) : Host.Outcome State Fault Refusal :=
  done (vecOp 0x05 ty32 2 0 i ins (fun t a b _ => (aluMulhi t a b, 0)) s)

def execFma (i : Issue) (ins : Insn) (s : State) : Host.Outcome State Fault Refusal :=
  done (vecOp 0x06 (ty32 ++ tyFloat) 3 (rndMask ins) i ins (fun t a b c => aluFma t ins a b c) s)

def execMin (i : Issue) (ins : Insn) (s : State) : Host.Outcome State Fault Refusal :=
  done (vecOp 0x07 tyAll 2 0 i ins (fun t a b _ => aluMinMax t true a b) s)

def execMax (i : Issue) (ins : Insn) (s : State) : Host.Outcome State Fault Refusal :=
  done (vecOp 0x08 tyAll 2 0 i ins (fun t a b _ => aluMinMax t false a b) s)

def execAbs (i : Issue) (ins : Insn) (s : State) : Host.Outcome State Fault Refusal :=
  done (vecOp 0x09 (1 :: 4 :: tyFloat) 1 0 i ins (fun t a _ _ => (aluAbs t a, 0)) s)

def execNeg (i : Issue) (ins : Insn) (s : State) : Host.Outcome State Fault Refusal :=
  done (vecOp 0x0A (1 :: 4 :: tyFloat) 1 0 i ins (fun t a _ _ => (aluNeg t a, 0)) s)

def execAnd (i : Issue) (ins : Insn) (s : State) : Host.Outcome State Fault Refusal :=
  done (vecOp 0x0B tyInt 2 0 i ins (fun _ a b _ => (a &&& b, 0)) s)

def execOr (i : Issue) (ins : Insn) (s : State) : Host.Outcome State Fault Refusal :=
  done (vecOp 0x0C tyInt 2 0 i ins (fun _ a b _ => (a ||| b, 0)) s)

def execXor (i : Issue) (ins : Insn) (s : State) : Host.Outcome State Fault Refusal :=
  done (vecOp 0x0D tyInt 2 0 i ins (fun _ a b _ => (a ^^^ b, 0)) s)

def execNot (i : Issue) (ins : Insn) (s : State) : Host.Outcome State Fault Refusal :=
  done (vecOp 0x0E tyInt 1 0 i ins (fun t a _ _ => (aluNot t a, 0)) s)

def execShl (i : Issue) (ins : Insn) (s : State) : Host.Outcome State Fault Refusal :=
  done (vecOp 0x0F tyInt 2 0 i ins (fun t a b _ => (aluShl t a b, 0)) s)

def execShr (i : Issue) (ins : Insn) (s : State) : Host.Outcome State Fault Refusal :=
  done (vecOp 0x10 tyInt 2 0 i ins (fun t a b _ => (aluShr t a b, 0)) s)

def execRot (i : Issue) (ins : Insn) (s : State) : Host.Outcome State Fault Refusal :=
  done (vecOp 0x11 [0, 3] 2 0 i ins (fun t a b _ => (aluRot t a b, 0)) s)

def execPopc (i : Issue) (ins : Insn) (s : State) : Host.Outcome State Fault Refusal :=
  done (vecOp 0x12 tyInt 1 0 i ins (fun t a _ _ => (aluPopc t a, 0)) s)

def execClz (i : Issue) (ins : Insn) (s : State) : Host.Outcome State Fault Refusal :=
  done (vecOp 0x13 tyInt 1 0 i ins (fun t a _ _ => (aluClz t a, 0)) s)

def execBfe (i : Issue) (ins : Insn) (s : State) : Host.Outcome State Fault Refusal :=
  done (vecOp 0x14 ty32 2 0 i ins (fun t a b _ => (aluBfe t a b, 0)) s)

def execBfi (i : Issue) (ins : Insn) (s : State) : Host.Outcome State Fault Refusal :=
  done (vecOp 0x15 [0] 3 0 i ins (fun _ a b c => (aluBfi a b c, 0)) s)

/-- sel: FUN bits 2:0 name the predicate q and bit 3 inverts it (R172, R173). -/
def execSel (i : Issue) (ins : Insn) (s : State) : Host.Outcome State Fault Refusal :=
  let r := vecRule tyAll 2 15
  let fp := footprint ins.typ.toNat
  let t := insnTy ins
  let q := ins.fn.toNat % 8
  done (issue s i ins
    { opc := 0x16, unit := .vector, names := vecNamesOf r ins fp fp fp 1 [q],
      legal := fun h => ruleOk r h.vregs fp fp fp 1 ins,
      body := vecBody i ins fun co h k =>
        (if (h.p q).getLsbD k != ins.fn.getLsbD 3 then srcA co h ins t k else srcB co h ins t k, 0) })

/-- cvt: FUN bits 3:0 name the source type in TYP encoding; source B is read for packed destinations only (R180). -/
def execCvt (i : Issue) (ins : Insn) (s : State) : Host.Outcome State Fault Refusal :=
  let dst := insnTy ins
  let srcCode := ins.fn.toNat % 16
  let src := (Ty.ofCode srcCode).getD .u32
  let packed := dst = .f16x2 ∨ dst = .bf16x2
  let r := vecRule tyAll (if packed then 2 else 1) 0xFF
  let nd := footprint ins.typ.toNat
  let ns := footprint srcCode
  done (issue s i ins
    { opc := 0x17, unit := .vector, names := vecNamesOf r ins nd ns ns 1 [],
      legal := fun h => ruleOk r h.vregs nd ns ns 1 ins && decide (srcCode ≤ 6),
      body := vecBody i ins fun co h k =>
        aluCvt dst ins src (srcA co h ins src k)
          (if !decide packed then 0
           else if ins.imb then immB ins dst
           else srcB co h ins src k) })

def execDiv (i : Issue) (ins : Insn) (s : State) : Host.Outcome State Fault Refusal :=
  done (vecOp 0x18 [0, 1, 2, 5] 2 (rndMask ins) i ins (fun t a b _ => aluDiv t ins a b) s)

def execRem (i : Issue) (ins : Insn) (s : State) : Host.Outcome State Fault Refusal :=
  done (vecOp 0x19 ty32 2 0 i ins (fun t a b _ => aluRem t a b) s)

def execSqrt (i : Issue) (ins : Insn) (s : State) : Host.Outcome State Fault Refusal :=
  done (vecOp 0x1A [2, 5] 1 3 i ins (fun t a _ _ => fmap1 t (fun f => f.fsqrt (fnMode ins)) a) s)

def execRcp (i : Issue) (ins : Insn) (s : State) : Host.Outcome State Fault Refusal :=
  done (vecOp 0x1B [2] 1 3 i ins (fun _ a _ _ => f32Rcp a) s)

def execRsqrt (i : Issue) (ins : Insn) (s : State) : Host.Outcome State Fault Refusal :=
  done (vecOp 0x1C [2] 1 3 i ins (fun _ a _ _ => f32Rsqrt a) s)

def execExp2 (i : Issue) (ins : Insn) (s : State) : Host.Outcome State Fault Refusal :=
  done (vecOp 0x1D [2] 1 3 i ins (fun _ a _ _ => f32Exp2 a) s)

def execLog2 (i : Issue) (ins : Insn) (s : State) : Host.Outcome State Fault Refusal :=
  done (vecOp 0x1E [2] 1 3 i ins (fun _ a _ _ => f32Log2 a) s)

def execSin (i : Issue) (ins : Insn) (s : State) : Host.Outcome State Fault Refusal :=
  done (vecOp 0x1F [2] 1 3 i ins (fun _ a _ _ => f32Trig false a) s)

def execCos (i : Issue) (ins : Insn) (s : State) : Host.Outcome State Fault Refusal :=
  done (vecOp 0x20 [2] 1 3 i ins (fun _ a _ _ => f32Trig true a) s)

/-- lane: each thread's index (R172). -/
def execLane (i : Issue) (ins : Insn) (s : State) : Host.Outcome State Fault Refusal :=
  done (vecOp 0x21 [0] 0 0 i ins (fun _ k _ _ => (k, 0)) s)

end Sys2Proof.Machine
end

