-- ==== Sys2Proof/Machine/Lane.lean ====
section
/-!
DEFINITION. The lane-exchange instructions (R200–R202): source lanes are read as they stand, live or not (R150).
-/
namespace Sys2Proof.Machine

/-- The types that lane exchange accepts; the packed types only for shuffles and bcast (R200). -/
def tyLane : List Nat := [0, 1, 2, 3, 4]

/-- The lane selector of source B for thread `k`: bits 5:0 of a 32-bit value, whatever TYP is (R200; DEDUCED, log
entry 8). -/
def selectorOf (co : Core) (h : Hand) (ins : Insn) (k : Nat) : Nat := srcB co h ins .u32 k % 64

/-- A shuffle: for each enabled thread, the lane of source A that `f` names from the selector and the thread. -/
def shuffle (opc : Nat) (vecB : Bool) (i : Issue) (ins : Insn) (f : Nat → Nat → Nat) (s : State) : State :=
  let r : OpRule := { types := tyAll, d := .vec, a := .opn, b := .opn, c := .no }
  let fp := footprint ins.typ.toNat
  issue s i ins
    { opc := opc, unit := .vector, names := vecNamesOf r ins fp fp 1 1 [],
      legal := fun h => ruleOk r h.vregs fp fp 1 1 ins && (vecB || ins.ub || ins.imb || ins.lng),
      body := vecBody i ins fun co h k => (srcA co h ins (insnTy ins) (f (selectorOf co h ins k) k), 0) }

def execShflIdx (i : Issue) (ins : Insn) (s : State) : Host.Outcome State Fault Refusal :=
  done (shuffle 0xB0 true i ins (fun b _ => b) s)

def execShflUp (i : Issue) (ins : Insn) (s : State) : Host.Outcome State Fault Refusal :=
  done (shuffle 0xB1 false i ins (fun b k => if b ≤ k then k - b else k) s)

def execShflDown (i : Issue) (ins : Insn) (s : State) : Host.Outcome State Fault Refusal :=
  done (shuffle 0xB2 false i ins (fun b k => if k + b ≤ 63 then k + b else k) s)

def execShflXor (i : Issue) (ins : Insn) (s : State) : Host.Outcome State Fault Refusal :=
  done (shuffle 0xB3 false i ins (fun b k => k ^^^ b) s)

def execBcast (i : Issue) (ins : Insn) (s : State) : Host.Outcome State Fault Refusal :=
  done (shuffle 0xB4 false i ins (fun b _ => b) s)

/-- rdlane: runs once for the hand, whatever the live mask (R200). -/
def execRdlane (i : Issue) (ins : Insn) (s : State) : Host.Outcome State Fault Refusal :=
  let r : OpRule := { types := tyLane, d := .uni, a := .opn, b := .opn, c := .no, p0 := true }
  let fp := footprint ins.typ.toNat
  done (issue s i ins
    { opc := 0xB5, unit := .vector, names := vecNamesOf r ins 1 fp 1 1 [],
      legal := fun h => ruleOk r h.vregs 1 fp 1 1 ins && (ins.ub || ins.imb || ins.lng),
      body := fun s co h =>
        let v := srcA co h ins (insnTy ins) (selectorOf co h ins 0)
        s.setHand i.core i.slot (h.setU (ins.dst.toNat % 64) (BitVec.ofNat 64 v)) })

/-- Whether the operation, type and rounding of a scan or reduction are listed (R201). -/
def combineOk (ins : Insn) : Bool :=
  let op := ins.fn.toNat % 8
  let t := insnTy ins
  decide (op ≤ 5) && (decide (op ≤ 2) || t.isInt)
    && (decide (ins.fn.toNat / 16 % 4 = 0) || (t == .f32 && decide (op = 0)))

/-- The combination that a scan or reduction asks for. -/
def combineOf (ins : Insn) : Nat → Nat → Nat × FFlags :=
  combine (insnTy ins) (ins.fn.toNat % 8) (RMode.ofCode (ins.fn.toNat / 16 % 4))

/-- What the issue of `scan` asks, and its effect. -/
def scanSpec (i : Issue) (ins : Insn) : IssueSpec :=
  let r : OpRule := { types := tyLane, d := .vec, a := .opn, b := .no, c := .no, fnMask := 0x3F }
  let fp := footprint ins.typ.toNat
  let t := insnTy ins
  { opc := 0xB6, unit := .vector, names := vecNamesOf r ins fp fp 1 1 [],
      legal := fun h => ruleOk r h.vregs fp fp 1 1 ins && combineOk ins,
      body := fun s co h =>
        let xs := (List.range 64).map fun k => (k, if h.enabled ins k then some (srcA co h ins t k) else none)
        let p := scanList (combineOf ins) (combineId t (ins.fn.toNat % 8)) (ins.fn.getLsbD 3) xs none none
        let s := s.setCore i.core (co.setVTy h t ins.dst.toNat fun k => NMap.find? p.1 k)
        s.setHand i.core i.slot { h with flags := h.flags ||| p.2 } }

/-- scan: the prefixes over enabled threads in ascending order (R202). -/
def execScan (i : Issue) (ins : Insn) (s : State) : Host.Outcome State Fault Refusal :=
  done (issue s i ins (scanSpec i ins))

/-- What the issue of `red` asks, and its effect. -/
def redSpec (i : Issue) (ins : Insn) : IssueSpec :=
  let r : OpRule := { types := tyLane, d := .uni, a := .opn, b := .no, c := .no, fnMask := 0x37 }
  let fp := footprint ins.typ.toNat
  let t := insnTy ins
  { opc := 0xB7, unit := .vector, names := vecNamesOf r ins 1 fp 1 1 [],
      legal := fun h => ruleOk r h.vregs 1 fp 1 1 ins && combineOk ins,
      body := fun s co h =>
        let ident := combineId t (ins.fn.toNat % 8)
        let xs := (List.range 64).map fun k => if h.enabled ins k then srcA co h ins t k else ident
        let p := redTree (combineOf ins) 6 xs
        let v := if t = .s32 then p.1 + Config.freeValue s.free 0 % 2 ^ 32 * 2 ^ 32 else p.1
        let h' := h.setU (ins.dst.toNat % 64) (BitVec.ofNat 64 v)
        let s := if t = .s32 then { s with free := s.free + 1 } else s
        s.setHand i.core i.slot { h' with flags := h.flags ||| p.2 } }

/-- red: six rounds of pairs over all 64 lanes (R202).  A 32-bit result leaves bits 63:32 of the uniform register
zero for U32 and F32; the spec states no extension for S32, whose upper half is a free value (log entry 9). -/
def execRed (i : Issue) (ins : Insn) (s : State) : Host.Outcome State Fault Refusal :=
  done (issue s i ins (redSpec i ins))

end Sys2Proof.Machine
end

