-- ==== Sys2Proof/Machine/MemInsn.lean ====
section
/-!
DEFINITION. The memory instructions: loads, stores, atomics, fences and invalidation, the completion of their
accesses, the poison trap, and instruction fetch (R189–R198, R281–R285, R290, R296–R304, R314, R317).
-/
namespace Sys2Proof.Machine

/-! ### Addresses (R192, R196) -/

/-- The bytes of a SIZE code (R193). -/
def sizeBytes (size : Nat) : Nat := 2 ^ size

/-- The sign-extended offset of a thread. -/
def offsetFor (co : Core) (h : Hand) (ins : Insn) (k : Nat) : Nat :=
  if ins.imb then sext64 16 (imm16 ins)
  else if ins.lng then ins.w1.toNat
  else if ins.ub then sext64 32 (h.u (ins.srb.toNat % 64)).toNat
  else sext64 32 (co.v h ins.srb.toNat k).toNat

/-- The address of a thread: base plus offset modulo 2^64 (R192). -/
def addressFor (co : Core) (h : Hand) (ins : Insn) (k : Nat) : Nat :=
  (srcA co h ins .u64 k + offsetFor co h ins k) % 2 ^ 64

/-- The accesses of an instruction that acts per enabled thread, in ascending thread order. -/
def threadAccesses (co : Core) (h : Hand) (ins : Insn) : List (Nat × Nat) :=
  (numsWhere 64 (h.enabled ins)).map fun k => (k, addressFor co h ins k)

/-- Whether an instruction enables a thread; one that enables none makes no request (R153). -/
def someEnabled (h : Hand) (ins : Insn) : Bool := (List.range 64).any (h.enabled ins)

/-- The one access of `uld` or `ust`, made for the hand while some thread is enabled (DEDUCED, log entry 11). -/
def handAccess (h : Hand) (ins : Insn) : List (Nat × Nat) :=
  if someEnabled h ins then
    [(0xFF, ((h.u (ins.sra.toNat % 64)).toNat + offsetFor {} h ins 0) % 2 ^ 64)]
  else []

/-- MISALIGN or UNPOP for a list of accesses, naming the lowest failing thread; misalignment of any thread comes first
(R196, R242; DEDUCED, log entry 12). -/
def accessFault (s : State) (size : Nat) (l : List (Nat × Nat)) : Option (Nat × Nat × Nat) :=
  let mis (p : Nat × Nat) : Bool := p.2 % size != 0
  match l.find? fun p => mis p || !s.populated (s.normalise p.2) with
  | none => none
  | some p => some (if l.any mis then 2 else 3, p.1, p.2)

/-! ### Ordering (R298, R300–R303) -/

def orderOf (ins : Insn) : Nat := ins.fn.toNat / 64 % 4
def scopeOf (ins : Insn) : Nat := ins.fn.toNat / 8 % 8
def isRelease (ins : Insn) : Bool := ins.fn.getLsbD 7
def isAcquire (ins : Insn) : Bool := ins.fn.getLsbD 6

/-- Whether an issued instruction makes accesses that a release waits for: all but those of the matrix engine that
touch no memory. -/
def MemOp.isAccess (o : MemOp) : Bool :=
  if o.opc = 0xA0 ∨ o.opc = 0xA2 then !o.insn.fn.getLsbD 3
  else o.opc != 0xA1 && o.opc != 0xA3 && o.opc != 0xA4

/-- Whether an issued instruction is a load or atomic with acquire that has not completed. -/
def MemOp.acquires (o : MemOp) : Bool :=
  (o.opc == 0x80 || o.opc == 0x82 || decide (0x88 ≤ o.opc ∧ o.opc ≤ 0x8F)) && isAcquire o.insn

/-- Whether the hand may make an access: no acquire of it is outstanding (R300). -/
def mayAccess (h : Hand) : Bool := !h.ops.any (·.acquires)

/-- Whether everything that a release at a scope waits for is performed: the hand's own accesses, and from tile scope
up the assembly buffers of its cluster (R300, R303, R425). -/
def released (s : State) (c : Nat) (h : Hand) (scope : Nat) : Bool :=
  let cl := s.clu (clusterOf c)
  !h.ops.any (·.isAccess) && (decide (scope < 3) ||
    (cl.asm.isEmpty && !cl.reqs.any fun r => r.2.kind == .stWr && r.2.waiters.isEmpty && !r.2.quar))

/-- What a waiting release sets going: the flush of the assembly buffers. -/
def releasePrep (c scope : Nat) (s : State) : State := if scope < 3 then s else s.flushAllAsm (clusterOf c)

/-- Whether a line lies in a range of bytes, where one is given. -/
def lineIn (range : Option (Nat × Nat)) (first n : Nat) : Bool :=
  match range with
  | none => true
  | some (lo, len) => decide (128 * first < lo + len) && decide (lo < 128 * (first + n))

/-- The Staged lines of a cache that overlap a range. -/
def stagedIn (m : NMap CLine) (range : Option (Nat × Nat)) : List Nat :=
  (m.filter fun x => x.2.st == .v && lineIn range x.2.line 1).map fun x => x.2.line

/-- The invalidation of an acquire at a scope (R303, R304): Staged lines of the core's L1 from cluster scope up, and of
its cluster cache from tile scope up; Staged fills that are outstanding allocate nowhere. -/
def invalidateStaged (s : State) (core scope : Nat) (range : Option (Nat × Nat)) : State :=
  if scope < 2 then s else
  let c := clusterOf core
  let s := foldState (fun s l => s.dropL1 core l) (stagedIn (s.core core).l1 range) s
  let s := s.stopFills c fun _ r =>
    let u := unitLines r.cmode r.line
    lineIn range u.1 u.2
  if scope < 3 then s else foldState (fun s l => s.dropCc c l) (stagedIn (s.clu c).cc range) s

/-- Empties instruction caches of the lines in a range, and the fetch buffers of their hands (R304). -/
def invalidateIc (s : State) (core scope : Nat) (range : Option (Nat × Nat)) : State :=
  let cores := if scope < 2 then [core]
    else if scope = 2 then (List.range 4).map (4 * clusterOf core + ·)
    else s.cores.map (·.1)
  foldState (fun s c => s.onCore c fun co =>
    { co with ic := co.ic.filter fun x => !lineIn range x.2.line 1,
              slots := co.slots.map fun x => (x.1, { x.2 with fetchBuf := [] }) }) cores s

/-! ### Watchpoints (R260) -/

/-- The lowest thread whose access overlaps watchpoint `m` of a core in a direction that it watches. -/
def watchThread (s : State) (core slot m : Nat) (rd wr : Bool) (l : List (Nat × Nat × Nat)) : Option (Nat × Nat) :=
  let kind := s.reg .DBG_WP_KIND core m
  let base := s.normalise (s.reg64 .DBG_WP_BASE_LO .DBG_WP_BASE_HI core m)
  let len := 2 ^ s.reg .DBG_WP_LOG2LEN core m
  if (kind.testBit 0 && rd || kind.testBit 1 && wr) && (s.reg .DBG_WP_MASK core m).testBit slot then
    (l.find? fun p => decide (p.2.1 < base + len) && decide (base < p.2.1 + p.2.2)).map fun p => (p.1, p.2.1)
  else none

/-- The debug stop that an instruction's watchpoint matches ask for, joined with a step's. -/
def watchStop (s : State) (core slot : Nat) (rd wr : Bool) (l : List (Nat × Nat × Nat)) (h : Hand) : Option Stop :=
  let hits := (List.range 4).filterMap fun m => (watchThread s core slot m rd wr l).map fun p => (m, p)
  match hits with
  | [] => h.stop
  | (m0, p0) :: rest =>
    let low := rest.foldl (fun (acc : Nat × Nat) x => if x.2.1 < acc.1 then x.2 else acc) p0
    let mask := rest.foldl (fun acc x => acc ||| 2 ^ (8 + x.1)) (2 ^ (8 + m0))
    let old := match h.stop with
      | some (.debug f) => f.code
      | _ => 0
    some (.debug { kind := 0x10, pc := h.pc, resume := h.pc, thread := low.1, addr := low.2, code := old ||| mask,
                   time := s.coreTime })

/-! ### Issue of an access -/

/-- Adds an instruction's accesses to its hand and moves them on. -/
def beginOp (s : State) (i : Issue) (h : Hand) (opc : Nat) (ins : Insn) (rd wr : Bool) (parts : List Part) : State :=
  let c := i.core.val
  let sl := i.slot.val
  if parts.isEmpty then s else
  let o : MemOp := { id := h.nextOp, opc := opc, insn := ins, pc := (atPc h ins).pc,
                     w0 := (wordOfInsn (BitVec.ofNat 8 opc) ins).toNat, parts := parts }
  let stop := watchStop s c sl rd wr (parts.map fun p => (p.thread, p.addr, p.size)) h
  pumpOp (s.setHand c sl { h with ops := h.ops ++ [o], nextOp := h.nextOp + 1, stop := stop }) c sl o.id

/-- The issue of an instruction that accesses memory: `accs` names its accesses, `part` makes each of them. -/
def memIssue (opc : Nat) (i : Issue) (ins : Insn) (names : Names) (legal : Hand → Bool) (size : Nat) (rd wr rel : Bool)
    (accs : Core → Hand → List (Nat × Nat)) (part : Core → Hand → Nat → PartOp) (s : State) : State :=
  let c := i.core.val
  issue s i ins
    { opc := opc, unit := .memory, names := names, legal := legal,
      access := fun s co h => accessFault s size (accs co h),
      ready := fun s co h => mayAccess h && (!rel || released s c h (scopeOf ins))
        && !((accs co h).any fun p => s.winHeld (s.normalise p.2)),
      prep := fun s _ => if rel then releasePrep c (scopeOf ins) s else s,
      body := fun s co h =>
        let hint := if opc < 0x84 then ins.fn.toNat / 256 % 4 else 0
        let parts := (accs co h).map fun p =>
          ({ thread := p.1, addr := s.normalise p.2, size := size, op := part co h p.1, hint := hint } : Part)
        beginOp s i h opc ins rd wr parts }

/-! ### Loads and stores (R191, R193) -/

/-- Whether FUN of a load or store is listed: SIZE up to `maxSize`, SCOPE up to system, HINT up to 2, and no order of
the wrong kind. -/
def accessFnOk (ins : Insn) (maxSize : Nat) (store : Bool) : Bool :=
  decide (ins.fn.toNat % 8 ≤ maxSize) && decide (scopeOf ins ≤ 5) && decide (ins.fn.toNat / 256 % 4 ≠ 3)
    && !(if store then isAcquire ins else isRelease ins)

/-- The rule of `ld` and `st`. -/
def ldRule : OpRule := { types := ty32, d := .vec, a := .opn, b := .opn, c := .no, fnMask := 0x3FF }
/-- The rule of `uld` and `ust`. -/
def uldRule : OpRule := { types := ty32, d := .uni, a := .uni, b := .opn, c := .no, fnMask := 0x3FF }

def execLd (i : Issue) (ins : Insn) (s : State) : Host.Outcome State Fault Refusal :=
  let n := sizeRegs (ins.fn.toNat % 8)
  done (memIssue 0x80 i ins (vecNamesOf ldRule ins n 2 1 1 [])
    (fun h => accessFnOk ins 4 false && ruleOk ldRule h.vregs n 2 1 1 ins)
    (sizeBytes (ins.fn.toNat % 8)) true false false (fun co h => threadAccesses co h ins) (fun _ _ _ => .load) s)

/-- The bytes that `st` stores for a thread: its registers from DST up, low word first. -/
def storeData (co : Core) (h : Hand) (ins : Insn) (k : Nat) : List Byte :=
  let size := ins.fn.toNat % 8
  let v := (List.range (sizeRegs size)).foldl
    (fun acc j => acc + (co.v h (ins.dst.toNat + j) k).toNat * 2 ^ (32 * j)) 0
  leBytes (sizeBytes size) v

def execSt (i : Issue) (ins : Insn) (s : State) : Host.Outcome State Fault Refusal :=
  let n := sizeRegs (ins.fn.toNat % 8)
  done (memIssue 0x81 i ins { vecNamesOf ldRule ins n 2 1 1 [] with wv := [] }
    (fun h => accessFnOk ins 4 true && ruleOk ldRule h.vregs n 2 1 1 ins)
    (sizeBytes (ins.fn.toNat % 8)) false true (isRelease ins) (fun co h => threadAccesses co h ins)
    (fun co h k => .store (storeData co h ins k)) s)

/-- Whether the offset of an access made once for the hand is not a vector (R151). -/
def scalarOffset (ins : Insn) : Bool := ins.ub || ins.imb || ins.lng

def execUld (i : Issue) (ins : Insn) (s : State) : Host.Outcome State Fault Refusal :=
  done (memIssue 0x82 i ins (vecNamesOf uldRule ins 1 1 1 1 [])
    (fun h => accessFnOk ins 3 false && scalarOffset ins && ruleOk uldRule h.vregs 1 1 1 1 ins)
    (sizeBytes (ins.fn.toNat % 8)) true false false (fun _ h => handAccess h ins) (fun _ _ _ => .load) s)

def execUst (i : Issue) (ins : Insn) (s : State) : Host.Outcome State Fault Refusal :=
  let size := ins.fn.toNat % 8
  done (memIssue 0x83 i ins (vecNamesOf uldRule ins 1 1 1 1 [])
    (fun h => accessFnOk ins 3 true && scalarOffset ins && ruleOk uldRule h.vregs 1 1 1 1 ins)
    (sizeBytes size) false true (isRelease ins) (fun _ h => handAccess h ins)
    (fun _ h _ => .store (leBytes (sizeBytes size) (h.u (ins.dst.toNat % 64)).toNat)) s)

/-! ### fence and inv (R195, R302–R304) -/

/-- What the issue of `fence` asks, and its effect. -/
def fenceSpec (i : Issue) (ins : Insn) : IssueSpec :=
  let c := i.core.val
  let scope := scopeOf ins
  { opc := 0x84, unit := .memory, names := { p := [ins.prd.toNat] },
      legal := fun _ => ins.typ == 0 && fnWithin ins 0xF8 && decide (scope ≤ 5) && decide (orderOf ins ≠ 0)
        && ins.dst == 0 && noSources ins && !ins.lng,
      ready := fun s _ h => released s c h (if isRelease ins then scope else 0),
      prep := fun s _ => if isRelease ins then releasePrep c scope s else s,
      body := fun s _ h => if isAcquire ins && someEnabled h ins then invalidateStaged s c scope none else s }

/-- fence: waits for every access the hand has made, then does the Staged duties of its release and acquire. -/
def execFence (i : Issue) (ins : Insn) (s : State) : Host.Outcome State Fault Refusal :=
  done (issue s i ins (fenceSpec i ins))

/-- What the issue of `inv` asks, and its effect. -/
def invInsnSpec (i : Issue) (ins : Insn) : IssueSpec :=
  let c := i.core.val
  let scope := scopeOf ins
  let ranged := ins.fn.getLsbD 10
  { opc := 0x85, unit := .memory,
      names := { p := [ins.prd.toNat], u := if ranged then [ins.sra.toNat % 64, ins.srb.toNat % 64] else [] },
      legal := fun _ => ins.typ == 0 && fnWithin ins 0x638 && decide (scope ≤ 5) && ins.dst == 0 && !ins.lng
        && (if ranged then decide (ins.sra.toNat < 64) && decide (ins.srb.toNat < 64)
              && noSources { ins with sra := 0, srb := 0 }
            else noSources ins),
      body := fun s _ h =>
        let range := if ranged then some (s.normalise (h.u ins.sra.toNat).toNat, (h.u ins.srb.toNat).toNat) else none
        if !someEnabled h ins then s else
        let s := invalidateStaged s c scope range
        if ins.fn.getLsbD 9 then invalidateIc s c scope range else s }

/-- inv: the invalidation of an acquire, without ordering; with ICACHE also of instruction caches (R304). -/
def execInvInsn (i : Issue) (ins : Insn) (s : State) : Host.Outcome State Fault Refusal :=
  done (issue s i ins (invInsnSpec i ins))

/-! ### Atomics (R194) -/

/-- The rule of an atomic that accepts some types. -/
def amoRule (types : List Nat) : OpRule :=
  { types := types, d := .vec, a := .opn, b := .opn, c := .opn, fnMask := 0xF8 }

/-- An atomic on memory: each enabled thread in ascending order (R197). -/
def amo (opc : Nat) (op : AmoOp) (types : List Nat) (i : Issue) (ins : Insn) (s : State) : State :=
  let n := footprint ins.typ.toNat
  let t := insnTy ins
  let cas := op == .cas
  let r := amoRule types
  let base := vecNamesOf r ins n 2 1 (if cas then 2 * n else n) []
  let names := if cas && ins.uc then { base with u := (ins.src.toNat + 1) % 64 :: base.u } else base
  memIssue opc i ins names
    (fun h => ruleOk r h.vregs n 2 1 n ins && !ins.imb && decide (scopeOf ins ≤ 5)
      && (!cas || (if ins.uc then decide (ins.src.toNat < 63) else decide (ins.src.toNat + 2 * n ≤ h.vregs))))
    (t.width / 8) true true (isRelease ins) (fun co h => threadAccesses co h ins)
    (fun co h k =>
      let new := if !cas then 0
        else if ins.uc then h.uTy t (ins.src.toNat + 1) else co.vTy h t (ins.src.toNat + n) k
      .amo op ins.typ.toNat (srcC co h ins t k) new) s

/-- The types of atomics that accept F32, and of the others. -/
def tyAmoF : List Nat := [0, 1, 2, 3, 4]

def execAtomAdd (i : Issue) (ins : Insn) (s : State) : Host.Outcome State Fault Refusal :=
  done (amo 0x88 .add tyAmoF i ins s)
def execAtomMin (i : Issue) (ins : Insn) (s : State) : Host.Outcome State Fault Refusal :=
  done (amo 0x89 .min tyAmoF i ins s)
def execAtomMax (i : Issue) (ins : Insn) (s : State) : Host.Outcome State Fault Refusal :=
  done (amo 0x8A .max tyAmoF i ins s)
def execAtomAnd (i : Issue) (ins : Insn) (s : State) : Host.Outcome State Fault Refusal :=
  done (amo 0x8B .and tyInt i ins s)
def execAtomOr (i : Issue) (ins : Insn) (s : State) : Host.Outcome State Fault Refusal :=
  done (amo 0x8C .or tyInt i ins s)
def execAtomXor (i : Issue) (ins : Insn) (s : State) : Host.Outcome State Fault Refusal :=
  done (amo 0x8D .xor tyInt i ins s)
def execAtomXchg (i : Issue) (ins : Insn) (s : State) : Host.Outcome State Fault Refusal :=
  done (amo 0x8E .xchg tyAmoF i ins s)
def execAtomCas (i : Issue) (ins : Insn) (s : State) : Host.Outcome State Fault Refusal :=
  done (amo 0x8F .cas tyInt i ins s)

/-! ### Completion (R155, R198, R237, R241) -/

/-- The fault that a poisoned load leaves for the hand's next boundary. -/
def poisonFault (s : State) (o : MemOp) (thread addr : Nat) : FaultRec :=
  { kind := 6, pc := o.pc, resume := o.pc, thread := thread, addr := addr / 32 * 32, time := s.coreTime, insn := o.w0 }

/-- Sets poison-seen, and the trap's pending fault where the context enables it and none is pending (R155, R241). -/
def Hand.seePoison (h : Hand) (s : State) (o : MemOp) (thread addr : Nat) : Hand :=
  let trap := s.isSet .CTX_POISON_TRAP_EN && h.poison.isNone
  { h with flags := h.flags ||| 0x20, poison := if trap then some (poisonFault s o thread addr) else h.poison }

/-- The value that an access gives its thread: zero, or the canonical quiet NaN for F32, where it is poisoned (R155). -/
def loadValue (o : MemOp) (r : PartRes) : Nat :=
  let typ := o.insn.typ.toNat
  let size := o.insn.fn.toNat % 8
  if r.gran ≠ .good then (if typ = 2 then 0x7FC00000 else 0)
  else if o.opc < 0x84 ∧ typ = 1 ∧ size < 2 then sext64 (8 * sizeBytes size) (leNat r.bytes)
  else leNat r.bytes

/-- The result of an operation's access by its index. -/
def MemOp.part (o : MemOp) (n : Nat) : PartRes := NMap.get okRes o.res n

/-- Writes what a completed load or atomic returned into its registers. -/
def finishAccess (s : State) (c slot : Nat) (h : Hand) (o : MemOp) : State :=
  let poisoned := o.parts.zipIdx.find? fun p => (o.part p.2).gran != .good
  let h := match poisoned with
    | some (p, _) => h.seePoison s o p.thread p.addr
    | none => h
  if o.opc = 0x82 then
    s.setHand c slot (h.setU (o.insn.dst.toNat % 64) (BitVec.ofNat 64 (loadValue o (o.part 0))))
  else
    let n := if o.opc = 0x80 then sizeRegs (o.insn.fn.toNat % 8) else footprint o.insn.typ.toNat
    let value (k : Nat) : Option Nat :=
      (o.parts.zipIdx.find? fun p => p.1.thread == k).map fun p => loadValue o (o.part p.2)
    let co := (List.range n).foldl (fun co j =>
      Core.setV co h (o.insn.dst.toNat + j) fun k => (value k).map fun v => BitVec.ofNat 32 (v / 2 ^ (32 * j))) (s.core c)
    (s.setCore c co).setHand c slot h

/-- Whether an opcode is a load or an atomic: it returns values. -/
def isLoad (opc : Nat) : Bool := opc == 0x80 || opc == 0x82 || decide (0x88 ≤ opc ∧ opc ≤ 0x8F)

/-- A load, store or atomic completes once each of its accesses has been answered (R198).  Data that returns for a
removed hand is discarded (R247). -/
def completeAccess (s : State) (c slot op : Nat) : State :=
  match s.hand c slot with
  | none => s
  | some h => match h.ops.find? fun o => o.id == op with
    | none => s
    | some o =>
      if !o.answered then s else
      let h := { h with ops := h.ops.filter fun o => o.id != op }
      let s := if isLoad o.opc && !h.removed then finishAccess s c slot h o else s.setHand c slot h
      let s := if o.acquires then invalidateStaged s c (scopeOf o.insn) none else s
      settle (pumpHand s c slot) c slot

/-- The poison trap: a POISON fault at the hand's next instruction boundary (R239, R241). -/
def execPoisonTrap (x : HandId) (s : State) : Host.Outcome State Fault Refusal :=
  done (if !s.clocked (clusterOf x.core) then s else
    match s.hand x.core x.slot with
    | none => s
    | some h => match h.poison with
      | none => s
      | some f => if h.canIssue then raiseFault s x.core x.slot h { f with resume := h.pc } else s)

/-! ### Instruction fetch (R189, R285, R314) -/

/-- Puts a fetched line where the hand reads it; it keeps the lines of its program counter and of the word after. -/
def Hand.bufferLine (h : Hand) (s : State) (line : Nat) (d : LineData) : Hand :=
  let l0 := lineOf (s.normalise h.pc.toNat)
  let l1 := lineOf (s.normalise (h.pc.toNat + 8))
  let keep := h.fetchBuf.filter fun x => x.1 != line && (x.1 == l0 || x.1 == l1)
  { h with fetchBuf := keep ++ [(line, d)] }

/-- Delivers the line of an Uncached or Host fetch, or of one that failed, to the hand that waits for it. -/
def deliverFetch (s : State) (c slot line : Nat) (d : LineData) : State :=
  match s.hand c slot with
  | none => s
  | some h => s.setHand c slot (h.bufferLine s line d)

/-- The first address at which the hand has still to fetch a word: its program counter, or W1 of a long instruction. -/
def fetchNeed (s : State) (co : Core) (h : Hand) : Option DWord :=
  match fetchWord s co h h.pc.toNat with
  | none => some h.pc
  | some w =>
    if w.getLsbD 19 && (fetchWord s co h (h.pc.toNat + 8)).isNone then some (h.pc + 8) else none

/-- Whether a fetch of a line for a hand is under way. -/
def fetching (s : State) (c slot line : Nat) : Bool :=
  ((s.clu (clusterOf c)).reqs.any fun r => r.2.use == .fetch c slot && r.2.line == line && !r.2.quar)
    || s.host.reqs.any fun r => r.2.use == .fetch c slot

/-- A line that a failed fetch delivers: poison, so that its words are zero (R285). -/
def poisonLine : LineData := ⟨List.replicate 128 0, List.replicate 4 .poison⟩

/-- Fetches a line from the cluster cache, its home or the host. -/
def fetchLine (s : State) (c slot line : Nat) : State :=
  let cl := clusterOf c
  let a := 128 * line
  match s.memTy a with
  | .host =>
    if !s.hostEn then deliverFetch (s.count .HIF_CPL_TO_CNT) c slot line poisonLine
    else (s.hostReq (.fetch c slot) fun t => .read t (offsetOf a) 128).getD s
  | .uncached =>
    s.sendReq cl { s.mkReq .ncRd line (.fetch c slot) [] with
      part := some { thread := 0xFF, addr := a, size := 128, op := .load } }
  | _ =>
    match (s.clu cl).find line with
    | some (key, x) =>
      let s := (s.setCc cl key { x with pfUnused := false }).touchCc cl key false
      (s.fillIc c line x.data).prefetchL1 c line 0 true
    | none =>
      if s.modeAt a = 1 ∧ (s.clu cl).hasAsm (blockOf a) then s.flushAsm cl (blockOf a)
      else if s.modeAt a = 1 ∧ (s.clu cl).flushing (blockOf a) then s
      else
        let before := (s.readFor cl line).isSome
        let s := s.missRead c line 0 (.fetch c slot) []
        if before || (s.readFor cl line).isNone then s else s.prefetchL1 c line 0 true

/-- Fetches the next line that a hand at an instruction boundary needs; a hand whose words are all there is ready. -/
def execInstructionFetch (x : HandId) (s : State) : Host.Outcome State Fault Refusal :=
  let c := x.core.val
  let sl := x.slot.val
  done (if !s.clocked (clusterOf c) || (s.core c).icinit || (s.clu (clusterOf c)).ccinit then s else
    match s.hand c sl with
    | none => s
    | some h =>
      if !h.canIssue then s else
      match fetchNeed s (s.core c) h with
      | none => if h.st = .waiting .fetch then s.setHand c sl { h with st := .ready } else s
      | some a =>
        let n := s.normalise a.toNat
        if !s.populated n then
          raiseFault s c sl h { kind := 3, pc := a, resume := a, time := s.coreTime }
        else if fetching s c sl (lineOf n) || s.winHeld n then s.setHand c sl { h with st := .waiting .fetch }
        else fetchLine (s.setHand c sl { h with st := .waiting .fetch }) c sl (lineOf n))

end Sys2Proof.Machine
end

