-- ==== Sys2Proof/Machine/Agent.lean ====
section
/-!
DEFINITION. The agents: completions that reach a requester, snoops that reach a cluster, request timeouts, and leaving
coherence (R295, R318, R319, R323–R325, R333, R335, R342–R344, R347, R397, R423, R425, R488, R530).
-/
namespace Sys2Proof.Machine

/-! ### Answers to waiting accesses -/

/-- The access that a waiter stands for. -/
def State.partOfWaiter (s : State) (w : Waiter) : Option Part :=
  match s.hand w.core w.slot with
  | none => none
  | some h => match h.ops.find? fun o => o.id == w.op with
    | none => none
    | some o => o.parts[w.part]?

/-- Completes an access with poison; a store has no result (R285, R344). -/
def failWaiter (s : State) (w : Waiter) : State :=
  match s.partOfWaiter w with
  | none => s
  | some p => match p.op with
    | .store _ => s.setRes w okRes
    | .signal _ _ => s.setRes w okRes
    | _ => s.setRes w (poisonRes p.size)

/-- Frees a request tag. -/
def State.endReq (s : State) (c tag : Nat) : State := s.onClu c fun cl => { cl with reqs := NMap.erase cl.reqs tag }

/-- What waits for a request receives poison (R285, R319, R344). -/
def failUse (s : State) (r : Req) : State :=
  let s := foldState failWaiter r.waiters s
  match r.use with
  | .fetch core slot => deliverFetch s core slot r.line poisonLine
  | _ => s

/-! ### BAR2 (R530) -/

/-- Records the answer to one piece of a BAR2 request and completes the request with its last piece. -/
def State.barAnswer (s : State) (tag : Nat) (r : PartRes) (ok : Bool) : State :=
  let id := tag / 128
  match NMap.find? s.host.bar id with
  | none => s
  | some b =>
    let b := { b with res := NMap.insert b.res (tag % 128) (r, ok) }
    if b.res.length < b.total then { s with host := { s.host with bar := NMap.insert s.host.bar id b } } else
    let s := { s with host := { s.host with bar := NMap.erase s.host.bar id } }
    let bad := b.res.any fun x => !x.2.2 || (!b.write && x.2.1.gran != .good)
    let s := if bad then s.count .HIF_BAR2_ERR_CNT else s
    if b.write then s else
    let data := b.res.flatMap fun x => x.2.1.bytes
    let out := HostMsg.completion (if bad then data.map fun _ => 0 else data) bad
    { s with host := { s.host with out := s.host.out ++ [out] } }

/-! ### Requests of the CP, the codecs and the packer -/

/-- A write or signal of a non-caching requester has been acknowledged, or has failed: the asynchronous command it
belongs to then completes with DATA_ERROR (R572, R588).  An answer to a tag that nothing holds is discarded. -/
def State.endPost (s : State) (unit tag : Nat) (ok : Bool) : State :=
  match NMap.find? s.posted tag with
  | none => s
  | some p =>
    if p.unit ≠ unit ∨ p.quar then s else
    let s := { s with posted := NMap.erase s.posted tag }
    match p.use with
    | .write (some a) =>
      if ok then s else
      let asyncs := s.cp.asyncs.map fun x => (x.1, if x.1 = a ∧ x.2.status = 0 then { x.2 with status := 4 } else x.2)
      { s with cp := { s.cp with asyncs := asyncs } }
    | _ => s

/-- A failed read of the doorbell or acknowledgement word is no observation: it is counted, and RING_ERROR with cause
6 is posted at most once per 1 ms (R551). -/
def State.pollFailed (s : State) (which : Nat) : State :=
  let s := s.count .CTX_DB_ERR_CNT
  let quiet := match s.host.lastRead with
    | some t => decide (s.time.bnd < t + ticksOfUs 1000)
    | none => false
  if quiet then s else
  let s := s.ringError 6 which
  { s with host := { s.host with lastRead := some s.time.bnd } }

/-- A read of the CP has completed, with poison (`none`) or with its value; a doorbell read starts the next interval
(R541, R551, R574). -/
def State.cpGot (s : State) (r : CpRead) (v : Option Nat) : State :=
  let keep (s : State) : State := { s with cp := { s.cp with got := s.cp.got ++ [(r, v)] } }
  match r with
  | .doorbell =>
    let s := { s with cp := { s.cp with nextPoll := s.time.bnd + ticksOfNs s.effPollNs } }
    if v.isNone then s.pollFailed 0 else keep s
  | .ack => if v.isNone then s.pollFailed 1 else keep s
  | .watch _ => keep s

/-- A request of the CP has been answered. -/
def State.endRead (s : State) (unit tag : Nat) (res : Option PartRes) : State :=
  match NMap.find? s.posted tag with
  | none => s
  | some p =>
    if p.unit ≠ unit ∨ p.quar then s else
    let s := { s with posted := NMap.erase s.posted tag }
    match p.use with
    | .read r => s.cpGot r (res.bind fun x => if x.gran = .good then some (leNat x.bytes) else none)
    | _ => s

/-! ### Purge and REJOIN (R342) -/

/-- Drops, without writeback, every line of a cluster whose home is on a tile, counting each. -/
def purgeCluster (s : State) (tile : Option Nat) (c : Nat) : State :=
  let lines := ((s.clu c).cc.filter fun x => (s.homeOf x.2.line).tile == tile).map fun x => x.2.line
  foldState (fun s l => (s.dropCc c l).count .CLU_DEAD_DROP_CNT c) lines s

/-- The first DEAD completion from a home tile: its lines are purged, and one REJOIN is sent to it.  At this tile, an
entry that names one cluster concerns that cluster alone. -/
def deadPurge (s : State) (tile : Option Nat) (c : Nat) : State :=
  let whole := tile.isSome || s.dead.any fun d => d.all && d.agent.tile.isNone
  let who := if whole then 64 else c
  if s.rejoin.contains (tile, who) then s else
  let s := { s with rejoin := s.rejoin ++ [(tile, who)] }
  let s := if whole then foldState (fun s c => purgeCluster s tile c) (List.range 64) s else purgeCluster s tile c
  s.sendTo tile { kind := .rejoin, agent := ⟨none, who⟩, home := ⟨tile, 0⟩, line := 0, tag := 4095 }

/-! ### Completions -/

/-- Sends a line back to its home that may not be kept: with its data when it may be dirty (R319, R347). -/
def giveBack (s : State) (c : Nat) (x : CLine) : State :=
  let s := s.onClu c fun cl => { cl with wbuf := cl.wbuf ++ [x] }
  let kind := if x.st = .e then MsgKind.ce else .wb
  s.sendReq c (s.mkReq kind x.line .demand []) (if x.st = .e then none else some x.data)

/-- The state that a grant gives a line. -/
def grantState : Grant → CState
  | .e => .e
  | .m => .m
  | .staged => .v
  | _ => .s

/-- Fills the L1 or instruction cache that asked for a line through the cluster cache. -/
def fillUser (s : State) (r : Req) (line : Nat) (st : CState) (d : LineData) : State :=
  match r.use with
  | .fetch core _ => s.fillIc core line d
  | .prefetch (some (core, true)) => s.fillIc core line d
  | .prefetch (some (core, false)) => s.fillL1 core line st d (r.hint == 1)
  | _ => s

def ReqUse.isPrefetch : ReqUse → Bool
  | .prefetch _ => true
  | _ => false

/-- A Coherent line arrives in its granted state (R325, R335); nothing where no way of its set can be freed. -/
def fillCoherent (s : State) (c tag : Nat) (r : Req) (g : Grant) (d : LineData) : Option State :=
  let st := grantState g
  let pre := r.use.isPrefetch
  let x : CLine := { line := r.line, st := st, data := d, hold := st != .s, pfUnused := pre }
  let s := s.endReq c tag
  if (pre && d.gran.any (· != .good)) || (s.clu c).leaving then
    some (if st = .s then failUse s r else giveBack (failUse s r) c x)
  else (s.fillCc c x (r.hint == 1)).map fun s => fillUser s r r.line st d

/-- The lines that a Staged answer brings, with their data (R397, R423). -/
def stagedLines (s : State) (m : Msg) (d : LineData) : List (Nat × LineData) × State :=
  let cut (u : Nat × Nat) (all : LineData) : List (Nat × LineData) := (List.range u.2).map fun i =>
    (u.1 + i, ⟨(all.bytes.drop (128 * i)).take 128, (all.gran.drop (4 * i)).take 4⟩)
  match m.cmode with
  | 1 =>
    let r := s.decodeEntropy (s.codecOf (128 * m.line)).2 m.entry d
    (cut (unitLines 1 m.line) r.1, r.2)
  | 2 => (cut (unitLines 2 m.line) (decodeFactored m.entry d), s)
  | _ => ([(m.line, d)], s)

/-- Puts one Staged line into the cluster cache, if it is not there. -/
def fillStaged (c : Nat) (r : Req) (s : State) (x : Nat × LineData) : State :=
  if ((s.clu c).find x.1).isSome then s else
  let l : CLine := { line := x.1, st := .v, data := x.2, pfUnused := r.use.isPrefetch }
  (s.fillCc c l (r.hint == 1)).getD s

/-- A Staged answer arrives: its lines are kept unless an acquire or a write came since, and what waits for it is
served from it (R303, R397, R423). -/
def fillStagedUnit (s : State) (c tag : Nat) (r : Req) (m : Msg) (d : LineData) : State :=
  let p := stagedLines s m d
  let s := p.2.endReq c tag
  let poison := p.1.any fun x => x.2.gran.any (· != .good)
  if r.use.isPrefetch && poison then s else
  let keep := !r.noAlloc && !(s.clu c).leaving
  let first := p.1.filter fun x => x.1 == r.line
  let rest := p.1.filter fun x => x.1 != r.line
  let s := if keep then foldState (fillStaged c r) (first ++ rest) s else s
  let lineData (l : Nat) : LineData := ((p.1.find? fun x => x.1 == l).map (·.2)).getD poisonLine
  let serve (s : State) (w : Waiter) : State := match s.partOfWaiter w with
    | none => s
    | some q =>
      let d := lineData (lineOf q.addr)
      let s := s.setRes w (partOf d (q.addr % 128) q.size)
      if keep && ((s.clu c).find (lineOf q.addr)).isSome then s.fillL1 w.core (lineOf q.addr) .v d (r.hint == 1) else s
  let s := foldState serve r.waiters s
  if keep then fillUser s r r.line .v (lineData r.line)
  else match r.use with
    | .fetch core slot => deliverFetch s core slot r.line (lineData r.line)
    | _ => s

/-- What an Uncached read returned goes to the access or fetch that made it. -/
def deliverUncached (s : State) (r : Req) (m : Msg) : State :=
  let res := m.res.getD (poisonRes 0)
  let s := foldState (fun s w => s.setRes w res) r.waiters s
  match r.use with
  | .fetch core slot => deliverFetch s core slot r.line (m.data.getD poisonLine)
  | _ => s

/-- A message for an agent of this tile that has the right kind and can be received: its cluster's clock runs, or it is
for a non-caching requester while the fabric runs. -/
def agentCan (s : State) (m : Msg) (kindOk : Bool) : Bool :=
  kindOk && m.agent.tile.isNone && receivable m s.mesh && !s.stopped 2
    && (decide (64 ≤ m.agent.unit) || s.clocked m.agent.unit || 3 ≤ s.reg .CRG_GATE_STATE m.agent.unit
        || s.reg .CRG_GATE_STATE m.agent.unit == 0)

/-- Takes a completion for a cluster's tag: discarded and counted where the tag is quarantined or free (R344), and lost
where the cluster has no clock and holds no tag. -/
def onCompletion (s : State) (m : Msg) (f : State → Nat → Req → Option State) : State :=
  let c := m.agent.unit
  match NMap.find? (s.clu c).reqs m.tag with
  | none => (s.takeMsg m).count .CLU_LATE_RSP_CNT c
  | some r =>
    if r.quar then (s.takeMsg m).count .CLU_LATE_RSP_CNT c else
    let s1 := if m.status = .dead then deadPurge (s.takeMsg m) m.home.tile c else s.takeMsg m
    match (if m.status = .ok then f s1 c r else some (failUse (s1.endReq c m.tag) r)) with
    | some s => pumpCluster s c
    | none => s

/-- The answer to one piece of a BAR2 request. -/
def barCompletion (s : State) (m : Msg) : State :=
  (s.takeMsg m).barAnswer m.tag (m.res.getD (poisonRes 0)) (m.status == .ok)

/-- What a DATA answer to a non-caching requester holds: the bytes it asked for, cut out of the lines of a Staged unit
where it is one. -/
def answerRes (s : State) (m : Msg) : Option PartRes :=
  if m.status ≠ .ok then none else
  match m.res, m.data, (NMap.find? s.posted m.tag).bind (·.part) with
  | some r, _, _ => some r
  | none, some d, some p =>
    ((stagedLines s m d).1.find? fun x => x.1 == lineOf p.addr).map fun x => partOf x.2 (p.addr % 128) p.size
  | _, _, _ => none

/-- DATA reaches its requester. -/
def execData (m : Msg) (s : State) : Host.Outcome State Fault Refusal :=
  done (match m.kind with
    | .data g =>
      if !agentCan s m true then s
      else if m.agent.unit = 65 then barCompletion s m
      else if 64 ≤ m.agent.unit then (s.takeMsg m).endRead m.agent.unit m.tag (answerRes s m)
      else onCompletion s m fun s c r =>
        let d := m.data.getD poisonLine
        match r.kind with
        | .stRd => some (fillStagedUnit s c m.tag r m d)
        | .ncRd => some (deliverUncached (s.endReq c m.tag) r m)
        | _ => fillCoherent s c m.tag r g d
    | _ => s)

/-- GRANT reaches its requester: the line it holds in O becomes M, and its win hold starts (R323, R325, R335). -/
def execGrant (m : Msg) (s : State) : Host.Outcome State Fault Refusal :=
  done (if !agentCan s m (m.kind == .grant) then s
    else if 64 ≤ m.agent.unit then s.takeMsg m
    else onCompletion s m fun s c r =>
      let s := s.endReq c m.tag
      match (s.clu c).find r.line with
      | some (key, x) => some (s.setCc c key { x with st := .m, hold := true })
      | none => some s)

/-- Writes back every dirty line and gives back every exclusive one, as far as the writeback buffer has room (R347). -/
def leavePump (s : State) (c : Nat) : State :=
  if !(s.clu c).leaving then s else
  foldState (fun s (x : Nat × CLine) =>
    if x.2.st = .s ∨ x.2.st = .v ∨ !s.canEvict c x.2 then s else s.evict c x.2) (s.clu c).cc (s.flushAllAsm c)

/-- ACK reaches its requester: of a write, a WB or CE, or a REJOIN. -/
def execAck (m : Msg) (s : State) : Host.Outcome State Fault Refusal :=
  done (if !agentCan s m (m.kind == .ack) then s
    else if m.tag = 4095 ∧ m.agent.unit ≠ 65 then
      { s.takeMsg m with rejoin := s.rejoin.filter fun x => x != (m.home.tile, m.agent.unit) }
    else if m.agent.unit = 65 then barCompletion s m
    else if 64 ≤ m.agent.unit then
      (s.takeMsg m).endPost m.agent.unit m.tag (m.status == .ok)
    else onCompletion s m fun s c r =>
      let s := s.endReq c m.tag
      if r.kind = .wb ∨ r.kind = .ce then
        some (leavePump (s.onClu c fun cl => { cl with wbuf := cl.wbuf.filter fun x => x.line != r.line }) c)
      else some (foldState (fun s w => s.setRes w okRes) r.waiters s))

/-- ATOM_RSP reaches its requester with the old value. -/
def execAtomRsp (m : Msg) (s : State) : Host.Outcome State Fault Refusal :=
  done (if !agentCan s m (m.kind == .atomRsp) then s
    else if m.agent.unit = 65 then barCompletion s m
    else if 64 ≤ m.agent.unit then (s.takeMsg m).endPost m.agent.unit m.tag (m.status == .ok)
    else onCompletion s m fun s c r =>
      some (foldState (fun s w => s.setRes w (m.res.getD (poisonRes 0))) r.waiters (s.endReq c m.tag)))

/-! ### Snoops -/

/-- Answers a snoop. -/
def State.snoopReply (s : State) (m : Msg) (r : SnpReply) (d : Option LineData := none) : State :=
  s.sendTo m.home.tile { kind := .snpRsp r, agent := m.agent, home := m.home, line := m.line, tag := m.tag, data := d,
                         mc := m.mc }

/-- A cluster's line as a snoop finds it: in the cluster cache, or in the writeback buffer in its former state (R324). -/
def Cluster.snooped (cl : Cluster) (line : Nat) : Option (CLine × Bool) :=
  match cl.find line with
  | some (_, x) => if x.st = .v then none else some (x, true)
  | none => (cl.wbuf.find? fun x => x.line == line).map fun x => (x, false)

/-- Changes the state of a snooped line, or removes it. -/
def setSnooped (s : State) (c line : Nat) (inCc : Bool) (st : Option CState) : State :=
  if inCc then
    match st with
    | none => s.dropCc c line
    | some st => match (s.clu c).find line with
      | some (key, x) => s.setCc c key { x with st := st }
      | none => s
  else s.onClu c fun cl =>
    { cl with wbuf := cl.wbuf.filterMap fun x => if x.line = line then st.map fun st => { x with st := st } else some x }

/-- What a snoop does to a cluster: the answer with its data, and the state after it (R325).  A SnpX or Inv of a line in
S drops it; an Inv of a line held otherwise leaves it (DESIGN CHOICE, log entry 14). -/
def snoopEffect (s : State) (c : Nat) (kind : MsgKind) (line : Nat) : SnpReply × Option LineData × State :=
  match (s.clu c).snooped line with
  | none => (.notHeld, none, s)
  | some (x, inCc) =>
    let own := x.st != .s
    let r : SnpReply := if x.st = .e then .clean else .dirty
    match kind with
    | .snpS => if own then (r, some x.data, setSnooped s c line inCc (some (if x.st = .e then .s else .o))) else (.notHeld, none, s)
    | .snpX => if own then (r, some x.data, setSnooped s c line inCc none) else (.ack, none, setSnooped s c line inCc none)
    | .snpNc => if own then (r, some x.data, s) else (.notHeld, none, s)
    | _ => if own then (.ack, none, s) else (.ack, none, setSnooped s c line inCc none)

/-- Serves a snoop on a cluster. -/
def serveSnoop (s : State) (c : Nat) (m : Msg) : State :=
  let r := snoopEffect s c m.kind m.line
  r.2.2.snoopReply m r.1 r.2.1

/-- Whether an agent holds a snoop because its own RdS or RdX for the line is outstanding (R488); a request that still
waits at a home of this tile holds nothing (DEDUCED, log entry 15). -/
def holdsForOwn (s : State) (c : Nat) (m : Msg) : Bool :=
  let isRd (k : MsgKind) : Bool := k == .rdS || k == .rdX true || k == .rdX false
  let waiting (x : Msg) : Bool := isRd x.kind && x.agent == m.agent && x.line == m.line
  ((s.clu c).reqs.any fun r => r.2.line == m.line && isRd r.2.kind && !r.2.quar)
    && !(m.home.tile.isNone && (s.mesh.any waiting || (s.home m.home.k).inbound.any waiting))

/-- A snoop reaches the cluster it names (R325, R335, R338, R488). -/
def snoopArrives (m : Msg) (kind : MsgKind) (s : State) : State :=
  let c := m.agent.unit
  if m.kind ≠ kind ∨ m.agent.tile.isSome ∨ 64 ≤ c ∨ m.mc.isSome ∨ !receivable m s.mesh ∨ s.stopped 2 then s
  else match s.reg .CRG_GATE_STATE c with
    | 5 => (s.takeMsg m).snoopReply m .dark
    | 6 => (s.takeMsg m).snoopReply m .dark
    | 1 =>
      if !s.clocked c || holdsForOwn s c m then s else
      let s := s.takeMsg m
      match (s.clu c).find m.line with
      | some (key, x) =>
        if x.hold && kind != .inv then
          (s.setCc c key { x with snoops := x.snoops ++ [m] }).count .CLU_SNP_HELD_CNT c
        else serveSnoop s c m
      | none => serveSnoop s c m
    | 2 => s
    | _ => (s.takeMsg m).snoopReply m .notHeld

def execSnps (m : Msg) (s : State) : Host.Outcome State Fault Refusal := done (snoopArrives m .snpS s)
def execSnpx (m : Msg) (s : State) : Host.Outcome State Fault Refusal := done (snoopArrives m .snpX s)
def execSnpnc (m : Msg) (s : State) : Host.Outcome State Fault Refusal := done (snoopArrives m .snpNc s)
def execInv (m : Msg) (s : State) : Host.Outcome State Fault Refusal := done (snoopArrives m .inv s)

/-- The win hold of a line ends: the snoops that waited are served in arrival order (R335). -/
def execWinHoldEnd (c : Fin 64) (line : Nat) (s : State) : Host.Outcome State Fault Refusal :=
  done (if !s.clocked c then s else match (s.clu c).find line with
    | none => s
    | some (key, x) =>
      if !x.hold then s else
      let s := s.setCc c key { x with hold := false, snoops := [] }
      pumpCluster (leavePump (foldState (fun s m => serveSnoop s c m) x.snoops s) c) c)

/-- A multicast copy reaches this tile (R333, R515): answered from the filter, or by every usable and clocked cluster
together once none of them holds it back. -/
def execMcastSnoop (m : Msg) (s : State) : Host.Outcome State Fault Refusal :=
  done (if m.mc.isNone || m.agent != ⟨none, 64⟩ || (m.kind != .inv && m.kind != .snpX) || !receivable m s.mesh
      || s.stopped 2 || s.filterInit then s
    else if NMap.get 0 s.filter (filterIndex m.line) = 0 then (s.takeMsg m).snoopReply m .notHeld
    else
      let held (c : Nat) : Bool := match (s.clu c).find m.line with
        | some (_, x) => (x.hold && m.kind != .inv) || s.reg .CRG_GATE_STATE c == 2
        | none => false
      let to' := numsWhere 64 s.clocked
      if (List.range 64).any fun c => held c || (s.clocked c && holdsForOwn s c { m with agent := ⟨none, c⟩ }) then s else
      let step (acc : SnpReply × Option LineData × State) (c : Nat) : SnpReply × Option LineData × State :=
        let r := snoopEffect acc.2.2 c m.kind m.line
        match r.1 with
        | .notHeld => (acc.1, acc.2.1, r.2.2)
        | .ack => (if acc.1 = .notHeld then .ack else acc.1, acc.2.1, r.2.2)
        | x => (x, r.2.1, r.2.2)
      let out := foldState step to' (SnpReply.notHeld, none, s.takeMsg m)
      out.2.2.snoopReply m out.1 out.2.1)

/-! ### Timeouts (R344, R425) -/

/-- A request without a completion after CLU_REQ_TIMEOUT_US completes with poison and its tag is quarantined; a
timed-out WB or CE frees its buffer entry. -/
def execReqTimeout (c : Fin 64) (tag : Nat) (s : State) : Host.Outcome State Fault Refusal :=
  done (if !s.clocked c then s else match NMap.find? (s.clu c).reqs tag with
    | none => s
    | some r =>
      if r.quar || decide (s.time.bnd < r.since + ticksOfUs (s.reg .CLU_REQ_TIMEOUT_US c)) then s else
      let s := s.count .CLU_TIMEOUT_CNT c
      let s := s.onClu c fun cl => { cl with
        reqs := NMap.insert cl.reqs tag { r with quar := true, since := s.time.bnd, waiters := [] },
        wbuf := if r.kind = .wb ∨ r.kind = .ce then cl.wbuf.filter fun x => x.line != r.line else cl.wbuf }
      pumpCluster (leavePump (failUse s r) c) c)

/-- A quarantined tag is freed after a further CLU_REQ_TIMEOUT_US. -/
def execTagQuarantineEnd (c : Fin 64) (tag : Nat) (s : State) : Host.Outcome State Fault Refusal :=
  done (if !s.clocked c then s else match NMap.find? (s.clu c).reqs tag with
    | none => s
    | some r =>
      if r.quar && decide (r.since + ticksOfUs (s.reg .CLU_REQ_TIMEOUT_US c) ≤ s.time.bnd) then
        pumpCluster (s.endReq c tag) c
      else s)

/-- An assembly buffer that no store has reached for 10 µs is flushed as a partial write (R425). -/
def execAsmFlushTimeout (c : Fin 64) (block : Nat) (s : State) : Host.Outcome State Fault Refusal :=
  done (if !s.clocked c then s else match (s.clu c).asm.find? fun b => b.block == block with
    | none => s
    | some b => if b.since + ticksOfUs 10 ≤ s.time.bnd then s.flushAsm c block else s)

/-! ### Reset invalidation (R320) -/

/-- Whether a cluster invalidates: its clock runs, or runs during its turn-on from w + 300 (R623). -/
def State.invalidates (s : State) (c : Nat) : Bool :=
  s.clocked c || (s.reg .CRG_GATE_STATE c == 4 && !s.stopped 1
    && decide ((NMap.get {} s.pwr.regs c : RegSt).onAt + 300 ≤ s.time.bnd))

/-- Reset invalidation of a structure completes and what waited for it proceeds. -/
def execCacheInitDone (u : CacheUnit) (s : State) : Host.Outcome State Fault Refusal :=
  done <| if !s.booted then s else match u with
  | .l1 c => if s.invalidates (clusterOf c) then pumpCluster (s.onCore c fun co => { co with l1init := false }) (clusterOf c) else s
  | .ic c => if s.invalidates (clusterOf c) then s.onCore c fun co => { co with icinit := false } else s
  | .cc c => if s.invalidates c then pumpCluster (s.onClu c fun cl => { cl with ccinit := false }) c else s
  | .dir k => if s.stopped 2 then s else s.onHome k fun hs => { hs with dirinit := false }
  | .lmap k => if s.stopped 2 then s else s.onHome k fun hs => { hs with lmapinit := false }
  | .filter => if s.stopped 2 then s else { s with filterInit := false }

end Sys2Proof.Machine
end

