-- ==== Sys2Proof/Machine/Flit.lean ====
section
/-!
DEFINITION. Flits and packets: the check word, the packet header, and how the messages of coherence travel as packets
(R474–R484, R489).
-/
namespace Sys2Proof.Machine

/-! ### Flits (R474–R477) -/

/-- The 64 bytes of a flit: its body and CHECK (R475). -/
def flitBytes (f : Flit) : List Byte :=
  f.body ++ leBytes 4 (crc32 f.body ^^^ (if f.lead then 0 else 0x3C9669C3))

/-- What 64 received bytes are: a lead flit, a data flit, or nothing where the flit is bad (R475, R476); `ok` is false
for a flit of a codeword that could not be corrected. -/
def classifyFlit (ok : Bool) (bs : List Byte) : Option Flit :=
  let body := bs.take 60
  let c := crc32 body
  let check := leNat ((bs.drop 60).take 4)
  if !ok || bs.length != 64 then none
  else if check = c then
    let b0 := (body.headD 0).toNat
    let fk := b0 % 4
    if fk = 3 ∨ b0.testBit 7 ∨ (fk = 0 ∧ body.any (· != 0)) then none else some ⟨true, body⟩
  else if check = c ^^^ 0x3C9669C3 then some ⟨false, body⟩
  else none

/-- A body of 60 bytes from fields at offsets. -/
def body60 (fields : List (Nat × List Byte)) : List Byte :=
  foldState (fun acc p => acc.take p.1 ++ p.2 ++ acc.drop (p.1 + p.2.length)) fields (List.replicate 60 0)

/-- A field of a body. -/
def field (b : List Byte) (at' n : Nat) : Nat := leNat ((b.drop at').take n)

/-- The kind of a lead flit: 0 idle, 1 packet, 2 control. -/
def flitKind (b : List Byte) : Nat := field b 0 1 % 4

/-! ### Packets (R477, R479) -/

/-- The header of a packet. -/
structure Hdr where
  fk : Nat := 1
  vc : Nat := 0
  esc : Bool := false
  gen : Nat := 0
  mc : Bool := false
  op : Nat := 0
  dlen : Nat := 0
  dst : Nat := 0
  src : Nat := 0
  rq : Nat := 0
  addr : Nat := 0
  attr : Nat := 0
  gstate : Nat := 0
  status : Nat := 0
  comp : Nat := 0
  part : Nat := 0
  plast : Nat := 0
  hops : Nat := 0
  aux : Nat := 0
deriving DecidableEq, Repr

/-- The first 28 body bytes. -/
def Hdr.bytes (h : Hdr) : List Byte :=
  leBytes 1 (h.fk + 4 * h.vc + 16 * bit h.esc + 32 * h.gen + 64 * bit h.mc) ++ leBytes 1 h.op ++ leBytes 2 h.dlen
    ++ leBytes 2 h.dst ++ leBytes 2 h.src ++ leBytes 4 h.rq ++ leBytes 6 h.addr ++ leBytes 2 h.attr ++ leBytes 2 h.gstate
    ++ leBytes 1 h.status ++ leBytes 1 h.comp ++ leBytes 1 h.part ++ leBytes 1 h.plast ++ leBytes 1 h.hops ++ leBytes 1 h.aux

/-- The header that a body holds. -/
def hdrOf (b : List Byte) : Hdr :=
  let f := field b 0 1
  { fk := f % 4, vc := f / 4 % 4, esc := f.testBit 4, gen := f / 32 % 2, mc := f.testBit 6, op := field b 1 1,
    dlen := field b 2 2 % 512, dst := field b 4 2, src := field b 6 2, rq := field b 8 4, addr := field b 12 6,
    attr := field b 18 2, gstate := field b 20 2, status := field b 22 1, comp := field b 23 1, part := field b 24 1,
    plast := field b 25 1, hops := field b 26 1, aux := field b 27 1 }

/-- The data flits that a packet of `dlen` bytes has. -/
def dataFlits (dlen : Nat) : Nat := if dlen ≤ 32 then 0 else (dlen - 32 + 59) / 60

/-- Bytes filled up with zeros to a length. -/
def padTo (n : Nat) (bs : List Byte) : List Byte := bs ++ List.replicate (n - bs.length) 0

/-- The flits of a packet. -/
def packetFlits (h : Hdr) (data : List Byte) : List Flit :=
  ⟨true, h.bytes ++ padTo 32 (data.take 32)⟩ ::
    (List.range (dataFlits data.length)).map fun m => ⟨false, padTo 60 ((data.drop (32 + 60 * m)).take 60)⟩

/-- The data of a packet. -/
def packetData : List Flit → List Byte
  | [] => []
  | f :: t => ((f.body.drop 28 ++ t.flatMap (·.body)).take (hdrOf f.body).dlen)

/-- The receive sub-channel of a packet (R491). -/
def subOf (vc : Nat) (esc : Bool) : Nat := if vc = 3 then 6 else 2 * vc + bit esc

/-! ### Messages as packets (R480–R482) -/

/-- CLASS and UNIT of a requester. -/
def classOf (u : Nat) : Nat × Nat := if u < 64 then (0, u) else if u = 65 then (2, 0) else if u = 66 then (3, 0) else (1, 0)

/-- RQ. -/
def rqOf (cls unit tag : Nat) : Nat := tag % 8192 + 2 ^ 13 * (unit % 64) + 2 ^ 19 * cls

/-- The unit that RQ names. -/
def unitOfRq (rq : Nat) : Nat := match rq / 2 ^ 19 % 8 with
  | 0 => rq / 2 ^ 13 % 64
  | 2 => 65
  | 3 => 66
  | _ => 64

/-- The operation code of a message. -/
def opOf : MsgKind → Nat
  | .rdS => 0x01
  | .rdX _ => 0x02
  | .ncRd => 0x03
  | .ncWr => 0x04
  | .ncAtom => 0x05
  | .stRd => 0x06
  | .stWr => 0x07
  | .rejoin => 0x08
  | .data _ => 0x20
  | .grant => 0x21
  | .ack => 0x22
  | .atomRsp => 0x23
  | .snpRsp _ => 0x24
  | .wb => 0x25
  | .ce => 0x26
  | .snpS => 0x40
  | .snpX => 0x41
  | .snpNc => 0x42
  | .inv => 0x43

/-- The virtual channel of an operation. -/
def vcOf (op : Nat) : Nat := if op < 0x20 then 0 else if op < 0x40 then 1 else 2

/-- Whether an operation code is one of R482. -/
def opKnown (op : Nat) : Bool :=
  (decide (1 ≤ op) && decide (op ≤ 8)) || (decide (0x20 ≤ op) && decide (op ≤ 0x26)) || (decide (0x40 ≤ op) && decide (op ≤ 0x43))

/-- Whether a message is a snoop. -/
def isSnoop (k : MsgKind) : Bool := decide (0x40 ≤ opOf k)

/-- Whether a message is a request of an agent. -/
def isRequest (k : MsgKind) : Bool := decide (opOf k ≤ 8) || k == .wb || k == .ce

def granCode : GState → Nat
  | .good => 0
  | .poison => 1
  | .lost => 2

def granOf : Nat → GState
  | 0 => .good
  | 2 => .lost
  | _ => .poison

/-- GSTATE of granules in turn (R481). -/
def gstateOf : List GState → Nat
  | [] => 0
  | g :: t => granCode g + 4 * gstateOf t

/-- The granule states that GSTATE gives `n` granules. -/
def gransOf (n g : Nat) : List GState := (List.range n).map fun i => granOf (g / 4 ^ i % 4)

def statusCode : Status → Nat
  | .ok => 0
  | .poison => 1
  | .dead => 2
  | .noRoute => 3

def statusOf : Nat → Status
  | 0 => .ok
  | 2 => .dead
  | 3 => .noRoute
  | _ => .poison

def aopCode : AmoOp → Nat
  | .add => 0
  | .min => 1
  | .max => 2
  | .and => 3
  | .or => 4
  | .xor => 5
  | .xchg => 6
  | .cas => 7

def aopOf : Nat → AmoOp
  | 0 => .add
  | 1 => .min
  | 2 => .max
  | 3 => .and
  | 4 => .or
  | 5 => .xor
  | 6 => .xchg
  | _ => .cas

/-- Cuts data and its granule states into parts of 256 bytes (R489). -/
def parts256 : Nat → List Byte → List GState → List (List Byte × List GState)
  | 0, _, _ => []
  | fuel + 1, bs, gs =>
    if bs.length ≤ 256 then [(bs, gs)] else (bs.take 256, gs.take 8) :: parts256 fuel (bs.drop 256) (gs.drop 8)

/-- The header that every packet of a message shares. -/
def State.baseHdr (s : State) (dst : Nat) (m : Msg) : Hdr :=
  let op := opOf m.kind
  let snoop := isSnoop m.kind || (match m.kind with
    | .snpRsp _ => true
    | _ => false)
  let rq := if snoop then rqOf 4 m.home.k m.tag else rqOf (classOf m.agent.unit).1 (classOf m.agent.unit).2 m.tag
  { vc := vcOf op, gen := s.reg .RTE_ACTIVE, mc := m.mc.isSome, op := op, dst := dst, src := s.tileId.getD 0, rq := rq,
    addr := offsetOf (128 * m.line), status := statusCode m.status, comp := m.cmode % 4 + 16 * (m.entry % 16),
    hops := s.reg .RTE_HOP_LIMIT }

/-- The packets of data in parts. -/
def partPackets (h : Hdr) (bs : List Byte) (gs : List GState) : List (Hdr × List Byte) :=
  let ps := parts256 (bs.length + 1) bs gs
  ps.zipIdx.map fun x =>
    ({ h with dlen := x.1.1.length, gstate := gstateOf x.1.2, part := x.2, plast := ps.length - 1 }, x.1.1)

/-- The granule states of bytes that all carry one state, where they cover whole granules. -/
def carryGrans (a n : Nat) (g : GState) : List GState := if a % 32 = 0 ∧ n % 32 = 0 then List.replicate (n / 32) g else []

/-- The packets that carry a message to another tile. -/
def State.packetsOf (s : State) (dst : Nat) (m : Msg) : List (Hdr × List Byte) :=
  let h := s.baseHdr dst m
  let none' : List (Hdr × List Byte) := [(h, [])]
  let store (h : Hdr) (a : Nat) (bs : List Byte) : Hdr × List Byte :=
    let gs := carryGrans a bs.length m.carry
    ({ h with addr := offsetOf a, dlen := bs.length, gstate := gstateOf gs,
              status := if m.carry ≠ .good ∧ gs.isEmpty then 1 else h.status }, bs)
  let result : List (Hdr × List Byte) :=
    match m.status, m.data, m.res with
    | .ok, some d, _ => partPackets h d.bytes d.gran
    | .ok, none, some r =>
      if r.bytes.length % 32 = 0 then partPackets h r.bytes r.grans
      else [({ h with dlen := r.bytes.length, status := if r.gran = .good then 0 else 1 }, r.bytes)]
    | _, _, _ => [({ h with dlen := 32 }, List.replicate 32 0)]
  match m.kind with
  | .rdX held => [({ h with aux := bit held }, [])]
  | .ncRd => match m.part with
    | some p => [({ h with addr := offsetOf p.addr, attr := p.size % 512 }, [])]
    | none => none'
  | .ncWr => match m.part with
    | some { op := .store bs, addr := a, .. } => [store h a bs]
    | _ => none'
  | .ncAtom => match m.part with
    | some { op := .amo op typ c new, addr := a, size := n, .. } =>
      let bs := leBytes n c ++ (if op = .cas then leBytes n new else [])
      [({ h with addr := offsetOf a, attr := 512 * (typ % 8) + 4096 * aopCode op, dlen := bs.length }, bs)]
    | _ => none'
  | .stWr => match m.part, m.data with
    | some { op := .store bs, addr := a, .. }, _ => [store h a bs]
    | _, some d => partPackets h d.bytes d.gran
    | _, none =>
      let runs := m.runs.flatMap fun r => (List.range ((r.2.length + 127) / 128)).map fun i =>
        (r.1 + 128 * i, (r.2.drop (128 * i)).take 128)
      let n := runs.length
      runs.zipIdx.map fun x => let p := store h x.1.1 x.1.2; ({ p.1 with part := x.2, plast := n - 1 }, p.2)
  | .data g =>
    let g := match g with
      | .s => 1
      | .e => 2
      | .m => 3
      | _ => 0
    result.map fun p => ({ p.1 with aux := g }, p.2)
  | .atomRsp => result
  | .wb => match m.data with
    | some d => partPackets h d.bytes d.gran
    | none => none'
  | .snpRsp r =>
    let st := match r with
      | .notHeld => 4
      | .dark => 5
      | _ => 0
    let h := { h with status := st, aux := bit (r == .dirty) }
    match m.data with
    | some d => partPackets h d.bytes d.gran
    | none => [(h, [])]
  | .snpS => [({ h with aux := m.mc.getD (m.agent.unit % 64) }, [])]
  | .snpX => [({ h with aux := m.mc.getD (m.agent.unit % 64) }, [])]
  | .snpNc => [({ h with aux := m.mc.getD (m.agent.unit % 64) }, [])]
  | .inv => [({ h with aux := m.mc.getD (m.agent.unit % 64) }, [])]
  | _ => none'

/-! ### Packets as messages -/

/-- The worst state of granules. -/
def worstGran (gs : List GState) : GState :=
  if gs.any (· == .lost) then .lost else if gs.any (· == .poison) then .poison else .good

/-- The state that the data of a write packet carries. -/
def carryOf (h : Hdr) : GState := if h.status ≠ 0 then .poison else worstGran (gransOf 8 h.gstate)

/-- The tag that RQ's 13 bits stand for among the outstanding requests of a unit of this tile. -/
def State.fullTag (s : State) (unit tag : Nat) : Nat :=
  if unit < 64 then tag
  else if unit = 65 then match (s.host.bar.map (·.1)).find? fun b => b % 64 == tag / 128 % 64 with
    | some b => 128 * b + tag % 128
    | none => tag
  else match (s.posted.filterMap fun p => if p.2.unit = unit then some p.1 else none).find? fun p => p % 8192 == tag with
    | some p => p
    | none => tag

/-- The messages that a whole transaction of packets from tile `src` stands for (R482, R484); its parts are in order. -/
def State.messagesOf (s : State) (ps : List (Hdr × List Byte)) : List Msg :=
  match ps with
  | [] => []
  | (h, bs) :: _ =>
    let own := s.normalise (0xFFFF * 2 ^ 48 + h.addr)
    let unit := unitOfRq h.rq
    let tag := h.rq % 8192
    let request (kind : MsgKind) : Msg :=
      { kind := kind, agent := ⟨some h.src, unit⟩, home := ⟨none, h.addr / stackBytes % 8⟩, line := lineOf own, tag := tag,
        cmode := h.comp % 4, entry := h.comp / 16 }
    let all := ps.flatMap (·.2)
    let grans := ps.flatMap fun p => gransOf ((p.2.length + 31) / 32) p.1.gstate
    let worst := worstGran (ps.map fun p => carryOf p.1)
    let part (a n : Nat) (op : PartOp) : Part := { thread := 0, addr := a, size := n, op := op }
    let byLine (n : Nat) (f : Nat → Nat → Nat → Msg) : List Msg :=
      let first := 128 - own % 128
      if n ≤ first then [f own n 0] else [f own first 0, f (own + first) (n - first) first]
    let k (a : Nat) : HomeId := ⟨none, offsetOf a / stackBytes % 8⟩
    let answer (kind : MsgKind) : Msg :=
      let full := s.fullTag unit tag
      let line := match s.rte.flight.find? fun x => x.1 == unit && x.2.1 == full with
        | some x => x.2.2
        | none => (h.src * 2 ^ 48 + h.addr) / 128
      let st := ((ps.map fun p => statusOf p.1.status).find? (· != .ok)).getD .ok
      { kind := kind, agent := ⟨none, unit⟩, home := ⟨some h.src, offsetOf (128 * line) / stackBytes % 8⟩, line := line, tag := full,
        status := st, cmode := h.comp % 4, entry := h.comp / 16,
        data := if 128 ≤ all.length then some ⟨all, grans⟩ else none,
        res := if all.length < 128 then some { bytes := all, gran := worstGran grans, grans := grans } else none }
    let snoop (kind : MsgKind) : Msg :=
      { kind := kind, agent := if h.mc then ⟨none, 64⟩ else ⟨none, h.aux % 64⟩, home := ⟨some h.src, h.rq / 2 ^ 13 % 64⟩,
        line := (h.src * 2 ^ 48 + h.addr) / 128, tag := tag, mc := if h.mc then some (h.aux % 64) else none }
    match h.op with
    | 0x01 => [request .rdS]
    | 0x02 => [request (.rdX (h.aux.testBit 0))]
    | 0x03 => byLine (h.attr % 512) fun a n _ =>
      { request .ncRd with line := lineOf a, home := k a, part := some (part a n .load) }
    | 0x04 => byLine bs.length fun a n at' =>
      { request .ncWr with line := lineOf a, home := k a, carry := worst, part := some (part a n (.store ((bs.drop at').take n))) }
    | 0x05 =>
      let op := aopOf (h.attr / 4096 % 16)
      let n := if op = .cas then bs.length / 2 else bs.length
      [{ request .ncAtom with
         part := some (part own n (.amo op (h.attr / 512 % 8) (leNat (bs.take n)) (leNat (bs.drop n)))) }]
    | 0x06 => [request .stRd]
    | 0x07 =>
      if h.comp / 16 ≠ 0 ∨ (h.comp % 4 ≠ 0 ∧ 256 ≤ bs.length) then [{ request .stWr with data := some ⟨all, grans⟩ }]
      else if h.plast = 0 ∧ bs.length ≤ 64 ∧ own / 64 = (own + bs.length - 1) / 64 then
        [{ request .stWr with carry := worst, part := some (part own bs.length (.store bs)) }]
      else [{ request .stWr with carry := worst, runs := ps.map fun p => (p.1.addr, p.2) }]
    | 0x08 => [request .rejoin]
    | 0x20 => [answer (.data (match h.aux % 4 with
      | 1 => .s
      | 2 => .e
      | 3 => .m
      | _ => .copy))]
    | 0x21 => [answer .grant]
    | 0x22 => [answer .ack]
    | 0x23 => [answer .atomRsp]
    | 0x24 =>
      let kk := h.rq / 2 ^ 13 % 64
      let line := lineOf own
      let waits := ((s.home kk).txns.find? fun t => t.ls == lsOf line).map (·.wait)
      let who : Agent := if h.mc then ⟨some h.src, 64⟩ else
        ((waits.getD []).find? fun a => a.tile == some h.src && (all.isEmpty != ((s.home kk).ownerOf (lsOf line) == some a)))
          |>.getD (((waits.getD []).find? fun a => a.tile == some h.src).getD ⟨some h.src, 0⟩)
      let r : SnpReply := if h.status = 4 then .notHeld else if h.status = 5 then .dark
        else if h.aux.testBit 0 then .dirty else if all.isEmpty then .ack else .clean
      [{ kind := .snpRsp r, agent := who, home := ⟨none, kk⟩, line := line, tag := tag,
         data := if all.length = 128 then some ⟨all, grans⟩ else none, mc := if h.mc then some 0 else none }]
    | 0x25 => [{ request .wb with data := some ⟨padTo 128 all, grans⟩ }]
    | 0x26 => [request .ce]
    | 0x40 => [snoop .snpS]
    | 0x41 => [snoop .snpX]
    | 0x42 => [snoop .snpNc]
    | 0x43 => [snoop .inv]
    | _ => []

end Sys2Proof.Machine
end

