-- ==== Sys2Proof/Machine/Align.lean ====
section
/-!
DEFINITION. Couplers by number, link events, and the time tree: which coupler a tile follows, and what TIK_STATUS shows
of it (R104–R107, R111, R440, R471).
-/
namespace Sys2Proof.Machine

/-! ### Couplers -/

def State.cpl (s : State) (n : Nat) : CplSt := NMap.get {} s.cpls n
def State.setCpl (s : State) (n : Nat) (c : CplSt) : State := { s with cpls := NMap.set {} s.cpls n c }
def State.onCpl (s : State) (n : Nat) (f : CplSt → CplSt) : State := s.setCpl n (f (s.cpl n))
def State.onRol (s : State) (n : Nat) (f : RolSt → RolSt) : State := s.onCpl n fun c => { c with rol := f c.rol }

/-- The link state (R440). -/
def State.link (s : State) (n : Nat) : Nat := s.reg .CPL_LINK_STATE n

/-- Whether a coupler is ACTIVE or DEGRADED. -/
def State.linkUp (s : State) (n : Nat) : Bool := s.link n == 4 || s.link n == 5

/-- Whether the coupler banks take new work (R268). -/
def State.banksRun (s : State) : Bool := !s.stopped 1

/-- Moves a coupler to a link state. -/
def State.setLink (s : State) (n st : Nat) : State :=
  (s.setReg .CPL_LINK_STATE st n).onCpl n fun c => { c with since := s.time.bnd }

/-- Posts a link event (R471). -/
def State.linkEvent (s : State) (n kind cause : Nat) : State :=
  s.postEvent (deckIndex .CPL n) (payload [(0, leBytes 1 kind), (1, leBytes 1 n), (2, leBytes 1 (s.link n)),
    (3, leBytes 1 cause), (4, leBytes 1 (s.reg .CPL_WIDTH n)), (5, leBytes 1 (s.reg .CPL_LANES_GOOD n)),
    (8, leBytes 8 s.time.now), (0x10, leBytes 4 (s.reg .CPL_NEIGH n)), (0x14, leBytes 4 (s.reg .CPL_PATH_DELAY n))])

/-! ### The time tree -/

/-- Whether one offer is better than another: lower depth, then lower root ID, then lower coupler (R105). -/
def betterOffer (a b : Nat × Offer) : Bool :=
  decide (a.2.depth < b.2.depth) || (a.2.depth == b.2.depth &&
    (decide (a.2.root < b.2.root) || (a.2.root == b.2.root && decide (a.1 < b.1))))

/-- The parent that the offers give, where the tile follows one at all: a tile with ROOT set follows only a root with a
lower tile ID (R105, R107). -/
def State.bestParent (s : State) : Option (Nat × Offer) :=
  if !s.isSet .TIK_ALIGN_EN then none else
  let ok (o : Nat × Offer) : Bool := !s.isSet .TIK_ROOT || (match s.tileId with
    | some id => decide (o.2.root < id)
    | none => false)
  (s.time.offers.filter ok).foldl (fun b o => match b with
    | none => some o
    | some x => if betterOffer o x then some o else b) none

/-- Makes TIK_STATUS and the root ID show the parent in force (R104, R106, R111). -/
def State.showTime (s : State) : State :=
  let show' (s : State) (joined isRoot hold valid depth parent root : Nat) : State :=
    ((((((s.setReg .TIK_JOINED joined).setReg .TIK_IS_ROOT isRoot).setReg .TIK_HOLDOVER hold).setReg .TIK_ROOT_VALID valid).setReg
      .TIK_DEPTH depth).setReg .TIK_PARENT parent).setReg .TIK_ROOT_ID root
  match s.time.parent, s.time.parent.bind fun p => NMap.find? s.time.offers p with
  | some p, some o => show' s 1 0 0 1 ((o.depth + 1) % 256) p o.root
  | _, _ =>
    if s.isSet .TIK_ROOT ∨ !s.isSet .TIK_ALIGN_EN then
      let v := s.isSet .TIK_ROOT && s.tileId.isSome
      show' s 0 1 0 (bit v) 0 0 (if v then s.tileId.getD 0 else 0)
    else if s.time.hadParent then show' s 0 0 (bit s.time.offers.isEmpty) 0 0 0 0
    else show' s 0 1 0 0 0 0 0

/-- Chooses the parent from the offers at hand. -/
def State.chooseParent (s : State) : State :=
  let p := s.bestParent.map (·.1)
  let s := if s.isSet .TIK_ROOT && p.isSome then s.setReg .TIK_ROOT_CONFLICT 1 else s
  { s with time := { s.time with parent := p, hadParent := s.time.hadParent || p.isSome,
                                 t1 := if p = s.time.parent then s.time.t1 else none } }.showTime

/-- A coupler no longer carries time: its offer is gone, and a tile that loses its parent has none until the next
announcement (R111). -/
def State.parentLost (s : State) (n : Nat) : State :=
  let t := s.time
  { s with time := { t with offers := NMap.erase t.offers n, parent := if t.parent = some n then none else t.parent,
                            t1 := if t.parent = some n then none else t.t1 } }.showTime

end Sys2Proof.Machine
end

