-- ==== Sys2Proof/Machine/Host.lean ====
section
/-!
DEFINITION. The host interface: context creation, the doorbell and acknowledgement words, the head write-back, the
event message, mirrors, BAR2, and what the host answers (R525–R567).
-/
namespace Sys2Proof.Machine

/-! ### What a non-caching requester sees (R296, R322) -/

/-- The line of this tile's memory as a non-caching read finds it: at its owner on this tile, or in memory.  Nothing
where another tile owns it or a transaction about it is under way: the answer is then the environment's. -/
def State.peekLine (s : State) (line : Nat) : Option LineData :=
  let h := s.homeOf line
  let ls := lsOf line
  let hs := s.home h.k
  if h.tile.isSome || hs.isPending ls then none else
  let fromMemory : LineData :=
    let g0 := offsetOfLs h.k ls / 32
    let r := (List.range 4).map fun i => (decodeGran s.mem (g0 + i)).getD ⟨.poison, List.replicate 32 0, false⟩
    ⟨r.flatMap fun x => if x.st = .good then x.bytes else List.replicate 32 0, r.map (·.st)⟩
  match hs.ownerOf ls with
  | none => if s.retiredAt (offsetOfLs h.k ls) then some (poisonLine) else some fromMemory
  | some a =>
    if a.tile.isSome then none else
    ((s.clu a.unit).snooped line).map fun x => x.1.data

/-- The line that holds a normalised address as a non-caching reader of this tile sees it: decoded where its window
is compressed (R387). -/
def State.peekData (s : State) (a : Nat) : Option LineData :=
  let mode := s.modeAt a
  if mode = 0 then s.peekLine (lineOf a)
  else if !s.isOwn a then none
  else
    let tile := mode == 2
    let o := offsetOf a
    let u := unitOf tile o
    let d := (s.decodeUnit tile (s.codecOf a).2 u (s.mapEntry u).1).1
    let i := (o - u) / 128
    some ⟨(d.bytes.drop (128 * i)).take 128, (d.gran.drop (4 * i)).take 4⟩

/-- Whether a value is what a read of the CP or of an engine of this tile can return at an address: what memory holds,
`none` for poison, wherever the model can tell. -/
def State.sees (s : State) (addr n : Nat) (v : Option Nat) : Bool :=
  let a := s.normalise addr
  if tileOf a = 0xFFFE then s.hostEn || v.isNone
  else if !s.populated a then v.isNone
  else match s.peekData a with
    | none => true
    | some d =>
      let r := partOf d (a % 128) n
      v == (if r.gran = .good then some (leNat r.bytes) else none)

/-- Reads up to 8 bytes at a fabric address for the CP: a Host read, or a read of its home (R289, R305, R574). -/
def State.cpRead (s : State) (r : CpRead) (addr n : Nat) : State :=
  let a := s.normalise addr
  match s.memTy a with
  | .host =>
    if !s.hostEn then (s.count .HIF_CPL_TO_CNT).cpGot r none
    else (s.hostReq (.cp r) fun t => .read t (offsetOf a) n).getD s
  | ty =>
    if !s.populated a then s.cpGot r none else
    let c := s.modeAt a
    s.sendPost (.read r) { kind := if ty = .staged ∧ c ≠ 0 then .stRd else .ncRd, agent := cpAgent, home := s.homeOf (lineOf a),
                           line := lineOf a, cmode := c,
                           part := some { thread := 0, addr := a, size := n, op := .load } }

/-- Whether a read of the CP is under way or waits to be observed. -/
def State.cpReading (s : State) (r : CpRead) : Bool :=
  (s.posted.any fun p => p.2.use == .read r && !p.2.quar) || (s.host.reqs.any fun p => p.2.use == .cp r)
    || s.cp.got.any fun g => g.1 == r

/-- A request of the CP that has no completion after CPR_REQ_TIMEOUT_US completes with poison; its tag is freed after
as long again (R574). -/
def execCpReqTimeout (tag : Nat) (s : State) : Host.Outcome State Fault Refusal :=
  done (if s.stopped 1 then s else match NMap.find? s.posted tag with
    | none => s
    | some p =>
      if s.time.bnd < p.since + ticksOfUs (s.reg .CPR_REQ_TIMEOUT_US) then s
      else if p.quar then { s with posted := NMap.erase s.posted tag }
      else
        let s := match p.use with
          | .read _ => s.endRead p.unit tag none
          | .write _ => s.endPost p.unit tag false
        { s with posted := NMap.insert s.posted tag { p with quar := true, since := s.time.bnd } })

/-! ### The wake tolerance that a context begins with (R637, R638) -/

/-- Starts the exit of a coupler from low power; its bank is then no longer in T4. -/
def State.startLpExit (s : State) (n : Nat) : State :=
  if !s.isSet .CPL_LP n || (s.cpl n).lpExit.isSome then s else
  let s := { s with pwr := { s.pwr with t4 := s.pwr.t4.filter (· != n / 8) } }
  s.onCpl n fun c => { c with lpExit := some s.time.bnd, beacons := c.beacons + 1 }

/-- A stack leaves self-refresh. -/
def State.wakeMem (s : State) (k : Nat) : State :=
  { s with mem := { s.mem with selfRefresh := NMap.erase s.mem.selfRefresh k } }

/-- A bank leaves T4, and its couplers low power. -/
def State.wakeBank (s : State) (b : Nat) : State :=
  let s := { s with pwr := { s.pwr with t4 := s.pwr.t4.filter (· != b) } }
  foldState (fun s i => s.startLpExit (8 * b + i)) (List.range 8) s

/-- The wake tolerance returns to 4,000 ns, and the regions in T3 and T4, whose latency exceeds it, wake at once. -/
def State.defaultTolerance (s : State) : State :=
  let s := s.setReg .PWR_WAKE_TOL_NS 4000
  let s := foldState (fun s k => if NMap.get false s.mem.selfRefresh k then s.wakeMem k else s) (List.range 8) s
  foldState (fun s b => if s.pwr.t4.contains b then s.wakeBank b else s) (List.range 8) s

/-! ### The context (R533–R535) -/

/-- Whether the context is ACTIVE. -/
def State.active (s : State) : Bool := s.reg .CTX_STATE == 1

/-- The first check of R534 that fails. -/
def State.createCheck (s : State) : Nat :=
  let st := s.reg .CTX_STATE
  let ring := s.reg .CTX_RING_LOG2
  let evt := s.reg .CTX_EVT_LOG2
  let fb := s.fenceBase
  if st = 2 then 5
  else if st ≠ 0 then 4
  else if s.host.lastEpoch = some (s.reg .CTX_EPOCH) then 6
  else if ring < 8 ∨ 16 < ring then 1
  else if evt < 8 ∨ 16 < evt then 2
  else if !populatedOffset fb || fb / stackBytes != (fb + 65535) / stackBytes || fb % 65536 != 0 then 3
  else 0

/-- CTX_CREATE at its tick (R534). -/
def State.ctxCreate (s : State) : State :=
  let code := s.createCheck
  let s := s.setReg .CTX_RESULT code
  if code ≠ 0 then s else
  let s := if s.isSet .CTX_FENCE_KEEP then s else s.localWrite s.fenceBase (List.replicate 65536 0)
  let s := (((s.setReg .CTX_RING_HEAD 0).setReg .CTX_RING_TAIL 0).setReg .CTX_EVT_TAIL 0).setReg .CTX_EVT_ACK 0
  let s := ((s.setReg .CTX_STATE 1).setReg64 .CPR_NEXT_TASK_LO .CPR_NEXT_TASK_HI 1).defaultTolerance
  { s with host := { s.host with lastEpoch := some (s.reg .CTX_EPOCH), dropped := 0, posted := false, lastMsi := none },
           cp := { s.cp with nextPoll := s.time.bnd + 1, headWritten := none, headAt := 0, got := [] } }

def execCtxCreate (s : State) : Host.Outcome State Fault Refusal :=
  done (if s.isSet .BRK_BRAKED then s else s.later 9 (cfgSrc .CTX 0 0x004) .ctxCreate)

/-! ### The doorbell and acknowledgement words (R539–R542, R550, R551) -/

/-- The CP reads the doorbell word, and with it the acknowledgement word while a record is unacknowledged. -/
def execDoorbellPoll (s : State) : Host.Outcome State Fault Refusal :=
  done (if !s.active || s.stopped 1 || s.cpReading .doorbell || decide (s.time.bnd < s.cp.nextPoll) then s else
    let ackToo := s.reg .CTX_EVT_TAIL != s.reg .CTX_EVT_ACK && !s.cpReading .ack
    let s := s.cpRead .doorbell (s.reg64 .CTX_DB_ADDR_LO .CTX_DB_ADDR_HI) 8
    if ackToo then s.cpRead .ack (s.reg64 .CTX_EVT_ACK_ADDR_LO .CTX_EVT_ACK_ADDR_HI) 8 else s)

/-- What an observed doorbell word does (R540). -/
def applyDoorbell (tail epoch : Nat) (s : State) : State :=
  if !s.active then s
  else if epoch ≠ s.reg .CTX_EPOCH then s.count .CTX_DB_STALE_CNT
  else
    let head := s.reg .CTX_RING_HEAD
    let ahead (t : Nat) : Nat := (t + 2 ^ 32 - head) % 2 ^ 32
    if 2 ^ s.reg .CTX_RING_LOG2 < ahead tail then (s.count .CTX_DB_BAD_CNT).ringError 1 tail
    else if ahead tail ≤ ahead (s.reg .CTX_RING_TAIL) then s
    else (s.issue 8 0 (ahead tail - ahead (s.reg .CTX_RING_TAIL))).setReg .CTX_RING_TAIL tail

/-- What an observed acknowledgement word does (R550). -/
def applyAck (ack epoch : Nat) (s : State) : State :=
  if !s.active || epoch != s.reg .CTX_EPOCH then s else
  let a := s.reg .CTX_EVT_ACK
  let past (t : Nat) : Nat := (t + 2 ^ 32 - a) % 2 ^ 32
  if past (s.reg .CTX_EVT_TAIL) < past ack then s.ringError 3 ack else s.setReg .CTX_EVT_ACK ack

/-- Takes what a read of the CP returned. -/
def State.takeGot (s : State) (r : CpRead) : Option (Option Nat × State) :=
  match s.cp.got.find? fun g => g.1 == r with
  | none => none
  | some g => some (g.2, { s with cp := { s.cp with got := s.cp.got.erase g } })

/-- A doorbell read that has completed is observed at a tick (R115, R540); while REPLAY is set a live one is ignored
(R124). -/
def execDoorbellObserve (s : State) : Host.Outcome State Fault Refusal :=
  done (if s.stopped 1 then s else match s.takeGot .doorbell with
    | some (some v, s) =>
      if s.isSet .TIK_REPLAY then s
      else s.tickEvent 8 0 (.doorbell (v % 2 ^ 32) (v / 2 ^ 32)) (applyDoorbell (v % 2 ^ 32) (v / 2 ^ 32))
    | some (none, s) => s
    | none => s)

def execAckObserve (s : State) : Host.Outcome State Fault Refusal :=
  done (if s.stopped 1 then s else match s.takeGot .ack with
    | some (some v, s) => s.tickEvent 8 1 (.ackWord (v % 2 ^ 32) (v / 2 ^ 32)) (applyAck (v % 2 ^ 32) (v / 2 ^ 32))
    | some (none, s) => s
    | none => s)

/-- The head is written back when it has changed, at most once per effective interval (R542). -/
def execHeadWriteback (s : State) : Host.Outcome State Fault Refusal :=
  let head := s.reg .CTX_RING_HEAD
  done (if !s.active || s.stopped 1 || !s.isSet .CTX_HEADWB_EN || s.cp.headWritten == some head
      || decide (s.time.bnd < s.cp.headAt) then s else
    let s := s.fabricWrite cpAgent (s.reg64 .CTX_HEADWB_ADDR_LO .CTX_HEADWB_ADDR_HI)
      (leBytes 8 (head + s.reg .CTX_EPOCH * 2 ^ 32))
    { s with cp := { s.cp with headWritten := some head, headAt := s.time.bnd + ticksOfNs s.effPollNs } })

/-- After the hold-off one message announces the records posted since the last (R552). -/
def execEvtMsi (s : State) : Host.Outcome State Fault Refusal :=
  let ready := match s.host.lastMsi with
    | some t => decide (t + ticksOfUs (s.reg .CTX_EVT_HOLDOFF_US) ≤ s.time.bnd)
    | none => true
  done (if !s.active || s.isSet .BRK_BRAKED || !s.isSet .CTX_EVT_MSI_EN || !s.host.posted || !ready then s else
    let s := s.sendMsi (s.reg .CTX_EVT_MSI_VEC)
    { s with host := { s.host with posted := false, lastMsi := some s.time.bnd } })

/-! ### Fences (R559, R560) -/

/-- FEN_INIT at its tick: the record is changed at its home once no agent holds it back (R559). -/
def State.fenceInit (s : State) : State :=
  let op := FenceOp.init (s.reg64 .FEN_INIT_VALUE_LO .FEN_INIT_VALUE_HI)
  let m := s.fenceMsg cpAgent (s.reg .FEN_INIT_SEL) op false
  if s.homeReady m.home.k then
    ((s.onHome m.home.k fun hs => { hs with inbound := hs.inbound ++ [{ m with arrived := s.time.now }] }).issue 1 m.home.k).pumpHome m.home.k
  else s.sendPost (.write none) m

def execFenInitGo (s : State) : Host.Outcome State Fault Refusal :=
  done (if s.isSet .BRK_BRAKED then s else s.later 9 (cfgSrc .FEN 0 0x020) .fenceInit)

/-- A mirror writes its fence's changed record, at most once per tick, with its message after it (R560). -/
def execMirrorWrite (m : Fin 64) (s : State) : Host.Outcome State Fault Refusal :=
  done (if !s.active || s.stopped 1 || !s.isSet .FEN_MIR_EN 0 m || !s.cp.mirDue.contains m.val
      || NMap.find? s.cp.mirLast m == some s.time.bnd then s else
    let r := s.fenceRead (s.fenceOffset (s.reg .FEN_MIR_FENCE 0 m))
    let s := r.2
    let s := { s with cp := { s.cp with mirDue := s.cp.mirDue.filter (· != m.val), mirLast := NMap.insert s.cp.mirLast m s.time.bnd } }
    let s := s.hostWrite (s.reg64 .FEN_MIR_ADDR_LO .FEN_MIR_ADDR_HI 0 m) r.1.bytes .good
    if s.isSet .FEN_MIR_MSI 0 m then s.sendMsi (s.reg .FEN_MIR_VEC 0 m) else s)

/-! ### BAR2 (R294, R529, R530) -/

/-- The fabric address that an offset of BAR2 reaches (R529). -/
def State.barAddr (s : State) (x : Nat) : Nat :=
  s.normalise (s.reg .HIF_BAR2_TILE * 2 ^ 48 + (s.reg64 .HIF_BAR2_BASE_LO .HIF_BAR2_BASE_HI + x) % 2 ^ 48)

/-- The lowest number that no BAR2 request under way has. -/
def State.freeBar (s : State) : Nat := (firstWhere (s.host.bar.length + 1) fun n => (NMap.find? s.host.bar n).isNone).getD 0

/-- Sends the pieces of a BAR2 request; a piece at an unpopulated offset of this tile fails at once. -/
def State.barRequest (s : State) (write : Bool) (kind : MsgKind) (carry : GState) (ps : List (Nat × Nat × PartOp)) : State :=
  if ps.isEmpty then s else
  let id := s.freeBar
  let s := { s with host := { s.host with bar := NMap.insert s.host.bar id { write := write, total := ps.length } } }
  foldState (fun s p =>
    let a := s.barAddr p.1.1
    let tag := id * 128 + p.2
    if !s.populated a then s.barAnswer tag (poisonRes p.1.2.1) false else
    let h := s.homeOf (lineOf a)
    s.sendTo h.tile { kind := kind, agent := barAgent, home := h, line := lineOf a, tag := tag, carry := carry,
                      part := some { thread := 0, addr := a, size := p.1.2.1, op := p.1.2.2 } }) ps.zipIdx s

/-- A completion of all ones, as the read-out engine gives while the tile is braked (R271). -/
def State.onesCompletion (s : State) (n : Nat) : State :=
  { s with host := { s.host with out := s.host.out ++ [.completion (List.replicate n 0xFF) false] } }

/-- A read of `n` bytes, up to 4,096, at an offset of BAR2. -/
def execBar2Read (x n : Nat) (s : State) : Host.Outcome State Fault Refusal :=
  done (if !s.hostEn || s.host.inReset || decide (4096 < n) then s
    else if s.isSet .BRK_BRAKED then s.onesCompletion n
    else s.barRequest false .ncRd .good ((pieces (n + 1) x (List.replicate n 0)).map fun p => (p.1, p.2.length, .load)))

/-- A write at an offset of BAR2; data that arrives with EP set is poison (R361, R530). -/
def execBar2Write (x : Nat) (bs : List Byte) (ep : Bool) (s : State) : Host.Outcome State Fault Refusal :=
  done (if !s.hostEn || s.host.inReset || s.isSet .BRK_BRAKED || decide (512 < bs.length) then s
    else s.barRequest true .ncWr (if ep then .poison else .good)
      ((pieces (bs.length + 1) x bs).map fun p => (p.1, p.2.length, .store p.2)))

/-- A FetchAdd, Swap or CAS of 4 or 8 bytes at an offset of BAR2 (R525). -/
def execBar2Atomic (x : Nat) (op : AmoOp) (wide : Bool) (c new : Nat) (s : State) : Host.Outcome State Fault Refusal :=
  let n := if wide then 8 else 4
  done (if !s.hostEn || s.host.inReset || !(op == .add || op == .xchg || op == .cas) || x % n != 0 then s
    else if s.isSet .BRK_BRAKED then s.onesCompletion n
    else s.barRequest false .ncAtom .good [(x, n, .amo op (if wide then 3 else 0) c new)])

/-! ### Answers of the host (R295, R531) -/

/-- Hands the answer of a host request to what waits for it; `none` is poison. -/
def hostDeliver (s : State) (tag : Nat) (v : Option (List Byte)) : State :=
  match NMap.find? s.host.reqs tag with
  | none => s
  | some r =>
    let s := { s with host := { s.host with reqs := NMap.erase s.host.reqs tag } }
    match r.use with
    | .hand w isAmo =>
      let s := if isAmo ∧ v.isNone then s.count .TILE_HOST_ATOM_CNT else s
      let s := match v, s.partOfWaiter w with
        | some bs, some p => s.setRes w { bytes := bs.take p.size, gran := .good }
        | none, some p => s.setRes w (poisonRes p.size)
        | _, none => s
      pumpCluster s (clusterOf w.core)
    | .fetch core slot =>
      match (s.hand core slot).bind fun h => fetchNeed s (s.core core) h with
      | none => s
      | some a =>
        let d := match v with
          | some bs => ⟨bs ++ List.replicate (128 - bs.length) 0, List.replicate 4 .good⟩
          | none => poisonLine
        deliverFetch s core slot (lineOf (s.normalise a.toNat)) d
    | .cp r => s.cpGot r (v.map leNat)
    | .post t =>
      let s := if v.isNone then s.count .TILE_HOST_ATOM_CNT else s
      s.endPost 64 t true

/-- A completion of the host: its data, none where it ends with Unsupported Request or Completer Abort; `ep` marks it
as poisoned.  One that no request awaits is late, and is discarded. -/
def execHostCompletion (tag : Nat) (data : Option (List Byte)) (ep : Bool) (s : State) : Host.Outcome State Fault Refusal :=
  done (if s.stopped 2 || s.host.inReset then s else
    let s := if ep then s.count .HIF_EP_RX_CNT else s
    hostDeliver s tag (if ep then none else data))

/-- A request toward the host that HIF_CPL_TO_US leaves unanswered completes with poison. -/
def execHostCplTimeout (tag : Nat) (s : State) : Host.Outcome State Fault Refusal :=
  done (if s.stopped 2 then s else match NMap.find? s.host.reqs tag with
    | none => s
    | some r =>
      if s.time.bnd < r.since + ticksOfUs (s.reg .HIF_CPL_TO_US) then s
      else hostDeliver (s.count .HIF_CPL_TO_CNT) tag none)

/-- The PCIe link trains to a rate, in GT/s, and a width (R525, R526). -/
def execHostLinkChange (gts width : Nat) (s : State) : Host.Outcome State Fault Refusal :=
  done (if !s.hostEn || s.host.inReset || !([2, 5, 8, 16, 32, 64].contains gts) || !([1, 2, 4, 8, 16].contains width) then s
    else { s with host := { s.host with linkGts := gts, linkWidth := width } })

end Sys2Proof.Machine
end

