-- ==== Sys2Proof/Machine/Cp.lean ====
section
/-!
DEFINITION. The command processor: descriptors, lists and frames, the reading and checking of commands, the synchronous
commands, waits, watchers and exchanges (R537–R544, R568–R587, R600–R605).
-/
namespace Sys2Proof.Machine

def State.onCp (s : State) (f : CpSt → CpSt) : State := { s with cp := f s.cp }

/-! ### Lists -/

def State.listRun (s : State) (id : Nat) : Option ListRun := NMap.find? s.cp.lists id

def State.onList (s : State) (id : Nat) (f : ListRun → ListRun) : State :=
  match s.listRun id with
  | none => s
  | some r => s.onCp fun cp => { cp with lists := NMap.insert cp.lists id (f r) }

/-- Makes a list's status ERROR, unless it already has another (R587). -/
def State.listError (s : State) (id : Nat) : State :=
  s.onList id fun r => if r.status = 0 then { r with status := 1 } else r

/-- Begins a list: a fresh frame 1 at its first command (R575, R604). -/
def State.beginList (s : State) (desc : Option Nat) (tail : Tail) (addr len : Nat) : State :=
  let id := s.cp.nextList
  s.onCp fun cp => { cp with
    cur := some { list := id, frames := [{ base := addr, len := len, pc := addr }] },
    lists := NMap.insert cp.lists id { desc := desc, tail := tail }, nextList := id + 1, burst := 0 }

/-- The number of the descriptor that a list belongs to, 0 for a kitty list (R605). -/
def State.dseqOf (s : State) (id : Nat) : Nat := ((s.listRun id).bind (·.desc)).getD 0

/-- Whether a list belongs to a kitty record. -/
def State.fromKitty (s : State) (id : Nat) : Bool := match s.listRun id with
  | some r => r.desc.isNone
  | none => false

/-- CMD_ERROR (R605). -/
def State.cmdError (s : State) (at' : CmdAt) (cause status : Nat) : State :=
  (s.count .CPR_CMD_ERR_CNT).postEvent (deckIndex .CPR 0) (payload [(0, leBytes 1 0x71), (1, leBytes 1 cause),
    (2, leBytes 1 at'.origin), (3, leBytes 1 status), (4, leBytes 1 at'.op), (8, leBytes 8 s.time.now),
    (0x10, leBytes 8 at'.addr), (0x18, leBytes 4 at'.dseq)])

/-- Where a command of a list stands. -/
def State.cmdAt (s : State) (id op addr : Nat) : CmdAt :=
  { op := op, addr := addr, origin := bit (s.fromKitty id), dseq := s.dseqOf id }

/-- Ends the issue of the current list. -/
def State.endIssue (s : State) : State :=
  match s.cp.cur with
  | none => s
  | some c => (s.onList c.list fun r => { r with ended := true }).onCp fun cp => { cp with cur := none, burst := 0 }

/-- Ends the issue of the current list with a status. -/
def State.endWith (s : State) (status : Nat) : State :=
  match s.cp.cur with
  | none => s
  | some c => (s.onList c.list fun r => { r with status := status }).endIssue

/-- A bad command ends its list's issue as ABORTED (R577). -/
def State.badCommand (s : State) (op cause : Nat) : State :=
  match s.cp.cur with
  | none => s
  | some c => match c.frames with
    | [] => s.endIssue
    | f :: _ => (s.cmdError (s.cmdAt c.list op f.pc) cause 0).endWith 2

/-- Closes the frames that have reached the end of their bytes; past frame 1 the list's issue ends (R575, R582). -/
def closeFrames : List Frame → List Frame
  | [] => []
  | f :: rest => if f.base + f.len ≤ f.pc then closeFrames rest else f :: rest

/-- Replaces the frames of the current list after a command has run; issue ends when none is left. -/
def State.setFrames (s : State) (fs : List Frame) : State :=
  match s.cp.cur, closeFrames fs with
  | none, _ => s
  | some _, [] => s.endIssue
  | some c, f :: rest =>
    s.onCp fun cp => { cp with cur := some { c with frames := f :: rest, w0 := none, wait := none }, burst := 0 }

/-- The asynchronous commands and tasks of a list that have not completed (R569, R587). -/
def State.listBusy (s : State) (id : Nat) : Bool :=
  (s.cp.asyncs.any fun a => a.2.list == id) || s.tasks.any fun t => t.2.list == some id

/-- Whether every request in a list of tags has been answered. -/
def State.answered (s : State) (tags : List Nat) : Bool := tags.all fun t => match NMap.find? s.posted t with
  | some p => p.quar
  | none => true

/-- The tags of the requests that `s'` has made beyond those of `s`. -/
def newPosts (s s' : State) : List Nat :=
  (s'.posted.filter fun p => (NMap.find? s.posted p.1).isNone).map (·.1)

/-! ### Kitty records (R595) -/

/-- The fields of a kitty record. -/
structure KRec where
  rtype : Nat
  flags : Nat
  fence : Nat
  threads : Nat
  pc : Nat
  mask : Nat
  value : Nat
  param : Nat
  plen : Nat
  res : Nat
deriving DecidableEq, Repr

def kittyFields (b : List Byte) : KRec :=
  let f (o n : Nat) : Nat := leNat ((b.drop o).take n)
  { rtype := f 0 1, flags := f 1 1, fence := f 2 2, threads := f 4 4, pc := f 8 8, mask := f 0x10 8, value := f 0x18 8,
    param := f 0x20 8, plen := f 0x28 2, res := f 0x2A 2 }

/-- Whether a record is bad: an unlisted RTYPE, a reserved byte that is not zero, or a field that breaks the rule for
what it asks (R571, R582, R589, R595; DEDUCED, log entry 16). -/
def kittyBad (b : List Byte) : Bool :=
  let r := kittyFields b
  let opg := r.res / 16 % 32
  let apg := r.res / 512 % 32
  r.rtype == 0 || decide (4 < r.rtype) || decide (8 ≤ r.flags) || (b.drop 0x2C).any (· != 0)
    || (decide (4096 ≤ r.fence) && r.fence != 0xFFFF)
    || (r.rtype == 1 && (decide (448 < r.plen) || r.param % 8 != 0 || r.pc % 8 != 0 || decide (16 < opg) || decide (16 < apg)))
    || (r.rtype == 4 && (r.threads == 0 || r.threads % 8 != 0 || r.pc % 8 != 0))

/-- The ready record at the head of the kitty: its bytes, `none` where its read was poisoned. -/
def State.kittyHead (s : State) : Option (Option (List Byte)) := match s.cp.kitty with
  | .ready r :: _ => some r
  | _ => none

/-- Whether the record at the head is discarded: poisoned or bad (R596). -/
def headBad : Option (List Byte) → Bool
  | none => true
  | some b => kittyBad b

/-- The type of the record at the head, 0 for one to be discarded. -/
def headType : Option (List Byte) → Nat
  | none => 0
  | some b => if kittyBad b then 0 else (kittyFields b).rtype

/-- Whether fewer than 64 tasks are issued and not complete (R573). -/
def State.taskRoom (s : State) : Bool := decide (s.tasks.length < 64)

/-- Whether the CP applies the head of the kitty before it goes on: at a command boundary of a ring list, or with no
list current (R597). -/
def State.kittyDue (s : State) : Bool :=
  match s.kittyHead with
  | none => false
  | some r =>
    let t := headType r
    if t = 1 ∧ !s.taskRoom then false else
    match s.cp.cur with
    | none => true
    | some c => !s.fromKitty c.list && t != 4 && c.wait.isNone && s.answered c.hold
        && decide (s.cp.burst < s.reg .KIT_BURST)

/-! ### Reading a command (R568–R577) -/

/-- The number of words and the ARG bits of each opcode (R570); NOP has any number of words. -/
def cmdShape : Nat → Option (Nat × Nat)
  | 0x01 => some (0, 0)
  | 0x02 => some (1, 0x1)
  | 0x10 => some (6, 0x7FF)
  | 0x11 => some (7, 0x7FF)
  | 0x20 => some (6, 0)
  | 0x21 => some (6, 0)
  | 0x22 => some (3, 0x1)
  | 0x30 => some (2, 0x10FFF)
  | 0x31 => some (2, 0x10FFF)
  | 0x32 => some (3, 0xF0FFF)
  | 0x40 => some (4, 0xFFFFFF1F)
  | 0x41 => some (1, 0xFFFFFF00)
  | 0x42 => some (1, 0)
  | 0x43 => some (2, 0xFFFFFF00)
  | 0x44 => some (4, 0xFFFFFF1F)
  | 0x45 => some (1, 0)
  | 0x46 => some (3, 0)
  | 0x47 => some (1, 0)
  | 0x48 => some (3, 0x3F)
  | 0x49 => some (2, 0x1)
  | 0x50 => some (5, 0x1F7FFF)
  | 0x51 => some (1, 0xF)
  | 0x60 => some (6, 0x7FFFF)
  | 0x61 => some (6, 0)
  | 0x62 => some (5, 0x1FF)
  | 0x70 => some (2, 0x3)
  | 0x71 => some (2, 0)
  | _ => none

def cmdOp (w0 : Nat) : Nat := w0 % 256
def cmdWords (w0 : Nat) : Nat := w0 / 65536 % 65536
def cmdArg (w0 : Nat) : Nat := w0 / 2 ^ 32 % 2 ^ 32
def cmdBarrier (w0 : Nat) : Bool := w0.testBit 8

/-- What makes a command bad from its word 0 alone, as the cause of CMD_ERROR (R570, R577, R605). -/
def badWord0 (w0 : Nat) (room : Nat) : Option Nat :=
  match cmdShape (cmdOp w0) with
  | none => some 1
  | some (n, mask) =>
    let nw := cmdWords w0
    let arg := cmdArg w0
    let plen := arg % 512
    let need := if cmdOp w0 = 0x10 ∨ cmdOp w0 = 0x11 then n + (plen + 7) / 8 else n
    if w0 / 512 % 128 ≠ 0 ∨ arg &&& (2 ^ 32 - 1 - mask) ≠ 0 then some 2
    else if n = 0 ∧ nw = 0 then some 2
    else if n ≠ 0 ∧ nw ≠ need then some 2
    else if (cmdOp w0 = 0x10 ∨ cmdOp w0 = 0x11) ∧ 448 < plen then some 2
    else if room < 8 * nw then some 8
    else none

/-- The current list with its innermost frame, where the CP is at a command boundary. -/
def State.atCommand (s : State) : Option (Cur × Frame × List Frame) :=
  if !s.active || s.stopped 1 then none else
  match s.cp.cur with
  | none => none
  | some c =>
    if c.wait.isSome || !s.answered c.hold || s.kittyDue then none else
    match c.frames with
    | [] => none
    | f :: rest => some (c, f, rest)

/-- What a command is told of itself: its opcode, its ARG, its words after word 0, and where the list stands. -/
structure CmdCtx where
  op : Nat
  arg : Nat
  words : List Nat
  cur : Cur
  frame : Frame
  rest : List Frame

/-- A word of a command. -/
def CmdCtx.w (c : CmdCtx) (n : Nat) : Nat := c.words.getD (n - 1) 0

/-- The frames after a command that goes on at `pc`. -/
def CmdCtx.goto (c : CmdCtx) (pc : Nat) : List Frame := { c.frame with pc := pc } :: c.rest

/-- The address of the command after this one. -/
def CmdCtx.next (c : CmdCtx) : Nat := c.frame.pc + 8 * (c.words.length + 1)

/-- Whether a commit of the window table holds a piece of a range (R283, R290). -/
def State.heldRange (s : State) (r : Nat × Nat) : Bool :=
  !s.winEntries.isEmpty && (pieces (r.2 + 1) r.1 (List.replicate r.2 0)).any fun p => s.winHeld (s.normalise p.1)

/-- The ranges that a command accesses: its words, and what its operands name (R570). -/
def CmdCtx.ranges (c : CmdCtx) : List (Nat × Nat) :=
  let word : Nat := if c.arg.testBit 4 then 8 else 4
  let n := 2 ^ (c.arg % 4)
  (c.frame.pc, 8 * (c.words.length + 1)) :: match c.op with
    | 0x11 => [(c.w 6, 4)]
    | 0x20 => [(c.w 1, c.w 3), (c.w 2, c.w 3)]
    | 0x21 => [(c.w 1, c.w 2)]
    | 0x22 => [(c.w 1, if c.arg.testBit 0 then 8 else 4)]
    | 0x40 => [(c.w 1, word)]
    | 0x44 => [(c.w 1, word)]
    | 0x48 => (if c.arg.testBit 5 then c.w 1 else (c.frame.pc + c.w 1) % 2 ^ 64, n)
        :: (if c.arg / 4 % 4 = 1 then [(c.w 2, n)] else [])
    | 0x60 => [(c.w 1, c.w 2)]
    | 0x61 => [(c.w 1, c.w 3), (c.w 2, c.w 3)]
    | 0x62 => [(c.w 1, c.w 2)]
    | _ => []

/-- Counts a command that has run, and goes on after it (R606). -/
def State.advance (s : State) (c : CmdCtx) : State := (s.count .CPR_CMD_CNT).setFrames (c.goto c.next)

/-- Goes on after a synchronous command once the requests it made are answered (R572). -/
def State.advanceAfter (s : State) (before : State) (c : CmdCtx) : State :=
  let tags := newPosts before s
  let s := s.advance c
  s.onCp fun cp => { cp with cur := cp.cur.map fun x => { x with hold := tags } }

/-- Reads and checks the command at the current address and runs it (R568–R577).  `ws` are its words as the CP reads
them, `none` for one that reads as poison; `ops` are the opcodes that the row stands for.  A command with BARRIER waits
for its list's asynchronous commands once word 0 has been read; an asynchronous one waits while `full`; and any waits
while a commit of the window table holds what it accesses (R290). -/
def runCommand (ops : Nat → Bool) (full : State → Bool) (ws : List (Option Nat)) (body : CmdCtx → State → State)
    (s : State) : State :=
  match s.atCommand, ws with
  | some (c, f, rest), w0 :: more =>
    let seen := match c.w0 with
      | some x => w0 == some x
      | none => s.sees f.pc 8 w0
    if !seen then s else
    match w0 with
    | none => if ops 0 then s.badCommand 0 5 else s
    | some w0 =>
      let op := cmdOp w0
      if !ops (if (cmdShape op).isSome then op else 0) then s else
      let s := s.setReg64 .CPR_CMD_ADDR_LO .CPR_CMD_ADDR_HI f.pc
      match badWord0 w0 (f.base + f.len - f.pc) with
      | some cause => s.badCommand op cause
      | none =>
        if (cmdBarrier w0 && s.listBusy c.list) || full s then
          s.onCp fun cp => { cp with cur := some { c with w0 := some w0 } }
        else if more.length + 1 ≠ cmdWords w0
            ∨ (op ≠ 1 ∧ !(more.zipIdx.all fun w => s.sees (f.pc + 8 * (w.2 + 1)) 8 w.1)) then s
        else if op ≠ 1 ∧ more.any (·.isNone) then s.badCommand op 5
        else
          let ctx : CmdCtx := { op := op, arg := cmdArg w0, words := more.map (·.getD 0), cur := c, frame := f, rest := rest }
          if ctx.ranges.any s.heldRange then s else body ctx s
  | _, _ => s

/-- A synchronous command. -/
def syncCommand (op : Nat) (ws : List (Option Nat)) (body : CmdCtx → State → State) (s : State) :
    Host.Outcome State Fault Refusal :=
  done (runCommand (· == op) (fun _ => false) ws body s)

/-- The completion tail in two words (R571); nothing where it breaks the rule. -/
def parseTail (a b : Nat) : Option Tail :=
  let fence := a % 65536
  if 2 ^ 18 ≤ a ∨ (4096 ≤ fence ∧ fence ≠ 0xFFFF) then none
  else some { fence := fence, add := a.testBit 16, evt := a.testBit 17, value := b }

/-- Signals what a completion tail names (R571). -/
def State.signalTail (s : State) (t : Tail) (err : Bool) : State :=
  if t.fence = 0xFFFF then s else s.sendSignal t.fence (if t.add then .add t.value else .set t.value) err

/-! ### Commands that only go on, and control flow (R579–R582) -/

/-- NOP does nothing; this row also stands for a command whose opcode is not listed and for a poisoned word 0. -/
def execCpNop (ws : List (Option Nat)) (s : State) : Host.Outcome State Fault Refusal :=
  done (runCommand (fun op => op == 1 || op == 0) (fun _ => false) ws (fun c s => s.advance c) s)

/-- BARRIER waits for the list's asynchronous commands, with ALL for the kitty's tasks too (R586). -/
def execCpBarrier (ws : List (Option Nat)) (s : State) : Host.Outcome State Fault Refusal :=
  syncCommand 2 ws (fun c s =>
    if s.listBusy c.cur.list || (c.arg.testBit 0 && s.tasks.any fun t => t.2.origin == 1) then s else s.advance c) s

/-- Whether a compare code is listed (R579). -/
def cmpListed (code : Nat) : Bool := decide (code ≤ 9)

/-- A compare of `w` bits (R579). -/
def cpCompare (code w a b : Nat) : Bool :=
  let a := a % 2 ^ w
  let b := b % 2 ^ w
  let sa := (BitVec.ofNat w a).toInt
  let sb := (BitVec.ofNat w b).toInt
  match code with
  | 0 => a == b
  | 1 => a != b
  | 2 => decide (a < b)
  | 3 => decide (a ≤ b)
  | 4 => decide (b < a)
  | 5 => decide (b ≤ a)
  | 6 => decide (sa < sb)
  | 7 => decide (sa ≤ sb)
  | 8 => decide (sb < sa)
  | 9 => decide (sb ≤ sa)
  | _ => false

/-- The condition of IF, LOOP_WHILE and a memory watch over the word read, `none` for poison (R579). -/
def cpCondition (cmp : Nat) (size8 : Bool) (value mask : Nat) (v : Option Nat) : Bool :=
  match v with
  | none => false
  | some x => cpCompare cmp (if size8 then 64 else 32) (x &&& mask) value

/-- The condition of an IF or LOOP_WHILE; nothing where `v` is not what its read can return. -/
def CmdCtx.condition (c : CmdCtx) (s : State) (v : Option Nat) : Option Bool :=
  let size8 := c.arg.testBit 4
  if s.sees (c.w 1) (if size8 then 8 else 4) v then
    some (cpCondition (c.arg % 16) size8 (c.w 2) (c.w 3) v)
  else none

/-- The address that SKIP names, where it lies in the frame and holds one of the opcodes; `t` is word 0 there.
`none` makes the command bad (R580). -/
def CmdCtx.target (c : CmdCtx) (t : Option Nat) (ops : List Nat) : Option Nat :=
  let a := c.frame.pc + 8 * (c.arg / 256)
  if a + 8 ≤ c.frame.base + c.frame.len ∧ (t.map fun w => ops.contains (cmdOp w)) = some true then some a else none

/-- Whether `t` is what word 0 at SKIP's target can read as. -/
def CmdCtx.seesTarget (c : CmdCtx) (s : State) (t : Option Nat) : Bool := s.sees (c.frame.pc + 8 * (c.arg / 256)) 8 t

/-- IF: `v` is the word at ADDR, `t` word 0 of its target (R579, R580). -/
def execCpIf (ws : List (Option Nat)) (v t : Option Nat) (s : State) : Host.Outcome State Fault Refusal :=
  syncCommand 0x40 ws (fun c s =>
    if !cmpListed (c.arg % 16) then s.badCommand c.op 2 else
    match c.condition s v with
    | none => s
    | some cond =>
      let s' := if v.isNone then s.listError c.cur.list else s
      if cond then s'.advance c
      else if !c.seesTarget s t then s
      else match c.target t [0x41, 0x42] with
        | none => s'.badCommand c.op 3
        | some a => (s'.count .CPR_CMD_CNT).setFrames (c.goto (if t.map cmdOp = some 0x41 then a + 8 else a))) s

/-- ELSE reached in order skips to its ENDIF (R580). -/
def execCpElse (ws : List (Option Nat)) (t : Option Nat) (s : State) : Host.Outcome State Fault Refusal :=
  syncCommand 0x41 ws (fun c s =>
    if !c.seesTarget s t then s else
    match c.target t [0x42] with
    | none => s.badCommand c.op 3
    | some a => (s.count .CPR_CMD_CNT).setFrames (c.goto a)) s

def execCpEndif (ws : List (Option Nat)) (s : State) : Host.Outcome State Fault Refusal :=
  syncCommand 0x42 ws (fun c s => s.advance c) s

/-- Pushes a loop, or finds the stack full (R581). -/
def CmdCtx.push (c : CmdCtx) (s : State) (e : LoopEnt) : State :=
  if 8 ≤ c.frame.loops.length then s.badCommand c.op 4
  else (s.count .CPR_CMD_CNT).setFrames ({ c.frame with pc := c.next, loops := e :: c.frame.loops } :: c.rest)

/-- Skips a loop: continues after its ENDLOOP (R581). -/
def CmdCtx.skipLoop (c : CmdCtx) (s : State) (t : Option Nat) (loops : List LoopEnt) : State :=
  match c.target t [0x45] with
  | none => s.badCommand c.op 3
  | some a => (s.count .CPR_CMD_CNT).setFrames ({ c.frame with pc := a + 8, loops := loops } :: c.rest)

/-- LOOP: COUNT iterations, none where COUNT is 0. -/
def execCpLoop (ws : List (Option Nat)) (t : Option Nat) (s : State) : Host.Outcome State Fault Refusal :=
  syncCommand 0x43 ws (fun c s =>
    if c.w 1 = 0 then
      if !c.seesTarget s t then s else c.skipLoop s t c.frame.loops
    else c.push s { start := c.next, count := some (c.w 1) }) s

/-- LOOP_WHILE evaluates its condition at each segment start: `v` is the word at ADDR, `t` word 0 of its target. -/
def execCpLoopWhile (ws : List (Option Nat)) (v t : Option Nat) (s : State) : Host.Outcome State Fault Refusal :=
  syncCommand 0x44 ws (fun c s =>
    if !cmpListed (c.arg % 16) then s.badCommand c.op 2 else
    match c.condition s v with
    | none => s
    | some cond =>
      let s' := if v.isNone then s.listError c.cur.list else s
      let again := match c.frame.loops with
        | e :: _ => e.back && e.start == c.frame.pc
        | [] => false
      if cond then
        if again then
          let loops := match c.frame.loops with
            | e :: l => { e with back := false } :: l
            | [] => []
          (s'.count .CPR_CMD_CNT).setFrames ({ c.frame with pc := c.next, loops := loops } :: c.rest)
        else c.push s' { start := c.frame.pc, count := none }
      else if !c.seesTarget s t then s
      else c.skipLoop s' t (if again then c.frame.loops.tail else c.frame.loops)) s

/-- ENDLOOP starts the next iteration, or pops a LOOP whose iterations are complete (R581). -/
def execCpEndloop (ws : List (Option Nat)) (s : State) : Host.Outcome State Fault Refusal :=
  syncCommand 0x45 ws (fun c s =>
    match c.frame.loops with
    | [] => s.badCommand c.op 3
    | e :: rest =>
      let go (pc : Nat) (loops : List LoopEnt) : State :=
        (s.count .CPR_CMD_CNT).setFrames ({ c.frame with pc := pc, loops := loops } :: c.rest)
      if e.count = some (e.done + 1) then go c.next rest
      else go e.start ({ e with done := e.done + 1, back := e.count.isNone } :: rest)) s

/-- CALL opens a frame; it is bad in frame 8 (R582). -/
def execCpCall (ws : List (Option Nat)) (s : State) : Host.Outcome State Fault Refusal :=
  syncCommand 0x46 ws (fun c s =>
    let addr := c.w 1
    let len := c.w 2
    if addr = 0 ∨ addr % 8 ≠ 0 ∨ len = 0 ∨ len % 8 ≠ 0 then s.badCommand c.op 2
    else if 7 ≤ c.rest.length then s.badCommand c.op 4
    else
      (s.count .CPR_CMD_CNT).setFrames ({ base := addr, len := len, pc := addr } :: { c.frame with pc := c.next } :: c.rest)) s

/-- RETURN closes the frame with its loop stack; in frame 1 the list's issue ends (R582). -/
def execCpReturn (ws : List (Option Nat)) (s : State) : Host.Outcome State Fault Refusal :=
  syncCommand 0x47 ws (fun c s => (s.count .CPR_CMD_CNT).setFrames c.rest) s

/-! ### Values and signals (R572, R583) -/

/-- WRITE_VALUE writes 4 or 8 bytes as a release at system scope. -/
def execCpWriteValue (ws : List (Option Nat)) (s : State) : Host.Outcome State Fault Refusal :=
  syncCommand 0x22 ws (fun c s =>
    let n := if c.arg.testBit 0 then 8 else 4
    (s.fabricWrite cpAgent (c.w 1) (leBytes n (c.w 2))).advanceAfter s c) s

/-- SIGNAL and SIGNAL_ADD signal a fence as releases at system scope, complete when acknowledged. -/
def execCpSignal (ws : List (Option Nat)) (s : State) : Host.Outcome State Fault Refusal :=
  syncCommand 0x30 ws (fun c s =>
    (s.sendSignal (c.arg % 4096) (.set (c.w 1)) (c.arg.testBit 16)).advanceAfter s c) s

def execCpSignalAdd (ws : List (Option Nat)) (s : State) : Host.Outcome State Fault Refusal :=
  syncCommand 0x31 ws (fun c s =>
    (s.sendSignal (c.arg % 4096) (.add (c.w 1)) (c.arg.testBit 16)).advanceAfter s c) s

/-- Adds a value at an address as one atomic of a non-caching requester (R583). -/
def State.cpAdd (s : State) (addr n v : Nat) : State :=
  let a := s.normalise addr
  let op := PartOp.amo .add (if n = 8 then 3 else 0) v 0
  match s.memTy a with
  | .host =>
    if n < 4 then s.count .TILE_HOST_ATOM_CNT
    else if !s.hostEn then (s.count .HIF_CPL_TO_CNT).count .TILE_HOST_ATOM_CNT
    else
      let t := s.nextPost
      match s.hostReq (.post t) fun x => .atomic x (offsetOf a) .add n v 0 with
      | none => s
      | some s => { s with posted := NMap.insert s.posted t { unit := 64, use := .write none, since := s.time.bnd } }
  | _ =>
    s.sendPost (.write none) { kind := .ncAtom, agent := cpAgent, home := s.homeOf (lineOf a), line := lineOf a,
                               cmode := (s.codecOf a).1,
                               part := some { thread := 0, addr := a, size := n, op := op } }

/-- PATCH writes or adds a value to DST as a release at system scope; `v` is the word at SRC where SRCK is 1.  The value
of a poisoned source is not stated: it is written as poison, and added as a free value (R583; log entry 17). -/
def execCpPatch (ws : List (Option Nat)) (v : Option Nat) (s : State) : Host.Outcome State Fault Refusal :=
  syncCommand 0x48 ws (fun c s =>
    let n := 2 ^ (c.arg % 4)
    let srck := c.arg / 4 % 4
    let dst := if c.arg.testBit 5 then c.w 1 else (c.frame.pc + c.w 1) % 2 ^ 64
    if dst % n ≠ 0 then s.badCommand c.op 2
    else if srck = 1 ∧ !s.sees (c.w 2) n v then s
    else
      let src := match srck with
        | 0 => some (c.w 2)
        | 1 => v
        | 2 => some ((c.frame.loops.head?.map (·.done)).getD 0)
        | _ => some s.time.now
      match src, c.arg.testBit 4 with
      | some x, false => (s.fabricWrite cpAgent dst (leBytes n x)).advanceAfter s c
      | none, false => (s.fabricWrite cpAgent dst (List.replicate n 0) .poison).advanceAfter s c
      | some x, true => (s.cpAdd dst n (x % 2 ^ (8 * n))).advanceAfter s c
      | none, true =>
        ({ s.cpAdd dst n (Config.freeValue s.free 0 % 2 ^ (8 * n)) with free := s.free + 1 }).advanceAfter s c) s

/-! ### Waits (R557, R584–R586) -/

/-- Goes on after the command in which the current list waits. -/
def State.leaveWait (s : State) : State :=
  match s.cp.cur with
  | none => s
  | some c => match c.frames with
    | [] => s
    | f :: rest =>
      let n := match c.wait with
        | some (.timer _ _) => 16
        | _ => 24
      (s.count .CPR_CMD_CNT).setFrames ({ f with pc := f.pc + n } :: rest)

/-- What a WAIT does whose fence is satisfied (R585). -/
def State.waitDone (s : State) (erract : Nat) (err : Bool) : State :=
  match s.cp.cur with
  | none => s
  | some c =>
    if err && erract == 2 then (s.count .CPR_CMD_CNT).endWith 1
    else (if err && erract == 1 then s.listError c.list else s).leaveWait

/-- Whether a record satisfies a wait for a target (R557). -/
def FenceRec.meets (r : FenceRec) (target : Nat) : Bool := decide (target ≤ r.value) || r.sat

/-- Tests the current list's WAIT on a fence against an observed record. -/
def State.testFence (s : State) (n : Nat) (r : FenceRec) : State :=
  match s.cp.cur.bind (·.wait) with
  | some (.fence m target erract _) => if m = n ∧ r.meets target then s.waitDone erract r.err else s
  | _ => s

/-- Tests the current list's WAIT on a watcher. -/
def State.testWatcher (s : State) (n : Nat) : State :=
  match s.cp.cur.bind (·.wait) with
  | some (.watcher m target _) =>
    if m = n ∧ target ≤ (NMap.get {} s.cp.watch n).fires then s.leaveWait else s
  | _ => s

/-- WAIT tests its source once, and otherwise waits (R584). -/
def execCpWait (ws : List (Option Nat)) (s : State) : Host.Outcome State Fault Refusal :=
  syncCommand 0x32 ws (fun c s =>
    let idx := c.arg % 4096
    let erract := c.arg / 2 ^ 17 % 4
    let rel := c.arg.testBit 19
    let deadline := if c.w 2 = 0 then none else some (s.time.now + c.w 2)
    if erract = 3 then s.badCommand c.op 2
    else if c.arg.testBit 16 then
      if 16 ≤ idx then s.badCommand c.op 7 else
      let target := (if rel then (NMap.get {} s.cp.watch idx).fires else 0) + c.w 1
      (s.onCp fun cp => { cp with cur := some { c.cur with wait := some (.watcher idx target deadline) } }).testWatcher idx
    else
      let r := s.fenceRead (s.fenceOffset idx)
      let target := (if rel then r.1.value else 0) + c.w 1
      (r.2.onCp fun cp => { cp with cur := some { c.cur with wait := some (.fence idx target erract deadline) } }).testFence
        idx r.1) s

/-- A change of fence `n` is observed at a tick, with its record as it then stands (R556, R558). -/
def observeFence (n : Nat) (s : State) : State :=
  let r := s.fenceRead (s.fenceOffset n)
  (r.2.onCp fun cp => { cp with fenSeen := cp.fenSeen.filter (· != n) }).testFence n r.1

def execFenceObserve (n : Fin 4096) (s : State) : Host.Outcome State Fault Refusal :=
  done (if !s.active || s.stopped 1 || !s.cp.fenSeen.contains n.val then s
    else s.tickEvent 8 (2 + n) (.fenceSeen n (s.fenceRead (s.fenceOffset n)).1.value) (observeFence n))

/-- A WAIT that TIMEOUT ticks have not satisfied ends its list (R585). -/
def execWaitTimeout (s : State) : Host.Outcome State Fault Refusal :=
  done (if !s.active || s.stopped 1 then s else match s.cp.cur with
    | none => s
    | some c =>
      let past (d : Option Nat) : Bool := match d with
        | some t => decide (t ≤ s.time.now)
        | none => false
      let out := match c.wait with
        | some (.fence _ _ _ d) => past d
        | some (.watcher _ _ d) => past d
        | _ => false
      match out, c.frames with
      | true, f :: _ => ((s.count .CPR_WAIT_TO_CNT).cmdError (s.cmdAt c.list 0x32 f.pc) 6 0).endWith 4
      | _, _ => s)

/-- TIMER_WAIT (R586). -/
def execCpTimerWait (ws : List (Option Nat)) (s : State) : Host.Outcome State Fault Refusal :=
  syncCommand 0x49 ws (fun c s =>
    let abs := c.arg.testBit 0
    let until' := if abs then c.w 1 else s.time.now + c.w 1
    if until' ≤ s.time.now then s.advance c
    else s.onCp fun cp => { cp with cur := some { c.cur with wait := some (.timer until' abs) } }) s

def execTimerWaitEnd (s : State) : Host.Outcome State Fault Refusal :=
  done (if !s.active || s.stopped 1 then s else match s.cp.cur.bind (·.wait) with
    | some (.timer t _) => if t ≤ s.time.now then s.leaveWait else s
    | _ => s)

/-! ### Watchers (R600–R602) -/

def State.watcher (s : State) (n : Nat) : Watcher := NMap.get {} s.cp.watch n

def State.setWatcher (s : State) (n : Nat) (w : Watcher) : State :=
  s.onCp fun cp => { cp with watch := NMap.set {} cp.watch n w }

/-- A firing raises the count, signals the fence and posts WATCH_FIRED (R602, R605). -/
def fireWatch (n : Nat) (s : State) : State :=
  let w := s.watcher n
  let w := { w with fires := w.fires + 1 }
  let s := s.setWatcher n w
  let s := if w.fence = 0xFFFF then s else s.sendSignal w.fence (.add 1) false
  let s := if w.evt then s.postEvent (deckIndex .CPR 0) (payload [(0, leBytes 1 0x72), (1, leBytes 1 n), (2, leBytes 1 w.kind),
    (8, leBytes 8 s.time.now), (0x10, leBytes 8 w.fires)]) else s
  s.testWatcher n

/-- A live firing is a class 10 event; while REPLAY is set it is ignored (R124). -/
def State.watchEvent (s : State) (n kind level : Nat) : State :=
  if s.isSet .TIK_REPLAY then s else s.tickEvent 10 n (.watchFire n kind level) (fireWatch n)

/-- A watcher's level or result as a number. -/
def levelBit (s : State) (pin : Nat) : Bool := s.pin.cap.testBit pin

/-- WATCH arms a watcher afresh or adopts an armed one (R600). -/
def execCpWatch (ws : List (Option Nat)) (s : State) : Host.Outcome State Fault Refusal :=
  syncCommand 0x50 ws (fun c s =>
    let id := c.arg % 16
    let kind := c.arg / 16 % 4
    let edge := c.arg / 128 % 4
    let fence := c.w 4
    let old := s.watcher id
    let pin := c.arg / 512 % 16
    if kind = 3 ∨ 65536 ≤ fence ∨ (4096 ≤ fence ∧ fence ≠ 0xFFFF) then s.badCommand c.op 2
    else if c.arg.testBit 6 then
      if !old.armed || old.kind != kind then s.badCommand c.op 7
      else (s.setWatcher id { old with fence := fence, evt := c.arg.testBit 14 }).advance c
    else if (kind = 0 ∧ c.w 1 = 0) ∨ (kind = 1 ∧ edge = 0) ∨ (kind = 2 ∧ !cmpListed (c.arg / 65536 % 16)) then
      s.badCommand c.op 2
    else
      let w : Watcher :=
        { armed := true, kind := kind, edge := edge, pin := pin, periodic := c.arg.testBit 13, evt := c.arg.testBit 14,
          cmp := c.arg / 65536 % 16, size8 := c.arg.testBit 20, period := c.w 1, addr := c.w 1, value := c.w 2,
          mask := c.w 3, fence := fence, next := s.time.now + c.w 1, last := kind == 1 && levelBit s pin,
          readAt := s.time.bnd }
      (s.setWatcher id w).advance c) s

/-- UNWATCH disarms a watcher and keeps its count. -/
def execCpUnwatch (ws : List (Option Nat)) (s : State) : Host.Outcome State Fault Refusal :=
  syncCommand 0x51 ws (fun c s =>
    (s.setWatcher (c.arg % 16) { s.watcher (c.arg % 16) with armed := false }).advance c) s

/-- A timer watcher reaches its tick: a periodic one goes on, another disarms (R601). -/
def execWatchTimerFire (n : Fin 16) (s : State) : Host.Outcome State Fault Refusal :=
  let w := s.watcher n
  done (if !s.active || s.stopped 1 || !w.armed || w.kind != 0 || decide (s.time.now < w.next) then s else
    let w := if w.periodic then { w with next := w.next + w.period } else { w with armed := false }
    (s.setWatcher n w).watchEvent n 0 0)

/-- An edge that a watcher's detector has found fires it (R601). -/
def execWatchEdgeFire (n : Fin 16) (s : State) : Host.Outcome State Fault Refusal :=
  let w := s.watcher n
  done (if !s.active || s.stopped 1 || !w.armed || w.kind != 1 || w.next == 0 then s else
    (s.setWatcher n { w with next := w.next - 1 }).watchEvent n 1 (bit w.last))

/-- A memory watch reads its word each effective interval and fires when its result becomes true (R601). -/
def execWatchMemoryRead (n : Fin 16) (s : State) : Host.Outcome State Fault Refusal :=
  let w := s.watcher n
  done (if !s.active || s.stopped 1 || !w.armed || w.kind != 2 then s else
    match s.takeGot (.watch n) with
    | some (v, s) =>
      let now := cpCondition w.cmp w.size8 w.value w.mask v
      let s := s.setWatcher n { w with last := now, readAt := s.time.bnd + ticksOfNs s.effPollNs }
      if now && !w.last then s.watchEvent n 2 1 else s
    | none =>
      if s.cpReading (.watch n) || decide (s.time.bnd < w.readAt) then s
      else s.cpRead (.watch n) w.addr (if w.size8 then 8 else 4))

/-! ### Descriptors (R537–R544) -/

/-- The fields of a descriptor. -/
def descOf (num : Nat) (b : List Byte) : Desc :=
  let f (o n : Nat) : Nat := leNat ((b.drop o).take n)
  { num := num, kind := f 0 1, flags := f 1 1, msiVec := f 2 1, len := f 4 4, addr := f 8 8, fence := f 0x10 2,
    value := f 0x18 8, user := f 0x20 8 }

/-- Whether a descriptor is bad (R538). -/
def descBad (num : Nat) (b : List Byte) : Bool :=
  let d := descOf num b
  let zero (o n : Nat) : Bool := leNat ((b.drop o).take n) == 0
  leNat ((b.drop 0x3C).take 4) != num || decide (2 < d.kind) || decide (16 ≤ d.flags) || decide (16 ≤ d.msiVec)
    || !zero 3 1 || !zero 0x12 6 || !zero 0x28 20 || (decide (4096 ≤ d.fence) && d.fence != 0xFFFF)
    || (if d.kind = 0 then d.len != 0 || d.addr != 0 else d.len == 0 || d.len % 8 != 0 || d.addr % 8 != 0)

/-- The CP fetches the next available descriptor; `b` is what its read returns, `none` for poison (R538, R603). -/
def execDescFetch (b : Option (List Byte)) (s : State) : Host.Outcome State Fault Refusal :=
  let head := s.reg .CTX_RING_HEAD
  let addr := s.reg64 .CTX_RING_BASE_LO .CTX_RING_BASE_HI + 64 * (head % 2 ^ s.reg .CTX_RING_LOG2)
  let ok := match b with
    | none => (List.range 8).any fun i => s.sees (addr + 8 * i) 8 none
    | some l => l.length == 64 && (List.range 8).all fun i => s.sees (addr + 8 * i) 8 (some (leNat ((l.drop (8 * i)).take 8)))
  done (if !s.active || s.stopped 1 || s.cp.next.isSome || head == s.reg .CTX_RING_TAIL || !ok then s else
    let s := s.setReg .CTX_RING_HEAD ((head + 1) % 2 ^ 32)
    match b with
    | none => (s.count .CTX_DESC_ERR_CNT).ringError 4 head
    | some l =>
      if descBad head l then (s.count .CTX_DESC_ERR_CNT).ringError 2 head
      else s.onCp fun cp => { cp with next := some (descOf head l) })

/-- Whether a fetched descriptor may begin: with WAIT_PREV only when every earlier one has completed (R543). -/
def State.mayBegin (s : State) (d : Desc) : Bool := !d.flags.testBit 0 || s.cp.descs.all fun x => x.status.isSome

/-- The fetched descriptor, where it is of a kind and the CP runs. -/
def State.nextDesc (s : State) (kind : Nat) : Option Desc :=
  if !s.active || s.stopped 1 then none else
  match s.cp.next with
  | some d => if d.kind = kind then some d else none
  | none => none

/-- Takes the fetched descriptor into the order of completion. -/
def State.beginDesc (s : State) (d : Desc) : State := s.onCp fun cp => { cp with next := none, armed := none, descs := cp.descs ++ [d] }

def execDescNop (s : State) : Host.Outcome State Fault Refusal :=
  done (match s.nextDesc 0 with
    | some d => if s.mayBegin d then s.beginDesc { d with status := some 0 } else s
    | none => s)

/-- A LIST descriptor begins once no list is current and every ready kitty record has been applied (R543, R597). -/
def execDescList (s : State) : Host.Outcome State Fault Refusal :=
  done (match s.nextDesc 1 with
    | some d =>
      if s.cp.cur.isSome || s.kittyDue || !s.mayBegin d then s
      else (s.beginDesc d).beginList (some d.num) {} d.addr d.len
    | none => s)

/-- An EXCHANGE descriptor arms an exchange while a ring list is current, waits out a kitty list, and otherwise acts as
a LIST (R603). -/
def execDescExchange (s : State) : Host.Outcome State Fault Refusal :=
  done (match s.nextDesc 2 with
    | none => s
    | some d => match s.cp.cur with
      | none => if s.kittyDue then s else (s.beginDesc d).beginList (some d.num) {} d.addr d.len
      | some c =>
        if s.fromKitty c.list || s.cp.armed.isSome then s
        else s.onCp fun cp => { cp with armed := some s.time.bnd })

/-- The commit of an exchange: the old list's issue ends as EXCHANGED, and the new list becomes current (R604). -/
def applyExchange (s : State) : State :=
  match s.cp.next with
  | none => s
  | some d =>
    let s := (s.endWith 3).count .CPR_EXCH_CNT
    (s.beginDesc d).beginList (some d.num) {} d.addr d.len

/-- Commits an armed exchange at the first tick at which the list is at a command boundary or waits (R603). -/
def execExchangeCommit (s : State) : Host.Outcome State Fault Refusal :=
  done (if !s.active || s.stopped 1 then s else match s.cp.armed, s.cp.cur with
    | some t, some c =>
      if decide (s.time.bnd ≤ t) || s.fromKitty c.list || !s.answered c.hold then s
      else s.tickEvent 9 (cfgSrc .CPR 0) .exchange applyExchange
    | _, _ => s)

/-- A list completes once its issue has ended and its asynchronous commands have completed (R587): its descriptor takes
its status, or its kitty record's tail is applied (R597). -/
def execListComplete (id : Nat) (s : State) : Host.Outcome State Fault Refusal :=
  done (if s.stopped 1 then s else match s.listRun id with
    | none => s
    | some r =>
      if !r.ended || s.listBusy id then s else
      let s := s.onCp fun cp => { cp with lists := NMap.erase cp.lists id }
      match r.desc with
      | some n => s.onCp fun cp => { cp with descs := cp.descs.map fun d => if d.num = n then { d with status := some r.status } else d }
      | none => s.signalTail r.tail (r.status != 0 && r.status != 3))

/-- Whether a mirror has still to write a change of a fence. -/
def State.mirrorOwes (s : State) (n : Nat) : Bool :=
  s.cp.mirDue.any fun m => s.isSet .FEN_MIR_EN 0 m && s.reg .FEN_MIR_FENCE 0 m == n

/-- DESC_DONE and the message of a completed descriptor (R544, R548). -/
def State.descDone (s : State) (d : Desc) (st : Nat) : State :=
  let s := s.onCp fun cp => { cp with descs := cp.descs.drop 1 }
  let s := if d.flags.testBit 2 then
      s.postEvent (deckIndex .CTX 0) (payload [(0, leBytes 1 0x44), (1, leBytes 1 st), (8, leBytes 8 s.time.now),
        (0x10, leBytes 4 d.num), (0x18, leBytes 8 d.user)])
    else s
  if d.flags.testBit 3 then s.sendMsi d.msiVec else s

/-- In ring order a completed descriptor signals its fence; once the signal has been applied and its mirrors written, it
posts DESC_DONE and sends its message (R544). -/
def execDescComplete (s : State) : Host.Outcome State Fault Refusal :=
  done (if !s.active || s.stopped 1 then s else match s.cp.descs with
    | [] => s
    | d :: rest => match d.status, d.signalled with
      | none, _ => s
      | some st, none =>
        if d.fence = 0xFFFF then s.descDone d st else
        let op := if d.flags.testBit 1 then FenceOp.add d.value else .set d.value
        let s' := s.sendSignal d.fence op (st != 0 && st != 3)
        s'.onCp fun cp => { cp with descs := { d with signalled := some (newPosts s s') } :: rest }
      | some st, some tags => if s.answered tags && !s.mirrorOwes d.fence then s.descDone d st else s)

end Sys2Proof.Machine
end

