-- ==== Sys2Proof/Machine/Task.lean ====
section
/-!
DEFINITION. Tasks and their hands: the asynchronous commands of the dispatcher and the data mover, placement, release
and completion, and the kitty (R129–R134, R142–R146, R203, R204, R571–R573, R588–R599).
-/
namespace Sys2Proof.Machine

/-! ### LAUNCH (R589, R590) -/

/-- The number of hands of a task (R590). -/
def Task.hands (t : Task) : Nat := (t.threads + 63) / 64

/-- Issues a task with the next task ID; `shape` is laid out as SHAPE (R589, R590). -/
def State.newTask (s : State) (threads shape pc mask nweight : Nat) (params : List Byte) (tail : Tail) (origin : Nat)
    (list : Option Nat) (cmd : Option CmdAt) : State :=
  let id := s.reg64 .CPR_NEXT_TASK_LO .CPR_NEXT_TASK_HI
  let t : Task :=
    { id := id, threads := threads, vregs := 16 * (shape / 2 ^ 32 % 16 + 1), opg := shape / 2 ^ 36 % 32,
      apg := shape / 2 ^ 41 % 32, pc := pc, mask := mask, nweight := nweight, params := params, tail := tail,
      origin := origin, list := list, cmd := cmd }
  { s with tasks := NMap.insert s.tasks id t }.setReg64 .CPR_NEXT_TASK_LO .CPR_NEXT_TASK_HI (id + 1)

/-- Whether SHAPE breaks its rule (R589). -/
def shapeBad (shape : Nat) : Bool :=
  decide (2 ^ 46 ≤ shape) || decide (16 < shape / 2 ^ 36 % 32) || decide (16 < shape / 2 ^ 41 % 32)

/-- LAUNCH and LAUNCH_INDIRECT: word 6, and for the latter word 7, starts the parameter block. -/
def launch (c : CmdCtx) (threads first : Nat) (s : State) : State :=
  match parseTail (c.w 4) (c.w 5) with
  | none => s.badCommand c.op 2
  | some tail =>
    if shapeBad (c.w 3) || c.w 1 % 8 != 0 then s.badCommand c.op 2 else
    let params := ((c.words.drop (first - 1)).flatMap (leBytes 8)).take (c.arg % 512)
    (s.newTask threads (c.w 3) (c.w 1) (c.w 2) (c.arg / 512 % 4) params tail 0 (some c.cur.list)
      (some (s.cmdAt c.cur.list c.op c.frame.pc))).advance c

def execCpLaunch (ws : List (Option Nat)) (s : State) : Host.Outcome State Fault Refusal :=
  done (runCommand (· == 0x10) (fun s => !s.taskRoom) ws (fun c s => launch c (c.w 3 % 2 ^ 32) 6 s) s)

/-- LAUNCH_INDIRECT: `t` is the 4-byte word at TADDR. -/
def execCpLaunchIndirect (ws : List (Option Nat)) (t : Option Nat) (s : State) : Host.Outcome State Fault Refusal :=
  done (runCommand (· == 0x11) (fun s => !s.taskRoom) ws (fun c s =>
    if c.w 6 % 4 ≠ 0 ∨ c.w 3 % 2 ^ 32 ≠ 0 then s.badCommand c.op 2
    else if !s.sees (c.w 6) 4 t then s
    else match t with
      | none => s.badCommand c.op 5
      | some t => launch c (t % 2 ^ 32) 7 s) s)

/-! ### COPY and FILL (R573, R588) -/

/-- Whether the data mover, or the codec engine, is full (R573). -/
def State.engineFull (s : State) (codec : Bool) : Bool :=
  decide ((if codec then 4 else 16) ≤ (s.cp.asyncs.filter fun a => a.2.codec == codec).length)

/-- Hands an asynchronous command to its engine; the state knows it by the number before the call's `nextAsync`. -/
def State.newAsync (s : State) (c : CmdCtx) (codec : Bool) (tail : Tail) : State :=
  let a : AsyncCmd := { codec := codec, list := c.cur.list, cmd := s.cmdAt c.cur.list c.op c.frame.pc, tail := tail }
  s.onCp fun cp => { cp with asyncs := NMap.insert cp.asyncs cp.nextAsync a, nextAsync := cp.nextAsync + 1 }

/-- Changes an asynchronous command. -/
def State.onAsync (s : State) (id : Nat) (f : AsyncCmd → AsyncCmd) : State :=
  match NMap.find? s.cp.asyncs id with
  | none => s
  | some a => s.onCp fun cp => { cp with asyncs := NMap.insert cp.asyncs id (f a) }

/-- A status for an asynchronous command that has none yet. -/
def State.asyncStatus (s : State) (id st : Nat) : State := s.onAsync id fun a => if a.status = 0 then { a with status := st } else a

/-- Bytes with the state of the granule that each comes from. -/
abbrev Marked := List (Byte × GState)

/-- The pieces of a range: address and length (R283). -/
def rangePieces (a n : Nat) : List (Nat × Nat) := (pieces (n + 1) a (List.replicate n 0)).map fun p => (p.1, p.2.length)

/-- Whether bytes can be what an engine of this tile reads at an address, piece by piece (R289). -/
def State.seesBytes (s : State) (a : Nat) (data : Marked) : Bool :=
  (rangePieces a data.length).all fun p =>
    let n := s.normalise p.1
    let d := (data.drop (p.1 - a)).take p.2
    if tileOf n = 0xFFFE then s.hostEn || d.all (·.2 == .poison)
    else if !s.populated n then d.all (·.2 == .poison)
    else match s.peekData n with
      | none => true
      | some l => d.zipIdx.all fun x =>
        let off := n % 128 + x.2
        x.1.2 == l.gran.getD (off / 32) .good && (x.1.2 != .good || x.1.1 == l.bytes.getD off 0)

/-- An engine's reads of a range count the decode errors of the entropy blocks they meet on this tile (R406). -/
def State.readUnits (s : State) (a n : Nat) : State :=
  let blocks := (List.range ((a % 2048 + n + 2047) / 2048)).map fun i => s.normalise (a / 2048 * 2048 + 2048 * i)
  foldState (fun s b =>
    if s.modeAt b ≠ 1 ∨ !s.isOwn b ∨ !s.populated b then s else
    let e := s.mapEntry (offsetOf b)
    (e.2.decodeUnit false (e.2.codecOf b).2 (offsetOf b) e.1).2) blocks s

/-- Sends a whole unit to its home for an asynchronous command: a stored form with its map entry, or raw with entry 0. -/
def State.sendUnit (s : State) (who : Agent) (id a mode entry : Nat) (d : LineData) : State :=
  s.sendPost (.write (some id)) { kind := .stWr, agent := who, home := s.homeOf (lineOf a), line := lineOf a, cmode := mode,
                                  entry := entry, data := some d }

/-- The states of the granules of bytes that start at a granule's first byte. -/
def granStates : Nat → Marked → List GState
  | 0, _ => []
  | fuel + 1, d => if d.isEmpty then [] else
    (d.take 32).foldl (fun acc x => worse acc x.2) .good :: granStates fuel (d.drop 32)

/-- Writes a full block of an entropy window: encoded, or raw with the state of each granule where one is bad (R426). -/
def State.writeBlock (s : State) (who : Agent) (id a : Nat) (d : Marked) : State :=
  let gs := granStates 64 d
  let bytes := d.map (·.1)
  if gs.any (· != .good) then s.sendUnit who id a 1 0 ⟨bytes, gs⟩
  else
    let e := s.encodeFor (s.codecOf a).2 bytes
    e.2.sendUnit who id a 1 e.1.1 ⟨e.1.2, List.replicate 64 .good⟩

/-- Cuts a write into full blocks of entropy windows and granules; `fuel` bounds the parts. -/
def writeParts (s : State) : Nat → Nat → Marked → List (Nat × Marked)
  | 0, _, _ => []
  | fuel + 1, a, d =>
    if d.isEmpty then [] else
    let n := if a % 2048 = 0 ∧ 2048 ≤ d.length ∧ s.modeAt (s.normalise a) = 1 then 2048 else 32 - a % 32
    (a, d.take n) :: writeParts s fuel (a + n) (d.drop n)

/-- Writes marked bytes for an asynchronous command: a granule that receives a byte of a POISON or LOST one is written
in that state over the whole, a piece at an unpopulated offset of this tile is discarded (R588), and a full block of an
entropy window is encoded (R426). -/
def State.writeMarked (s : State) (who : Agent) (id dst : Nat) (data : Marked) : State :=
  foldState (fun s p =>
    let a := s.normalise p.1
    if !s.populated a then s.asyncStatus id 4
    else if p.2.length = 2048 then s.writeBlock who id a p.2
    else s.writePiece who p.1 (p.2.map (·.1)) (p.2.foldl (fun acc x => worse acc x.2) .good) (some id))
    (writeParts s (data.length + 1) dst data) s

/-- COPY: `data` is what its reads of the source return. -/
def execCpCopy (ws : List (Option Nat)) (data : Marked) (s : State) : Host.Outcome State Fault Refusal :=
  done (runCommand (· == 0x20) (fun s => s.engineFull false) ws (fun c s =>
    match parseTail (c.w 4) (c.w 5) with
    | none => s.badCommand c.op 2
    | some tail =>
      if 2 ^ 40 ≤ c.w 3 then s.badCommand c.op 2
      else if data.length ≠ c.w 3 ∨ !s.seesBytes (c.w 1) data then s
      else
        let id := s.cp.nextAsync
        let s := ((s.newAsync c false tail).readUnits (c.w 1) data.length).writeMarked cpAgent id (c.w 2) data
        (if data.any (·.2 != .good) then s.asyncStatus id 4 else s).advance c) s)

/-- FILL repeats PATTERN's eight bytes from DST on (DEDUCED, log entry 18). -/
def execCpFill (ws : List (Option Nat)) (s : State) : Host.Outcome State Fault Refusal :=
  done (runCommand (· == 0x21) (fun s => s.engineFull false) ws (fun c s =>
    match parseTail (c.w 4) (c.w 5) with
    | none => s.badCommand c.op 2
    | some tail =>
      if 2 ^ 40 ≤ c.w 2 then s.badCommand c.op 2
      else
        let id := s.cp.nextAsync
        let p := leBytes 8 (c.w 3)
        let data : Marked := (List.range (c.w 2)).map fun i => (p.getD (i % 8) 0, .good)
        ((s.newAsync c false tail).writeMarked cpAgent id (c.w 1) data).advance c) s)

/-- An asynchronous command whose status is not OK makes its list's status ERROR and posts CMD_ERROR (R587, R605). -/
def State.asyncFailed (s : State) (list : Option Nat) (cmd : Option CmdAt) (st : Nat) : State :=
  if st = 0 then s else
  let s := match list with
    | some l => s.listError l
    | none => s
  match cmd with
  | some a => s.cmdError a 0 st
  | none => s

/-- An asynchronous command of the data mover or codec engine completes once its work is done and its writes are
performed (R571, R572). -/
def execAsyncComplete (id : Nat) (s : State) : Host.Outcome State Fault Refusal :=
  done (if s.stopped 1 then s else match NMap.find? s.cp.asyncs id with
    | none => s
    | some a =>
      if a.busy || s.posted.any fun p => p.2.use == .write (some id) && !p.2.quar then s else
      let s := s.onCp fun cp => { cp with asyncs := NMap.erase cp.asyncs id }
      (s.signalTail a.tail (a.status != 0)).asyncFailed (some a.list) (some a.cmd) a.status)

/-! ### Placement (R130, R131, R142, R146, R591, R592) -/

/-- The free blocks or pages of a table, lowest first. -/
def freeOf (m : NMap BlkSt) (n : Nat) : List Nat := numsWhere n fun i => NMap.get .free m i == .free

/-- Whether a core can take a hand of a task (R130). -/
def canTake (co : Core) (t : Task) : Bool :=
  decide (co.slots.length < 16) && decide (t.vregs / 16 ≤ (freeOf co.vb 64).length)
    && decide (t.opg ≤ (freeOf co.ob 16).length) && decide (t.apg ≤ (freeOf co.ab 16).length)

/-- Takes the first `n` of the free blocks. -/
def takeBlocks (m : NMap BlkSt) (l : List Nat) : NMap BlkSt := l.foldl (fun m i => NMap.set .free m i .used) m

/-- The core of a cluster that a hand goes to: the one with the most EMPTY slots of those that can take it, the lowest
on a tie. -/
def coreFor (s : State) (c : Nat) (t : Task) : Option Nat :=
  let able := ((List.range 4).map (4 * c + ·)).filter fun i => canTake (s.core i) t
  able.foldl (fun best i => match best with
    | none => some i
    | some b => if (s.core i).slots.length < (s.core b).slots.length then some i else best) none

/-- The live mask of hand `n` of a task (R146). -/
def Task.liveMask (t : Task) (n : Nat) : DWord :=
  let left := t.threads - 64 * n
  if 64 ≤ left then BitVec.allOnes 64 else BitVec.ofNat 64 (2 ^ left - 1)

/-- The uniform registers at launch (R142, R143). -/
def Task.launchRegs (t : Task) (n now : Nat) : NMap DWord :=
  let words := (List.range 56).map fun k => leNat ((t.params.drop (8 * k)).take 8)
  let all : List (Nat × Nat) := [(1, n), (2, t.hands), (3, t.id), (4, now)] ++ words.zipIdx.map fun w => (w.2 + 8, w.1)
  let regs : NMap DWord := all.map fun p => (p.1, BitVec.ofNat 64 p.2)
  regs.filter fun p => p.2 != 0

/-- Places the next hand of a task on a core (R129–R131). -/
def placeOn (s : State) (i : Nat) (t : Task) : State :=
  let co := s.core i
  let vb := (freeOf co.vb 64).take (t.vregs / 16)
  let ob := (freeOf co.ob 16).take t.opg
  let ab := (freeOf co.ab 16).take t.apg
  let slot := (firstWhere 16 fun n => (NMap.find? co.slots n).isNone).getD 0
  let h : Hand := { task := t.id, vregs := t.vregs, vblk := vb, osbPages := ob, accPages := ab,
                    pc := BitVec.ofNat 64 t.pc, live := t.liveMask t.placed, ureg := t.launchRegs t.placed s.coreTime }
  s.setCore i { co with slots := NMap.insert co.slots slot h, vb := takeBlocks co.vb vb, ob := takeBlocks co.ob ob,
                        ab := takeBlocks co.ab ab }

/-- The clusters that a task's hands may go to (R591). -/
def candidates (s : State) (t : Task) : List Nat :=
  numsWhere 64 fun c => t.mask.testBit c && s.usable (deckIndex .CLU c) && (NMap.find? s.deck.draining c).isNone

/-- The clusters of a list in circular order from a cluster. -/
def circular (l : List Nat) (from' : Nat) : List Nat := l.filter (from' ≤ ·) ++ l.filter (· < from')

/-- The task whose hand is placed next: the oldest with a hand still to place (R591). -/
def State.placing (s : State) : Option Task :=
  (List.find? (fun (t : Nat × Task) => !t.2.aborted && !t.2.noCluster && decide (t.2.placed < t.2.hands)) s.tasks).map (·.2)

/-- How many tick boundaries 256 cycles of a cluster's clock last, rounded up (R592). -/
def noticeTicks (s : State) (c : Nat) : Nat :=
  let f := s.reg .CRG_F_EFF_MHZ c
  if f = 0 then 43 else (25600 + f - 1) / f

/-- The dispatcher places the next hand, sends the load notice that must go first, or waits (R591, R592). -/
def execHandPlace (s : State) : Host.Outcome State Fault Refusal :=
  done (if !s.active || s.stopped 1 then s else match s.placing with
    | none => s
    | some t =>
      if t.held then s else
      let cand := candidates s t
      match cand with
      | [] => s.onTask t.id fun t => { t with noCluster := true, dark := t.dark || decide (0 < t.placed) }
      | low :: _ =>
        let order := circular cand (t.cursor.getD low)
        match order.find? fun c => s.clocked c && !s.drains c && (coreFor s c t).isSome with
        | none => s
        | some c =>
          let ready := t.nweight == 0 || match NMap.find? t.noticed c with
            | some at' => decide (at' + noticeTicks s c ≤ s.time.bnd)
            | none => false
          if !ready then
            if (NMap.find? t.noticed c).isSome then s else
            let s := { s with pwr := { s.pwr with notices := s.pwr.notices ++ [(c, t.nweight)] } }
            s.onTask t.id fun t => { t with noticed := NMap.insert t.noticed c s.time.bnd }
          else match coreFor s c t with
            | none => s
            | some i =>
              let after := cand.find? (c < ·)
              (placeOn s i t).onTask t.id fun t =>
                { t with placed := t.placed + 1, cursor := some (after.getD low),
                         firstPlaced := some (t.firstPlaced.getD s.time.now) })

/-! ### Release (R132, R133, R247, R248) -/

/-- Marks blocks or pages as being zeroed. -/
def zeroBlocks (m : NMap BlkSt) (l : List Nat) : NMap BlkSt := l.foldl (fun m i => NMap.set .free m i .zeroing) m

/-- Releases a hand's slot, and its blocks and pages for zeroing. -/
def releaseHand (s : State) (c slot : Nat) : State :=
  match s.hand c slot with
  | none => s
  | some h =>
    let co := s.core c
    s.setCore c { co with slots := NMap.erase co.slots slot, vb := zeroBlocks co.vb h.vblk,
                          ob := zeroBlocks co.ob h.osbPages, ab := zeroBlocks co.ab h.accPages }

/-- In the cluster cycle after `halt` completes, or after a removed hand's last instruction completes, the hand's
holdings are released. -/
def execHandRelease (x : HandId) (s : State) : Host.Outcome State Fault Refusal :=
  done (if !s.clocked (clusterOf x.core) then s else match s.hand x.core x.slot with
    | none => s
    | some h => if h.st == .releasing && h.ops.isEmpty then releaseHand s x.core x.slot else s)

/-- A removed hand stops at its next instruction boundary, at once where it sleeps; once what it issued has completed it
releases its holdings, and its sticky flags are not reported. -/
def execHandRemove (x : HandId) (s : State) : Host.Outcome State Fault Refusal :=
  done (if !s.clocked (clusterOf x.core) then s else match s.hand x.core x.slot with
    | none => s
    | some h =>
      if h.removed && h.ops.isEmpty then
        s.setHand x.core x.slot { h with st := .releasing, stop := none, poison := none }
      else s)

/-- Drops the entries of a table whose keys lie in a range. -/
def dropRange {α : Type} (m : NMap α) (lo n : Nat) : NMap α := m.filter fun p => p.1 < lo || lo + n ≤ p.1

/-- The core has zeroed a released register block, or a page of the OSB or ACC, and it becomes free (R133). -/
def execStorageZeroed (core : Fin 256) (what : Store) (n : Nat) (s : State) : Host.Outcome State Fault Refusal :=
  let co := s.core core
  let due (m : NMap BlkSt) : Bool := NMap.get .free m n == .zeroing
  done (if !s.clocked (clusterOf core) then s else match what with
    | .regs => if due co.vb then
        s.setCore core { co with vb := NMap.set .free co.vb n .free, vrf := dropRange co.vrf (16 * n) 16 } else s
    | .osb => if due co.ob then
        s.setCore core { co with ob := NMap.set .free co.ob n .free, osb := dropRange co.osb (8192 * n) 8192 } else s
    | .acc => if due co.ab then
        s.setCore core { co with ab := NMap.set .free co.ab n .free, acc := dropRange co.acc (2048 * n) 2048 } else s)

/-! ### Task completion (R246, R593, R594) -/

/-- Whether every write that Staged stores have gathered is performed: no assembly buffer holds bytes, and no flush is
under way (R425). -/
def State.stagedDone (s : State) : Bool :=
  s.clus.all fun c => c.2.asm.isEmpty && !c.2.reqs.any fun r => r.2.kind == .stWr && r.2.waiters.isEmpty && !r.2.quar

/-- The status of a task (R588). -/
def Task.status (t : Task) : Nat := if t.faulted then 1 else if t.dark then 2 else if t.noCluster then 3 else 0

/-- TASK_DONE (R594). -/
def State.taskDone (s : State) (t : Task) : State :=
  s.postEvent (deckIndex .CPR 0) (payload [(0, leBytes 1 0x70), (1, leBytes 1 t.status), (2, leBytes 1 t.flags.toNat),
    (3, leBytes 1 t.origin), (4, leBytes 4 t.faults), (8, leBytes 8 s.time.now), (0x10, leBytes 8 t.id),
    (0x18, leBytes 4 t.hands), (0x1C, leBytes 4 t.lost), (0x20, leBytes 8 (t.firstPlaced.getD 0))])

/-- A task completes when each of its hands has halted or been removed and their writes are performed. -/
def execTaskComplete (id : Nat) (s : State) : Host.Outcome State Fault Refusal :=
  done (if s.stopped 1 then s else match s.task id with
    | none => s
    | some t =>
      let placed := t.aborted || t.noCluster || decide (t.hands ≤ t.placed)
      if !placed || !(handsWhere s fun _ _ h => h.task == id).isEmpty then s
      else if !s.stagedDone then foldState (fun s c => s.flushAllAsm c) (s.clus.map (·.1)) s
      else
        let s := { s with tasks := NMap.erase s.tasks id }.count .CPR_TASK_CNT
        let s := if t.status = 0 then s else s.count .CPR_TASK_ERR_CNT
        let s := s.signalTail t.tail (t.status != 0)
        let s := if t.tail.evt || (s.isSet .CPR_TASK_EVT_ERR && t.status != 0) then s.taskDone t else s
        s.asyncFailed t.list t.cmd t.status)

/-! ### The kitty (R203, R595–R599) -/

/-- KITTY_ERROR (R605), with the record's count (R596). -/
def State.kittyError (s : State) (cause : Nat) (rec' : Option (List Byte)) : State :=
  (s.count .KIT_BAD_CNT).postEvent (deckIndex .KIT 0) (payload [(0, leBytes 1 0x73), (1, leBytes 1 cause),
    (8, leBytes 8 s.time.now), (0x10, (rec'.getD (List.replicate 8 0)).take 8)])

/-- Takes the head of the kitty. -/
def State.popKitty (s : State) : State := s.onCp fun cp => { cp with kitty := cp.kitty.drop 1, burst := cp.burst + 1 }

/-- Applies the head of the kitty where it is due and of a type; a bad or poisoned head is discarded by whichever row
meets it (R596, R597). -/
def kittyApply (rtype : Nat) (f : KRec → State → State) (s : State) : State :=
  if !s.active || s.stopped 1 || !s.kittyDue then s else
  match s.kittyHead with
  | none => s
  | some r => match r with
    | none => s.popKitty.kittyError 2 none
    | some b =>
      if kittyBad b then s.popKitty.kittyError 1 (some b)
      else if (kittyFields b).rtype ≠ rtype then s
      else f (kittyFields b) s

/-- The tail of a record. -/
def KRec.tail (r : KRec) : Tail := { fence := r.fence, value := r.value, add := r.flags.testBit 0, evt := r.flags.testBit 1 }

/-- A LAUNCH record: `ps` are the words of its parameter block, `none` for poison (R598). -/
def execKittyLaunch (ps : List (Option Nat)) (s : State) : Host.Outcome State Fault Refusal :=
  done (kittyApply 1 (fun r s =>
    if s.heldRange (r.param, r.plen) ∨ ps.length ≠ (r.plen + 7) / 8 ∨ !(ps.zipIdx.all fun p => s.sees (r.param + 8 * p.2) 8 p.1) then s
    else if ps.any (·.isNone) then s.popKitty.kittyError 3 (s.kittyHead.getD none)
    else
      let params := (ps.flatMap fun p => leBytes 8 (p.getD 0)).take r.plen
      let shape := r.res % 16 * 2 ^ 32 + r.res / 16 % 32 * 2 ^ 36 + r.res / 512 % 32 * 2 ^ 41
      (s.popKitty.count .KIT_APPLIED_CNT).newTask r.threads shape r.pc r.mask (r.res / 2 ^ 14 % 4) params r.tail 1 none none) s)

/-- A signal that a record asks for; a fence of 0xFFFF names none. -/
def kittySignal (r : KRec) (op : FenceOp) (s : State) : State :=
  let s := s.popKitty.count .KIT_APPLIED_CNT
  if r.fence = 0xFFFF then s else s.sendSignal r.fence op (r.flags.testBit 2)

def execKittySignal (s : State) : Host.Outcome State Fault Refusal :=
  done (kittyApply 2 (fun r s => kittySignal r (.set r.value) s) s)

def execKittySignalAdd (s : State) : Host.Outcome State Fault Refusal :=
  done (kittyApply 3 (fun r s => kittySignal r (.add r.value) s) s)

/-- A LIST record runs as a list in frame 1 while no list is current. -/
def execKittyList (s : State) : Host.Outcome State Fault Refusal :=
  done (kittyApply 4 (fun r s => (s.popKitty.count .KIT_APPLIED_CNT).beginList none r.tail r.pc r.threads) s)

/-- The bytes of a reserved slot's record have been read, and the slot becomes ready (R596). -/
def execKittyRecordReady (n : Nat) (s : State) : Host.Outcome State Fault Refusal :=
  done (if s.stopped 1 then s else match s.cp.kitty[n]? with
    | some (.reserved core slot op part) =>
      match (s.hand core slot).bind fun h => (h.ops.find? fun o => o.id == op).bind fun o => NMap.find? o.res part with
      | none => s
      | some r => s.onCp fun cp => { cp with kitty := cp.kitty.set n (.ready (if r.gran = .good then some r.bytes else none)) }
    | _ => s)

/-! ### enq and fsig (R203, R204) -/

/-- The rules of `enq` and `fsig`. -/
def enqRule : OpRule := { types := [0], d := .pred, a := .opn, b := .opn, c := .no }
def fsigRule : OpRule := { types := [0], d := .no, a := .opn, b := .opn, c := .no, fnMask := 1, immOk := false, lngOk := false }

/-- Reserves kitty slots for the accesses of an `enq` in thread order, writes p[DST], and starts the reads. -/
def enqBody (i : Issue) (ins : Insn) (s : State) (co : Core) (h : Hand) : State :=
  let c := i.core.val
  let sl := i.slot.val
  let accs := threadAccesses co h ins
  let got := accs.take (8192 - s.cp.kitty.length)
  let full := accs.length - got.length
  let s := (s.count .KIT_ENQ_CNT 0 0 got.length).count .KIT_FULL_CNT 0 0 full
  let slots := (List.range got.length).map fun j => KSlot.reserved c sl h.nextOp j
  let s := (s.onCp fun cp => { cp with kitty := cp.kitty ++ slots }).issue 7 0 got.length
  let h := h.setP ins.dst.toNat (h.enabled ins) fun k => got.any fun p => p.1 == k
  let parts := got.map fun p => ({ thread := p.1, addr := s.normalise p.2, size := 64, op := .load } : Part)
  beginOp (s.setHand c sl h) i h 0xC0 ins true false parts

/-- What the issue of `enq` asks, and its effect. -/
def enqSpec (i : Issue) (ins : Insn) : IssueSpec :=
  let c := i.core.val
  let base := vecNamesOf enqRule ins 1 2 1 1 []
  { opc := 0xC0, unit := .memory, names := { base with p := ins.dst.toNat % 8 :: base.p },
      legal := fun h => ruleOk enqRule h.vregs 1 2 1 1 ins,
      access := fun s co h => accessFault s 64 (threadAccesses co h ins),
      ready := fun s co h => mayAccess h && released s c h 3
        && !((threadAccesses co h ins).any fun p => s.winHeld (s.normalise p.2)),
      prep := fun s _ => releasePrep c 3 s,
      body := enqBody i ins }

def execEnq (i : Issue) (ins : Insn) (s : State) : Host.Outcome State Fault Refusal :=
  done (issue s i ins (enqSpec i ins))

/-- The fence that a thread's `fsig` names. -/
def fsigFence (co : Core) (h : Hand) (ins : Insn) (k : Nat) : Nat :=
  if ins.ua then (h.u (ins.sra.toNat % 64)).toNat else (co.v h ins.sra.toNat k).toNat

/-- What the issue of `fsig` asks, and its effect. -/
def fsigSpec (i : Issue) (ins : Insn) : IssueSpec :=
  let c := i.core.val
  { opc := 0xC1, unit := .memory, names := vecNamesOf fsigRule ins 1 1 2 1 [],
      legal := fun h => ruleOk fsigRule h.vregs 1 1 2 1 ins,
      access := fun _ co h =>
        ((numsWhere 64 (h.enabled ins)).find? fun k => decide (4096 ≤ fsigFence co h ins k)).map
          fun k => (3, k, fsigFence co h ins k),
      ready := fun s _ h => mayAccess h && released s c h 5,
      prep := fun s _ => releasePrep c 5 s,
      body := fun s co h =>
        let op (k : Nat) : FenceOp := if ins.fn.getLsbD 0 then .add (srcB co h ins .u64 k) else .set (srcB co h ins .u64 k)
        beginOp s i h 0xC1 ins false true ((numsWhere 64 (h.enabled ins)).map fun k =>
          { thread := k, addr := s.fenceAddr (fsigFence co h ins k), size := 16, op := .signal (op k) false }) }

def execFsig (i : Issue) (ins : Insn) (s : State) : Host.Outcome State Fault Refusal :=
  done (issue s i ins (fsigSpec i ins))

/-! ### Completion of memory instructions (R198) -/

/-- Whether an `enq` still has a record to hand to the kitty. -/
def enqOwes (s : State) (core slot op : Nat) : Bool := s.cp.kitty.any fun k => match k with
  | .reserved c sl o _ => c == core && sl == slot && o == op
  | _ => false

/-- A memory instruction whose data or acknowledgements have all returned completes, writing its destinations. -/
def execMemAccessComplete (x : HandId) (op : Nat) (s : State) : Host.Outcome State Fault Refusal :=
  let c := x.core.val
  let sl := x.slot.val
  let matrix := match (s.hand c sl).bind fun h => h.ops.find? fun o => o.id == op with
    | some o => decide (0xA0 ≤ o.opc ∧ o.opc ≤ 0xA4)
    | none => true
  done (if !s.clocked (clusterOf c) || matrix || enqOwes s c sl op then s else completeAccess s c sl op)

end Sys2Proof.Machine
end

