-- ==== Sys2Proof/Machine/Debug.lean ====
section
/-!
DEFINITION. Hand debugging: debug requests, the DEBUG state, and inspection and modification of a hand (R251–R262).
-/
namespace Sys2Proof.Machine

/-! ### Requests (R251–R256) -/

/-- The hands in a scope: 0 a slot, 1 a core, 2 the core's cluster, 3 a task (R253, R263). -/
def scopeHands (s : State) (core slot scope task : Nat) : List (Nat × Nat) :=
  handsWhere s fun c sl h => match scope with
    | 0 => c == core && sl == slot
    | 1 => c == core
    | 2 => clusterOf c == clusterOf core
    | _ => h.task == task

/-- Completes a debug request with a result (R252). -/
def State.dbgResult (s : State) (r : Nat) : State := (s.setReg .DBG_RESULT r).setReg .DBG_PENDING 0

/-- HALT: the hand issues nothing more and enters DEBUG once its issued instructions have completed. -/
def haltHand (s : State) (c slot : Nat) : State :=
  match s.hand c slot with
  | none => s
  | some h =>
    if h.st == .releasing || h.st == .faulted || h.st == .debug || h.removed then s else
    let stop : Stop := match h.stop with
      | some (.debug f) => .debug { f with code := f.code ||| (if f.kind = 0x10 then 0x1000 else 0) }
      | some x => x
      | none => .debug { kind := 0x10, pc := h.pc, resume := h.pc, code := 0x1000, time := s.coreTime }
    s.setHand c slot { h with stop := some stop }

/-- Whether a hand is halted: DEBUG or FAULTED. -/
def Hand.halted (h : Hand) : Bool := h.st == .debug || h.st == .faulted

/-- RUN: a halted hand resumes at its PC, or goes back to its sleep; its first instruction matches no breakpoint (R255). -/
def runHand (s : State) (c slot : Nat) : State :=
  match s.hand c slot with
  | none => s
  | some h =>
    if !h.halted || h.removed then s else
    let asleep := decide (s.coreTime < h.sleepEnd)
    s.setHand c slot { h with st := if asleep then .sleeping else .ready, sleepEnd := if asleep then h.sleepEnd else 0,
                              skipBp := true, stop := none }

/-- STEP: a halted hand issues exactly one instruction. -/
def stepHand (s : State) (c slot : Nat) : State :=
  match s.hand c slot with
  | none => s
  | some h => s.setHand c slot { h with st := .ready, sleepEnd := 0, skipBp := true, stepping := true, stop := none }

/-- What a debug request does at its tick (R253, R256). -/
def applyDebug (cmd core slot scope task : Nat) (s : State) : State :=
  let hands := scopeHands s core slot scope task
  let one := s.hand core slot
  let each (f : State → Nat → Nat → State) (s : State) : State := foldState (fun s x => f s x.1 x.2) hands s
  match cmd with
  | 1 =>
    if scope = 0 ∧ one.isNone then s.dbgResult 3
    else
      let s := each haltHand s
      (if scope = 3 then s.onTask task fun t => { t with held := true } else s).dbgResult 0
  | 2 =>
    if scope = 0 ∧ one.isNone then s.dbgResult 3
    else if scope = 0 ∧ (one.map Hand.halted) = some false then s.dbgResult 2
    else
      let s := each runHand s
      (if scope = 3 then s.onTask task fun t => { t with held := false } else s).dbgResult 0
  | 3 => match one with
    | none => s.dbgResult 3
    | some h => if h.halted && !h.removed then (stepHand s core slot).dbgResult 0 else s.dbgResult 2
  | 4 => if scope = 0 ∧ one.isNone then s.dbgResult 3 else (each removeHand s).dbgResult 0
  | _ => (s.later 2 1 (.brake 1 none)).dbgResult 0

/-- A write of DBG_CMD: one debug request, which belongs to the next tick as class 7 (R251, R252). -/
def debugRequest (cmd : Nat) (s : State) : State :=
  if s.isSet .BRK_BRAKED then s
  else if s.level < (if cmd = 5 then 3 else 2) then s.setReg .DBG_RESULT 1
  else if s.isSet .DBG_PENDING then s.setReg .DBG_RESULT 5
  else
    let core := s.reg .DBG_CORE
    let slot := s.reg .DBG_SLOT
    (s.setReg .DBG_PENDING 1).later 7 (core * 16 + slot)
      (.debugCmd cmd core slot (s.reg .DBG_SCOPE) (s.reg64 .DBG_TASK_LO .DBG_TASK_HI))

def execDbgHalt (s : State) : Host.Outcome State Fault Refusal := done (debugRequest 1 s)
def execDbgRun (s : State) : Host.Outcome State Fault Refusal := done (debugRequest 2 s)
def execDbgStep (s : State) : Host.Outcome State Fault Refusal := done (debugRequest 3 s)
def execDbgKill (s : State) : Host.Outcome State Fault Refusal := done (debugRequest 4 s)
def execDbgBrake (s : State) : Host.Outcome State Fault Refusal := done (debugRequest 5 s)

/-! ### Entering DEBUG (R253, R259–R261) -/

/-- W0 of the instruction at a hand's program counter, 0 where it has not been fetched. -/
def insnAtPc (s : State) (core : Nat) (h : Hand) : Nat :=
  ((fetchWord s (s.core core) h h.pc.toNat).map (·.toNat)).getD 0

/-- A halted, stepped or matched hand enters DEBUG once its issued instructions have completed, and posts its event; a
`brk` that L2 does not cover takes the action of CTX_FP_TRAP. -/
def execDebugStop (x : HandId) (s : State) : Host.Outcome State Fault Refusal :=
  let c := x.core.val
  let sl := x.slot.val
  done (if !s.clocked (clusterOf c) then s else match s.hand c sl with
    | none => s
    | some h => match h.stop with
      | some (.debug f) =>
        if !h.ops.isEmpty || h.removed then s else
        let f := { f with pc := h.pc, insn := insnAtPc s c h }
        let s := s.setHand c sl { h with st := .debug, stop := none, stepping := false }
        if f.policy then
          let action := s.reg .CTX_FP_TRAP
          applyPolicy (postDebug s f action c sl h.task) action c sl h.task
        else postDebug s f 0xFF c sl h.task
      | _ => s)

/-! ### DBG_ACC (R257, R258) -/

/-- The state that an access names: its value, and how a value is stored there where it may be. -/
structure AccSlot where
  value : Nat
  store : Option (Nat → Option State)

/-- A doubleword of a page of bytes. -/
def accBytes (m : NMap Byte) (a : Nat) : Nat := leNat ((List.range 8).map fun i => NMap.get 0 m (a + i))

def putBytes (m : NMap Byte) (a v : Nat) : NMap Byte :=
  ((leBytes 8 v).zipIdx).foldl (fun m b => NMap.set 0 m (a + b.2) b.1) m

/-- What a space and INDEX name in a hand, nothing where INDEX is out of range (R257). -/
def accSlot (s : State) (c slot : Nat) (h : Hand) (space thread idx : Nat) : Option AccSlot :=
  let co := s.core c
  let put (h : Hand) : Option State := some (s.setHand c slot h)
  match space with
  | 0 =>
    if h.vregs ≤ idx then none else
    some { value := (co.v h idx thread).toNat,
           store := some fun v => some (s.setCore c (co.setV h idx fun k => if k = thread then some (BitVec.ofNat 32 v) else none)) }
  | 1 =>
    if 64 ≤ idx then none else
    some { value := (h.u idx).toNat, store := some fun v => put (h.setU idx (BitVec.ofNat 64 v)) }
  | 2 =>
    if 8 ≤ idx then none else
    some { value := (h.p idx).toNat, store := some fun v => put (h.setPRaw idx (BitVec.ofNat 64 v &&& h.live)) }
  | 3 =>
    if idx ≠ 0 then none else
    some { value := h.pc.toNat, store := some fun v => if v % 8 = 0 then put { h with pc := BitVec.ofNat 64 v } else none }
  | 4 =>
    if idx ≠ 0 then none else
    some { value := h.flags.toNat, store := some fun v => put { h with flags := BitVec.ofNat 6 v } }
  | 5 => if idx ≠ 0 then none else some { value := h.live.toNat, store := none }
  | 6 =>
    if idx ≠ 0 then none
    else some { value := h.vregs + h.osbPages.length * 512 + h.accPages.length * 16384, store := none }
  | 7 =>
    if h.osbPages.length * 1024 ≤ idx then none else
    let a := 8192 * h.osbPages.getD (idx / 1024) 0 + 8 * (idx % 1024)
    some { value := accBytes co.osb a, store := some fun v => some (s.setCore c { co with osb := putBytes co.osb a v }) }
  | 8 =>
    if h.accPages.length / 2 * 2048 ≤ idx then none else
    let a := 2048 * h.accPages.getD (idx / 1024) 0 + 2 * (idx % 1024)
    let word (i : Nat) : Nat := (NMap.get (0 : Word) co.acc (a + i)).toNat
    some { value := word 0 + word 1 * 2 ^ 32,
           store := some fun v => some (s.setCore c { co with
             acc := NMap.set 0 (NMap.set 0 co.acc a (BitVec.ofNat 32 v)) (a + 1) (BitVec.ofNat 32 (v / 2 ^ 32)) }) }
  | 9 =>
    if idx ≠ 0 then none else
    some { value := h.sleepEnd, store := some fun v => put { h with sleepEnd := v % 2 ^ 64 } }
  | _ => none

/-- An access to a matrix space waits for the hand's matrix instructions (R258). -/
def accWaits (h : Hand) (space : Nat) : Bool :=
  (space == 7 || space == 8) && h.ops.any fun o => decide (0xA0 ≤ o.opc ∧ o.opc ≤ 0xA4)

/-- Performs a debug access on the selected hand, or completes it with the result that says why not. -/
def dbgAccess (s : State) (f : AccSlot → State) : State :=
  let c := s.reg .DBG_CORE
  let sl := s.reg .DBG_SLOT
  match s.hand c sl with
  | none => s.dbgResult 3
  | some h =>
    if !h.halted then s.dbgResult 2
    else if accWaits h (s.reg .DBG_SPACE) then s.setReg .DBG_PENDING 1
    else match accSlot s c sl h (s.reg .DBG_SPACE) (s.reg .DBG_THREAD) (s.reg .DBG_INDEX) with
      | none => s.dbgResult 4
      | some a => f a

/-- A read through DBG_ACC fills DBG_ACC_DATA. -/
def execDbgAccRead (s : State) : Host.Outcome State Fault Refusal :=
  done (if s.isSet .BRK_BRAKED then s else
    dbgAccess s fun a => (s.setReg64 .DBG_ACC_DATA_LO .DBG_ACC_DATA_HI a.value).dbgResult 0)

/-- A write of DBG_ACC_DATA_HI, with `lo` as part of a 64-bit write, stores the value (R251, R257). -/
def execDbgAccWrite (lo : Option Word) (hi : Word) (s : State) : Host.Outcome State Fault Refusal :=
  done (if s.isSet .BRK_BRAKED then s
    else if s.level < 2 then s.setReg .DBG_RESULT 1
    else
      let s := match lo with
        | some v => s.setReg .DBG_ACC_DATA_LO v.toNat
        | none => s
      let s := s.setReg .DBG_ACC_DATA_HI hi.toNat
      dbgAccess s fun a => match a.store.bind fun f => f (s.reg64 .DBG_ACC_DATA_LO .DBG_ACC_DATA_HI) with
        | some s' => s'.dbgResult 0
        | none => s.dbgResult 4)

/-- A drop of the debug level below L2 disables every breakpoint and watchpoint and resumes hands in DEBUG (R262). -/
def State.dropDebug (s : State) : State :=
  let s := foldState (fun s c =>
    let s := foldState (fun s n => s.setReg .DBG_BP_EN 0 c n) (List.range 8) s
    foldState (fun s n => s.setReg .DBG_WP_KIND 0 c n) (List.range 4) s) (List.range 256) s
  foldState (fun s x => runHand s x.1 x.2) (handsWhere s fun _ _ h => h.st == .debug) s

end Sys2Proof.Machine
end

