-- ==== Sys2Proof/Machine/Crypto.lean ====
section
/-!
DEFINITION. The two published algorithms that the security rules name: SHA-384 (FIPS 180-4) and the verification of an ECDSA
signature on P-384 (FIPS 186-5), with points and signatures as R457 and R686 lay them out.  The constants are the standards'
(PRESUMED, log entry 90).
-/
namespace Sys2Proof.Machine

/-! ### SHA-384 -/

/-- The round constants. -/
def shaK : List DWord :=
  [0x428a2f98d728ae22, 0x7137449123ef65cd, 0xb5c0fbcfec4d3b2f, 0xe9b5dba58189dbbc,
   0x3956c25bf348b538, 0x59f111f1b605d019, 0x923f82a4af194f9b, 0xab1c5ed5da6d8118,
   0xd807aa98a3030242, 0x12835b0145706fbe, 0x243185be4ee4b28c, 0x550c7dc3d5ffb4e2,
   0x72be5d74f27b896f, 0x80deb1fe3b1696b1, 0x9bdc06a725c71235, 0xc19bf174cf692694]
  ++ [0xe49b69c19ef14ad2, 0xefbe4786384f25e3, 0x0fc19dc68b8cd5b5, 0x240ca1cc77ac9c65,
   0x2de92c6f592b0275, 0x4a7484aa6ea6e483, 0x5cb0a9dcbd41fbd4, 0x76f988da831153b5,
   0x983e5152ee66dfab, 0xa831c66d2db43210, 0xb00327c898fb213f, 0xbf597fc7beef0ee4,
   0xc6e00bf33da88fc2, 0xd5a79147930aa725, 0x06ca6351e003826f, 0x142929670a0e6e70]
  ++ [0x27b70a8546d22ffc, 0x2e1b21385c26c926, 0x4d2c6dfc5ac42aed, 0x53380d139d95b3df,
   0x650a73548baf63de, 0x766a0abb3c77b2a8, 0x81c2c92e47edaee6, 0x92722c851482353b,
   0xa2bfe8a14cf10364, 0xa81a664bbc423001, 0xc24b8b70d0f89791, 0xc76c51a30654be30,
   0xd192e819d6ef5218, 0xd69906245565a910, 0xf40e35855771202a, 0x106aa07032bbd1b8]
  ++ [0x19a4c116b8d2d0c8, 0x1e376c085141ab53, 0x2748774cdf8eeb99, 0x34b0bcb5e19b48a8,
   0x391c0cb3c5c95a63, 0x4ed8aa4ae3418acb, 0x5b9cca4f7763e373, 0x682e6ff3d6b2b8a3,
   0x748f82ee5defb2fc, 0x78a5636f43172f60, 0x84c87814a1f0ab72, 0x8cc702081a6439ec,
   0x90befffa23631e28, 0xa4506cebde82bde9, 0xbef9a3f7b2c67915, 0xc67178f2e372532b]
  ++ [0xca273eceea26619c, 0xd186b8c721c0c207, 0xeada7dd6cde0eb1e, 0xf57d4f7fee6ed178,
   0x06f067aa72176fba, 0x0a637dc5a2c898a6, 0x113f9804bef90dae, 0x1b710b35131c471b,
   0x28db77f523047d84, 0x32caab7b40c72493, 0x3c9ebe0a15c9bebc, 0x431d67c49c100d4c,
   0x4cc5d4becb3e42b6, 0x597f299cfc657e2a, 0x5fcb6fab3ad6faec, 0x6c44198c4a475817]

/-- The initial hash value. -/
def shaH : List DWord :=
  [0xcbbb9d5dc1059ed8, 0x629a292a367cd507, 0x9159015a3070dd17, 0x152fecd8f70e5939,
   0x67332667ffc00b31, 0x8eb44a8768581511, 0xdb0c2e0d64f98fa7, 0x47b5481dbefa4fa4]

/-- A big-endian number. -/
def beNat (l : List Byte) : Nat := l.foldl (fun a b => 256 * a + b.toNat) 0

/-- `n` bytes of a number, most significant first. -/
def beBytes (n v : Nat) : List Byte := (leBytes n v).reverse

/-- The message schedule: one word more from the last sixteen, which stand newest first. -/
def shaNext (w : List DWord) : DWord :=
  let a := w.getD 1 0
  let b := w.getD 14 0
  (a.rotateRight 19 ^^^ a.rotateRight 61 ^^^ a >>> 6) + w.getD 6 0 + (b.rotateRight 1 ^^^ b.rotateRight 8 ^^^ b >>> 7) + w.getD 15 0

/-- The 80 words of a block's schedule, in order. -/
def shaSchedule (block : List Byte) : List DWord :=
  let first := ((List.range 16).map fun i => BitVec.ofNat 64 (beNat ((block.drop (8 * i)).take 8))).reverse
  (foldState (fun w (_ : Nat) => shaNext w :: w) (List.range 64) first).reverse

/-- One round on the working variables a … h. -/
def shaRound (v : List DWord) (kw : DWord × DWord) : List DWord :=
  match v with
  | [a, b, c, d, e, f, g, h] =>
    let t1 := h + (e.rotateRight 14 ^^^ e.rotateRight 18 ^^^ e.rotateRight 41) + ((e &&& f) ^^^ (~~~e &&& g)) + kw.1 + kw.2
    let t2 := (a.rotateRight 28 ^^^ a.rotateRight 34 ^^^ a.rotateRight 39) + ((a &&& b) ^^^ (a &&& c) ^^^ (b &&& c))
    [t1 + t2, a, b, c, d + t1, e, f, g]
  | v => v

/-- One block's compression. -/
def shaBlock (h : List DWord) (block : List Byte) : List DWord :=
  List.zipWith (· + ·) h (foldState shaRound (shaK.zip (shaSchedule block)) h)

/-- SHA-384 of a message. -/
def sha384 (m : List Byte) : List Byte :=
  let m' := m ++ [0x80] ++ List.replicate ((111 + 128 - m.length % 128) % 128) 0 ++ beBytes 16 (8 * m.length)
  let blocks := (List.range (m'.length / 128)).map fun i => (m'.drop (128 * i)).take 128
  ((foldState shaBlock blocks shaH).take 6).flatMap fun w => beBytes 8 w.toNat

/-! ### ECDSA on P-384 -/

def p384P : Nat := 2 ^ 384 - 2 ^ 128 - 2 ^ 96 + 2 ^ 32 - 1
def p384N : Nat := 0xffffffffffffffffffffffffffffffffffffffffffffffffc7634d81f4372ddf581a0db248b0a77aecec196accc52973
def p384B : Nat := 0xb3312fa7e23ee7e4988e056be3f82d19181d9c6efe8141120314088f5013875ac656398d8a2ed19d2a85c8edd3ec2aef
def p384G : Nat × Nat :=
  (0xaa87ca22be8b05378eb1c71ef320ad746e1d3b628ba79b9859f741e082542a385502f25dbf55296c3a545e3872760ab7,
   0x3617de4a96262c6f5d9e98bf9292dc29f8f41dbd289a147ce9da3113b5f0b8c00a60b1ce1d7e819d7a431d7c90ea0e5f)

/-- `b ^ x` modulo `m`, over the 384 bits of `x`. -/
def powMod (m b x : Nat) : Nat :=
  (foldState (fun (s : Nat × Nat) i => (s.1 * s.1 % m, if x.testBit i then s.2 * s.1 % m else s.2)) (List.range 384) (b % m, 1)).2

/-- The inverse modulo a prime. -/
def invMod (m x : Nat) : Nat := powMod m x (m - 2)

/-- `a - b` modulo the field's prime, of two residues. -/
def subP (a b : Nat) : Nat := (a + p384P - b) % p384P

/-- Twice a point, in Jacobian coordinates: (x, y, z) is the point (x / z², y / z³), and z = 0 the point at infinity. -/
def doublePoint (q : Nat × Nat × Nat) : Nat × Nat × Nat :=
  let p := p384P
  let yy := q.2.1 * q.2.1 % p
  let zz := q.2.2 * q.2.2 % p
  let s := 4 * q.1 * yy % p
  let m := 3 * subP q.1 zz * (q.1 + zz) % p
  let x := subP (m * m % p) (2 * s % p)
  (x, subP (m * subP s x % p) (8 * yy * yy % p), 2 * q.2.1 * q.2.2 % p)

/-- The sum of two points in the same coordinates. -/
def addPoint (a b : Nat × Nat × Nat) : Nat × Nat × Nat :=
  let p := p384P
  if a.2.2 = 0 then b else if b.2.2 = 0 then a else
  let za := a.2.2 * a.2.2 % p
  let zb := b.2.2 * b.2.2 % p
  let u := a.1 * zb % p
  let s := a.2.1 * zb % p * b.2.2 % p
  let h := subP (b.1 * za % p) u
  let r := subP (b.2.1 * za % p * a.2.2 % p) s
  if h = 0 then (if r = 0 then doublePoint a else (1, 1, 0)) else
  let hh := h * h % p
  let v := u * hh % p
  let x := subP (subP (r * r % p) (hh * h % p)) (2 * v % p)
  (x, subP (r * subP v x % p) (s * (hh * h % p) % p), h * a.2.2 % p * b.2.2 % p)

/-- A multiple of a point of the curve. -/
def mulPoint (k : Nat) (q : Nat × Nat) : Nat × Nat × Nat :=
  (foldState (fun (s : (Nat × Nat × Nat) × (Nat × Nat × Nat)) i =>
    (doublePoint s.1, if k.testBit i then addPoint s.2 s.1 else s.2)) (List.range 384) ((q.1, q.2, 1), (1, 1, 0))).2

/-- Whether a signature (r then s) of a digest verifies under a public key, an uncompressed point. -/
def ecdsaVerify (key digest sig : List Byte) : Bool :=
  let x := beNat ((key.drop 1).take 48)
  let y := beNat ((key.drop 49).take 48)
  let r := beNat (sig.take 48)
  let s := beNat ((sig.drop 48).take 48)
  let n := p384N
  if key.length ≠ 97 ∨ key.headD 0 ≠ 4 ∨ p384P ≤ x ∨ p384P ≤ y
      ∨ y * y % p384P ≠ (x * x * x + (p384P - 3) * x + p384B) % p384P
      ∨ r = 0 ∨ n ≤ r ∨ s = 0 ∨ n ≤ s then false else
  let w := invMod n s
  let t := addPoint (mulPoint (beNat digest * w % n) p384G) (mulPoint (r * w % n) (x, y))
  let z := invMod p384P t.2.2
  t.2.2 != 0 && t.1 * z % p384P * z % p384P % n == r

end Sys2Proof.Machine
end

