-- ==== Sys2Proof/Machine/Rollipor.lean ====
section
/-!
DEFINITION. Rollipor on one coupler: the queue and the books, sequence numbers, acknowledgement and replay, what a
received flit does, and what becomes of it all when the link leaves (R463, R474–R478, R491–R501, R505).
-/
namespace Sys2Proof.Machine

/-! ### Sending -/

/-- Puts flits on the lanes. -/
def State.emit (s : State) (n : Nat) (fs : List Flit) : State := s.onCpl n fun c => { c with wire := c.wire ++ fs.map flitBytes }

/-- The grants of the receive sub-channels, and of the tags as index 7 (R491, R493). -/
def rxGrant (i : Nat) : Nat := [192, 64, 192, 64, 96, 32, 16, 2048].getD i 0

/-- A LINK flit (R503): its credit and tag fields hold the returns made, or with INIT the grants (R501). -/
def linkFlit (r : RolSt) (nak : Bool) (replay : Option Nat) : Flit :=
  let init := !r.heard
  let ctl := (r.rxSeq + 4095) % 4096 + 4096 * bit r.accepted + 8192 * bit nak + 16384 * bit replay.isSome + 32768 * bit init
  let ret (i : Nat) : Nat := if init then rxGrant i else NMap.get 0 r.ret i
  ⟨true, body60 ([(0, leBytes 1 14), (1, leBytes 1 0x80), (4, leBytes 2 ctl), (6, leBytes 2 (if nak then r.rxSeq else 0)),
    (8, leBytes 2 (replay.getD 0)), (24, leBytes 2 (ret 7 % 4096))]
    ++ (List.range 7).map fun i => (10 + 2 * i, leBytes 2 (ret i)))⟩

/-- Sends a LINK flit. -/
def State.sendLink (s : State) (n : Nat) (nak : Bool) (replay : Option Nat) : State :=
  (s.emit n [linkFlit (s.cpl n).rol nak replay]).onRol n fun r => { r with arrived := 0, linkAt := s.time.bnd }

/-- Whether a queued packet can leave now: the link carries its kind, and its credits, its tag and the replay window
allow it (R478, R492, R493, R496, R501). -/
def State.canLeave (s : State) (n : Nat) (p : TxPkt) : Bool :=
  let r := (s.cpl n).rol
  let k := p.flits.length
  let st := s.link n
  (if p.sub = 6 then decide (2 ≤ st) && decide (st ≤ 5) else (s.linkUp n && (s.cpl n).held.isNone))
    && r.granted && decide (k ≤ NMap.get 0 r.credit p.sub) && (!p.tagged || decide (1 ≤ NMap.get 0 r.credit 7))
    && decide (r.unack.length + k ≤ 1024) && !s.isSet .CPL_LP n

/-- Sends one packet. -/
def State.sendPkt (s : State) (n : Nat) (p : TxPkt) : State :=
  let now := s.time.bnd
  let s := s.issue 2 (8 * n + p.sub) p.flits.length
  let s := if p.tagged then s.issue 3 n else s
  (s.emit n p.flits).onRol n fun r =>
    let k := p.flits.length
    let nums := p.flits.zipIdx.map fun x => ((r.txSeq + x.2) % 4096, x.1)
    let credit := NMap.set 0 r.credit p.sub (NMap.get 0 r.credit p.sub - k)
    { r with txSeq := (r.txSeq + k) % 4096, unack := r.unack ++ nums, busyAt := now, audited := false,
             ackAt := if r.unack.isEmpty then now else r.ackAt,
             credit := if p.tagged then NMap.set 0 credit 7 (NMap.get 0 credit 7 - 1) else credit }

/-- Sends what can leave, oldest first within each sub-channel: `wait` are the packets passed over, whose sub-channels
are blocked. -/
def State.drainQueue (n : Nat) : List TxPkt → List TxPkt → State → State
  | [], wait, s => s.onRol n fun r => { r with queue := wait }
  | p :: rest, wait, s =>
    if !(wait.any fun q => q.sub == p.sub) && s.canLeave n p then State.drainQueue n rest wait (s.sendPkt n p)
    else State.drainQueue n rest (wait ++ [p]) s

def State.pumpCpl (s : State) (n : Nat) : State := State.drainQueue n (s.cpl n).rol.queue [] s

/-- Queues a packet on a coupler. -/
def State.queuePkt (s : State) (n : Nat) (p : TxPkt) : State :=
  (s.onRol n fun r => { r with queue := r.queue ++ [p] }).pumpCpl n

/-- The body of a control flit of a class (R502, R503). -/
def ctlBody (op : Nat) (fields : List (Nat × List Byte)) : List Byte := body60 ((0, leBytes 1 14) :: (1, leBytes 1 op) :: fields)

/-- Queues a control packet of one flit. -/
def State.sendCtl (s : State) (n op : Nat) (fields : List (Nat × List Byte)) : State :=
  s.queuePkt n ⟨6, false, [⟨true, ctlBody op fields⟩]⟩

/-- Queues a control packet with data. -/
def State.sendCtlData (s : State) (n op : Nat) (data : List Byte) : State :=
  s.queuePkt n ⟨6, false, packetFlits { fk := 2, vc := 3, op := op, dlen := data.length } data⟩

/-! ### Leaving a link state -/

/-- Drops the Rollipor state of a coupler and counts its packets (R500). -/
def State.dropRollipor (s : State) (n : Nat) : State :=
  let c := s.cpl n
  let lost (r : RolSt) : Nat := r.queue.length + (r.unack.filter fun x => x.2.lead).length + bit (!r.open'.isEmpty)
  let k := lost c.rol + ((c.held.map lost).getD 0) + c.transit.length
  (s.count .CPL_DROP_PKT_CNT n 0 k).onCpl n fun c => { c with rol := {}, held := none, transit := [], ctl := [] }

/-- A coupler stops carrying traffic: its width and lock go, low power and pending updates end, and the tile may lose its
parent (R111, R460, R469). -/
def State.linkLeaves (s : State) (n : Nat) : State :=
  let s := (((s.setReg .CPL_WIDTH 0 n).setReg .CPL_LOCK 0 n).setReg .CPL_LP 0 n).parentLost n
  s.onCpl n fun c => { c with eqOut := [], eqIn := [], freeze := [], lpAsked := none, lpGoing := false, lpExit := none,
                              t1 := none, downAt := if s.linkUp n then s.time.bnd else c.downAt }

/-- Leaves for DETECT; `fail` counts a failed attempt (R441), and with the last allowed one the coupler goes DOWN. -/
def State.toDetect (s : State) (n : Nat) : State :=
  ((s.dropRollipor n).linkLeaves n).setLink n 0 |>.onCpl n fun c => { c with retrain := false, phase := 0 }

/-- Enters DOWN with a cause and posts LINK_DOWN (R463); entries with cause 4 count toward retirement (R662). -/
def State.toDown (s : State) (n cause : Nat) : State :=
  let s := (((s.dropRollipor n).linkLeaves n).setReg .CPL_DOWN_CAUSE cause n).setLink n 6
  let s := if cause ≠ 4 then s else
    let k := NMap.get 0 s.mgc.cplDown n + 1
    let s := { s with mgc := { s.mgc with cplDown := NMap.insert s.mgc.cplDown n k } }
    if k = s.reg .MGC_CPL_DOWN_LIMIT then s.fallDue 2 n else s
  (s.onCpl n fun c => { c with retrain := false, phase := 0 }).linkEvent n 0x31 cause

/-- A failed attempt (R441). -/
def State.attemptFails (s : State) (n : Nat) : State :=
  let s := (s.count .CPL_TRAIN_FAIL_CNT n).onCpl n fun c => { c with failRun := c.failRun + 1 }
  if s.reg .CPL_TRAIN_RETRIES n ≤ (s.cpl n).failRun then s.toDown n 1 else s.toDetect n

/-! ### Replay (R498, R499) -/

/-- Replays from number `q`; the eighth failed replay in a row takes the coupler down. -/
def State.startReplay (s : State) (n q : Nat) : State :=
  let r := (s.cpl n).rol
  let fail := if r.replay = some q then r.failRun + 1 else r.failRun
  if 8 ≤ fail then (s.onRol n fun r => { r with failRun := fail }).toDown n 4 else
  let again := r.unack.dropWhile fun x => x.1 != q
  if again.isEmpty ∧ q ≠ r.txSeq then s else
  let s := (s.count .CPL_REPLAY_CNT n).onRol n fun r => { r with replay := some q, failRun := fail, ackAt := s.time.bnd }
  (s.sendLink n false (some q)).emit n (again.map (·.2))

/-- A sender replays when its oldest unacknowledged flit has waited CPL_REPLAY_TO_NS. -/
def execReplayTimeout (n : Fin 64) (s : State) : Host.Outcome State Fault Refusal :=
  done (let r := (s.cpl n).rol
    match r.unack with
    | [] => s
    | x :: _ =>
      if s.banksRun && decide (2 ≤ s.link n) && decide (s.link n ≤ 5) && !s.isSet .CPL_LP n
          && decide (r.ackAt + ticksOfNs (s.reg .CPL_REPLAY_TO_NS n) ≤ s.time.bnd) then s.startReplay n x.1
      else s)

/-! ### Returns -/

/-- Returns the credits of a packet's flits, and its tag where it has one (R492, R493). -/
def State.giveCredit (s : State) (n : Nat) (h : Hdr) (flits : Nat) : State :=
  s.onRol n fun r =>
    let i := subOf h.vc h.esc
    let ret := NMap.set 0 r.ret i ((NMap.get 0 r.ret i + flits) % 65536)
    { r with ret := if h.fk = 1 ∧ h.vc = 0 then NMap.set 0 ret 7 ((NMap.get 0 ret 7 + 1) % 4096) else ret }

/-! ### Receiving (R475, R478, R497) -/

/-- Whether a lead flit names a class or operation, and a virtual channel for it, that the protocol allows. -/
def leadOk (b : List Byte) : Bool :=
  let h := hdrOf b
  if h.fk = 1 then h.vc != 3 && (!opKnown h.op || vcOf h.op == h.vc) && decide (h.dlen ≤ 256)
  else h.vc == 3 && decide (0x82 ≤ h.op) && decide (h.op ≤ 0x8D) && decide (h.dlen ≤ 256)

/-- The data length that the lead flit of a packet announces; control classes without data announce none. -/
def leadLen (b : List Byte) : Nat :=
  let h := hdrOf b
  if h.fk = 1 ∨ h.op = 0x82 ∨ h.op = 0x83 then h.dlen else 0

/-- Puts a part of a transaction in order among those that came before. -/
def insertPart (x : Hdr × List Byte) : List (Hdr × List Byte) → List (Hdr × List Byte)
  | [] => [x]
  | y :: t => if x.1.part < y.1.part then x :: y :: t else y :: insertPart x t

/-- A packet for this tile: a part joins its transaction, and with its last part the messages reach the mesh (R484). -/
def State.deliver (s : State) (fs : List Flit) : State :=
  match fs with
  | [] => s
  | f :: _ =>
    let h := hdrOf f.body
    let key (h : Hdr) : Nat × Nat × Nat := (h.src, h.rq, h.op)
    let mine := s.rte.parts.filter fun x => match x.2.2.2.2 with
      | [] => false
      | g :: _ => key (hdrOf g.body) == key h && (hdrOf g.body).part != h.part
    let rest := s.rte.parts.filter fun x => match x.2.2.2.2 with
      | [] => false
      | g :: _ => key (hdrOf g.body) != key h
    if mine.length < h.plast then
      { s with rte := { s.rte with parts := rest ++ mine ++ [(h.src, h.rq, h.part, h.plast, fs)] } }
    else
      let all := (mine.map (·.2.2.2.2) ++ [fs]).foldl (fun acc fs => match fs with
        | [] => acc
        | g :: _ => insertPart (hdrOf g.body, packetData fs) acc) []
      let ms := s.messagesOf all
      let one := match ms with
        | m :: _ :: _ => (ms.zipIdx.map fun x => (h.src, m.agent.unit, m.tag, x.1.line, x.2))
        | _ => []
      { s with mesh := s.mesh ++ ms, rte := { s.rte with parts := rest, split := s.rte.split ++ one } }

/-- A whole packet has arrived: a control packet waits to be acted on, a packet for this tile is delivered, and any other
stays in the buffer until it is forwarded (R492, R512). -/
def State.packetIn (s : State) (n : Nat) (fs : List Flit) : State :=
  match fs with
  | [] => s
  | f :: _ =>
    let h := hdrOf f.body
    if h.fk = 2 then
      (s.onCpl n fun c => { c with ctl := c.ctl ++ [(f.body, (packetData fs).take (leadLen f.body))] }).giveCredit n h fs.length
    else if h.dst ≥ 0xFFFE ∨ !opKnown h.op then (s.count .CPL_DROP_PKT_CNT n).giveCredit n h fs.length
    else if some h.dst = s.tileId then (s.deliver fs).giveCredit n h fs.length
    else s.onCpl n fun c => { c with transit := c.transit ++ [fs] }

/-- A bad flit: counted, and the receiver goes into discard with one NAK. -/
def State.badFlit (s : State) (n : Nat) : State :=
  let s := s.count .CPL_CRC_ERR_CNT n
  if (s.cpl n).rol.disc then s else (s.onRol n fun r => { r with disc := true, skip := 0 }).sendLink n true none

/-- Accepts a sequenced flit. -/
def State.acceptFlit (s : State) (n : Nat) (f : Flit) : State :=
  let s := s.onRol n fun r => { r with rxSeq := (r.rxSeq + 1) % 4096, accepted := true, arrived := r.arrived + 1,
                                       busyAt := s.time.bnd, audited := false, open' := r.open' ++ [f] }
  let o := (s.cpl n).rol.open'
  match o with
  | [] => s
  | l :: _ =>
    if o.length < 1 + dataFlits (leadLen l.body) then s
    else (s.onRol n fun r => { r with open' := [] }).packetIn n o

/-- Counts a codeword: uncorrectable, or corrected in some symbols of each receive lane (R472). -/
def State.countCodeword (s : State) (n : Nat) (ok : Bool) (corr : List Nat) : State :=
  if !ok then s.count .CPL_FEC_UNCORR_CNT n
  else if corr.all (· == 0) then s else
  let s := s.setReg64 .CPL_FEC_CORR_LO .CPL_FEC_CORR_HI (min (s.reg64 .CPL_FEC_CORR_LO .CPL_FEC_CORR_HI n + 1) (2 ^ 64 - 1)) n
  foldState (fun s x => s.count .CPL_LANE_SYM_ERR n x.2 x.1) (corr.take 4).zipIdx s

/-- A flit arrives on a coupler: `ok` is false where FEC could not correct its codeword (R438, R475); with the first flit
of a codeword come the symbols that were corrected on each lane.  A brake flit is
acted on even then, if its own check is good (R439). -/
def execFlitReceive (n : Fin 64) (first ok : Bool) (corr : List Nat) (bs : List Byte) (s : State) :
    Host.Outcome State Fault Refusal :=
  done (if !s.banksRun || !s.isSet .CPL_LOCK n || s.link n < 2 || 5 < s.link n then s else
    let s := if first then s.countCodeword n ok corr else s
    let isBrake (f : Flit) : Bool := f.lead && flitKind f.body == 2 && field f.body 1 1 == 0x81
    let early := match classifyFlit true bs with
      | some f => if isBrake f then some f else none
      | none => none
    match early with
    | some f => s.onCpl n fun c => { c with ctl := c.ctl ++ [(f.body, [])] }
    | none =>
    match classifyFlit ok bs with
    | none => s.badFlit n
    | some f =>
      let r := (s.cpl n).rol
      if f.lead ∧ flitKind f.body = 0 then s
      else if f.lead ∧ flitKind f.body = 2 ∧ field f.body 1 1 = 0x80 then
        s.onCpl n fun c => { c with ctl := c.ctl ++ [(f.body, [])] }
      else if r.disc then s
      else if 0 < r.skip then s.onRol n fun r => { r with skip := r.skip - 1 }
      else if f.lead then (if !r.open'.isEmpty || !leadOk f.body then s.badFlit n else s.acceptFlit n f)
      else if r.open'.isEmpty then s.badFlit n else s.acceptFlit n f)

/-! ### LINK (R492–R501) -/

/-- Takes the oldest received control flit of a class. -/
def State.takeCtl (s : State) (n op : Nat) : Option ((List Byte × List Byte) × State) :=
  if !s.banksRun then none else
  let c := s.cpl n
  match c.ctl.find? fun x => field x.1 1 1 == op with
  | none => none
  | some x => some (x, s.setCpl n { c with ctl := c.ctl.erase x })

/-- Credits and tags that a LINK flit brings. -/
def takeReturns (r : RolSt) (b : List Byte) (init : Bool) : RolSt :=
  let get (i : Nat) : Nat := if i = 7 then field b 24 2 % 4096 else field b (10 + 2 * i) 2
  if init then
    if r.granted then r else
      let g := (List.range 8).map fun i => (i, get i)
      { r with granted := true, credit := g, grant := g, base := [] }
  else if !r.granted then r
  else foldState (fun (r : RolSt) i =>
    let m := if i = 7 then 4096 else 65536
    { r with credit := NMap.set 0 r.credit i (NMap.get 0 r.credit i + (get i + m - NMap.get 0 r.base i) % m),
             base := NMap.set 0 r.base i (get i) }) (List.range 8) r

/-- An acknowledgement: every flit up to and including the number leaves the replay buffer (R496, R499). -/
def takeAck (now : Nat) (r : RolSt) (q : Nat) : RolSt :=
  if r.unack.any fun x => x.1 == q then
    { r with unack := (r.unack.dropWhile fun x => x.1 != q).drop 1, heard := true, ackAt := now, replay := none, failRun := 0,
             busyAt := now }
  else r

/-- A received LINK flit. -/
def execLink (n : Fin 64) (s : State) : Host.Outcome State Fault Refusal :=
  done (match s.takeCtl n 0x80 with
    | none => s
    | some ((b, _), s) =>
      let w := field b 4 2
      let s := s.onRol n fun r => takeReturns r b (w.testBit 15)
      let s := if w.testBit 12 then s.onRol n fun r => takeAck s.time.bnd r (w % 4096) else s
      let r := (s.cpl n).rol
      let back := (r.rxSeq + 4096 - field b 8 2 % 4096) % 4096
      let s := if w.testBit 14 ∧ back ≤ 1024 then s.onRol n fun r => { r with disc := false, skip := back } else s
      let s := if w.testBit 13 then s.startReplay n (field b 6 2 % 4096) else s
      let s := s.pumpCpl n
      if (s.cpl n).lpGoing ∧ (s.cpl n).rol.unack.isEmpty then
        (s.setReg .CPL_LP 1 n).onCpl n fun c => { c with lpGoing := false }
      else s)

/-- A LINK flit is sent: after 64 flits, when something received is not yet acknowledged or returned, or every 10 µs. -/
def execLinkSend (n : Fin 64) (s : State) : Host.Outcome State Fault Refusal :=
  done (let r := (s.cpl n).rol
    if s.banksRun && decide (2 ≤ s.link n) && decide (s.link n ≤ 5) && !s.isSet .CPL_LP n
        && (decide (1 ≤ r.arrived) || decide (r.linkAt + ticksOfUs 10 ≤ s.time.bnd)) then s.sendLink n false none
    else s)

/-- The audit at a quiescent point: credits and tags are all back (R494).  4,096 bank cycles are 309 ticks, rounded up. -/
def execCouplerAudit (n : Fin 64) (s : State) : Host.Outcome State Fault Refusal :=
  done (let r := (s.cpl n).rol
    if !s.banksRun || !s.linkUp n || !r.granted || r.audited || !r.unack.isEmpty || !r.queue.isEmpty
        || decide (s.time.bnd < r.busyAt + 309) then s else
    let s := s.onRol n fun r => { r with audited := true }
    if (List.range 8).all fun i => NMap.get 0 r.credit i == NMap.get 0 r.grant i then s else s.count .CPL_AUDIT_ERR_CNT n)

end Sys2Proof.Machine
end

