-- ==== Sys2Proof/Machine/Route.lean ====
section
/-!
DEFINITION. The route table: the choice of coupler, packets that wait for a route or meet none, dateline escape, the
switch between route generations, and the writes of the table (R338, R487, R490, R508–R520, R522).
-/
namespace Sys2Proof.Machine

/-! ### The choice of coupler (R508–R511) -/

/-- Whether a coupler counts in U. -/
def State.cplUsable (s : State) (n : Nat) : Bool :=
  s.linkUp n && (s.cpl n).held.isNone && !(s.cpl n).gone && (s.cpl n).leaving.isNone && s.usable (deckIndex .CPL n)

/-- The route entry of a tile in a generation, where that is LOADED and the entry is VALID with a non-zero MASK. -/
def State.routeEnt (s : State) (gen id : Nat) : Option Nat :=
  let e := NMap.get 0 s.rte.ent (gen * 65536 + id)
  if !(s.reg .RTE_LOADED).testBit gen || decide (0xFFFE ≤ id) || !e.testBit 64 || e % 2 ^ 64 == 0 then none else some e

/-- Where a packet goes: no route, a wait for a coupler, or a coupler. -/
inductive Route where
  | none | wait | out (n : Nat)
deriving DecidableEq, Repr

/-- The 16-bit hash of the sprayed mode (R510). -/
def sprayHash (addr src : Nat) : Nat := bitsOf addr 22 7 ^^^ bitsOf addr 38 23 ^^^ bitsOf addr 47 39 ^^^ (src % 65536)

def State.routeOf (s : State) (h : Hdr) : Route :=
  match s.routeEnt h.gen h.dst with
  | none => .none
  | some e =>
    match numsWhere 64 fun n => e.testBit n && s.cplUsable n with
    | [] => .wait
    | u => .out (if e.testBit 65 then u.getD (sprayHash h.addr h.src % u.length) 0 else u.headD 0)

/-- A packet leaves through a coupler: one hop less, on the escape sub-channel where the coupler is a dateline (R512,
R513); compressed data does not cross a coupler without that capability, and a multicast copy crosses one without that
capability as a plain snoop (R490, R514). -/
def State.outVia (s : State) (n : Nat) (fs : List Flit) : State :=
  match fs with
  | [] => s
  | f :: t =>
    let h := hdrOf f.body
    let caps := s.reg .CPL_CAPS n
    if h.comp % 4 ≠ 0 ∧ !caps.testBit 3 then s.count .CPL_DROP_PKT_CNT n else
    let h := { h with hops := h.hops - 1, esc := h.esc || s.isSet .CPL_DATELINE n, mc := h.mc && caps.testBit 2 }
    s.queuePkt n ⟨subOf h.vc h.esc, h.vc == 0, ⟨true, h.bytes ++ f.body.drop 28⟩ :: t⟩

/-- A packet of this tile that meets no route completes with NO_ROUTE: a request is answered so, a multicast copy counts
as answered, and anything else is gone (R511, R515). -/
def State.bounce (s : State) (dst : Nat) (m : Msg) : State :=
  if isRequest m.kind then s.refuse m .noRoute
  else if isSnoop m.kind ∧ m.mc.isSome then
    { s with mesh := s.mesh ++ [{ kind := .snpRsp .notHeld, agent := ⟨some dst, 64⟩, home := m.home, line := m.line, mc := m.mc }] }
  else s

/-- No route. -/
def State.noRoute (s : State) (dst : Nat) (m : Option Msg) : State :=
  let s := s.count .RTE_NOROUTE_CNT
  match m with
  | some m => s.bounce dst m
  | none => s

/-- Routes one packet; one that carries the generation whose drain has ended is dropped (R520). -/
def State.routePkt (s : State) (m : Option Msg) (fs : List Flit) : State :=
  match fs with
  | [] => s
  | f :: _ =>
    let h := hdrOf f.body
    if s.rte.stale = some h.gen then s.count .RTE_OLD_DROP_CNT else
    match s.routeOf h with
    | .out n => s.outVia n fs
    | .none => s.noRoute h.dst m
    | .wait =>
      if s.rte.wait.length < 256 then { s with rte := { s.rte with wait := s.rte.wait ++ [(fs, m, s.time.bnd)] } }
      else s.noRoute h.dst m

/-! ### Packets of this tile -/

/-- Whether a request of this tile, by unit, tag and line, is still outstanding. -/
def State.outstanding (s : State) (x : Nat × Nat × Nat) : Bool :=
  if x.1 < 64 then match NMap.find? (s.clu x.1).reqs x.2.1 with
    | some r => !r.quar && r.line == x.2.2
    | none => false
  else if x.1 = 65 then (NMap.find? s.host.bar (x.2.1 / 128)).isSome
  else match NMap.find? s.posted x.2.1 with
    | some p => !p.quar
    | none => x.2.1 == 4095

/-- Whether a request must wait because another of the same requester to the same line is outstanding (R487). -/
def State.lineBusy (s : State) (m : Msg) : Bool :=
  isRequest m.kind && s.rte.flight.any fun x => x.1 == m.agent.unit && x.2.2 == m.line && x.2.1 != m.tag && s.outstanding x

/-- The answer to a request that lay in two lines: its data travel as a part, and its acknowledgement goes with the last
line (R484). -/
def State.splitReply (s : State) (dst : Nat) (m : Msg) (ps : List (Hdr × List Byte)) : List (Hdr × List Byte) × State :=
  let mine (x : Nat × Nat × Nat × Nat × Nat) : Bool := x.1 == dst && x.2.1 == m.agent.unit && x.2.2.1 == m.tag
  match s.rte.split.find? fun x => mine x && x.2.2.2.1 == m.line with
  | none => (ps, s)
  | some x =>
    let rest := s.rte.split.erase x
    let key := Nat.pair dst (Nat.pair m.agent.unit m.tag)
    match m.kind with
    | .data _ => (ps.map fun p => ({ p.1 with part := x.2.2.2.2, plast := 1 }, p.2), { s with rte := { s.rte with split := rest } })
    | .ack =>
      let st := max (statusCode m.status) (NMap.get 0 s.rte.splitBad key)
      if rest.any mine then ([], { s with rte := { s.rte with split := rest, splitBad := NMap.set 0 s.rte.splitBad key st } })
      else (ps.map fun p => ({ p.1 with status := st }, p.2),
        { s with rte := { s.rte with split := rest, splitBad := NMap.set 0 s.rte.splitBad key 0 } })
    | _ => (ps, s)

/-- A message of this tile leaves as packets. -/
def State.sendOut (s : State) (dst : Nat) (m : Msg) : State :=
  let flight := s.rte.flight.filter s.outstanding
  let s := { s with rte := { s.rte with flight := if isRequest m.kind then flight ++ [(m.agent.unit, m.tag, m.line)] else flight } }
  let r := s.splitReply dst m (s.packetsOf dst m)
  let route (s : State) (x : (Hdr × List Byte) × Nat) : State :=
    s.routePkt (if x.2 = 0 then some m else none) (packetFlits x.1.1 x.1.2)
  foldState route r.1.zipIdx r.2

/-- A packet is routed: with no coupler named, the oldest message of this tile that is free to go; otherwise the oldest
packet that waits in the receive buffer of that coupler. -/
def execPacketForward (from' : Option (Fin 64)) (s : State) : Host.Outcome State Fault Refusal :=
  done (if s.stopped 2 then s else
    match from' with
    | none => match s.xmit.find? fun x => !s.lineBusy x.2 with
      | none => s
      | some x => { s with xmit := s.xmit.erase x }.sendOut x.1 x.2
    | some n =>
      let c := s.cpl n
      match c.transit with
      | [] => s
      | fs :: rest =>
        let s := s.setCpl n { c with transit := rest }
        let h := hdrOf ((fs.headD ⟨true, []⟩).body)
        let s := s.giveCredit n h fs.length
        if h.hops = 0 then s.count .RTE_HOP_DROP_CNT else s.routePkt none fs)

/-- The oldest packet that waits and has a coupler now takes it. -/
def execRouteWaitRelease (s : State) : Host.Outcome State Fault Refusal :=
  done (if s.stopped 2 then s else
    let ready (x : List Flit × Option Msg × Nat) : Bool := match s.routeOf (hdrOf ((x.1.headD ⟨true, []⟩).body)) with
      | .out _ => true
      | _ => false
    match s.rte.wait.find? ready with
    | none => s
    | some x => { s with rte := { s.rte with wait := s.rte.wait.erase x } }.routePkt x.2.1 x.1)

/-- The oldest packet that has waited 1 ms meets no route. -/
def execRouteWaitTimeout (s : State) : Host.Outcome State Fault Refusal :=
  done (match s.rte.wait with
    | [] => s
    | x :: rest =>
      if s.stopped 2 ∨ s.time.bnd < x.2.2 + ticksOfUs 1000 then s else
      { s with rte := { s.rte with wait := rest } }.noRoute (hdrOf ((x.1.headD ⟨true, []⟩).body)).dst x.2.1)

/-- No coupler of the active route entry of tile `d` has been up for 1 ms: every agent of the tile is declared dead
(R338). -/
def execRouteLossTimeout (d : Fin 65536) (s : State) : Host.Outcome State Fault Refusal :=
  done (if s.stopped 2 ∨ s.isDead ⟨some d, 0⟩ then s else
    match s.routeEnt (s.reg .RTE_ACTIVE) d with
    | none => s
    | some e =>
      let long (n : Nat) : Bool := !s.linkUp n && decide ((s.cpl n).downAt + ticksOfUs 1000 ≤ s.time.bnd)
      if (numsWhere 64 e.testBit).all long then
        foldState (fun s (j : Nat) => s.pumpHome j) (List.range 8) (s.declareDead 0 ⟨some d, 0⟩ true)
      else s)

/-! ### Route-generation switching (R516–R520) -/

/-- Whether a generation is live: active, or draining. -/
def State.genLive (s : State) (g : Nat) : Bool := g == s.reg .RTE_ACTIVE || s.isSet .RTE_DRAINING

/-- Sends ROUTE_SW on every usable coupler but one. -/
def State.sendRouteSw (s : State) (but : Option Nat) (gen tick seq origin : Nat) : State :=
  foldState (fun s n => s.sendCtl n 0x8D [(4, leBytes 1 gen), (8, leBytes 8 tick), (16, leBytes 4 seq), (20, leBytes 2 origin)])
    (numsWhere 64 fun n => s.cplUsable n && some n != but) s

/-- Arms a switch. -/
def State.armSwitch (s : State) (gen tick : Nat) : State :=
  let s := (s.setReg64 .RTE_SW_TICK_LO .RTE_SW_TICK_HI tick).setReg .RTE_ARMED 1
  { s with rte := { s.rte with swGen := gen, swAt := s.time.bnd, stale := none } }

/-- A write of 1 to RTE_SW_GO. -/
def execRteSwGo (s : State) : Host.Outcome State Fault Refusal :=
  done (if s.stopped 2 then s else
    let gen := 1 - s.reg .RTE_ACTIVE
    if !(s.reg .RTE_LOADED).testBit gen || s.isSet .RTE_DRAINING then s.cfgErr .RTE else
    let tick := s.time.now + s.reg .RTE_SW_LEAD
    let seq := (s.reg .RTE_SW_SEQ + 1) % 2 ^ 32
    ((s.setReg .RTE_SW_SEQ seq).armSwitch gen tick).sendRouteSw none gen tick seq (s.tileId.getD 0))

/-- A received ROUTE_SW. -/
def execRouteSw (n : Fin 64) (s : State) : Host.Outcome State Fault Refusal :=
  done (match s.takeCtl n 0x8D with
    | none => s
    | some ((b, _), s) =>
      let gen := field b 4 1 % 2
      let tick := field b 8 8
      let seq := field b 16 4
      let d := (seq + 2 ^ 32 - s.reg .RTE_SW_SEQ) % 2 ^ 32
      if d = 0 ∨ 2 ^ 31 ≤ d then s else
      let s := (s.setReg .RTE_SW_SEQ seq).sendRouteSw (some n) gen tick seq (field b 20 2)
      if gen ≠ s.reg .RTE_ACTIVE ∧ (s.reg .RTE_LOADED).testBit gen then
        (if tick ≤ s.time.now then s.count .RTE_SW_LATE_CNT else s).armSwitch gen tick
      else (s.count .RTE_SW_REFUSED_CNT).postEvent (deckIndex .RTE 0) (payload [(0, leBytes 1 0x42), (1, leBytes 1 1),
        (2, leBytes 1 gen), (8, leBytes 8 s.time.now), (0x10, leBytes 4 seq)]))

/-- What the commit of a switch does (R519). -/
def applyRouteSwitch (s : State) : State :=
  let s := ((s.setReg .RTE_ACTIVE s.rte.swGen).setReg .RTE_DRAINING 1).setReg .RTE_ARMED 0
  { s with rte := { s.rte with drainEnd := s.time.bnd + ticksOfUs (s.reg .RTE_DRAIN_US) } }

/-- An armed switch commits at its tick, as class 9. -/
def execRouteSwitch (s : State) : Host.Outcome State Fault Refusal :=
  done (if !s.isSet .RTE_ARMED || decide (s.time.bnd ≤ s.rte.swAt)
      || decide (s.time.now < s.reg64 .RTE_SW_TICK_LO .RTE_SW_TICK_HI) then s
    else s.tickEvent 9 (cfgSrc .RTE 0) .routeSwitch applyRouteSwitch)

/-- The drain of the former generation ends. -/
def execRouteDrainEnd (s : State) : Host.Outcome State Fault Refusal :=
  done (if s.stopped 2 || !s.isSet .RTE_DRAINING || decide (s.time.bnd < s.rte.drainEnd) then s else
    let s := s.setReg .RTE_DRAINING 0
    { s with rte := { s.rte with stale := some (1 - s.reg .RTE_ACTIVE) } })

/-! ### Writes of the table (R509, R516, R522) -/

/-- The generations of a mask that are not live. -/
def State.freeGens (s : State) (mask : Nat) : Nat := bit (mask.testBit 0 && !s.genLive 0) + 2 * bit (mask.testBit 1 && !s.genLive 1)

/-- A write of RTE_FILL starts filling the generations of its mask; those that are live are left and counted. -/
def execRteFill (mask : BitVec 2) (s : State) : Host.Outcome State Fault Refusal :=
  done (if s.stopped 2 || s.isSet .RTE_FILL_BUSY then s else
    let ok := s.freeGens mask.toNat
    let s := if ok ≠ mask.toNat then s.cfgErr .RTE else s
    if ok = 0 then s else { s.setReg .RTE_FILL_BUSY 1 with rte := { s.rte with fill := ok } })

/-- The fill completes: every entry of the generation is not VALID. -/
def execRteFillDone (s : State) : Host.Outcome State Fault Refusal :=
  done (if s.stopped 2 || !s.isSet .RTE_FILL_BUSY then s else
    let s := s.setReg .RTE_FILL_BUSY 0
    { s with rte := { s.rte with fill := 0, ent := s.rte.ent.filter fun e => !s.rte.fill.testBit (e.1 / 65536) } })

/-- A write of one 32-bit word of a route entry takes effect at once in a generation that is not live; while a fill runs
it waits, and the entries of 0xFFFE and 0xFFFF take nothing (R56). -/
def execRteEnt (gen : Fin 2) (id : Fin 65536) (word : Fin 4) (v : Word) (s : State) : Host.Outcome State Fault Refusal :=
  done (if s.stopped 2 || s.isSet .RTE_FILL_BUSY then s
    else if s.genLive gen then s.cfgErr .RTE
    else if 0xFFFE ≤ id.val then s
    else
      let key := gen.val * 65536 + id.val
      let e := putBits (NMap.get 0 s.rte.ent key) (32 * word.val + 31) (32 * word.val) v.toNat
      { s with rte := { s.rte with ent := NMap.set 0 s.rte.ent key e } })

/-- A write of RTE_LOADED waits for its tick; the flag of a live generation is not changed, and a write that would change
it is counted. -/
def execRteLoaded (v : BitVec 2) (s : State) : Host.Outcome State Fault Refusal :=
  done (if s.stopped 2 then s else
    let old := s.reg .RTE_LOADED
    let keep (g : Nat) : Nat := if s.genLive g then bit (old.testBit g) else bit (v.toNat.testBit g)
    let new := keep 0 + 2 * keep 1
    let s := if new ≠ v.toNat then s.cfgErr .RTE else s
    { s with shadow := NMap.insert s.shadow (regKey .RTE_LOADED 0 0) new })

end Sys2Proof.Machine
end

