-- ==== Sys2Proof/Machine/Coupler.lean ====
section
/-!
DEFINITION. The physical side of a coupler: detection, training, identification and the seal, entry and exit of the link
states, retrain, low power and equaliser updates (R438–R473).
-/
namespace Sys2Proof.Machine

/-! ### Training (R440–R453) -/

/-- Whether a coupler may work at all: enabled, its bank's PLL locked, not retired, and its bank running. -/
def State.cplLive (s : State) (n : Nat) : Bool :=
  s.banksRun && s.isSet .CPL_ENABLE n && s.isSet .BANK_PLL_LOCK (n / 8) && !(s.cpl n).gone

/-- The taps of a lane as signed numbers, c(−2) first, and as a register (R448, R472). -/
def tapsOf (v : Nat) : List Int := (List.range 4).map fun i => (BitVec.ofNat 8 (v >>> (8 * i))).toInt
def tapsReg (t : List Int) : Nat := leNat (t.map fun x => BitVec.ofInt 8 x)

/-- The preset. -/
def tapPreset : List Int := [0, -4, 54, -6]

/-- Whether a setting is valid (R448). -/
def tapsValid (t : List Int) : Bool :=
  let a (i : Nat) : Nat := (t.getD i 0).natAbs
  decide (a 0 ≤ 6) && decide (a 1 ≤ 16) && decide (a 3 ≤ 16) && decide (32 ≤ t.getD 2 0) && a 0 + a 1 + a 2 + a 3 == 64

/-- Moves one tap by a request code: 1 away from 0, 2 toward 0, 3 to its preset.  A tap at 0 moves away from 0 to the
side of its preset, c(−2) to the positive side (DESIGN CHOICE, log entry 19). -/
def moveTap (i code : Nat) (t : Int) : Int :=
  match code with
  | 1 => if 0 < t ∨ (t = 0 ∧ i = 0) then t + 1 else t - 1
  | 2 => if 0 < t then t - 1 else if t < 0 then t + 1 else 0
  | 3 => tapPreset.getD i 0
  | _ => t

/-- Applies request codes to a setting; c(0) takes up the difference.  Nothing where the result is not valid. -/
def requestTaps (t : List Int) (codes : List Nat) : Option (List Int) :=
  let m (i : Nat) : Int := moveTap i (codes.getD i 0) (t.getD i 0)
  let c0 : Int := 64 - (m 0).natAbs - (m 1).natAbs - (m 3).natAbs
  let new := [m 0, m 1, c0, m 3]
  if (codes.getD 2 0 = 1 ∨ codes.getD 2 0 = 2) ∨ !tapsValid new then none else some new

/-- Applies a request to a transmit lane. -/
def State.applyTaps (s : State) (n lane : Nat) (codes : List Nat) : State :=
  match requestTaps (tapsOf (s.reg .CPL_TXEQ n lane)) codes with
  | some t => s.setReg .CPL_TXEQ (tapsReg t) n lane
  | none => s

/-- Retires a lane: transmit 0–3, receive 4–7 (R453). -/
def State.retireLane (s : State) (n lane : Nat) : State :=
  let m := s.reg .CPL_LANES_RETIRED n
  if m.testBit lane then s else (s.setReg .CPL_LANES_RETIRED (m + 2 ^ lane) n).linkEvent n 0x33 0

/-- A coupler with no lane left in a direction goes DOWN with cause 6 and is retired with cause 0x07 (R453). -/
def State.lanesGone (s : State) (n : Nat) : State :=
  let m := s.reg .CPL_LANES_RETIRED n
  if (m % 16 ≠ 15 ∧ m / 16 ≠ 15) ∨ (s.cpl n).gone then s else
  let s := (s.toDown n 6).onCpl n fun c => { c with gone := true }
  let e := deckIndex .CPL n
  let u := s.unitSt e
  let s := { s with deck := { s.deck with units := NMap.set {} s.deck.units e { u with retired := some 7 } } }
  s.linkEvent n 0x34 0

/-- Begins TRAIN: at the preset on first training; a retrain keeps its taps (R448, R449).  Lanes selected for retirement
retire now. -/
def State.startTrain (s : State) (n : Nat) (retrain : Bool) : State :=
  let due := (s.cpl n).retireDue
  let s := foldState (fun s l => s.retireLane n l) due s
  let s := s.onCpl n fun c => { c with retireDue := [] }
  let s := if retrain then s else foldState (fun s l => s.setReg .CPL_TXEQ (tapsReg tapPreset) n l) (List.range 4) s
  let now := s.time.bnd
  let s := (s.setLink n 1).onCpl n fun c =>
    { c with retrain := retrain, phase := 1, phaseAt := now, trainAt := now, ready := [], laneOf := [], qual := 0, farQual := 0 }
  s.lanesGone n

/-- In DETECT each good transmit lane sends a beacon every 1 ms (R445). -/
def execBeacon (n : Fin 64) (s : State) : Host.Outcome State Fault Refusal :=
  done (if !s.cplLive n || s.link n != 0 || (match (s.cpl n).beaconAt with
      | some t => decide (s.time.bnd < t + ticksOfUs 1000)
      | none => false) then s
    else s.onCpl n fun c => { c with beacons := c.beacons + 1, beaconAt := some s.time.bnd })

/-- Signal on a receive lane moves a coupler from DETECT to TRAIN. -/
def execSignalDetect (n : Fin 64) (s : State) : Host.Outcome State Fault Refusal :=
  done (if s.cplLive n && s.link n == 0 then s.startTrain n false else s)

/-- A retrain begins (R461, R462): Rollipor's state is held. -/
def State.startRetrain (s : State) (n cause : Nat) : State :=
  if !s.linkUp n then s else
  let s := (s.count .CPL_RETRAIN_CNT n).linkLeaves n
  let s := s.onCpl n fun c => { c with held := some c.rol, rol := {}, acked := false, far := none, sealed := false, resume := false }
  (s.startTrain n true).linkEvent n 0x32 cause

/-- A training frame arrives on a physical receive lane: a frame whose CRC fails is discarded (R447).  A neighbour that
trains makes a coupler that is up retrain. -/
def execTrainingFrame (n : Fin 64) (phys : Fin 4) (ctl : List Byte) (s : State) : Host.Outcome State Fault Refusal :=
  done (if !s.cplLive n || ctl.length != 16 || crcMsb 16 0x1021 0xFFFF (ctl.take 14) != leNat (ctl.drop 14) then s
    else if s.linkUp n then s.startRetrain n 4
    else if s.link n ≠ 1 then s else
    let at' (i : Nat) : Nat := (ctl.getD i 0).toNat
    let lane := at' 1 % 4
    let st := at' 2
    if (s.reg .CPL_LANES_RETIRED n).testBit (4 + lane) then s else
    let s := s.onCpl n fun c =>
      let run := if st.testBit 2 ∧ at' 0 = c.phase then NMap.get 0 c.ready lane + 1 else 0
      { c with laneOf := NMap.insert c.laneOf phys lane, ready := NMap.insert c.ready lane run,
               farQual := putBits c.farQual lane lane (bit (st.testBit 1)), farMax := at' 3 % 4 }
    s.applyTaps n lane ((List.range 4).map fun i => at' (4 + i) % 4))

/-- The limits of a phase, and of TRAIN, in µs (R449). -/
def phaseLimit (retrain : Bool) (phase : Nat) : Nat :=
  (if retrain then [0, 1000, 2000, 6000, 1000] else [0, 10000, 20000, 10000, 2000]).getD phase 0
def trainLimit (retrain : Bool) : Nat := if retrain then 10000 else 50000

/-- Whether TRAIN has passed one of its limits. -/
def State.trainLate (s : State) (n : Nat) : Bool :=
  let c := s.cpl n
  decide (c.phaseAt + ticksOfUs (phaseLimit c.retrain c.phase) < s.time.bnd)
    || decide (c.trainAt + ticksOfUs (trainLimit c.retrain) < s.time.bnd)

/-- Whether a lane qualifies: 10^9 bits checked, with an error ratio of at most 10^−5 (R450). -/
def laneQualifies (bits errs : Nat) : Bool := decide (10 ^ 9 ≤ bits) && decide (errs * 100000 ≤ bits)

/-- The width that a direction supports with a mask of qualified lanes (R451). -/
def dirWidth (q : Nat) : Nat :=
  if q % 16 = 15 then 4 else if q % 4 = 3 ∨ q / 4 % 4 = 3 then 2 else if q % 16 = 0 then 0 else 1

/-- The width that a MAX_WIDTH code allows (R451). -/
def maxWidth (code : Nat) : Nat := if code = 0 then 4 else if code = 1 then 2 else 1

/-- Every lane still in training has been ready in 16 frames in a row. -/
def CplSt.allReady (c : CplSt) : Bool := !c.ready.isEmpty && c.ready.all fun x => decide (16 ≤ x.2)

/-- The end of QUAL: the lanes that qualify, the width, and the lanes that retire (R450–R453). -/
def State.qualify (s : State) (n : Nat) (lanes : List (Nat × Nat)) : State :=
  let good (l : Nat) : Bool := match lanes[l]? with
    | some x => laneQualifies x.1 x.2 && !(s.reg .CPL_LANES_RETIRED n).testBit (4 + l)
    | none => false
  let q := foldState (fun q l => q + if good l then 2 ^ l else 0) (List.range 4) 0
  let c := s.cpl n
  let w := min (min (maxWidth (s.reg .CPL_MAX_WIDTH n)) (maxWidth c.farMax)) (min (dirWidth q) (dirWidth c.farQual))
  if w = 0 then s.attemptFails n else
  let now := s.time.bnd
  let bad := (List.range 4).map fun l => (l, if good l then 0 else NMap.get 0 c.badRun l + 1)
  let s := s.onCpl n fun c => { c with qual := q, width := w, phase := 4, phaseAt := now, ready := [], badRun := bad }
  let out := bad.filter fun x => decide (s.reg .CPL_LANE_RETIRE_LIMIT n ≤ x.2)
  (foldState (fun s x => s.retireLane n (4 + x.1)) out s).lanesGone n

/-- A training phase ends: both ends have been ready in 16 consecutive frames.  `lanes` are the bits checked and the bit
errors of each logical receive lane, which QUAL uses. -/
def execTrainPhaseEnd (n : Fin 64) (lanes : List (Nat × Nat)) (s : State) : Host.Outcome State Fault Refusal :=
  done (let c := s.cpl n
    if !s.cplLive n || s.link n != 1 || c.phase == 0 || 4 ≤ c.phase || s.trainLate n || !c.allReady then s
    else if c.phase = 3 then s.qualify n lanes
    else s.onCpl n fun c => { c with phase := c.phase + 1, phaseAt := s.time.bnd, ready := [] })

/-- A phase, or TRAIN, passes its limit: the attempt fails. -/
def execTrainTimeout (n : Fin 64) (s : State) : Host.Outcome State Fault Refusal :=
  done (if s.cplLive n && s.link n == 1 && s.trainLate n then s.attemptFails n else s)

/-! ### IDENTIFY (R454–R457, R501, R504) -/

/-- The capabilities of B0. -/
def capsB0 : Nat := 0xFF

/-- This end's IDENTIFY payload. -/
def State.identifyPayload (s : State) (n : Nat) : List Byte :=
  let c := s.cpl n
  let id := s.tileId
  leBytes 1 1 ++ leBytes 1 (bit id.isSome + 2 * s.reg .CPL_SEAL_EN n + 4 * bit c.fresh) ++ leBytes 2 (id.getD 0)
    ++ leBytes 1 n ++ leBytes 1 0xB0 ++ leBytes 1 c.width
    ++ leBytes 1 (c.qual % 16 + 16 * (s.reg .CPL_LANES_RETIRED n % 16)) ++ leBytes 4 capsB0 ++ leBytes 2 2048 ++ leBytes 2 0
    ++ padTo 16 c.nonce ++ leBytes 8 Config.serial ++ List.replicate 24 0

/-- Whether the seal is required: CPL_SEAL_EN is 1 on either end (R457). -/
def State.sealNeeded (s : State) (n : Nat) : Bool :=
  s.isSet .CPL_SEAL_EN n || match (s.cpl n).far with
    | some f => (field f 1 1).testBit 1
    | none => false

/-- The identity public key; zeros once DEVICE_SECRET is gone (R690). -/
def State.idKey (s : State) : List Byte :=
  if s.sec.fuses.secretGone then List.replicate 97 0 else padTo 97 (Config.publicKey 0)

/-- The signature of a digest with the identity key; with no key its use fails, and zeros stand in its place (R690). -/
def State.idSign (s : State) (digest : List Byte) : List Byte :=
  if s.sec.fuses.secretGone then List.replicate 96 0 else padTo 96 (Config.ecdsaSign 0 digest)

/-- Sends this end's key and its signature of the payload and the neighbour's NONCE (R457). -/
def State.sendSeal (s : State) (n : Nat) : State :=
  match (s.cpl n).far with
  | some f =>
    if !s.sealNeeded n then s else
    s.sendCtlData n 0x83 (s.idKey ++ s.idSign (sha384 (s.identifyPayload n ++ (f.drop 16).take 16)))
  | none => s

/-- Sends this end's IDENTIFY, with its seal where one is required. -/
def State.sendIdentify (s : State) (n : Nat) : State :=
  let valid := s.tileId.isSome
  let s := s.onCpl n fun c => { c with sentAt := s.time.bnd, acked := c.acked && (c.sentValid || !valid), sentValid := valid }
  (s.sendCtlData n 0x82 (s.identifyPayload n)).sendSeal n

/-- The seal check has failed: the coupler goes DOWN with cause 3, and a security event follows (R457, R692). -/
def State.sealFails (s : State) (n : Nat) : State := ((s.count .SEC_SEAL_FAIL_CNT).toDown n 3).later 6 8 (.security (.sealFail n))

/-- IDENTIFY succeeds once both ends have sent ID_VALID, both payloads are acknowledged, the IDs differ, and the seal is
checked (R456).  A retrain returns to the same neighbour, or passes through DOWN (R462). -/
def State.tryIdentify (s : State) (n : Nat) : State :=
  let c := s.cpl n
  match c.far, s.tileId with
  | some f, some id =>
    let farId := field f 2 2
    if s.link n ≠ 2 ∨ !(field f 1 1).testBit 0 then s
    else if farId = id then s.toDown n 2
    else if !c.acked || !c.sentValid || (s.sealNeeded n && !c.sealed) then s
    else if c.retrain then
      if s.reg .CPL_NEIGH n = 2 ^ 31 + 65536 * (field f 4 1 % 64) + farId ∧ !(field f 1 1).testBit 2 then
        s.onCpl n fun c => { c with resume := true }
      else s.toDown n 5
    else (s.setLink n 3).onCpl n fun c => { c with started := 0, ended := 0, least := none, fresh := false }
  | _, _ => s

/-- Codeword lock ends TRAIN, and IDENTIFY begins; after low power it brings the link back (R452, R465, R501).  `nonce` is
the random NONCE of the attempt. -/
def execCodewordLock (n : Fin 64) (nonce : BitVec 128) (s : State) : Host.Outcome State Fault Refusal :=
  done (let c := s.cpl n
    if !s.cplLive n then s
    else if s.isSet .CPL_LP n && c.lpExit.isSome then
      ((s.setReg .CPL_LP 0 n).onCpl n fun c => { c with lpExit := none }).pumpCpl n
    else if s.link n ≠ 1 ∨ c.phase ≠ 4 ∨ s.trainLate n then s else
    let s := ((s.setReg .CPL_LOCK 1 n).setLink n 2).onCpl n fun c =>
      { c with phase := 0, nonce := leBytes 16 nonce.toNat, acked := false, sentValid := false, far := none, sealed := false,
               resume := false, rol := {}, heardAt := s.time.bnd }
    (s.sendLink n false none).sendIdentify n)

/-- Answers the neighbour's IDENTIFY (R503). -/
def State.ackIdentify (s : State) (n : Nat) : State :=
  match (s.cpl n).far with
  | some f => s.sendCtl n 0x84 [(8, (f.drop 16).take 16)]
  | none => s

/-- A received IDENTIFY payload. -/
def execIdentify (n : Fin 64) (s : State) : Host.Outcome State Fault Refusal :=
  done (match s.takeCtl n 0x82 with
    | none => s
    | some ((_, f), s) =>
      if s.link n < 2 ∨ 5 < s.link n ∨ f.length ≠ 64 then s
      else if s.link n ≠ 2 then (s.onCpl n fun c => { c with far := some f }).ackIdentify n
      else if field f 0 1 ≠ 1 then s.toDown n 8
      else
        let known := (s.cpl n).far.isSome
        let s := (s.setReg .CPL_CAPS ((field f 8 4 &&& capsB0) % 256) n).onCpl n fun c =>
          { c with far := some f, heardAt := s.time.bnd }
        if s.isSet .CPL_SEAL_EN n && !(field f 1 1).testBit 1 then s.sealFails n
        else
          let s := if !known then s.sendSeal n else s
          let s := if s.sealNeeded n && !(s.cpl n).sealed then s else s.ackIdentify n
          s.tryIdentify n)

/-- Whether bytes are what a read by an engine of this tile returns at an address aligned to 16; `none` is poison. -/
def State.seesRecord (s : State) (addr n : Nat) (v : Option (List Byte)) : Bool :=
  let chunks := List.range (n / 16)
  match v with
  | some bs => bs.length == n && chunks.all fun i => s.sees (addr + 16 * i) 16 (some (leNat ((bs.drop (16 * i)).take 16)))
  | none => chunks.any fun i => s.sees (addr + 16 * i) 16 none

/-- A received key and signature are checked (R457, R692).  `entry` is the neighbour's seal-list entry as the MGC reads
it, `none` for poison. -/
def execIdentifySeal (n : Fin 64) (entry : Option (List Byte)) (s : State) : Host.Outcome State Fault Refusal :=
  done (match s.takeCtl n 0x83, (s.cpl n).far with
    | some ((_, d), s'), some f =>
      let base := s.reg64 .SEC_SEAL_LIST_BASE_LO .SEC_SEAL_LIST_BASE_HI + 48 * field f 2 2
      if !s.seesRecord (0xFFFF * 2 ^ 48 + base % 2 ^ 48) 48 entry then s
      else if s.link n ≠ 2 then s'
      else
        let key := d.take 97
        let known : Bool := match entry with
          | some e => e.any (· != 0) && sha384 key == e
          | none => false
        let signed := ecdsaVerify key (sha384 (f ++ padTo 16 (s.cpl n).nonce)) ((d.drop 97).take 96)
        if d.length = 193 ∧ known ∧ signed then ((s'.onCpl n fun c => { c with sealed := true }).ackIdentify n).tryIdentify n
        else s'.sealFails n
    | _, _ => s)

/-- An acknowledgement that echoes this end's NONCE. -/
def execIdentifyAck (n : Fin 64) (s : State) : Host.Outcome State Fault Refusal :=
  done (match s.takeCtl n 0x84 with
    | none => s
    | some ((b, _), s) =>
      if (b.drop 8).take 16 = padTo 16 (s.cpl n).nonce then (s.onCpl n fun c => { c with acked := true }).tryIdentify n else s)

/-- IDENTIFY is repeated every 1 ms until it is acknowledged, and while either end has no ID (R454, R456). -/
def execIdentifyResend (n : Fin 64) (s : State) : Host.Outcome State Fault Refusal :=
  done (let c := s.cpl n
    if s.banksRun && s.link n == 2 && !c.resume && decide (c.sentAt + ticksOfUs 1000 ≤ s.time.bnd) then s.sendIdentify n else s)

/-- No IDENTIFY message has arrived within 10 ms; a tile without an ID, or with a neighbour without one, waits on. -/
def execIdentifyTimeout (n : Fin 64) (s : State) : Host.Outcome State Fault Refusal :=
  done (let c := s.cpl n
    let noId := s.tileId.isNone || match c.far with
      | some f => !(field f 1 1).testBit 0
      | none => false
    if s.banksRun && s.link n == 2 && !c.resume && !noId && decide (c.heardAt + ticksOfUs 10000 ≤ s.time.bnd) then
      s.attemptFails n
    else s)

/-- TIME has lasted more than 1 ms. -/
def execTimeTimeout (n : Fin 64) (s : State) : Host.Outcome State Fault Refusal :=
  done (if s.banksRun && s.link n == 3 && decide ((s.cpl n).since + ticksOfUs 1000 < s.time.bnd)
      && decide ((s.cpl n).ended < 16) then s.attemptFails n else s)

/-! ### ACTIVE, DEGRADED and DOWN (R442, R459–R463) -/

/-- What the commit of entry into ACTIVE or DEGRADED does: after a retrain each end replays from its oldest
unacknowledged flit (R500). -/
def applyLinkUp (n : Nat) (s : State) : State :=
  let c := s.cpl n
  let f := c.far.getD []
  let s := s.setLink n (if c.width = 4 then 4 else 5)
  let s := ((s.setReg .CPL_WIDTH c.width n).setReg .CPL_LANES_GOOD (field f 7 1 % 16 + 16 * (c.qual % 16)) n).setReg .CPL_NEIGH
    (2 ^ 31 + 65536 * (field f 4 1 % 64) + field f 2 2) n
  let s := s.setReg .CPL_LONG (bit (decide (2048 < 10 * s.reg .CPL_PATH_DELAY n))) n
  let back := c.held
  let s := s.onCpl n fun c => { c with failRun := 0, retrain := false, resume := false, held := none, rol := c.held.getD c.rol }
  let s := match back with
    | some r => (s.sendLink n false (some (match r.unack with
      | [] => r.txSeq
      | x :: _ => x.1))).emit n (r.unack.map Prod.snd)
    | none => s
  (s.pumpCpl n).linkEvent n 0x30 0

/-- After TIME, or after a retrain has found its neighbour, the coupler enters ACTIVE or DEGRADED at a tick. -/
def execLinkUp (n : Fin 64) (s : State) : Host.Outcome State Fault Refusal :=
  done (let c := s.cpl n
    if !s.cplLive n || !((s.link n == 3 && decide (16 ≤ c.ended)) || (s.link n == 2 && c.resume))
        || decide (s.time.bnd ≤ c.since) then s
    else s.tickEvent 9 (cfgSrc .CPL n) (.linkUp n) (applyLinkUp n))

/-- A coupler that passes through DOWN, or is retired, moves to DETECT at the next tick. -/
def execDownExit (n : Fin 64) (s : State) : Host.Outcome State Fault Refusal :=
  done (if s.banksRun && s.link n == 6 && (s.reg .CPL_DOWN_CAUSE n == 5 || (s.cpl n).gone)
      && decide ((s.cpl n).since < s.time.bnd) then s.toDetect n else s)

/-- Loss of codeword lock: a coupler that is up retrains; in IDENTIFY or TIME its attempt fails. -/
def State.lockLost (s : State) (n : Nat) : State :=
  if !s.isSet .CPL_LOCK n then s else
  let s := (s.count .CPL_LOCK_LOSS_CNT n).setReg .CPL_LOCK 0 n
  if s.linkUp n then s.startRetrain n 1 else if s.link n = 2 ∨ s.link n = 3 then s.attemptFails n else s

def execCodewordLockLoss (n : Fin 64) (s : State) : Host.Outcome State Fault Refusal :=
  done (if s.banksRun && !s.isSet .CPL_LP n then s.lockLost n else s)

/-- A lane has passed CPL_LANE_SER_LIMIT in each of 8 consecutive 1 ms windows; `counts` are its corrected symbols. -/
def execLaneSerLimit (n : Fin 64) (lane : Fin 4) (counts : List Nat) (s : State) : Host.Outcome State Fault Refusal :=
  done (if s.banksRun && s.linkUp n && (s.cpl n).qual.testBit lane && counts.length == 8
      && counts.all fun x => decide (s.reg .CPL_LANE_SER_LIMIT n < x) then s.startRetrain n 2 else s)

/-- A write of 1 to CPL_RETRAIN. -/
def execCplRetrain (n : Fin 64) (s : State) : Host.Outcome State Fault Refusal :=
  done (if s.banksRun then s.startRetrain n 3 else s)

/-- A write of 1 to CPL_RESTART: DOWN is left for DETECT, and the run of failures ends; a retired coupler stays. -/
def execCplRestart (n : Fin 64) (s : State) : Host.Outcome State Fault Refusal :=
  done (if s.banksRun && s.link n == 6 && !(s.cpl n).gone then (s.toDetect n).onCpl n fun c => { c with failRun := 0 } else s)

/-- A write of 1 to CPL_LANE_RETIRE_GO: the selected lane retires at the next retrain. -/
def execCplLaneRetireGo (n : Fin 64) (s : State) : Host.Outcome State Fault Refusal :=
  done (if !s.banksRun then s else
    let sel := s.regS .CPL_LANE_RETIRE_SEL n
    s.onCpl n fun c => { c with retireDue := if c.retireDue.contains sel then c.retireDue else c.retireDue ++ [sel] })

/-! ### Low power (R464, R465, R507) -/

/-- Whether a coupler has nothing queued and no unacknowledged flit. -/
def State.cplIdle (s : State) (n : Nat) : Bool := (s.cpl n).rol.queue.isEmpty && (s.cpl n).rol.unack.isEmpty

/-- Asks the neighbour for low power. -/
def State.askLowPower (s : State) (n : Nat) : State :=
  if !s.linkUp n || s.isSet .CPL_LP n || (s.cpl n).lpAsked.isSome || !s.cplIdle n
      || decide (s.time.bnd < (s.cpl n).lpRefused) then s
  else (s.sendCtl n 0x8B []).onCpl n fun c => { c with lpAsked := some s.time.bnd }

/-- A received LP_REQ is answered, accepting only when this end is idle too. -/
def execLpReq (n : Fin 64) (s : State) : Host.Outcome State Fault Refusal :=
  done (match s.takeCtl n 0x8B with
    | none => s
    | some (_, s) =>
      let ok := s.linkUp n && s.cplIdle n
      (s.sendCtl n 0x8C [(4, leBytes 1 (bit ok))]).onCpl n fun c => { c with lpGoing := ok })

/-- A received LP_ACK: when it accepts, this end acknowledges it and enters low power; after a refusal it may ask again
after 10 µs. -/
def execLpAck (n : Fin 64) (s : State) : Host.Outcome State Fault Refusal :=
  done (match s.takeCtl n 0x8C with
    | none => s
    | some ((b, _), s) =>
      if (s.cpl n).lpAsked.isNone ∨ !s.linkUp n then s else
      let s := s.onCpl n fun c => { c with lpAsked := none }
      if (field b 4 1).testBit 0 then (s.sendLink n false none).setReg .CPL_LP 1 n
      else s.onCpl n fun c => { c with lpRefused := s.time.bnd + ticksOfUs 10 })

/-- A coupler leaves low power when a flit is queued or when the neighbour beacons, and when the power manager leaves T4
(row WAKE); codeword lock ends the exit. -/
def execLpExit (n : Fin 64) (beacon : Bool) (s : State) : Host.Outcome State Fault Refusal :=
  done (if s.banksRun && (beacon || !(s.cpl n).rol.queue.isEmpty) then s.startLpExit n else s)

/-- An exit that takes more than 1 ms becomes a retrain. -/
def execLpExitTimeout (n : Fin 64) (s : State) : Host.Outcome State Fault Refusal :=
  done (match (s.cpl n).lpExit with
    | some t => if s.banksRun && decide (t + ticksOfUs 1000 < s.time.bnd) then s.startRetrain n 1 else s
    | none => s)

/-! ### Equaliser updates (R467–R469) -/

/-- A receiver asks for new taps of the neighbour's transmit lane; `codes` are the requests of the four taps.  `forced`
says that the update has waited 100 µs and takes its slot whatever waits (R469). -/
def execEqUpdSend (n : Fin 64) (lane : Fin 4) (codes : List (Fin 4)) (forced : Bool) (s : State) : Host.Outcome State Fault Refusal :=
  done (let c := s.cpl n
    let free := match NMap.find? c.eqOut lane with
      | some u => decide (u.tick < s.time.now)
      | none => true
    if !s.banksRun || !s.linkUp n || !s.isSet .CPL_TXEQ_EN n || !free || !c.qual.testBit lane then s else
    let tick := s.time.now + s.reg .CPL_EQ_LEAD n
    let s := (if forced then s.count .BANK_BG_FORCED_CNT (n.val / 8) else s).onCpl n fun c => { c with eqSeq := (c.eqSeq + 1) % 256, eqOut := NMap.insert c.eqOut lane ⟨c.eqSeq, tick, 0⟩ }
    s.sendCtl n 0x88 [(4, leBytes 1 lane), (5, (codes.take 4).map fun x => BitVec.ofNat 8 x), (12, leBytes 8 tick),
      (20, leBytes 1 c.eqSeq)])

/-- A received EQ_UPD is answered with EQ_ACK, EQ_NAK LIMIT or EQ_NAK LATE. -/
def execEqUpd (n : Fin 64) (s : State) : Host.Outcome State Fault Refusal :=
  done (match s.takeCtl n 0x88 with
    | none => s
    | some ((b, _), s) =>
      if !s.linkUp n || !s.isSet .CPL_TXEQ_EN n then s else
      let lane := field b 4 1 % 4
      let tick := field b 12 8
      let seq := field b 20 1
      let nak (why : Nat) : State := s.sendCtl n 0x8A [(4, leBytes 1 lane), (5, leBytes 1 why), (20, leBytes 1 seq)]
      match requestTaps (tapsOf (s.reg .CPL_TXEQ n lane)) ((List.range 4).map fun i => field b (5 + i) 1 % 4) with
      | none => nak 1
      | some t =>
        if tick ≤ s.time.now then nak 2 else
        (s.onCpl n fun c => { c with eqIn := NMap.insert c.eqIn lane ⟨seq, tick, tapsReg t⟩ }).sendCtl n 0x89
          [(4, leBytes 1 lane), (12, leBytes 8 tick), (20, leBytes 1 seq)])

/-- A received EQ_ACK fixes the ticks in which the receiver's adaptation is frozen. -/
def execEqAck (n : Fin 64) (s : State) : Host.Outcome State Fault Refusal :=
  done (match s.takeCtl n 0x89 with
    | none => s
    | some ((b, _), s) =>
      let lane := field b 4 1 % 4
      match NMap.find? (s.cpl n).eqOut lane with
      | some u =>
        if u.seq ≠ field b 20 1 then s else
        s.onCpl n fun c => { c with eqOut := NMap.insert c.eqOut lane { u with tick := field b 12 8 },
                                    freeze := NMap.insert c.freeze lane (field b 12 8) }
      | none => s)

/-- A received EQ_NAK ends the update and counts the refusal. -/
def execEqNak (n : Fin 64) (s : State) : Host.Outcome State Fault Refusal :=
  done (match s.takeCtl n 0x8A with
    | none => s
    | some ((b, _), s) =>
      let lane := field b 4 1 % 4
      match NMap.find? (s.cpl n).eqOut lane with
      | some u =>
        if u.seq ≠ field b 20 1 then s else
        (s.count .CPL_EQ_NAK_CNT n).onCpl n fun c => { c with eqOut := NMap.erase c.eqOut lane }
      | none => s)

/-- What the commit of new taps does. -/
def applyEq (n lane : Nat) (s : State) : State :=
  match NMap.find? (s.cpl n).eqIn lane with
  | some u => ((s.setReg .CPL_TXEQ u.taps n lane).count .CPL_EQ_UPD_CNT n).onCpl n fun c => { c with eqIn := NMap.erase c.eqIn lane }
  | none => s

/-- The new taps of a transmit lane apply after APPLY_TICK, as a class 9 commit. -/
def execEqApply (n : Fin 64) (lane : Fin 4) (s : State) : Host.Outcome State Fault Refusal :=
  done (match NMap.find? (s.cpl n).eqIn lane with
    | some u =>
      if s.linkUp n && decide (u.tick ≤ s.time.now) then
        s.tickEvent 9 (cfgSrc .CPL n (0x60 + 4 * lane)) (.eqApply n lane) (applyEq n lane)
      else s
    | none => s)

/-! ### Banks (R473) -/

/-- A bank's PLL loses lock: all its couplers lose codeword lock. -/
def execBankPllUnlock (b : Fin 8) (s : State) : Host.Outcome State Fault Refusal :=
  done (if !s.banksRun then s else
    foldState (fun s i => s.lockLost (8 * b.val + i)) (List.range 8) (s.setReg .BANK_PLL_LOCK 0 b))

/-- A bank's PLL locks again. -/
def execBankPllLock (b : Fin 8) (s : State) : Host.Outcome State Fault Refusal :=
  done (if !s.banksRun then s else s.setReg .BANK_PLL_LOCK 1 b)

end Sys2Proof.Machine
end

