-- ==== Sys2Proof/Machine/TimeAlign.lean ====
section
/-!
DEFINITION. Alignment of fabric time across tiles, the measurement of path delays, steps of fabric time, and replay from
the journal (R105–R111, R124, R458, R459, R506).
-/
namespace Sys2Proof.Machine

/-! ### Announcements (R105–R107) -/

/-- Whether the tile has a root: it is one with an ID, or follows a parent (R106). -/
def State.hasRoot (s : State) : Bool :=
  s.isSet .TIK_ALIGN_EN && (s.time.parent.isSome || (s.isSet .TIK_ROOT && s.tileId.isSome))

/-- A coupler announces the tile's root and depth every 65,536 ticks. -/
def execTimeAnnSend (n : Fin 64) (s : State) : Host.Outcome State Fault Refusal :=
  done (let due := match (s.cpl n).annAt with
      | some t => decide (t + 65536 ≤ s.time.bnd)
      | none => true
    if !s.banksRun || !(s.link n == 3 || s.linkUp n) || !s.hasRoot || !due then s else
    (s.sendCtl n 0x85 [(4, leBytes 2 (s.reg .TIK_ROOT_ID)), (6, leBytes 1 (s.reg .TIK_DEPTH))]).onCpl n fun c =>
      { c with annAt := some s.time.bnd })

/-- A received announcement may change the parent. -/
def execTimeAnn (n : Fin 64) (s : State) : Host.Outcome State Fault Refusal :=
  done (match s.takeCtl n 0x85 with
    | none => s
    | some ((b, _), s) =>
      if !(s.link n == 3 || s.linkUp n) then s else
      { s with time := { s.time with offers := NMap.insert s.time.offers n ⟨field b 4 2, field b 6 1⟩ } }.chooseParent)

/-! ### Measurement (R108, R458, R506) -/

/-- A timestamp of 9 bytes: the fraction in 1/256 tick, then the ticks (R503). -/
def ts72 (t : Nat) : List Byte := leBytes 1 (t % 256) ++ leBytes 8 (t / 256)
def ts72Of (b : List Byte) (at' : Nat) : Nat := field b at' 1 + 256 * field b (at' + 1) 8

/-- Sends TIME_REQ with t1. -/
def State.sendTimeReq (s : State) (n t1 : Nat) : State :=
  let seq := ((s.cpl n).seq + 1) % 65536
  (s.sendCtl n 0x86 [(4, leBytes 2 seq), (8, ts72 t1)]).onCpl n fun c => { c with seq := seq, t1 := some t1 }

/-- In TIME each of 16 exchanges starts 1 µs after the one before; `frac` is the fraction of the tick at which TIME_REQ
leaves (R458). -/
def execCouplerTimeExchange (n : Fin 64) (frac : Fin 256) (s : State) : Host.Outcome State Fault Refusal :=
  done (let c := s.cpl n
    if !s.banksRun || s.link n != 3 || 16 ≤ c.started || decide (s.time.bnd < c.since + ticksOfUs c.started) then s else
    (s.sendTimeReq n (256 * s.time.now + frac)).onCpl n fun c => { c with started := c.started + 1 })

/-- Every 65,536 ticks the tile measures on its parent coupler. -/
def execTimeMeasure (frac : Fin 256) (s : State) : Host.Outcome State Fault Refusal :=
  done (match s.time.parent with
    | none => s
    | some n =>
      let due := match s.time.measured with
        | some t => decide (t + 65536 ≤ s.time.bnd)
        | none => true
      if !s.banksRun || !s.linkUp n || !due then s else
      let t1 := 256 * s.time.now + frac
      let s := s.sendTimeReq n t1
      { s with time := { s.time with t1 := some t1, measured := some s.time.bnd } })

/-- A received TIME_REQ is answered; `t2` and `t3` are the fractions of the ticks at which it arrived and at which the
answer leaves, in the same tick. -/
def execTimeReq (n : Fin 64) (t2 t3 : Fin 256) (s : State) : Host.Outcome State Fault Refusal :=
  done (match s.takeCtl n 0x86 with
    | none => s
    | some ((b, _), s) =>
      if t3 < t2 then s else
      s.sendCtl n 0x87 [(4, (b.drop 4).take 2), (8, (b.drop 8).take 9), (17, ts72 (256 * s.time.now + t2)),
        (26, ts72 (256 * s.time.now + t3))])

/-- The delay of four timestamps, in 1/256 tick (R108). -/
def pathDelay (t1 t2 t3 t4 : Nat) : Int := (((t4 : Int) - t1) - ((t3 : Int) - t2)) / 2

/-- An offset is slewed away when it is below one tick, and otherwise stepped at the next boundary, what is left of it
being slewed (R109; DEDUCED, log entry 20). -/
def State.applyOffset (s : State) (off : Int) : State :=
  let s := s.setReg .TIK_OFFSET (BitVec.ofInt 32 off).toNat
  if off.natAbs < 256 then { s with time := { s.time with slew := off, step := none } }
  else { s with time := { s.time with step := some (off.tdiv 256, s.time.bnd), slew := off.tmod 256 } }

/-- A received TIME_RSP; `t4` is the fraction of the tick at which it arrived. -/
def execTimeRsp (n : Fin 64) (t4 : Fin 256) (s : State) : Host.Outcome State Fault Refusal :=
  done (match s.takeCtl n 0x87 with
    | none => s
    | some ((b, _), s) =>
      let c := s.cpl n
      if c.t1.isNone ∨ field b 4 2 ≠ c.seq then s else
      let now := 256 * s.time.now + t4
      let d := pathDelay (ts72Of b 8) (ts72Of b 17) (ts72Of b 26) now
      let s := s.onCpl n fun c => { c with t1 := none }
      if s.link n = 3 then
        let least := match c.least with
          | some x => min x d.toNat
          | none => d.toNat
        let s := s.onCpl n fun c => { c with ended := c.ended + 1, least := some least }
        if c.ended + 1 < 16 then s
        else (s.setReg .CPL_PATH_DELAY (least % 2 ^ 32) n).setReg .CPL_LONG (bit (decide (2048 < 10 * least))) n
      else if s.linkUp n ∧ s.time.parent = some n.val ∧ s.time.t1.isSome then
        { s with time := { s.time with t1 := none } }.applyOffset ((ts72Of b 17 : Int) + d - now)
      else s)

/-! ### Steps of fabric time (R109, R110) -/

/-- A time moved by a step. -/
def moved (d : Int) (t : Nat) : Nat := ((t : Int) + d).toNat

/-- Moves what waits for a relative time: sleeps, timer watchers, relative TIMER_WAITs and WAIT deadlines (R110). -/
def State.moveWaits (s : State) (d : Int) : State :=
  let sleep (h : Hand) : Hand := if h.sleepEnd = 0 then h else { h with sleepEnd := moved d h.sleepEnd }
  let core (c : Core) : Core := { c with slots := c.slots.map fun x => (x.1, sleep x.2) }
  let watch (w : Watcher) : Watcher := if w.armed ∧ w.kind = 0 then { w with next := moved d w.next } else w
  let wait : CpWait → CpWait
    | .fence n t e dl => .fence n t e (dl.map (moved d))
    | .watcher n t dl => .watcher n t (dl.map (moved d))
    | .timer t abs => .timer (if abs then t else moved d t) abs
  { s with cores := s.cores.map fun x => (x.1, core x.2),
           cp := { s.cp with watch := s.cp.watch.map fun x => (x.1, watch x.2),
                             cur := s.cp.cur.map fun c => { c with wait := c.wait.map wait } } }

/-- A step of fabric time is made at the boundary after it was found: it is counted and posted, relative waits move with
it, and an armed route switch that it carries past its tick is late (R109, R110). -/
def execTimeStep (s : State) : Host.Outcome State Fault Refusal :=
  done (match s.time.step with
    | none => s
    | some (d, at') =>
      if !s.ticking || decide (s.time.bnd ≤ at') then s else
      let old := s.time.now
      let new := moved d old
      let tick := s.reg64 .RTE_SW_TICK_LO .RTE_SW_TICK_HI
      let s := { s with time := { s.time with now := new, step := none } }.count .TIK_STEP_CNT
      let s := if s.isSet .RTE_ARMED ∧ old < tick ∧ tick ≤ new then s.count .RTE_SW_LATE_CNT else s
      (s.moveWaits d).postEvent (deckIndex .TIK 0) (payload [(0, leBytes 1 0x41), (8, leBytes 8 new), (0x10, leBytes 8 old),
        (0x18, leBytes 8 new)]))

/-! ### Replay (R124) -/

/-- What the commit of REPLAY does: the replay range is fixed from the journal. -/
def applyReplayStart (s : State) : State :=
  let size := 2 ^ s.reg .TIK_JNL_LOG2
  let p := s.reg .TIK_JNL_PTR
  let whole := s.reg .TIK_JNL_WRAPS ≠ 0
  let s := ((s.setReg .TIK_REPLAY 1).setReg .TIK_RPL_PTR (if whole then p else 0)).setReg .TIK_RPL_END p
  { s with shadow := NMap.erase s.shadow (regKey .TIK_REPLAY 0 0),
           time := { s.time with replayBase := s.reg64 .TIK_JNL_BASE_LO .TIK_JNL_BASE_HI, replaySize := size,
                                 replayLeft := if whole then size else p, replayLast := s.time.bnd } }

/-- A pending write of 1 to TIK_REPLAY commits, as class 9. -/
def execReplayStart (s : State) : Host.Outcome State Fault Refusal :=
  done (if NMap.find? s.shadow (regKey .TIK_REPLAY 0 0) = some 1 ∧ !s.isSet .TIK_REPLAY then
      s.tickEvent 9 (cfgSrc .TIK 0 8) .replayStart applyReplayStart
    else s)

/-- Whether the CP has reached a record: it is at a command boundary, waits, or has no list current. -/
def State.cpReached (s : State) : Bool := match s.cp.cur with
  | none => true
  | some c => c.wait.isSome || c.hold.isEmpty

/-- The next record of the replay range, as the tile reads it from the journal (`none` is poison), is passed over or
applied as its own class and source. -/
def execReplayApply (rec : Option (List Byte)) (s : State) : Host.Outcome State Fault Refusal :=
  done (let t := s.time
    let p := s.reg .TIK_RPL_PTR
    let at' := t.replayBase + 16 * p
    if !s.isSet .TIK_REPLAY || t.replayLeft == 0 || !s.ticking || !s.seesRecord (0xFFFF * 2 ^ 48 + at' % 2 ^ 48) 16 rec then s else
    let next (s : State) : State :=
      { s.setReg .TIK_RPL_PTR ((p + 1) % t.replaySize) with time := { s.time with replayLeft := t.replayLeft - 1 } }
    match rec with
    | none => next s
    | some b =>
      let cls := field b 8 1
      let fl := field b 9 1
      let src := field b 10 2
      let data := field b 12 4
      if !fl.testBit 0 ∨ !((cls = 8 ∧ src = 0) ∨ (cls = 10 ∧ src < 16)) then next s
      else if t.now < field b 0 8 ∨ t.bnd ≤ t.replayLast ∨ !s.cpReached then s
      else
        let s := next s
        let s := { s with time := { s.time with replayLast := t.bnd } }
        let s := s.localWrite (at' + 9) [BitVec.ofNat 8 (fl ||| 4)]
        if cls = 8 then
          s.tickEvent 8 0 (.doorbell data (s.reg .CTX_EPOCH)) (applyDoorbell data (s.reg .CTX_EPOCH))
        else s.tickEvent 10 src (.watchFire src (data % 4) (data / 4 % 2)) (fireWatch src))

/-- The end of replay: live events resume. -/
def applyReplayEnd (s : State) : State := s.setReg .TIK_REPLAY 0

/-- When the range is exhausted, TIK_REPLAY clears at the next tick, as class 9. -/
def execReplayEnd (s : State) : Host.Outcome State Fault Refusal :=
  done (if s.isSet .TIK_REPLAY && s.time.replayLeft == 0 && decide (s.time.replayLast < s.time.bnd) then
      s.tickEvent 9 (cfgSrc .TIK 0 8) .replayEnd applyReplayEnd
    else s)

end Sys2Proof.Machine
end

