-- ==== Sys2Proof/Machine/Brake.lean ====
section
/-!
DEFINITION. The brake: its triggers, what it does at its tick, and the order in which the domains stop (R265–R270, R505).
-/
namespace Sys2Proof.Machine

/-- The body of a brake flit: ORIGIN and its tick, copied from a received one with one hop more (R503, R505). -/
def State.brakeBody (s : State) : List Byte :=
  let o := match s.brk.origin with
    | some (id, v, t, h) => (id, v, t, h + 1)
    | none => (s.tileId.getD 0, bit s.tileId.isSome, s.time.now, 0)
  ctlBody 0x81 [(4, leBytes 2 o.1), (6, leBytes 1 o.2.1), (8, leBytes 8 o.2.2.1), (16, leBytes 1 o.2.2.2)]

/-- Sends a brake flit ahead of everything queued on every coupler in TIME, ACTIVE or DEGRADED that is not in low power
(R266). -/
def State.forwardBrake (s : State) : State :=
  if !s.isSet .BRK_FWD_EN then s else
  let f : Flit := ⟨true, s.brakeBody⟩
  foldState (fun s n => s.emit n [f]) (numsWhere 64 fun n => (s.link n == 3 || s.linkUp n) && !s.isSet .CPL_LP n) s

/-- What the brake does at its tick: the record, BRAKE_OUT_N, the MSI-X message and the brake flits; a further source of
the same tick is only noted, and a tile that is already braked ignores it (R265–R267, R270, R273). -/
def applyBrake (src : Nat) (coupler : Option Nat) (s : State) : State :=
  let note (s : State) : State :=
    let s := s.setReg .BRK_SOURCES (s.reg .BRK_SOURCES ||| 2 ^ src)
    match coupler with
    | some n => if s.reg .BRK_RX_COUPLER = 0 then s.setReg .BRK_RX_COUPLER (n + 1) else s
    | none => s
  if s.isSet .BRK_BRAKED then (if s.time.cur.brake then note s else s) else
  let s := note (((s.setReg .BRK_BRAKED 1).setReg64 .BRK_TIME_LO .BRK_TIME_HI s.time.now).setReg .BRK_RO_AUTH (bit (s.level == 3)))
  let s := { s with brk := { s.brk with bnd := s.time.bnd, outLow := true },
                    time := { s.time with cur := { s.time.cur with brake := true } } }
  let s := if s.isSet .BRK_MSI_EN then s.sendMsi (s.reg .BRK_MSI_VEC) else s
  s.forwardBrake

/-- BRAKE_N is captured low at the current tick: the brake is to be applied in it, as source 0, or in the next one where
later events of this tick have been applied. -/
def execBrakeNLow (s : State) : Host.Outcome State Fault Refusal :=
  done (if !s.ticking ∨ s.isSet .BRK_BRAKED ∨ s.padsTaken then s
    else if s.inOrder 2 0 then s.atOnce ⟨2, 0, .brake 0 none⟩ else s.later 2 0 (.brake 0 none))

/-- A brake flit has arrived on a coupler: the brake is applied at the first tick boundary after it, while BRK_RX_EN is 1
and the tile is not braked already. -/
def execBrake (n : Fin 64) (s : State) : Host.Outcome State Fault Refusal :=
  done (match s.takeCtl n 0x81 with
    | none => s
    | some ((b, _), s) =>
      if !s.isSet .BRK_RX_EN ∨ s.isSet .BRK_BRAKED then s else
      let o := match s.brk.origin with
        | none => some (field b 4 2, field b 6 1 % 2, field b 8 8, field b 16 1)
        | o => o
      { s with brk := { s.brk with origin := o } }.later 2 0 (.brake 0 (some n)))

/-- After how many ticks each row of R268 stops. -/
def stopAfter : List Nat := [1, 1, 3, 2, 3, 3, 3]

/-- The domains whose time has come stop: the fabric time of each row is recorded, and the stacks go into self-refresh. -/
def execBrakeStopDomains (s : State) : Host.Outcome State Fault Refusal :=
  done (if !s.isSet .BRK_BRAKED then s else
    let t := s.reg64 .BRK_TIME_LO .BRK_TIME_HI
    let stop (s : State) (x : Nat × Nat) : State :=
      if s.brk.bnd + x.1 ≤ s.time.bnd ∧ (NMap.find? s.brk.rows x.2).isNone then
        let s := { s with brk := { s.brk with rows := NMap.insert s.brk.rows x.2 (t + x.1) } }
        if x.2 = 2 then { s with mem := { s.mem with selfRefresh := (List.range 8).map fun k => (k, true) } } else s
      else s
    foldState stop stopAfter.zipIdx s)

end Sys2Proof.Machine
end

