-- ==== Sys2Proof/Machine/Window.lean ====
section
/-!
DEFINITION. The commit of the window table and its drain, and leaving coherence (R290, R347).
-/
namespace Sys2Proof.Machine

/-! ### The window commit (R290) -/

/-- The fields of a window entry. -/
def winFields : List Field :=
  [.TILE_WIN_VALID, .TILE_WIN_TYPE, .TILE_WIN_PREFETCH, .TILE_WIN_CMODE, .TILE_WIN_CSEL, .TILE_WIN_TILE_FIRST, .TILE_WIN_TILE_LAST,
   .TILE_WIN_BASE_LO, .TILE_WIN_BASE_HI, .TILE_WIN_LIMIT_LO, .TILE_WIN_LIMIT_HI]

/-- A write of 1 to TILE_WIN_COMMIT starts a commit at the next tick; one under way discards it. -/
def execTileWinCommit (s : State) : Host.Outcome State Fault Refusal :=
  done (if s.isSet .BRK_BRAKED then s
    else if s.isSet .TILE_WIN_BUSY then s.cfgErr .TILE
    else s.later 9 (cfgSrc .TILE 0 Field.TILE_WIN_COMMIT.spec.off) .windowCommit)

/-- What the commit does at its tick: the changed entries, whose ranges are held from now on. -/
def applyWindowCommit (s : State) : State :=
  let pend (n : Nat) : NMap Nat := winFields.filterMap fun f =>
    (NMap.find? s.shadow (regKey f 0 n)).bind fun v => if v = s.reg f 0 n then none else some (regKey f 0 n, v)
  let changed := (List.range 256).filter fun n => !(pend n).isEmpty
  let new := changed.foldl (fun m n => (pend n).foldl (fun m x => NMap.insert m x.1 x.2) m) []
  let s := s.setReg .TILE_WIN_BUSY 1
  { s with winEntries := changed, winNew := new }

/-- Whether an access to the held ranges is still under way. -/
def State.winBusy (s : State) : Bool :=
  let hit (a : Nat) : Bool := s.winHeld (s.normalise a)
  let part (p : Option Part) : Bool := match p with
    | some p => hit p.addr
    | none => false
  (s.clus.any fun c => (c.2.reqs.any fun r => !r.2.quar && (hit (128 * r.2.line) || part r.2.part))
      || c.2.wbuf.any fun x => hit (128 * x.line))
    || (s.cores.any fun c => c.2.slots.any fun h => h.2.ops.any fun o => o.parts.any fun p => hit p.addr)
    || s.posted.any fun p => !p.2.quar && match p.2.line with
      | some l => hit (128 * l)
      | none => false

/-- Drops a line from every instruction cache of a cluster. -/
def State.dropIcs (s : State) (c line : Nat) : State :=
  foldState (fun s i => s.onCore (4 * c + i) fun co => { co with ic := co.ic.filter fun x => x.2.line != line }) (List.range 4) s

/-- Writes back and invalidates what the caches hold of the lines that `hit` picks, as far as tags and buffers allow. -/
def State.cleanLines (s : State) (hit : Nat → Bool) : State :=
  let s := foldState (fun s (c : Nat × Cluster) =>
    foldState (fun s (x : Nat × CLine) => if hit x.2.line ∧ s.canEvict c.1 x.2 then s.evict c.1 x.2 else s) c.2.cc s) s.clus s
  { s with cores := s.cores.map fun c => (c.1, { c.2 with ic := c.2.ic.filter fun x => !hit x.2.line }) }

/-- The drain of a window commit: every access to the ranges completes, the caches write back and invalidate their lines,
and then all changed entries take effect together. -/
def execWindowDrainDone (s : State) : Host.Outcome State Fault Refusal :=
  done (if !s.isSet .TILE_WIN_BUSY || s.stopped 2 then s else
    let hit (line : Nat) : Bool := s.winHeld (s.normalise (128 * line))
    let clean := s.cleanLines hit
    if clean.winBusy || clean.clus.any fun c => c.2.cc.any fun x => hit x.2.line then clean else
    let put (s : State) (n : Nat) : State := foldState (fun s f => match NMap.find? s.winNew (regKey f 0 n) with
      | some v => { s.setReg f v 0 n with shadow := NMap.erase s.shadow (regKey f 0 n) }
      | none => s) winFields s
    let names (s : State) (n : Nat) : Option Nat :=
      if s.isSet .TILE_WIN_VALID 0 n ∧ s.reg .TILE_WIN_TYPE 0 n = 2 ∧ s.reg .TILE_WIN_CMODE 0 n = 1 then
        some (s.reg .TILE_WIN_CSEL 0 n) else none
    let s := foldState put clean.winEntries clean
    let s := foldState (fun s n => match names s n with
      | some slot => if names clean n = some slot then s else s.issue 10 slot
      | none => s) clean.winEntries s
    { (s.setReg .TILE_WIN_BUSY 0).count .TILE_WIN_COMMITS with winEntries := [], winNew := [] })

/-! ### Leaving coherence (R347) -/

/-- Whether a cluster holds no hand. -/
def State.noHands (s : State) (c : Nat) : Bool := (List.range 4).all fun i => (s.core (4 * c + i)).slots.isEmpty

/-- A cluster without hands that enters T2 or is being retired stops allocating, writes back its M and O lines and sends CE for its E lines. -/
def execLeaveCoherence (c : Fin 64) (s : State) : Host.Outcome State Fault Refusal :=
  done (if !s.clocked c || !s.noHands c || (s.clu c).leaving
      || !((NMap.get {} s.pwr.regs c : RegSt).entering || (NMap.find? s.deck.draining c).isSome) then s else
    leavePump (s.onClu c fun cl => { cl with leaving := true }) c)

/-- Whether a leaving cluster has written everything back and has every acknowledgement. -/
def State.hasLeft (s : State) (c : Nat) : Bool :=
  let cl := s.clu c
  cl.leaving && cl.reqs.all (·.2.quar) && cl.wbuf.isEmpty && cl.asm.isEmpty && cl.cc.all fun x => x.2.st == .s || x.2.st == .v

/-- Invalidates every line of a cluster and of its cores. -/
def State.emptyCaches (s : State) (c : Nat) : State :=
  let s := foldState (fun s (x : Nat × CLine) => s.dropCc c x.2.line) (s.clu c).cc s
  foldState (fun s i => s.onCore (4 * c + i) fun co => { co with l1 := [], ic := [] }) (List.range 4) s

end Sys2Proof.Machine
end

