-- ==== Sys2Proof/Machine/MemCtl.lean ====
section
/-!
DEFINITION. The memory controllers' own work: initialisation, refresh, patrol scrub, row sparing, channel retirement,
live timing calibration and the temperature report (R351, R365, R368–R379, R382, R756).
-/
namespace Sys2Proof.Machine

/-- Whether a controller takes new work (R268): it is not stopped, and its stack is not in self-refresh. -/
def State.memRuns (s : State) (k : Nat) : Bool := !s.stopped 1 && !(NMap.get false s.mem.selfRefresh k)

/-- Counts a forced turn of a background activity (R382). -/
def State.forcedTurn (s : State) (k n : Nat) (forced : Bool) : State := if forced then s.count .MEM_BG_FORCED_CNT k n else s

/-- Initialisation of a stack is complete: every granule of its channels that are not retired is zero and GOOD; `slow` is a
fallback to 6.4 Gb/s (R351, R365). -/
def execMemInitDone (k : Fin 8) (slow : Bool) (s : State) : Host.Outcome State Fault Refusal :=
  done (if s.stopped 1 || !s.booted || s.isSet .MEM_INIT_DONE k then s else
    let keep (o : Nat) : Bool := ctlOf o != k.val || s.retiredAt o
    let m := s.mem
    let s := (s.setReg .MEM_INIT_DONE 1 k).setReg .MEM_RATE_FALLBACK (bit slow) k
    { s with mem := { m with cells := m.cells.filter fun c => keep c.1, gran := m.gran.filter fun c => keep (32 * c.1),
                             err := m.err.filter fun c => keep (32 * c.1) } })

/-- A refresh of a bank: it changes nothing the tile shows but, at the postponement limit, the count of forced turns. -/
def execRefresh (k : Fin 8) (forced : Bool) (s : State) : Host.Outcome State Fault Refusal :=
  done (if s.memRuns k then s.forcedTurn k 0 forced else s)

/-! ### Patrol scrub (R369–R371) -/

/-- The lines of a pseudo-channel. -/
def pcLines : Nat := 6291456

/-- The i-th line of a pseudo-channel, in ascending order of Ls (R353, R369). -/
def scrubLine (ch pc i : Nat) : Nat :=
  let h := i / 16
  1024 * h + 64 * (i % 16) + 32 * (pc ^^^ (h / 32 % 2)) + (ch ^^^ (h % 32))

/-- A scrub interval, in ticks (R370). -/
def State.scrubInterval (s : State) (k : Nat) : Nat := s.reg .MEM_SCRUB_HOURS k * 3600 * 10 ^ 8 / pcLines

/-- A due scrub step reads and decodes one line; `forced` says it took its turn after 1 ms. -/
def execScrubStep (k : Fin 8) (ch : Fin 32) (pc : Fin 2) (forced : Bool) (s : State) : Host.Outcome State Fault Refusal :=
  done (let key := k.val * 64 + ch.val * 2 + pc.val
    if !s.memRuns k || !s.isSet .MEM_INIT_DONE k || !s.isSet .MEM_SCRUB_EN k || s.chRetired k ch
        || decide (s.time.bnd < NMap.get 0 s.mem.scrubAt key + s.scrubInterval k) then s else
    let i := NMap.get 0 s.mem.scrub key
    let s := (s.readLine (offsetOfLs k (scrubLine ch pc i)) .scrub).2.forcedTurn k 1 forced
    let wrap := decide (pcLines ≤ i + 1)
    let old := NMap.get 0 s.mem.scrubWrapped k
    let mask := if wrap then old ||| 2 ^ (2 * ch.val + pc.val) else old
    let all := (List.range 64).all fun j => mask.testBit j || s.chRetired k (j / 2)
    let s := { s with mem := { s.mem with
      scrub := NMap.set 0 s.mem.scrub key (if wrap then 0 else i + 1), scrubAt := NMap.insert s.mem.scrubAt key s.time.bnd,
      scrubWrapped := NMap.set 0 s.mem.scrubWrapped k (if all then 0 else mask) } }
    if wrap && all then s.count .MEM_SCRUB_PASSES k else s)

/-! ### Row sparing (R372, R373) -/

/-- The row of line `ls` is spared, or cannot be: `left` is what the bank then has left, or nothing where it had no spare
row.  `forced` says that the wait reached 1 ms. -/
def execRowSpare (k : Fin 8) (ls : Nat) (left : Option Nat) (forced : Bool) (s : State) : Host.Outcome State Fault Refusal :=
  done (let key := rowKey k ls
    let row := Config.rowOf k ls
    if !s.memRuns k || (NMap.find? s.mem.rowDue key).isNone then s else
    let cleared (s : State) : State := { s with mem := { s.mem with rowDue := NMap.erase s.mem.rowDue key, rowErr := NMap.erase s.mem.rowErr key } }
    match left with
    | none => cleared (s.count .MEM_SPARE_FAIL_CNT k)
    | some n =>
      let bad := s.mem.err.filter fun e => ctlOf (32 * e.1) == k.val && Config.rowOf k (lsOfOffset (32 * e.1)) == row
      let s := cleared (foldState (fun s e => (s.readGran e.1 .sparing).2) bad s)
      let s := { s with mem := { s.mem with spared := NMap.insert s.mem.spared k (NMap.get [] s.mem.spared k ++ [row]) } }
      ((s.count .MEM_ROW_SPARED_CNT k).postEvent (deckIndex .MEM k)
        (memPayload 0x22 k (channelOf ls) (pcOf ls) 0 0 s.time.now 0 row 0 n)).forcedTurn k 4 forced)

/-! ### Channel retirement (R374–R377, R756) -/

/-- A write of 1 to MEM_CH_RETIRE_GO: discarded and counted while a retirement runs or where the channel is retired. -/
def execMemChRetireGo (k : Fin 8) (s : State) : Host.Outcome State Fault Refusal :=
  done (if s.isSet .BRK_BRAKED then s else
    let ch := s.regS .MEM_CH_RETIRE_SEL k
    if s.isSet .MEM_CH_RETIRE_BUSY k || s.chRetired k ch then s.cfgErr .MEM k
    else s.later 9 (cfgSrc .MEM k 0x3C) (.channelRetire k ch 1))

/-- What the commit of a retirement does: new requests to the channel are held from now on. -/
def applyChannelRetire (k ch cause : Nat) (s : State) : State :=
  if s.isSet .MEM_CH_RETIRE_BUSY k || s.chRetired k ch then s else
  let s := s.setReg .MEM_CH_RETIRE_BUSY 1 k
  { s with mem := { s.mem with retire := NMap.insert s.mem.retire k (ch, cause, 0) } }

/-- Whether a transaction is about a line of a channel. -/
def HomeSt.busyChannel (hs : HomeSt) (ch : Nat) : Bool := hs.txns.any fun t => channelOf t.ls == ch

/-- The home walks its directory once no reclamation walk runs and what was queued for the channel has completed: owners
and sharers of the channel's lines are snooped out, and entries without any are freed. -/
def execChRetireWalk (k : Fin 8) (s : State) : Host.Outcome State Fault Refusal :=
  done (match NMap.find? s.mem.retire k with
    | some (ch, cause, 0) =>
      let hs := s.home k
      if s.stopped 2 || hs.walks != 0 || hs.busyChannel ch then s else
      let one (s : State) (x : Nat × DirEntry) : State :=
        let e := x.2
        if channelOf e.ls ≠ ch then s else
        let r := s.invalidate k e e.owner
        let s := match e.owner with
          | some a => r.2.snoop k e.ls .snpX a
          | none => r.2
        let wait := e.owner.toList ++ r.1
        let req : Msg := { kind := .snpX, agent := ⟨none, 0⟩, home := ⟨none, k⟩, line := s.lineAt k e.ls }
        if wait.isEmpty then s.freeEntry k e.ls
        else s.addTxn k { ls := e.ls, req := req, goal := .retireWalk, wait := wait, due := s.snoopDue k }
      let s := foldState one hs.dir s
      { s with mem := { s.mem with retire := NMap.insert s.mem.retire k (ch, cause, 1) } }
    | _ => s)

/-- The length-map granules of a stack that lie in a retired channel are lost, each with its 64 blocks (R756). -/
def State.loseMapOf (s : State) (k ch : Nat) : State :=
  if !s.isSet .CDC_LMAP_EN 0 k then s else
  foldState (fun s i =>
    let a := s.mapBase k + 32 * i
    if channelOf (lsOfOffset a) ≠ ch then s else
    let s := s.loseRange (k * stackBytes + 64 * i * 2048) (64 * 2048) .poison
    s.count .CDC_LMAP_LOSS_CNT) (List.range (mapBytes / 32)) s

/-- The channel is retired: its bit is set and reported, its map granules are lost, and what was held proceeds; a stack
with no channel left is RETIRED with cause 0x05 (R374, R377). -/
def execChRetireDone (k : Fin 8) (s : State) : Host.Outcome State Fault Refusal :=
  done (match NMap.find? s.mem.retire k with
    | some (ch, cause, 1) =>
      if s.stopped 2 || (s.home k).busyChannel ch then s else
      let mask := s.reg .MEM_CH_RETIRE_MASK k ||| 2 ^ ch
      let s := (s.setReg .MEM_CH_RETIRE_MASK mask k).postEvent (deckIndex .MEM k)
        (memPayload 0x23 k ch 0xFF 0 cause s.time.now 0 0 0 0)
      let s := (s.loseMapOf k ch).setReg .MEM_CH_RETIRE_BUSY 0 k
      let e := 329 + k.val
      let s := if mask = 2 ^ 32 - 1 then
          { s with deck := { s.deck with units := NMap.insert s.deck.units e { s.unitSt e with retired := some 5 } } }
        else s
      { s with mem := { s.mem with retire := NMap.erase s.mem.retire k } }.pumpHome k
    | _ => s)

/-! ### Live timing calibration (R378, R379) -/

/-- The key of a pin of a pseudo-channel. -/
def pinKey (k ch pc pin : Nat) : Nat := ((k * 32 + ch) * 2 + pc) * 128 + pin

/-- After 65,536 beats a pin's read phase moves by 1/64 UI when its early and late mismatch counts differ by more than
1,024: away from the side with more mismatches. -/
def execReadTimingAdjust (k : Fin 8) (ch : Fin 32) (pc : Fin 2) (pin : Fin 128) (early late : Nat) (s : State) :
    Host.Outcome State Fault Refusal :=
  done (if !s.memRuns k || s.chRetired k ch || (decide (early ≤ late + 1024) && decide (late ≤ early + 1024)) then s else
    let key := pinKey k ch pc pin
    let move : Int := if late < early then 1 else -1
    let s := s.count .MEM_CAL_ADJ_CNT k
    { s with mem := { s.mem with phase := NMap.set 0 s.mem.phase key (NMap.get 0 s.mem.phase key + move) } })

/-- A training burst and its read-back: each pin named moves its write delay by 1/64 UI, later or earlier; a read-back
that no adjustment can mend is a failure, and eight in a row retire the channel while MEM_CAL_RETIRE_EN is 1. -/
def execWriteTraining (k : Fin 8) (ch : Fin 32) (pc : Fin 2) (moves : List (Fin 128 × Bool)) (ok forced : Bool) (s : State) :
    Host.Outcome State Fault Refusal :=
  done (if !s.memRuns k || s.chRetired k ch then s else
    let one (s : State) (x : Fin 128 × Bool) : State :=
      let key := pinKey k ch pc x.1
      let s := s.count .MEM_CAL_ADJ_CNT k
      { s with mem := { s.mem with wdelay := NMap.set 0 s.mem.wdelay key (NMap.get 0 s.mem.wdelay key + if x.2 then 1 else -1) } }
    let s := (foldState one moves s).forcedTurn k 3 forced
    let key := k.val * 64 + ch.val * 2 + pc.val
    let run := if ok then 0 else NMap.get 0 s.mem.calRun key + 1
    let s := { s with mem := { s.mem with calRun := NMap.set 0 s.mem.calRun key run } }
    if ok then s else
    let s := (s.count .MEM_CAL_FAIL_CNT k).postEvent (deckIndex .MEM k) (memPayload 0x24 k ch pc 0 0 s.time.now 0 0 0 0)
    if 8 ≤ run ∧ s.isSet .MEM_CAL_RETIRE_EN k then s.later 9 (cfgSrc .MEM k 0x3C) (.channelRetire k ch 3) else s)

/-- The controller reads the stack's temperature, which sets the refresh interval: `fast` says it is shortened (R351). -/
def execStackTempRead (k : Fin 8) (temp : BitVec 8) (fast forced : Bool) (s : State) : Host.Outcome State Fault Refusal :=
  done (if !s.memRuns k then s else
    ((s.setReg .MEM_STACK_TEMP temp.toNat k).setReg .MEM_REFRESH_FAST (bit fast) k).forcedTurn k 5 forced)

end Sys2Proof.Machine
end

