-- ==== Sys2Proof/Machine/Codec.lean ====
section
/-!
DEFINITION. Table slots and the codec engine: slot operations, SURVEY, SEAL, ENCODE and the packers (R408–R416,
R424, R426, R429).
-/
namespace Sys2Proof.Machine

/-! ### Slot operations (R414, R416, R429) -/

/-- The write of an operation to CDC_SLOT_OP: it waits for its tick, and CDC_SLOT_RESULT reads BUSY until then; one
written while another waits is discarded. -/
def State.slotOpWrite (s : State) (op : Nat) : State :=
  if s.isSet .BRK_BRAKED || s.codec.op.isSome then s else
  let s := s.setReg .CDC_SLOT_RESULT 4
  { s with codec := { s.codec with op := some op } }.later 9 (cfgSrc .CDC 0 0x004) (.slotOp op)

def execSlotLoad (s : State) : Host.Outcome State Fault Refusal := done (s.slotOpWrite 1)
def execSlotArm (s : State) : Host.Outcome State Fault Refusal := done (s.slotOpWrite 2)
def execSlotClear (s : State) : Host.Outcome State Fault Refusal := done (s.slotOpWrite 3)
def execSlotHistClr (s : State) : Host.Outcome State Fault Refusal := done (s.slotOpWrite 4)

/-- The bytes of the staging buffer. -/
def State.stage (s : State) : List Byte := (List.range 64).flatMap fun i => leBytes 4 (s.reg .CDC_STAGE 0 i)

/-- Whether an operation that needs hold 0 finds its slot SEALED and held (R416). -/
def State.slotHeld (s : State) (n : Nat) : Bool := s.slotState n == 2 && s.slotHold n != 0

/-- A slot operation at its commit: it acts on the slot and the staging image as last written, and leaves its result in
CDC_SLOT_RESULT. -/
def applySlotOp (op : Nat) (s : State) : State :=
  let n := s.reg .CDC_SLOT_SEL
  let s := { s with codec := { s.codec with op := none } }
  let refuse (code : Nat) : State := (s.count .CDC_HOLD_REFUSE_CNT).setReg .CDC_SLOT_RESULT code
  let ok (s : State) : State := s.setReg .CDC_SLOT_RESULT 0
  if op = 4 then ok (s.clearHist n)
  else if s.slotHeld n then refuse 1
  else match op with
    | 1 => if imageValid s.stage then ok (s.setSlot n 2 s.stage) else refuse 2
    | 2 => ok ((s.setSlot n 1 (s.stage.take 16 ++ List.replicate 240 0)).clearHist n)
    | _ => ok ((s.setSlot n 0 (List.replicate 256 0)).clearHist n)

/-! ### SURVEY and SEAL (R410, R412, R588) -/

/-- Ends the engine's part of an asynchronous command with a status. -/
def State.endAsync (s : State) (id st : Nat) : State := (s.asyncStatus id st).onAsync id fun a => { a with busy := false }

/-- Keeps an asynchronous command busy with a job until the job's commit. -/
def State.startJob (s : State) (id : Nat) (j : CodecJob) : State :=
  let s := s.onAsync id fun a => { a with busy := true, slot := j.slot }
  { s with codec := { s.codec with jobs := NMap.insert s.codec.jobs id j } }.later 9 (cfgSrc .CDC 0 0x004) (.codecOp id)

/-- Counts the symbols of a list. -/
def countSyms (h : NMap Nat) (syms : List Nat) : NMap Nat :=
  syms.foldl (fun h sym => NMap.set 0 h sym (min (NMap.get 0 h sym + 1) (2 ^ 40 - 1))) h

/-- The counts of the blocks of a range up to the first with a bad granule, and whether there was one (R399, R410). -/
def surveyBlocks (z : Byte) : Nat → Marked → NMap Nat → NMap Nat × Bool
  | 0, _, h => (h, false)
  | fuel + 1, d, h =>
    if d.isEmpty then (h, false)
    else if (d.take 2048).any (·.2 != .good) then (h, true)
    else surveyBlocks z fuel (d.drop 2048) (countSyms h (tokenise z (fun _ => true) 2049 ((d.take 2048).map (·.1))))

/-- Replaces a slot's histogram. -/
def State.putHist (s : State) (n : Nat) (h : NMap Nat) : State :=
  let s := s.clearHist n
  { s with codec := { s.codec with hist := h.foldl (fun acc p => NMap.set 0 acc (n * 272 + p.1) p.2) s.codec.hist } }

/-- SURVEY: `data` is what its reads of the range return. -/
def execCpSurvey (ws : List (Option Nat)) (data : Marked) (s : State) : Host.Outcome State Fault Refusal :=
  done (runCommand (· == 0x60) (fun s => s.engineFull true) ws (fun c s =>
    match parseTail (c.w 4) (c.w 5) with
    | none => s.badCommand c.op 2
    | some tail =>
      if 2 ^ 32 ≤ c.w 3 then s.badCommand c.op 2 else
      let id := s.cp.nextAsync
      if c.w 1 % 2048 ≠ 0 ∨ c.w 2 % 2048 ≠ 0 then ((s.newAsync c true tail).asyncStatus id 5).advance c
      else if data.length ≠ c.w 2 ∨ !s.seesBytes (c.w 1) data then s
      else
        let slot := c.arg % 256
        let z := c.arg / 256 % 256
        let s := (s.newAsync c true tail).readUnits (c.w 1) data.length
        let h := surveyBlocks (BitVec.ofNat 8 z) (data.length + 1) data []
        if h.2 then ((s.putHist slot h.1).asyncStatus id 4).advance c
        else (s.startJob id { slot := slot, survey := true, format := c.arg / 2 ^ 16 % 8, zero := z, tableId := c.w 3,
                              hist := h.1 }).advance c) s)

/-- SEAL: its slot is checked and its table built at the commit. -/
def execCpSeal (ws : List (Option Nat)) (s : State) : Host.Outcome State Fault Refusal :=
  done (runCommand (· == 0x62) (fun s => s.engineFull true) ws (fun c s =>
    match parseTail (c.w 3) (c.w 4) with
    | none => s.badCommand c.op 2
    | some tail =>
      let id := s.cp.nextAsync
      ((s.newAsync c true tail).startJob id { slot := c.arg % 256, survey := false, build := c.arg.testBit 8,
                                              addr := c.w 1, len := c.w 2 }).advance c) s)

/-- The blocks of a range that lie on this tile, by tile-local offset. -/
def State.ownBlocks (s : State) (a n : Nat) : List Nat :=
  if n = 0 then [] else
  let all := (List.range ((a % 2048 + n + 2047) / 2048)).map fun i => s.normalise (a / 2048 * 2048 + 2048 * i)
  (all.filter fun b => s.isOwn b && s.populated b).map offsetOf

/-- The commit of a SURVEY or SEAL. -/
def applyCodecOp (id : Nat) (s : State) : State :=
  match NMap.find? s.codec.jobs id with
  | none => s
  | some j =>
    let s := { s with codec := { s.codec with jobs := NMap.erase s.codec.jobs id } }
    let refuse (st : Nat) : State := (s.count .CDC_HOLD_REFUSE_CNT).endAsync id st
    if j.survey then
      if s.slotHeld j.slot then refuse 6
      else ((s.putHist j.slot j.hist).setSlot j.slot 2
        (buildImage j.format (BitVec.ofNat 8 j.zero) j.tableId fun sym => NMap.get 0 j.hist sym)).endAsync id 0
    else if s.slotState j.slot ≠ (if j.build then 1 else 2) then refuse 7
    else
      let old := s.slotImg j.slot
      let s := if j.build then
          s.setSlot j.slot 2 (buildImage (imgNat old 0 1) (zeroByte old) (imgNat old 4 4) (s.hist j.slot)) else s
      let blocks := s.ownBlocks j.addr j.len
      if blocks.isEmpty then s.endAsync id 0 else
      { s.issue 10 j.slot with codec := { s.codec with
          pack := s.codec.pack ++ blocks.map fun b => { block := b, slot := j.slot, id := id },
          passes := NMap.insert s.codec.passes j.slot (NMap.get 0 s.codec.passes j.slot + 1) } }

/-! ### The packers (R413) -/

/-- Packs one block: raw in the map, its window still naming the slot, every granule good, and its form short enough. -/
def State.packBlock (s : State) (o slot : Nat) : State :=
  let a := s.normalise (0xFFFF * 2 ^ 48 + o)
  if s.modeAt a ≠ 1 ∨ (s.codecOf a).2 ≠ slot ∨ s.inMap o then s else
  let e := s.mapEntry o
  if e.1 ≠ 0 then e.2 else
  let d := e.2.readLines o 16
  if worstOf d.1.gran ≠ .good then d.2 else
  match encodeBlock (d.2.slotImg slot) d.1.bytes with
  | none => d.2
  | some form =>
    let s := d.2.storeForm false o (linesOf form) form
    if (s.mapEntry o).1 = 0 then s else s.count .CDC_PACKED_CNT

/-- The packer beside home agent `k` takes the next block of its stack; `forced` says it takes its turn under R381. -/
def execPackerBlock (k : Fin 8) (forced : Bool) (s : State) : Host.Outcome State Fault Refusal :=
  done (if !s.memRuns k then s else
    match s.codec.pack.find? fun j => ctlOf j.block == k.val with
    | none => s
    | some j =>
      let s := (s.packBlock j.block j.slot).forcedTurn k 6 forced
      let s := { s with codec := { s.codec with pack := s.codec.pack.erase j } }
      if s.codec.pack.any fun x => x.id == j.id then s else
      let s := { s with codec := { s.codec with
        passes := NMap.set 0 s.codec.passes j.slot (NMap.get 0 s.codec.passes j.slot - 1) } }
      s.endAsync j.id 0)

/-! ### ENCODE (R424) -/

/-- A unit that ENCODE writes: its normalised address, the mode and CSEL of its window, and the bytes of its source. -/
structure EncUnit where
  addr : Nat
  mode : Nat
  csel : Nat
  src : Nat
deriving DecidableEq, Repr

/-- The units of a destination, or nothing where it does not consist of whole units; `fuel` bounds them. -/
def encodeUnits (s : State) : Nat → Nat → Nat → Option (List EncUnit)
  | 0, _, _ => none
  | _ + 1, _, 0 => some []
  | fuel + 1, a, n + 1 =>
    let b := s.normalise a
    let mode := s.modeAt b
    let csel := (s.codecOf b).2
    let size := if mode = 1 then 2048 else 32768
    if mode = 0 ∨ a % size ≠ 0 ∨ n + 1 < size ∨ (mode = 2 ∧ 4 ≤ csel) then none
    else
      let u : EncUnit := { addr := b, mode := mode, csel := csel, src := if mode = 1 then 2048 else 2048 * 2 ^ csel }
      (encodeUnits s fuel (a + size) (n + 1 - size)).map fun us => u :: us

/-- Writes a weight tile from its factors: factored, or raw in the state of the worst granule where one is bad. -/
def State.writeTile (s : State) (id : Nat) (u : EncUnit) (d : Marked) : State :=
  let g := worstOf (d.map (·.2))
  if g ≠ .good then s.sendUnit codecAgent id u.addr 2 0 (poisoned 32768 g)
  else s.sendUnit codecAgent id u.addr 2 (u.csel + 1) ⟨d.map (·.1), List.replicate (d.length / 32) .good⟩

/-- Writes the units in turn from their parts of the source. -/
def writeUnits (id : Nat) : List EncUnit → Marked → State → State
  | [], _, s => s
  | u :: us, d, s =>
    let part := d.take u.src
    let s := if !s.populated u.addr then s.asyncStatus id 4
      else if u.mode = 1 then s.writeBlock codecAgent id u.addr part
      else s.writeTile id u part
    writeUnits id us (d.drop u.src) s

/-- ENCODE: `data` is what its reads of the source return. -/
def execCpEncode (ws : List (Option Nat)) (data : Marked) (s : State) : Host.Outcome State Fault Refusal :=
  done (runCommand (· == 0x61) (fun s => s.engineFull true) ws (fun c s =>
    match parseTail (c.w 4) (c.w 5) with
    | none => s.badCommand c.op 2
    | some tail =>
      let id := s.cp.nextAsync
      match encodeUnits s (c.w 3 / 2048 + 1) (c.w 2) (c.w 3) with
      | none => ((s.newAsync c true tail).asyncStatus id 5).advance c
      | some us =>
        if data.length ≠ (us.map (·.src)).sum ∨ !s.seesBytes (c.w 1) data then s else
        let s := writeUnits id us data ((s.newAsync c true tail).readUnits (c.w 1) data.length)
        (if data.any (·.2 != .good) then s.asyncStatus id 4 else s).advance c) s)

end Sys2Proof.Machine
end

