-- ==== Sys2Proof/Machine/Unit.lean ====
section
/-!
DEFINITION. What takes units out of service: retirement with what hangs under a unit, a cluster going dark, and fatal
uncontained errors (R72–R74, R338, R620, R624, R660–R665).
-/
namespace Sys2Proof.Machine

/-- The Deck entries whose PARENT chain leads to an entry (R74, R76). -/
def descendants (e : Nat) : List Nat :=
  if e = 0 then (List.range 488).map (· + 1)
  else if e ≤ 64 then ((List.range 4).map fun i => 65 + 4 * (e - 1) + i) ++ [417 + (e - 1)]
  else if 321 ≤ e ∧ e ≤ 328 then [e + 8]
  else if 337 ≤ e ∧ e ≤ 344 then (List.range 8).map fun i => 345 + 8 * (e - 337) + i
  else []

/-- Changes what the Deck records of a unit. -/
def State.onUnit (s : State) (e : Nat) (f : UnitSt → UnitSt) : State :=
  { s with deck := { s.deck with units := NMap.set {} s.deck.units e (f (s.unitSt e)) } }

/-- Retires a unit with a cause, and its descendants with 0x06; a unit already retired keeps its cause (R73, R74). -/
def State.retireUnit (s : State) (e cause : Nat) : State :=
  let mark (u : UnitSt) (c : Nat) : UnitSt := if u.retired.isSome then u else { u with retired := some c }
  foldState (fun s d => s.onUnit d fun u => mark u 6) (descendants e) (s.onUnit e fun u => mark u cause)

def State.regSt (s : State) (c : Nat) : RegSt := NMap.get {} s.pwr.regs c
def State.onReg (s : State) (c : Nat) (f : RegSt → RegSt) : State :=
  { s with pwr := { s.pwr with regs := NMap.set {} s.pwr.regs c (f (s.regSt c)) } }

/-- The usable clusters. -/
def State.usableClusters (s : State) : List Nat := numsWhere 64 fun c => s.usable (deckIndex .CLU c)

/-! ### Retirement with a drain (R663, R667, R680) -/

/-- Posts an event of the management controller. -/
def State.mgcEvent (s : State) (kind : Nat) (fields : List (Nat × List Byte)) : State :=
  s.postEvent (deckIndex .MGC 0) (payload ((0, leBytes 1 kind) :: (8, leBytes 8 s.time.now) :: fields))

/-- UNIT_RETIRED. -/
def State.unitRetired (s : State) (kind unit cause result hands : Nat) : State :=
  s.mgcEvent 0x52 [(1, leBytes 1 kind), (2, leBytes 1 unit), (3, leBytes 1 cause), (4, leBytes 1 result),
    (0x10, leBytes 4 hands)]

/-- The retirement in progress has ended. -/
def State.endRetire (s : State) : State :=
  { s.setReg .MGC_RETIRE_BUSY 0 with mgc := { s.mgc with busy := none } }

/-- Step 5 of a cluster's retirement: its regulator is off, and the unit and what hangs under it are RETIRED. -/
def State.clusterRetired (s : State) (c : Nat) : State :=
  match s.mgc.busy with
  | some r =>
    if r.kind ≠ 1 ∨ r.unit ≠ c then s else
    let s := { s with deck := { s.deck with draining := NMap.erase s.deck.draining c } }
    ((s.retireUnit (deckIndex .CLU c) r.cause).unitRetired 1 c r.cause 0 r.hands).endRetire
  | none => s

/-! ### A cluster without power (R338, R593, R620, R641, R644) -/

/-- The contents of a cluster and its cores are lost; only the COR and CLU registers stay (R621). -/
def State.loseContents (s : State) (c : Nat) : State :=
  (foldState (fun s i => s.setCore (4 * c + i) {}) (List.range 4) s).setClu c {}

/-- The regulator's registers while the cluster has no clock. -/
def State.unclock (s : State) (c gate : Nat) : State :=
  let s := ((s.setReg .CRG_GATE_STATE gate c).setReg .CRG_F_EFF_MHZ 0 c).setReg .CRG_GATE_OPEN 0 c
  s.setReg .CRG_PRERAISE 0 c

/-- A cluster goes dark: its contents are lost, its hands with them, the homes of the tile declare it dead, and a drain
of its own ends. -/
def State.darken (s : State) (c gate : Nat) : State :=
  let lose (s : State) (x : Nat × Nat) : State := match s.hand x.1 x.2 with
    | none => s
    | some h => s.onTask h.task fun t => { t with lost := if h.removed then t.lost else t.lost + 1, dark := true }
  let s := foldState lose (handsWhere s fun co _ _ => clusterOf co == c) s
  let s := s.onCp fun cp => { cp with kitty := cp.kitty.map fun k => match k with
    | .reserved co sl o p => if clusterOf co = c then .ready none else .reserved co sl o p
    | k => k }
  let s := (((s.loseContents c).unclock c gate).setReg .CRG_NOTICE_PEND 0 c).setReg .CRG_V_SET 0 c
  let s := s.onReg c fun r => { r with change := none, wait := none, wakeAt := none, entering := false, edges := 0, droop := false }
  let s := { s with time := { s.time with cur := { s.time.cur with dark := s.time.cur.dark ++ [c] } } }
  s.declareDead 0 ⟨none, c⟩ false

/-- The clusters that have, or are getting, power. -/
def State.powered (s : State) : List Nat := numsWhere 64 fun c =>
  let g := s.reg .CRG_GATE_STATE c
  g == 1 || g == 2 || g == 3 || g == 4

/-- Every cluster goes dark at once; none is retired, but one that was draining comes to its end. -/
def State.darkenAll (s : State) : State := foldState (fun s c => (s.darken c 6).clusterRetired c) s.powered s

/-! ### Fatal uncontained errors (R660, R661) -/

/-- A quantity that the record keeps for a service threshold rises by one (R668). -/
def State.keep (s : State) (n : Nat) : State :=
  { s with mgc := { s.mgc with kept := NMap.set 0 s.mgc.kept n (NMap.get 0 s.mgc.kept n + 1) } }

/-- A fatal uncontained error at its tick: counted and recorded, and the brake in the next tick or a FATAL event. -/
def applyFatal (cond entry : Nat) (s : State) : State :=
  let s := ((s.count .MGC_FATAL_CNT).setReg .MGC_FATAL_LAST (cond % 256 + 256 * (entry % 256))).keep 9
  if s.isSet .BRK_FATAL_EN then s.later 2 2 (.brake 2 none)
  else s.mgcEvent 0x54 [(1, leBytes 1 cond), (2, leBytes 2 entry)]

/-- A fatal uncontained error, as a class 5 event. -/
def State.fatal (s : State) (cond entry : Nat) : State := s.tickEvent 5 entry (.fatal cond entry) (applyFatal cond entry)

end Sys2Proof.Machine
end

