-- ==== Sys2Proof/Machine/Power.lean ====
section
/-!
DEFINITION. Power delivery and power states: frequency and voltage, regulators, turn-on, load notices, power states,
emergencies, thermal protection and telemetry (R608–R654, R233).
-/
namespace Sys2Proof.Machine

/-- Posts an event of the power manager (R651). -/
def State.powerEvent (s : State) (kind cause unit detail v1 : Nat) (v2 : Nat := 0) : State :=
  s.postEvent (deckIndex .PWR 0) (payload [(0, leBytes 1 kind), (1, leBytes 1 cause), (2, leBytes 1 unit), (3, leBytes 1 detail),
    (8, leBytes 8 s.time.now), (0x10, leBytes 4 v1), (0x14, leBytes 4 v2)])

/-! ### Frequency and voltage (R611–R613) -/

/-- The five limits of a cluster's frequency, in the order of R611. -/
def State.limits (s : State) (c : Nat) : List Nat :=
  [s.reg .CRG_F_TARGET_MHZ c, s.reg .CRG_F_MAX_MHZ c, s.reg .PWR_GOV_MHZ, (s.regSt c).thermal,
    if s.isSet .PWR_UV_ACTIVE then 600 else 2000]

/-- The effective frequency: the least of the limits. -/
def State.effective (s : State) (c : Nat) : Nat := (s.limits c).foldl min 2000

/-- The limit that binds: the first of those equal to the least. -/
def State.binding (s : State) (c : Nat) : Nat := ((s.limits c).findIdx? (· == s.effective c)).getD 0

/-- V(f) as a voltage code: the fused table, interpolated and rounded up, at most 380. -/
def State.vCode (s : State) (c f : Nat) : Nat :=
  let n := (f - 600) / 200
  let a : Int := s.reg .CRG_VF c n
  let b : Int := s.reg .CRG_VF c (min (n + 1) 7)
  let d : Int := (f - 600) % 200
  let v := a + ((b - a) * d + 199) / 200
  min v.toNat 380

/-- The setpoint: V(f) plus the pre-raise, clipped (R612, R626). -/
def State.setpoint (s : State) (c : Nat) : Nat := min (s.reg .CRG_V_SET c + 3 * s.reg .CRG_PRERAISE c) 380

/-- Ticks that the rail takes over a number of codes at 20 ns each. -/
def slewTicks (codes : Nat) : Nat := 2 * codes

/-- A change of effective frequency starts at a tick: when the frequency rises the rail moves first. -/
def execFreqChange (c : Fin 64) (s : State) : Host.Outcome State Fault Refusal :=
  done (let r := s.regSt c
    let g := s.reg .CRG_GATE_STATE c
    let f := s.effective c
    if s.isSet .BRK_BRAKED || !(g == 1 || g == 2) || r.change.isSome || r.freq == f then s else
    let v := s.vCode c f
    if r.freq < f then
      let at' := s.time.bnd + slewTicks (v - s.reg .CRG_V_SET c)
      (s.setReg .CRG_V_SET v c).onReg c fun r => { r with change := some ⟨f, at'⟩ }
    else s.onReg c fun r => { r with change := some ⟨f, s.time.bnd⟩ })

/-- The rail has been reached and the PLL has relocked: the clock runs at the new frequency, and after a fall the rail
follows it. -/
def execFreqSwitch (c : Fin 64) (s : State) : Host.Outcome State Fault Refusal :=
  done (match (s.regSt c).change with
    | none => s
    | some x =>
      if s.isSet .BRK_BRAKED || decide (s.time.bnd < x.at') then s else
      let s := (s.onReg c fun r => { r with freq := x.target, change := none }).setReg .CRG_V_SET (s.vCode c x.target) c
      if s.reg .CRG_GATE_STATE c = 1 then s.setReg .CRG_F_EFF_MHZ x.target c else s)

/-- The clamp: the average current over 1 µs exceeds the cap, or stays below it (R614). -/
def execCurrentClamp (c : Fin 64) (above : Bool) (s : State) : Host.Outcome State Fault Refusal :=
  done (let r := s.regSt c
    if !s.clocked c then s
    else if above then
      if r.edges = 8 ∨ (r.edges ≠ 0 ∧ s.time.bnd < r.clampAt + 10) then s else
      let s := if r.edges = 0 then s.count .CRG_CLAMP_CNT c else s
      s.onReg c fun r => { r with edges := r.edges + 1, clampAt := s.time.bnd }
    else if r.edges = 0 ∨ s.time.bnd < r.clampAt + 100 then s
    else s.onReg c fun r => { r with edges := r.edges - 1, clampAt := s.time.bnd })

/-- The droop guard looks at the rail's code (R615). -/
def execDroopGuard (c : Fin 64) (code : Nat) (s : State) : Host.Outcome State Fault Refusal :=
  done (let r := s.regSt c
    let v := s.reg .CRG_V_SET c
    if !s.clocked c then s
    else if !r.droop && decide (code + 20 < v) then (s.count .CRG_DROOP_CNT c).onReg c fun r => { r with droop := true }
    else if r.droop && decide (v ≤ code + 10) then s.onReg c fun r => { r with droop := false }
    else s)

/-! ### The voltage floor recorder (R616, R617) -/

/-- A sample below the recorded code is recorded with its tick. -/
def execVfloorRecord (c : Fin 64) (code : BitVec 10) (s : State) : Host.Outcome State Fault Refusal :=
  done (let g := s.reg .CRG_GATE_STATE c
    if s.isSet .BRK_BRAKED || !(g == 1 || g == 2) || decide (s.reg .CRG_VFLOOR_V c ≤ code.toNat) then s
    else (s.setReg .CRG_VFLOOR_V code.toNat c).onReg c fun r => { r with floorTick := s.time.now })

/-- What a read of CRG_VFLOOR_V does besides returning the recorded code. -/
def State.readFloor (s : State) (c : Nat) : State :=
  if s.isSet .BRK_BRAKED then s else
  let s := s.setReg64 .CRG_VFLOOR_TICK_LO .CRG_VFLOOR_TICK_HI (s.regSt c).floorTick c
  (s.setReg .CRG_VFLOOR_V 0x3FF c).onReg c fun r => { r with floorTick := 0 }

/-- The host reads CRG_VFLOOR_V. -/
def execCrgVfloorV (c : Fin 64) (s : State) : Host.Outcome State Fault Refusal :=
  done (if !s.hostEn || s.host.inReset then s
    else if s.isSet .BRK_BRAKED then s.onesCompletion 4 else
    let v := s.reg .CRG_VFLOOR_V c
    let s := { s with host := { s.host with out := s.host.out ++ [HostMsg.completion (leBytes 4 v) false] } }
    s.readFloor c)

/-! ### Regulator failure (R618–R620) -/

/-- How many phases a mask leaves. -/
def phasesGood (mask : Nat) : Nat := (numsWhere 8 mask.testBit).length

/-- F_MAX for a cap in mA: the largest multiple of 25 MHz at or below 2,000 MHz × cap ÷ 24 A. -/
def fMaxOf (cap : Nat) : Nat := 2000 * cap / 24000 / 25 * 25

/-- Sheds a phase; with fewer than five left the cluster is retired dark. -/
def State.shedPhase (s : State) (c phase cause : Nat) : State :=
  let old := s.reg .CRG_PHASE_GOOD c
  if !old.testBit phase then s else
  let mask := old - 2 ^ phase
  let k := phasesGood mask
  let cap := min 24000 (4000 * k)
  let s := ((((s.setReg .CRG_PHASE_GOOD mask c).setReg .CRG_CAP_MA cap c).setReg .CRG_F_MAX_MHZ (fMaxOf cap) c).count
    .CRG_SHED_CNT c).onUnit (deckIndex .CRG c) fun u => { u with degraded := some 0x10 }
  if k < 5 then
    let s := if (s.powered).contains c then s.darken c 6 else s.setReg .CRG_GATE_STATE 6 c
    let s := s.retireUnit (deckIndex .CLU c) 4
    let s := match s.mgc.busy with
      | some r => if r.kind = 1 ∧ r.unit = c then
          { s with deck := { s.deck with draining := NMap.erase s.deck.draining c } }.endRetire else s
      | none => s
    s.powerEvent 0x5D cause c phase k 0
  else s.powerEvent 0x5D cause c phase k (fMaxOf cap)

/-- A phase carries more than 6 A for 100 ns, or its driver reports a fault. -/
def execPhaseFail (c : Fin 64) (phase : Fin 8) (driver : Bool) (s : State) : Host.Outcome State Fault Refusal :=
  done (s.shedPhase c phase (if driver then 2 else 1))

/-- What the commit of CRG_PHASE_RETIRE_GO does: it sheds the selected phase. -/
def applyPhaseRetire (c : Nat) (s : State) : State := s.shedPhase c (s.regS .CRG_PHASE_RETIRE_SEL c) 3

/-- A write of 1 to CRG_PHASE_RETIRE_GO commits at the next tick. -/
def execCrgPhaseRetireGo (c : Fin 64) (s : State) : Host.Outcome State Fault Refusal :=
  done (if s.isSet .BRK_BRAKED then s else s.later 9 (cfgSrc .CRG c 0x030) (.phaseRetire c))

/-! ### Turn-on (R622–R624) -/

/-- A turn-on starts: of a cluster that is off at bring-up, or that a wake brings out of T2. -/
def execTurnOn (c : Fin 64) (s : State) : Host.Outcome State Fault Refusal :=
  done (let g := s.reg .CRG_GATE_STATE c
    if s.isSet .BRK_BRAKED || !s.booted || s.isSet .PWR_UV_ACTIVE || s.isSet .PWR_UV_COLLAPSE || s.isSet .PWR_TRIPPED
        || !s.usable (deckIndex .CLU c) || (NMap.find? s.deck.draining c).isSome
        || !(g == 0 || (g == 3 && (s.regSt c).wakeAt.isSome)) then s else
    let s := (s.loseContents c).setReg .CRG_GATE_STATE 4 c
    (s.setReg .CRG_V_SET (s.vCode c (s.effective c)) c).onReg c fun r => { r with onAt := s.time.bnd })

/-- What a gate fault records at its tick: RETIRED with cause 0x03 (R624). -/
def applyGateFault (c check stage mv : Nat) (s : State) : State :=
  ((s.retireUnit (deckIndex .CLU c) 3).count .PWR_GATE_FAULT_CNT).powerEvent 0x5C 4 c (check % 16 + 16 * (stage % 8)) mv

/-- A check of the turn-on fails: every stage opens at once, and the fault is a class 3 event.  `check` is 1 for the
comparator, 2 the rise, 3 an overshoot, 4 the 90 % deadline; `mv` is VIN_CORE. -/
def execGateFault (c : Fin 64) (check : Fin 4) (stage : Fin 8) (mv : Nat) (s : State) : Host.Outcome State Fault Refusal :=
  done (if s.reg .CRG_GATE_STATE c ≠ 4 then s else
    let k := check.val + 1
    (s.darken c 5).tickEvent 3 (1 + c) (.gateFault c k stage mv) (applyGateFault c k stage mv))

/-- Whether nothing of a cluster waits for its reset invalidation. -/
def State.clusterInit (s : State) (c : Nat) : Bool :=
  !(s.clu c).ccinit && (List.range 4).all fun i => let co := s.core (4 * c + i); !co.l1init && !co.icinit

/-- Counts and reports a wake that took longer than its latency (R634). -/
def State.wakeLate (s : State) (cause region state w latency : Nat) : State :=
  if latency ≤ w then s else (s.count .PWR_WAKE_LATE_CNT).powerEvent 0x5F cause region state latency

/-- Zeroing and invalidation are done, and the cluster becomes ready (R623). -/
def execClusterReady (c : Fin 64) (s : State) : Host.Outcome State Fault Refusal :=
  done (let r := s.regSt c
    if s.reg .CRG_GATE_STATE c ≠ 4 || s.stopped 1 || !s.clusterInit c || decide (s.time.bnd ≤ r.onAt + 300) then s else
    let f := s.effective c
    let s := ((s.setReg .CRG_GATE_STATE 1 c).setReg .CRG_F_EFF_MHZ f c).setReg .CRG_V_SET (s.vCode c f) c
    let s := s.onReg c fun r => { r with freq := f, wakeAt := none, waitAt := s.time.bnd }
    match r.wakeAt with
    | some t => s.wakeLate 1 c 2 4000 (10 * (s.time.bnd - t))
    | none => s)

/-! ### Load notices (R625–R629, R233) -/

/-- Takes a pre-raise of a weight into force; the rail follows at 8 ns per code. -/
def State.preRaise (s : State) (c w : Nat) : State :=
  let old := s.setpoint c
  if w + 1 ≤ s.reg .CRG_PRERAISE c then s
  else
    let s := s.setReg .CRG_PRERAISE (w + 1) c
    s.onReg c fun r =>
      let up := s.setpoint c - old
      { r with waitAt := if s.time.bnd < r.waitAt then r.waitAt + (8 * up + 9) / 10 else s.time.bnd + (8 * (up - 1) + 9) / 10 }

/-- The regulator receives the oldest notice: it merges with one that waits, and is discarded where the cluster cannot
take it. -/
def execNoticeReceive (s : State) : Host.Outcome State Fault Refusal :=
  done (match s.pwr.notices with
    | [] => s
    | (c, w) :: rest =>
      if s.isSet .BRK_BRAKED then s else
      let s := { s with pwr := { s.pwr with notices := rest } }.count .CRG_NOTICE_CNT c
      let g := s.reg .CRG_GATE_STATE c
      if !s.usable (deckIndex .CLU c) || (NMap.find? s.deck.draining c).isSome || g == 0 || g == 5 || g == 6 then
        s.count .CRG_NOTICE_DROP_CNT c
      else
        let w := match (s.regSt c).wait with
          | some x => max x w
          | none => w
        let s := (s.setReg .CRG_NOTICE_PEND 1 c).onReg c fun r => { r with wait := some w }
        if g = 1 then s.preRaise c w else s)

/-- The rail has reached its setpoint: the notice is acknowledged, and the gates of the four cores open. -/
def execNoticeAck (c : Fin 64) (s : State) : Host.Outcome State Fault Refusal :=
  done (match (s.regSt c).wait with
    | none => s
    | some w =>
      if s.isSet .BRK_BRAKED || !s.clocked c || s.isSet .PWR_UV_ACTIVE then s
      else if s.reg .CRG_PRERAISE c < w + 1 then s.preRaise c w
      else if s.time.bnd < (s.regSt c).waitAt || (s.regSt c).change.any (fun x => decide (s.time.bnd < x.at')) then s else
      let s := ((s.setReg .CRG_NOTICE_PEND 0 c).setReg .CRG_GATE_OPEN 1 c).onReg c fun r => { r with wait := none }
      foldState (fun s i => s.onCore (4 * c.val + i) fun co => { co with gate := true, mmaAt := s.time.bnd }) (List.range 4) s)

/-- How many tick boundaries 1,024 cycles of a cluster's clock last. -/
def shutTicks (s : State) (c : Nat) : Nat := 102400 / max 1 (s.reg .CRG_F_EFF_MHZ c)

/-- After 1,024 cycles in which the core has started no `mma` its gate is SHUT; with all four SHUT the pre-raise ends. -/
def execNoticeGateShut (core : Fin 256) (s : State) : Host.Outcome State Fault Refusal :=
  done (let c := clusterOf core
    if !s.clocked c || !(s.core core).gate || decide (s.time.bnd < (s.core core).mmaAt + shutTicks s c) then s else
    let s := s.onCore core fun co => { co with gate := false }
    if (List.range 4).any fun i => (s.core (4 * c + i)).gate then s
    else (s.setReg .CRG_GATE_OPEN 0 c).setReg .CRG_PRERAISE 0 c)

/-- NOTICE sends a notice to each cluster of its mask. -/
def execCpNotice (ws : List (Option Nat)) (s : State) : Host.Outcome State Fault Refusal :=
  syncCommand 0x70 ws (fun c s =>
    (foldState (fun s n => s.sendNotice n (c.arg % 4)) (numsWhere 64 (c.w 1).testBit) s).advance c) s

/-! ### Power states (R630–R639) -/

/-- The state of the tile (R631). -/
def State.tileState (s : State) : Nat :=
  let gates := s.usableClusters.map fun c => s.reg .CRG_GATE_STATE c
  let t3 := (List.range 8).all fun k => NMap.get false s.mem.selfRefresh k
  if t3 && (List.range 8).all s.pwr.t4.contains then 4
  else if t3 then 3
  else if gates.all (· == 3) then 2
  else if gates.all fun g => g == 2 || g == 3 then 1
  else 0

/-- Whether a cluster meets the condition of T1 and T2 (R632). -/
def State.clusterIdle (s : State) (c : Nat) : Bool :=
  let cl := s.clu c
  s.usable (deckIndex .CLU c) && s.noHands c && cl.reqs.all (·.2.quar) && cl.asm.isEmpty && cl.wbuf.isEmpty
    && (s.regSt c).wait.isNone && (List.range 4).all fun i => !(s.core (4 * c + i)).gate

/-- Whether a memory controller meets the condition of T3. -/
def State.memIdle (s : State) (k : Nat) : Bool :=
  let h := s.home k
  s.isSet .PWR_T3_EN && s.usableClusters.all (fun c => s.reg .CRG_GATE_STATE c == 3)
    && s.cp.cur.isNone && s.cp.asyncs.isEmpty && s.cp.kitty.isEmpty
    && h.inbound.isEmpty && h.txns.isEmpty && h.walks == 0 && (NMap.find? s.mem.retire k).isNone
    && !(s.mem.rowDue.any fun r => (Nat.unpair r.1).1 == k) && !(s.codec.pack.any fun j => ctlOf j.block == k)
    && !(s.mesh.any fun m => m.home.tile.isNone && m.home.k == k)

/-- Whether a coupler bank may start the handshake for T4. -/
def State.bankIdle (s : State) (b : Nat) : Bool :=
  s.isSet .PWR_T4_EN && ((List.range 8).all fun k => NMap.get false s.mem.selfRefresh k)
    && (List.range 8).all fun i => s.cplIdle (8 * b + i)

/-- The condition of a region by its number. -/
def State.regionIdle (s : State) (n : Nat) : Bool :=
  if n < 64 then s.clusterIdle n else if n < 72 then s.memIdle (n - 64) else s.bankIdle (n - 72)

/-- At each boundary, the regions that have begun to meet their condition, and those that no longer do. -/
def State.scanIdle (s : State) : State :=
  let old := s.pwr.idle
  { s with pwr := { s.pwr with idle := (numsWhere 80 s.regionIdle).map fun n => (n, NMap.get s.time.bnd old n) } }

/-- Whether a region has been idle for PWR_IDLE_MULT times a wake latency in ticks, which the tolerance allows. -/
def State.mayEnter (s : State) (n w : Nat) : Bool :=
  match NMap.find? s.pwr.idle n with
  | none => false
  | some t => s.regionIdle n && decide (t + s.reg .PWR_IDLE_MULT * w ≤ s.time.bnd)
      && decide (10 * w ≤ s.reg .PWR_WAKE_TOL_NS)

/-- A region enters the deepest state that its idle time and the tolerance allow: T2 starts by leaving coherence, and T4
by the handshake of the bank's couplers. -/
def execStateEntry (x : Region) (s : State) : Host.Outcome State Fault Refusal :=
  done (if s.isSet .BRK_BRAKED then s else match x with
    | .cluster c =>
      let g := s.reg .CRG_GATE_STATE c
      if !(g == 1 || g == 2) || (s.regSt c).entering then s
      else if s.mayEnter c 400 then
        let s := if g = 2 then (s.setReg .CRG_GATE_STATE 1 c).setReg .CRG_F_EFF_MHZ (s.regSt c).freq c else s
        s.onReg c fun r => { r with entering := true }
      else if g = 1 ∧ s.mayEnter c 5 then s.unclock c 2
      else s
    | .memory k =>
      if s.mayEnter (64 + k) 4000 then { s with mem := { s.mem with selfRefresh := NMap.insert s.mem.selfRefresh k true } }
      else s
    | .bank b =>
      if s.pwr.t4.contains b.val || !s.mayEnter (72 + b) 40000 then s else
      let up := ((List.range 8).map (8 * b.val + ·)).filter s.linkUp
      if up.all fun n => s.isSet .CPL_LP n && (s.cpl n).lpExit.isNone then
        { s with pwr := { s.pwr with t4 := s.pwr.t4 ++ [b.val] } }
      else foldState (fun s n => s.askLowPower n) up s)

/-- Whether the dispatcher has a hand to place that may go to a cluster. -/
def State.placementFor (s : State) (c : Nat) : Bool :=
  match s.placing with
  | some t => !t.held && (candidates s t).contains c
  | none => false

/-- Whether a snoop or an invalidation is on its way to a cluster. -/
def State.snoopFor (s : State) (c : Nat) : Bool :=
  s.mesh.any fun m => (m.kind == .snpS || m.kind == .snpX || m.kind == .snpNc || m.kind == .inv)
    && (m.agent == ⟨none, c⟩ || (m.mc.isSome && ((s.clu c).find m.line).isSome))

/-- A cluster leaves T1. -/
def State.wakeT1 (s : State) (c : Nat) : State :=
  ((s.setReg .CRG_GATE_STATE 1 c).setReg .CRG_F_EFF_MHZ (s.regSt c).freq c).count .CRG_WAKE_CNT c

/-- A cluster asks to leave T2: its turn-on follows. -/
def State.wakeT2 (s : State) (c : Nat) : State :=
  if (s.regSt c).wakeAt.isSome then s else (s.count .CRG_WAKE_CNT c).onReg c fun r => { r with wakeAt := some s.time.bnd }

/-- A wake cause brings a region out of its state, or abandons an entry into T2 (R634, R635); `latency` is the time in ns
that the wake took. -/
def execWake (x : Region) (latency : Nat) (s : State) : Host.Outcome State Fault Refusal :=
  done (if s.isSet .BRK_BRAKED then s else match x with
    | .cluster c =>
      let g := s.reg .CRG_GATE_STATE c
      let work := s.placementFor c || (s.regSt c).wait.isSome
      if g = 1 ∧ (s.regSt c).entering ∧ (work ∨ s.snoopFor c) then
        (s.onReg c fun r => { r with entering := false }).onClu c fun cl => { cl with leaving := false }
      else if g = 2 ∧ (work ∨ s.snoopFor c) then (s.wakeT1 c).wakeLate 1 c 1 50 latency
      else if g = 3 ∧ work then s.wakeT2 c
      else s
    | .memory k =>
      if NMap.get false s.mem.selfRefresh k
          && ((s.mesh.any fun m => m.home.tile.isNone && m.home.k == k.val) || !(s.home k).inbound.isEmpty) then
        (s.wakeMem k).wakeLate 2 k 3 40000 latency
      else s
    | .bank b =>
      if s.pwr.t4.contains b.val && (List.range 8).any fun i => !(s.cpl (8 * b.val + i)).rol.queue.isEmpty then
        (s.wakeBank b).wakeLate 3 b 4 400000 latency
      else s)

/-- The commit of a wake tolerance: regions whose latency exceeds it wake at once (R637, R638). -/
def applyWakeTolerance (ns : Nat) (s : State) : State :=
  let s := s.setReg .PWR_WAKE_TOL_NS ns
  let cluster (s : State) (c : Nat) : State :=
    let g := s.reg .CRG_GATE_STATE c
    if g = 2 ∧ ns < 50 then s.wakeT1 c else if g = 3 ∧ ns < 4000 then s.wakeT2 c else s
  let s := foldState cluster (List.range 64) s
  let s := foldState (fun s k => if NMap.get false s.mem.selfRefresh k ∧ ns < 40000 then s.wakeMem k else s) (List.range 8) s
  foldState (fun s b => if s.pwr.t4.contains b ∧ ns < 400000 then s.wakeBank b else s) (List.range 8) s

/-- SET_WAKE_TOLERANCE commits at the next tick. -/
def execCpSetWakeTolerance (ws : List (Option Nat)) (s : State) : Host.Outcome State Fault Refusal :=
  syncCommand 0x71 ws (fun c s => (s.later 9 (cfgSrc .CPR 0) (.wakeTolerance (min (c.w 1) 0xFFFFFFFF))).advance c) s

/-! ### Emergencies (R640, R641) -/

/-- An undervoltage emergency begins: every notice gate is SHUT, and the frequency limit of R611 binds. -/
def applyUndervoltage (mv : Nat) (s : State) : State :=
  if s.isSet .PWR_UV_ACTIVE then s else
  let s := (s.setReg .PWR_UV_ACTIVE 1).count .PWR_UV_CNT
  let s := { s with cores := s.cores.map fun (c : Nat × Core) => (c.1, { c.2 with gate := false }) }
  let s := foldState (fun s c => (s.setReg .CRG_GATE_OPEN 0 c).setReg .CRG_PRERAISE 0 c) (List.range 64) s
  s.powerEvent 0x5C 1 0xFF 0 mv

def execUvEmergency (mv : Nat) (s : State) : Host.Outcome State Fault Refusal :=
  done (if s.isSet .PWR_UV_ACTIVE || decide (1620 ≤ mv) then s
    else s.tickEvent 3 0 (.undervoltage mv) (applyUndervoltage mv))

def execUvClear (mv : Nat) (s : State) : Host.Outcome State Fault Refusal :=
  done (if !s.isSet .PWR_UV_ACTIVE || s.isSet .BRK_BRAKED || decide (mv ≤ 1710) then s
    else ((s.setReg .PWR_UV_ACTIVE 0).count .PWR_UV_CNT).powerEvent 0x5C 2 0xFF 0 mv)

/-- A collapse: every cluster is dark until a cold or warm reset, and it is a fatal uncontained error. -/
def execCollapse (mv : Nat) (s : State) : Host.Outcome State Fault Refusal :=
  done (if s.isSet .PWR_UV_COLLAPSE || decide (1440 ≤ mv) then s else
    let s := (s.setReg .PWR_UV_COLLAPSE 1).darkenAll.keep 11
    (s.powerEvent 0x5C 3 0xFF 0 mv).fatal 3 (deckIndex .PWR 0))

/-! ### Thermal protection (R642–R645) -/

/-- What a thermal trip records at its tick. -/
def applyThermalTrip (sensor temp : Nat) (s : State) : State := (s.keep 10).powerEvent 0x5E 3 sensor 0 temp

/-- A sensor at or above 115 °C: THERMTRIP_N is driven low, every cluster goes dark and every stack goes into
self-refresh at once; its record is a class 4 event. -/
def execThermalTrip (sensor : Fin 80) (temp : BitVec 8) (s : State) : Host.Outcome State Fault Refusal :=
  done (if s.isSet .PWR_TRIPPED || decide (temp.toNat < 115) then s else
    let s := (s.setReg .PWR_TRIPPED 1).darkenAll
    let s := { s with mem := { s.mem with selfRefresh := (List.range 8).map fun k => (k, true) } }
    s.tickEvent 4 sensor (.thermalTrip sensor temp.toNat) (applyThermalTrip sensor temp.toNat))

/-- Whether some cluster's thermal limit is below 2,000 MHz. -/
def State.throttled (s : State) : Bool := (List.range 64).any fun c => decide ((s.regSt c).thermal < 2000)

/-- The thermal limits follow the readings of the 80 sensors: down 100 MHz every 100 µs, up 25 MHz every 1 ms. -/
def execThermalThrottle (temps : List (BitVec 8)) (s : State) : Host.Outcome State Fault Refusal :=
  done (if s.isSet .BRK_BRAKED || temps.length != 80 then s else
    let lim := s.reg .PWR_THROTTLE_C
    let temp (n : Nat) : Nat := (temps.getD n 0).toNat
    let mine (c : Nat) : List Nat := c :: (List.range 16).map (64 + ·)
    let was := s.throttled
    let one (s : State) (c : Nat) : State :=
      let r := s.regSt c
      if (mine c).any fun n => decide (lim < temp n) then
        if r.thermal ≤ 600 ∨ s.time.bnd < r.fellAt + ticksOfUs 100 then s else
        s.onReg c fun r => { r with thermal := max 600 (r.thermal - 100), fellAt := s.time.bnd, roseAt := s.time.bnd }
      else if (mine c).all fun n => decide (temp n + 5 ≤ lim) then
        if 2000 ≤ r.thermal ∨ s.time.bnd < r.roseAt + ticksOfUs 1000 then s
        else s.onReg c fun r => { r with thermal := min 2000 (r.thermal + 25), roseAt := s.time.bnd }
      else s.onReg c fun r => { r with roseAt := s.time.bnd }
    let s := foldState one (List.range 64) s
    let hot := (List.range 80).foldl (fun m n => if temp m < temp n then n else m) 0
    if !was && s.throttled then (s.count .PWR_THROTTLE_CNT).powerEvent 0x5E 1 hot 0 (temp hot)
    else if was && !s.throttled then s.powerEvent 0x5E 2 hot 0 (temp hot)
    else s)

/-- Every 1 ms the governor compares the average power with the limit. -/
def execGovernor (watts : Nat) (s : State) : Host.Outcome State Fault Refusal :=
  done (if s.isSet .BRK_BRAKED || decide (s.time.bnd < s.pwr.govAt + ticksOfUs 1000) then s else
    let lim := s.reg .PWR_LIMIT_W
    let g := s.reg .PWR_GOV_MHZ
    let g := if lim < watts then max 600 (g - 100) else if 100 * watts < 95 * lim then min 2000 (g + 25) else g
    { s.setReg .PWR_GOV_MHZ g with pwr := { s.pwr with govAt := s.time.bnd } })

/-! ### Telemetry (R648, R649, R654) -/

/-- The TLM registers take the values of a sample together. -/
def applyTelemetry (x : Sample) (s : State) : State :=
  let hot := (List.range 80).foldl (fun m n => if x.temps.getD m 0 < x.temps.getD n 0 then n else m) 0
  let s := ((s.count .TLM_SEQ).setReg64 .TLM_TIME_LO .TLM_TIME_HI s.time.now).setReg .TLM_VIN_MV (x.mv % 65536)
  let s := (s.setReg .TLM_VIN_MA (x.ma % 2 ^ 32)).setReg .TLM_TILE_MW (x.mv * x.ma / 1000 % 2 ^ 32)
  let s := (s.setReg .TLM_TEMP_MAX_C (min (x.temps.getD hot 0) 255)).setReg .TLM_TEMP_MAX_SENSOR hot
  let s := foldState (fun s n =>
    let v := x.clus.getD n (0, 0)
    ((s.setReg .TLM_CLU_V (v.1 % 1024) 0 n).setReg .TLM_CLU_F (s.reg .CRG_F_EFF_MHZ n) 0 n).setReg .TLM_CLU_MA (v.2 % 65536) 0 n)
    (List.range 64) s
  foldState (fun s n => s.setReg .TLM_TEMP (min (x.temps.getD n 0) 255) 0 n) (List.range 80) s

/-- One sample of every sensor, rail and current: every TLM_PERIOD_US, or forced after 1 ms without one. -/
def execTelemetrySample (mv ma : Nat) (clus : List (Nat × Nat)) (temps : List Nat) (forced : Bool) (s : State) :
    Host.Outcome State Fault Refusal :=
  done (let wait := if forced then 1000 else s.reg .TLM_PERIOD_US
    if clus.length != 64 || temps.length != 80 || s.isSet .BRK_BRAKED
        || decide (s.time.bnd < s.pwr.sampleAt + ticksOfUs wait) then s else
    let s := if forced then s.count .PWR_BG_FORCED_CNT else s
    let s := { s with pwr := { s.pwr with sampleAt := s.time.bnd } }
    let x : Sample := ⟨mv, ma, clus, temps⟩
    s.tickEvent 11 0 (.telemetry x) (applyTelemetry x))

end Sys2Proof.Machine
end

