-- ==== Sys2Proof/Machine/Reliability.lean ====
section
/-!
DEFINITION. Errors of the on-die arrays, retirement under load, service thresholds and the ledger (R655–R681, R755),
and the end of leaving coherence (R347).
-/
namespace Sys2Proof.Machine

/-! ### Errors of the hardware (R356, R659, R660) -/

/-- Counts an uncorrectable array word, of a cluster where it lies in one, and posts SRAM_ERROR at most once per 1 ms for
the cluster or for the rest of the tile.  `row` is the row of R659 from 1, `entry` the Deck entry of the array's unit. -/
def State.arrayError (s : State) (row entry : Nat) (cluster : Option Nat) : State :=
  let s := s.count .MGC_SRAM_UE_CNT
  let s := { s with mgc := { s.mgc with ueWord := s.mgc.ueWord + 1 } }
  let s := match cluster with
    | none => s
    | some c =>
      let k := NMap.get 0 s.mgc.cluUe c + 1
      let s := { s with mgc := { s.mgc with cluUe := NMap.insert s.mgc.cluUe c k } }
      if k = s.reg .MGC_CLU_UE_LIMIT then s.fallDue 1 c else s
  let key := cluster.getD 64
  let old := NMap.find? s.mgc.sram key
  let quiet : Bool := match old with
    | some (t, _) => decide (s.time.bnd < t + ticksOfUs 1000)
    | none => false
  let held := match old with
    | some (_, n) => n
    | none => 0
  if quiet then { s with mgc := { s.mgc with sram := (NMap.insert s.mgc.sram key ((old.map (·.1)).getD 0, satAdd32 held 1)) } }
  else
    let s := s.mgcEvent 0x53 [(1, leBytes 1 row), (2, leBytes 2 entry), (0x10, leBytes 4 held)]
    { s with mgc := { s.mgc with sram := NMap.insert s.mgc.sram key (s.time.bnd, 0) } }

/-- What an instruction can receive for a poisoned 64-bit word: zero, or canonical NaNs of one format (R155, R237). -/
def poisonWords : List DWord :=
  [0, 0x7FC000007FC00000, 0x7FC07FC07FC07FC0, 0x7E007E007E007E00, 0x7F7F7F7F7F7F7F7F, 0x7E7E7E7E7E7E7E7E,
   0x7FF8000000000000]

/-- Marks poison-seen in the hand that holds a block or page of a core. -/
def seePoison (s : State) (core : Nat) (what : Store) (blk : Nat) : State :=
  let mine (h : Hand) : Bool := match what with
    | .regs => h.vblk.contains blk
    | .osb => h.osbPages.contains blk
    | .acc => h.accPages.contains blk
  let see (x : Nat × Hand) : Nat × Hand := if mine x.2 then (x.1, { x.2 with flags := x.2.flags ||| 0x20 }) else x
  s.onCore core fun co => { co with slots := co.slots.map see }

/-- An uncorrectable word of a core's storage: it is rewritten with what the reading instruction receives. -/
def arrayUpset (s : State) (core : Nat) (what : Store) (w : Nat) (v : DWord) : State :=
  if !poisonWords.contains v then s else
  let lo : Word := v.truncate 32
  let hi : Word := (v >>> 32).truncate 32
  let s := s.arrayError 1 (deckIndex .COR core) (some (clusterOf core))
  match what with
  | .regs =>
    let r := w / 32
    let s := s.onCore core fun co =>
      let row := NMap.get (List.replicate 64 0) co.vrf r
      { co with vrf := NMap.set (List.replicate 64 0) co.vrf r ((row.set (2 * (w % 32)) lo).set (2 * (w % 32) + 1) hi) }
    seePoison s core .regs (r / 16)
  | .osb => seePoison (s.onCore core fun co => { co with osb := putBytes co.osb (8 * w) v.toNat }) core .osb (w / 1024)
  | .acc =>
    seePoison (s.onCore core fun co => { co with acc := NMap.set 0 (NMap.set 0 co.acc (2 * w) lo) (2 * w + 1) hi })
      core .acc (w / 1024)

/-- An uncorrectable word of a cached line: a clean or Staged one is fetched again, every granule of a dirty one becomes
POISON.  An exclusive clean line is fetched again in place. -/
def lineUpset (s : State) (u : CacheUnit) (line : Nat) : State :=
  match u with
  | .l1 core =>
    (s.onCore core fun co => { co with l1 := co.l1.filter fun x => x.2.line != line }).arrayError 2 (deckIndex .COR core)
      (some (clusterOf core))
  | .ic core =>
    (s.onCore core fun co => { co with ic := co.ic.filter fun x => x.2.line != line }).arrayError 2 (deckIndex .COR core)
      (some (clusterOf core))
  | .cc c =>
    let bad (x : CLine) : CLine := { x with data := poisonLine }
    match (s.clu c).find line with
    | some (key, x) =>
      if x.st = .m ∨ x.st = .o then (s.setCc c key (bad x)).arrayError 3 (deckIndex .CLU c) (some c)
      else if x.st = .e then s.arrayError 2 (deckIndex .CLU c) (some c)
      else (s.dropCc c line).arrayError 2 (deckIndex .CLU c) (some c)
    | none =>
      if (s.clu c).wbuf.any fun x => x.line == line then
        (s.onClu c fun cl => { cl with wbuf := cl.wbuf.map fun x => if x.line = line then bad x else x }).arrayError 3
          (deckIndex .CLU c) (some c)
      else s
  | _ => s

/-- An error of the hardware comes about. -/
def applyUpset (s : State) (u : Upset) : State :=
  match u with
  | .granule g pos x =>
    let old := NMap.get [] s.mem.err g
    if populatedOffset (32 * g) ∧ pos < 19 ∧ x ≠ 0 then
      { s with mem := { s.mem with err := NMap.insert s.mem.err g (old ++ [(pos, x)]) } } else s
  | .corrected => s.count .MGC_SRAM_CE_CNT
  | .array core what w v => arrayUpset s core what w v
  | .line u line => lineUpset s u line
  | .buffer c block =>
    if (s.clu c).hasAsm block then
      (s.onClu c fun cl => { cl with asm := cl.asm.map fun b => if b.block = block then { b with poison := true } else b }).arrayError
        3 (deckIndex .CLU c) (some c)
    else s
  | .fatal entry =>
    let cluster := if 1 ≤ entry ∧ entry ≤ 64 then some (entry - 1) else if 65 ≤ entry ∧ entry ≤ 320 then some ((entry - 65) / 4) else none
    (s.arrayError 4 entry cluster).fatal 1 entry
  | .leak book inst n =>
    let key := book * 65536 + inst
    { s with mgc := { s.mgc with leak := NMap.set 0 s.mgc.leak key (NMap.get 0 s.mgc.leak key + n),
                                 unquiet := NMap.insert s.mgc.unquiet key true } }

/-- The issue counters of a core are cleared, unless its cluster has no clock (R157, R158). -/
def execCorCntClr (core : Fin 256) (s : State) : Host.Outcome State Fault Refusal :=
  done (if !s.clocked (clusterOf core) then s else
    let s := s.setReg64 .COR_ISSUE_CNT_LO .COR_ISSUE_CNT_HI 0 core
    let s := s.setReg64 .COR_DUAL_CNT_LO .COR_DUAL_CNT_HI 0 core
    s.setReg64 .COR_IDLE_CNT_LO .COR_IDLE_CNT_HI 0 core)

/-! ### Retirement under load (R662–R667) -/

/-- Whether a cluster is the only usable one left. -/
def State.lastCluster (s : State) (c : Nat) : Bool := (s.usableClusters.filter (· != c)).isEmpty

/-- A write of 1 to MGC_RETIRE_GO: the selected unit falls due for retirement with cause 0x02, or the write is
discarded with a result that says why. -/
def execMgcRetireGo (s : State) : Host.Outcome State Fault Refusal :=
  let kind := s.reg .MGC_RETIRE_KIND
  let unit := s.reg .MGC_RETIRE_UNIT
  done (if s.isSet .BRK_BRAKED || kind == 0 then s
    else if s.mgc.busy.isSome || !s.mgc.due.isEmpty then (s.setReg .MGC_RETIRE_RESULT 1).cfgErr .MGC
    else if !s.usable (if kind = 1 then deckIndex .CLU unit else deckIndex .CPL unit) then s.setReg .MGC_RETIRE_RESULT 2
    else if kind = 1 ∧ s.lastCluster unit then s.setReg .MGC_RETIRE_RESULT 3
    else
      let s := s.setReg .MGC_RETIRE_RESULT 0
      { s with mgc := { s.mgc with due := [{ kind := kind, unit := unit, cause := 2, since := s.time.bnd }] } })

/-- The commit of a retirement: a cluster begins to drain, a coupler leaves route use; a cluster in T2, or off, has
nothing to drain. -/
def applyUnitRetire (kind unit cause : Nat) (s : State) : State :=
  let e := if kind = 1 then deckIndex .CLU unit else deckIndex .CPL unit
  if !s.usable e then s
  else if kind = 1 ∧ s.lastCluster unit then
    let s := s.setReg .MGC_RETIRE_RESULT 3
    if cause = 5 then s.unitRetired 1 unit 5 1 0 else s
  else
    let s := s.setReg .MGC_RETIRE_BUSY 1
    let s := { s with mgc := { s.mgc with busy := some { kind := kind, unit := unit, cause := cause, since := s.time.bnd } } }
    if kind = 2 then s.onCpl unit fun c => { c with leaving := some s.time.bnd }
    else
      let s := { s with deck := { s.deck with
        draining := NMap.insert s.deck.draining unit (s.time.bnd + ticksOfUs (s.reg .MGC_DRAIN_US)) } }
      let g := s.reg .CRG_GATE_STATE unit
      let s := s.onReg unit fun r => { r with entering := false, wait := none, wakeAt := none }
      let s := s.setReg .CRG_NOTICE_PEND 0 unit
      if g = 2 then s.wakeT1 unit
      else if g = 1 ∨ g = 4 then s
      else ((s.unclock unit (if g = 6 then 6 else 0)).setReg .CRG_V_SET 0 unit).clusterRetired unit

/-- The retirement that has fallen due is committed, as class 9, once no other is in progress. -/
def State.commitRetire (s : State) (kind : Nat) : State :=
  match s.mgc.due with
  | r :: rest =>
    if r.kind ≠ kind || s.mgc.busy.isSome || decide (s.time.bnd ≤ r.since) || s.isSet .MGC_RESTARTING || !s.ticking then s else
    { s with mgc := { s.mgc with due := rest } }.tickEvent 9 (cfgSrc .MGC 0 0x4E4) (.unitRetire r.kind r.unit r.cause)
      (applyUnitRetire r.kind r.unit r.cause)
  | [] => s

def execClusterRetire (s : State) : Host.Outcome State Fault Refusal := done (s.commitRetire 1)
def execCouplerRetire (s : State) : Host.Outcome State Fault Refusal := done (s.commitRetire 2)

/-- After MGC_DRAIN_US the hands still resident are removed as by KILL, and their tasks lose them (R593, R663). -/
def execDrainDeadline (c : Fin 64) (s : State) : Host.Outcome State Fault Refusal :=
  done (match NMap.find? s.deck.draining c with
    | none => s
    | some t =>
      if s.stopped 1 || decide (s.time.bnd < t) then s else
      let drop (s : State) (x : Nat × Nat) : State := match s.hand x.1 x.2 with
        | none => s
        | some h =>
          if h.removed ∨ h.st = .releasing then s else
          let s := (s.setHand x.1 x.2 { h with removed := true }).onTask h.task fun t => { t with lost := t.lost + 1, dark := true }
          { s with mgc := { s.mgc with busy := s.mgc.busy.map fun r => { r with hands := r.hands + 1 } } }
      foldState drop (handsWhere s fun co _ _ => clusterOf co == c.val) s)

/-- Every acknowledgement has arrived: the cluster invalidates its lines and its clock stops.  It enters T2, or its
retirement comes to its end. -/
def execLeaveCoherenceDone (c : Fin 64) (s : State) : Host.Outcome State Fault Refusal :=
  done (if !s.clocked c || !s.noHands c || !s.hasLeft c then s else
    let s := (s.emptyCaches c).loseContents c
    if (NMap.find? s.deck.draining c).isSome then
      ((s.unclock c 0).setReg .CRG_V_SET 0 c).clusterRetired c
    else
      ((s.unclock c 3).setReg .CRG_V_SET (s.vCode c 600) c).onReg c fun r => { r with entering := false, change := none })

/-- The coupler has sent what was queued, or 1 ms has passed: it goes DOWN and is RETIRED.  The spec gives this entry into
DOWN no cause code: a free value. -/
def execCouplerRetireDrained (n : Fin 64) (s : State) : Host.Outcome State Fault Refusal :=
  done (match s.mgc.busy, (s.cpl n).leaving with
    | some r, some t =>
      if r.kind ≠ 2 || r.unit ≠ n.val || !s.banksRun
          || (s.linkUp n && !s.cplIdle n && decide (s.time.bnd < t + ticksOfUs 1000)) then s else
      let cause := Config.freeValue s.free 0 % 16
      let s := { s with free := s.free + 1 }
      let s := (s.toDown n cause).onCpl n fun c => { c with gone := true, leaving := none }
      ((s.retireUnit (deckIndex .CPL n) r.cause).unitRetired 2 n r.cause 0 0).endRetire
    | _, _ => s)

/-! ### Service thresholds (R668–R670) -/

/-- How many bits of a number below 2^32 are set. -/
def popCount (m : Nat) : Nat := (numsWhere 32 m.testBit).length

/-- The quantity of a service threshold. -/
def State.svcQuantity (s : State) (n : Nat) : Nat :=
  let total (l : List Nat) (f : Nat → Nat) : Nat := (l.map f).sum
  let cause (e : Nat) : Nat := ((s.unitSt e).retired).getD 0
  match n with
  | 0 => ((List.range 64).filter fun c => let x := cause (deckIndex .CLU c); decide (2 ≤ x ∧ x ≤ 5)).length
  | 1 => total (List.range 64) fun c => 8 - phasesGood (s.reg .CRG_PHASE_GOOD c)
  | 2 => total (List.range 8) fun k => popCount (s.reg .MEM_CH_RETIRE_MASK k)
  | 3 => total (List.range 8) fun k => s.reg .MEM_SPARE_FAIL_CNT k
  | 4 => s.mgc.ueGran
  | 5 => total (List.range 64) fun k => popCount (s.reg .CPL_LANES_RETIRED k)
  | 6 => ((List.range 64).filter fun c => let x := cause (deckIndex .CPL c); decide (x ≠ 0 ∧ x ≠ 6)).length
  | 8 => s.mgc.ueWord
  | n => NMap.get 0 s.mgc.kept n

/-- Whether a threshold is crossed. -/
def State.svcCrossed (s : State) (n : Nat) : Bool :=
  let lim := s.reg .MGC_SVC_LIM 0 n
  lim != 0 && decide (lim ≤ s.svcQuantity n)

/-- An evaluation of the thresholds: a newly crossed one is latched, recorded and reported. -/
def State.serviceEval (s : State) : State :=
  let s := foldState (fun s n => s.setReg .MGC_SVC_VAL (min (s.svcQuantity n) 0xFFFFFFFF) 0 n) (List.range 12) s
  foldState (fun s n =>
    let st := s.reg .MGC_SVC_STATUS
    if st.testBit n || !s.svcCrossed n then s else
    let s := s.setReg .MGC_SVC_STATUS (st + 2 ^ n)
    s.mgcEvent 0x50 [(1, leBytes 1 n), (0x10, leBytes 4 (s.svcQuantity n)), (0x14, leBytes 4 (s.reg .MGC_SVC_LIM 0 n)),
      (0x18, leBytes 4 (st + 2 ^ n))]) (List.range 12) s

/-- The management controller evaluates the thresholds. -/
def execServiceEval (s : State) : Host.Outcome State Fault Refusal :=
  done (if s.isSet .BRK_BRAKED || !s.booted || s.isSet .MGC_RESTARTING then s else s.serviceEval)

/-- A write of 1 to MGC_SVC_CLEAR clears each latched threshold that is not crossed. -/
def execMgcSvcClear (s : State) : Host.Outcome State Fault Refusal :=
  done (if s.isSet .BRK_BRAKED then s else
    let st := s.reg .MGC_SVC_STATUS
    s.setReg .MGC_SVC_STATUS (((numsWhere 12 fun n => st.testBit n && s.svcCrossed n).map fun n => 2 ^ n).sum))

/-- The length of a window, in ticks (R662). -/
def windowTicks : Nat := 8640000000000

/-- At a window boundary the windowed counts start again (R662, R668, R755). -/
def execErrorWindowRoll (s : State) : Host.Outcome State Fault Refusal :=
  let w := s.time.now / windowTicks
  done (if s.isSet .BRK_BRAKED || w == s.mgc.window then s else
    { s with mgc := { s.mgc with window := w, ueGran := 0, ueWord := 0, cluUe := [], cplDown := [] },
             mem := { s.mem with ueWin := [] } })

/-! ### The ledger (R671–R675) -/

/-- The number of instances of each book. -/
def bookSize : List Nat := [64, 8, 448, 64, 1920, 1, 1, 1, 1, 1, 256]

/-- Whether a number names an instance of a book; book 4's numbers skip the missing ports of the mesh's edge routers,
whose neighbour ports are taken as 0 north, 1 south, 2 west and 3 east (DESIGN CHOICE, log entry 21). -/
def bookHas (book inst : Nat) : Bool :=
  if book = 2 then decide (inst < 512) && inst % 8 != 7
  else if book = 4 then
    let r := inst / 32
    let port := inst / 4 % 8
    decide (inst < 2048) && !(port == 0 && r / 8 == 0) && !(port == 1 && r / 8 == 7) && !(port == 2 && r % 8 == 0)
      && !(port == 3 && r % 8 == 7)
  else decide (inst < bookSize.getD book 0)

/-- The instances of a book. -/
def bookInsts (book : Nat) : List Nat := numsWhere 2048 (bookHas book)

/-- What an instance has allocated and not got back. -/
def State.held (s : State) (book inst : Nat) : Nat :=
  match book with
  | 0 => ((s.clu inst).reqs.filter fun r => !r.2.quar).length
  | 1 => (s.home inst).inbound.length + ((s.home inst).txns.filter fun t => t.goal == .request).length
  | 2 => let r := (s.cpl (inst / 8)).rol; NMap.get 0 r.grant (inst % 8) - NMap.get 0 r.credit (inst % 8)
  | 3 => let r := (s.cpl inst).rol; NMap.get 0 r.grant 7 - NMap.get 0 r.credit 7
  | 5 => (s.posted.filter fun p => p.2.unit == 64 && !p.2.quar).length
  | 6 => s.host.reqs.length
  | 7 => s.cp.kitty.length
  | 8 => (s.reg .CTX_RING_TAIL + 2 ^ 32 - s.reg .CTX_RING_HEAD) % 2 ^ 32
  | 9 => (s.reg .CTX_EVT_TAIL + 2 ^ 32 - s.reg .CTX_EVT_ACK) % 2 ^ 32
  | 10 => s.slotHold inst
  | _ => 0

/-- OUTSTANDING of an instance (R671). -/
def State.bookOut (s : State) (book inst : Nat) : Nat := s.held book inst + NMap.get 0 s.mgc.leak (book * 65536 + inst)

/-- The value that R672 requires at a quiescent point. -/
def State.required (s : State) (book inst : Nat) : Nat :=
  if book = 7 ∨ book = 9 ∨ book = 10 then s.held book inst else 0

/-- Whether the CP is idle. -/
def State.cpIdle (s : State) : Bool := s.cp.cur.isNone && s.cp.next.isNone && s.cp.descs.isEmpty

/-- Whether an instance is at its quiescent point (R345, R494, R599, R672). -/
def State.quiescent (s : State) (book inst : Nat) : Bool :=
  let quietLink (n : Nat) : Bool :=
    let r := (s.cpl n).rol
    r.unack.isEmpty && r.queue.isEmpty && decide (r.busyAt + 309 ≤ s.time.bnd)
  match book with
  | 0 => s.noHands inst && (s.clu inst).reqs.all (·.2.quar)
  | 1 => (s.home inst).inbound.isEmpty && (s.home inst).txns.isEmpty
  | 2 => quietLink (inst / 8)
  | 3 => quietLink inst
  | 4 => s.mesh.isEmpty
  | 5 => s.cpIdle && s.cp.asyncs.isEmpty && !(s.posted.any fun p => p.2.unit == 64 && !p.2.quar)
  | 6 => s.host.reqs.isEmpty
  | 7 => (s.cores.all fun (c : Nat × Core) => c.2.slots.isEmpty) && s.cpIdle
      && s.cp.kitty.all fun k => match k with
        | .ready _ => true
        | _ => false
  | 8 => s.active && s.cpIdle && s.reg .CTX_RING_HEAD == s.reg .CTX_RING_TAIL
  | 10 => s.codec.passes.isEmpty
  | _ => true

/-- Audits an instance at its quiescent point: a failure is counted and reported, and the instance is rebased. -/
def State.auditBook (s : State) (book inst : Nat) : State :=
  let key := book * 65536 + inst
  let s : State := { s.count .MGC_LDG_AUDITS 0 book with mgc := { s.mgc with unquiet := NMap.erase s.mgc.unquiet key } }
  let found : Nat := s.bookOut book inst
  let want : Nat := s.required book inst
  if found = want then s.setReg .MGC_LDG_LAST inst 0 book
  else
    let s := ((s.count .MGC_LDG_FAILS 0 book).setReg .MGC_LDG_LAST (inst + 65536) 0 book).keep 7
    let cap := [2048, 8192, 0, 0, 8, 1024, 768, 8192, 2 ^ s.reg .CTX_RING_LOG2, 2 ^ s.reg .CTX_EVT_LOG2, 0].getD book 0
    let cap := if book = 2 then NMap.get 0 (s.cpl (inst / 8)).rol.grant (inst % 8)
      else if book = 3 then NMap.get 0 (s.cpl inst).rol.grant 7 else cap
    let s := s.mgcEvent 0x51 [(1, leBytes 1 book), (2, leBytes 2 inst), (0x10, leBytes 4 found), (0x14, leBytes 4 want),
      (0x18, leBytes 4 (cap - found))]
    let s := { s with mgc := { s.mgc with leak := NMap.erase s.mgc.leak key } }
    if book = 2 then s.onRol (inst / 8) fun r => { r with credit := NMap.set 0 r.credit (inst % 8) cap }
    else if book = 3 then s.onRol inst fun r => { r with credit := NMap.set 0 r.credit 7 cap }
    else s

/-- An instance that has been out of its quiescent point reaches it again, and is audited. -/
def execLedgerAudit (book : Fin 11) (inst : Nat) (s : State) : Host.Outcome State Fault Refusal :=
  done (if s.isSet .BRK_BRAKED || !bookHas book inst || (NMap.find? s.mgc.unquiet (book * 65536 + inst)).isNone
      || !s.quiescent book inst then s
    else s.auditBook book inst)

/-- A write of 1 to MGC_LDG_AUDIT audits every instance; one that is not at its quiescent point is recorded so. -/
def execMgcLdgAudit (s : State) : Host.Outcome State Fault Refusal :=
  done (if s.isSet .BRK_BRAKED then s else
    foldState (fun s book => foldState (fun s inst =>
      if s.quiescent book inst then s.auditBook book inst else s.setReg .MGC_LDG_LAST (inst + 2 * 65536) 0 book)
      (bookInsts book) s) (List.range 11) s)

/-- The snapshot of every book at a tick; `issued` and `out` are the sums of the mesh's book, whose routers this model
does not hold. -/
def applyLedgerSnap (issued out : Nat) (s : State) : State :=
  let s := s.setReg64 .MGC_LDG_SNAP_TIME_LO .MGC_LDG_SNAP_TIME_HI s.time.now
  foldState (fun s book =>
    let insts := bookInsts book
    let o := (insts.map (s.bookOut book)).sum + (if book = 4 then out else 0)
    let i := (insts.map fun n => NMap.get 0 s.mgc.issued (book * 65536 + n)).sum + (if book = 4 then issued else 0)
    let s := s.setReg64 .MGC_LDG_ISSUED_LO .MGC_LDG_ISSUED_HI i 0 book
    (s.setReg64 .MGC_LDG_RETURNED_LO .MGC_LDG_RETURNED_HI (i - o) 0 book).setReg .MGC_LDG_OUT (o % 2 ^ 32) 0 book)
    (List.range 11) s

/-- A write of 1 to MGC_LDG_SNAP commits at the next tick. -/
def execMgcLdgSnap (issued out : Nat) (s : State) : Host.Outcome State Fault Refusal :=
  done (if s.isSet .BRK_BRAKED || decide (issued < out) then s else s.later 9 (cfgSrc .MGC 0 0x500) (.ledgerSnap issued out))

end Sys2Proof.Machine
end

