-- ==== Sys2Proof/Machine/Security.lean ====
section
/-!
DEFINITION. Secure boot, lifecycle and debug authorisation (chapter 18): the mailbox and its commands, tokens, levels,
lifecycle transitions and the restart of the MGC firmware.
-/
namespace Sys2Proof.Machine

/-! ### Firmware images (R685–R688) -/

/-- What a flash slot holds. -/
def State.slotImage (s : State) (n : Nat) : List Byte :=
  (NMap.find? s.sec.flash n).getD (if n = 0 then Config.factoryImage else [])

/-- The security version of an image. -/
def imageSvn (im : List Byte) : Nat := field im 6 2

/-- The bytes of a slot (R685). -/
def slotBytes : Nat := 3145728

/-- Whether an image is valid but for its security version (R686, R687). -/
def imageSound (im : List Byte) : Bool :=
  let key := (im.drop 0x50).take 97
  im.take 4 == [0x42, 0x46, 0x57, 0x49] && field im 4 2 == 1 && decide (imageSvn im ≤ 64)
    && decide (276 + field im 0x0C 4 ≤ min im.length slotBytes)
    && ((im.drop 0x14).take 12).all (· == 0) && ((im.drop 0xB1).take 3).all (· == 0)
    && sha384 key == Config.fwRoot
    && ecdsaVerify key (sha384 (im.take 0xB4)) ((im.drop 0xB4).take 96)
    && sha384 ((im.drop 276).take (field im 0x0C 4)) == (im.drop 0x20).take 48

/-- Whether the image of a slot is valid (R687). -/
def State.slotValid (s : State) (n : Nat) : Bool :=
  imageSound (s.slotImage n) && decide (s.sec.fuses.svn ≤ imageSvn (s.slotImage n))

/-- The slot that the ROM boots; none leaves the MGC in recovery (R688, R689). -/
def State.bootSlot (s : State) : Option Nat :=
  let ver (n : Nat) : Nat := field (s.slotImage n) 8 4
  let best : Option Nat :=
    if s.slotValid 0 ∧ (!s.slotValid 1 ∨ ver 1 ≤ ver 0) then some 0 else if s.slotValid 1 then some 1 else none
  match s.sec.trial with
  | some t => if s.slotValid (1 - t) then some (1 - t) else best
  | none => best

/-- The firmware of a slot runs: its version, slot and trial mark show in the MGC block (R711).  The boot of a cold reset
itself is not one since that reset. -/
def State.runSlot (s : State) (n : Nat) (cold : Bool) : State :=
  let s := (s.setReg .MGC_FW_VERSION (field (s.slotImage n) 8 4)).setReg .MGC_FW_SLOT n
  let s := s.setReg .MGC_FW_TRIAL (bit (s.sec.trial == some n))
  if cold then s else s.count .MGC_BOOT_CNT

/-- The ROM boots a slot, or stays in recovery. -/
def State.romBoot (s : State) (cold : Bool) : State :=
  match s.bootSlot with
  | some n => { s with sec := { s.sec with recovery := false } }.runSlot n cold
  | none => { s with sec := { s.sec with recovery := true } }

/-! ### The mailbox (R709, R710) -/

/-- Bytes of the message buffer. -/
def State.mbx (s : State) (off n : Nat) : List Byte :=
  (List.range n).map fun i => BitVec.ofNat 8 (s.reg .SEC_MBX 0 ((off + i) / 4) >>> (8 * ((off + i) % 4)))

/-- Puts bytes into the message buffer. -/
def State.putMbx (s : State) (off : Nat) (bs : List Byte) : State :=
  foldState (fun s p =>
    let i := off + p.2
    let lo := 8 * (i % 4)
    s.setReg .SEC_MBX (putBits (s.reg .SEC_MBX 0 (i / 4)) (lo + 7) lo p.1.toNat) 0 (i / 4)) bs.zipIdx s

/-- The result of a mailbox command. -/
def State.mbxResult (s : State) (code : Nat) : State := s.setReg .SEC_MBX_RESULT code

/-- Runs mailbox command `cmd`, where the MGC runs: during a restart it completes with BUSY (R706), and in recovery only
FW_STAGE and FW_ACTIVATE are accepted (R689).  A command completes in its own step. -/
def State.mailbox (s : State) (cmd : Nat) (f : State → State) : State :=
  if s.isSet .BRK_BRAKED || s.inReset then s
  else if s.isSet .MGC_RESTARTING then s.mbxResult 6
  else if s.sec.recovery && cmd != 8 && cmd != 9 then s.mbxResult 4
  else f s

/-! ### Security events (R699, R707) -/

/-- The code of a path. -/
def pathCode : Path → Nat
  | .bar0 => 0
  | .i2c => 1
  | .tap => 2

/-- The code of a security event, its path, coupler and mailbox result. -/
def SecAct.facts : SecAct → Nat × Nat × Nat × Nat
  | .grant _ _ _ p => (1, pathCode p, 0, 0)
  | .rejected p r => (2, pathCode p, 0, r)
  | .expired _ => (3, 0, 0, 0)
  | .relinquish _ p => (4, pathCode p, 0, 0)
  | .lifecycle _ p => (5, pathCode p, 0, 0)
  | .activated p => (6, pathCode p, 0, 0)
  | .badImage p r => (7, pathCode p, 0, r)
  | .sealFail n => (8, 3, n, 0)
  | .ownerKey p => (9, pathCode p, 0, 0)

/-- The fuses that a lifecycle transition burns (R694). -/
def Fuses.enter (f : Fuses) (target : Nat) : Fuses :=
  if !f.provisioned then { f with provisioned := true }
  else if target = 3 then { f with secretGone := true, retired := true }
  else { f with toggles := f.toggles + 1 }

/-- Ends a token. -/
def SecSt.endToken (x : SecSt) (vendor : Bool) : SecSt := if vendor then { x with vendor := none } else { x with owner := none }

/-- What a security event does to the security state, at its tick. -/
def State.secChange (s : State) (a : SecAct) : State :=
  let x := s.sec
  match a with
  | .grant vendor level secs _ =>
    let t := some { level := level, secs := secs, since := s.time.bnd }
    { s with sec := if vendor then { x with vendor := t } else { x with owner := t } }
  | .expired vendor => { s with sec := x.endToken vendor }
  | .relinquish vendor _ => { s with sec := { x.endToken vendor with lowered := x.lowered || s.lifecycle == 0 } }
  | .lifecycle target _ =>
    { s with sec := { x with fuses := x.fuses.enter target, owner := none, vendor := none, resetDue := some s.time.bnd,
                             clearRecord := x.clearRecord || !x.fuses.provisioned } }
  | .activated _ => s.setReg .MGC_RESTARTING 1
  | .rejected _ _ => s
  | .badImage _ _ => s
  | .sealFail _ => s
  | .ownerKey _ => s

/-- A security event at its tick: its effect, what a lower level takes with it (R262, R699), and SEC_EVENT (R707). -/
def applySecurity (a : SecAct) (s : State) : State :=
  let before := s.level
  let s := s.secChange a
  let after := s.level
  let s := if 2 ≤ before ∧ after < 2 then s.dropDebug else s
  let s := if after < before then { s with time := { s.time with cur := { s.time.cur with level := some after } } } else s
  let (code, path, coupler, result) := a.facts
  s.postEvent (deckIndex .SEC 0) (payload [(0, leBytes 1 0x60), (1, leBytes 1 code), (2, leBytes 1 before), (3, leBytes 1 after),
    (4, leBytes 1 s.lifecycle), (5, leBytes 1 path), (6, leBytes 1 coupler), (7, leBytes 1 result), (8, leBytes 8 s.time.now),
    (0x10, leBytes 4 (s.reg .MGC_FW_VERSION))])

/-- A security event, as class 6 with its code as source index; equal events of one tick are all applied (R121). -/
def State.security (s : State) (a : SecAct) : State :=
  let code := a.facts.1
  if !s.ticking then s
  else if !s.inOrder 6 code then { s with time := { s.time with due := s.time.due ++ [⟨6, code, .security a⟩] } }
  else if s.time.ready.isEmpty then s.applyEvent 6 code (.security a) (applySecurity a)
  else s.atOnce ⟨6, code, .security a⟩

/-! ### The token exchange (R700–R703, R708) -/

/-- How many random bytes a NONCE has, each a free value (R700). -/
def State.nonce (s : State) : List Byte × State :=
  ((List.range 32).map fun i => BitVec.ofNat 8 (Config.freeValue (s.free + i) 0), { s with free := s.free + 32 })

/-- GET_CHALLENGE: the message's first two bytes are the purpose and the level; the challenge is left in the buffer. -/
def State.getChallenge (s : State) : State :=
  let m := s.mbx 0 2
  let purpose := field m 0 1
  let level := field m 1 1
  if s.isSet .SEC_TOKEN_LOCK then s.mbxResult 5
  else if s.reg .SEC_MBX_LEN ≠ 2 ∨ purpose = 0 ∨ 5 < purpose
      ∨ (if purpose = 1 then level = 0 ∨ 3 < level else level ≠ 0) then s.mbxResult 1
  else
    let (nonce, s) := s.nonce
    let count := if s.lifecycle = 0 then s.sec.issued else s.sec.issued + 1
    let c := [0x42, 0x43, 0x48, 0x4C] ++ leBytes 1 purpose ++ leBytes 1 level ++ leBytes 1 s.lifecycle
      ++ leBytes 1 s.sec.fuses.owners.length ++ leBytes 8 Config.serial ++ nonce ++ leBytes 4 (s.reg .MGC_FW_VERSION)
      ++ leBytes 4 0 ++ leBytes 8 count
    (({ s with sec := { s.sec with challenge := some (c, s.time.bnd), issued := count } }).putMbx 0 c).mbxResult 0

def execGetChallenge (_path : Path) (s : State) : Host.Outcome State Fault Refusal :=
  done (s.mailbox 1 State.getChallenge)

/-- Whether the lifecycle state allows a signer, purpose and level (R694, R704, R708). -/
def State.tokenAllowed (s : State) (purpose level : Nat) (vendor : Bool) : Bool :=
  let lc := s.lifecycle
  match purpose with
  | 1 =>
    if vendor then
      if level = 3 then lc != 1 || decide (2 ≤ tokenLevel s.sec.owner) else level == 2 && (lc == 0 || lc == 3)
    else lc == 1 && (level == 1 || level == 2)
  | 2 => lc == 1 && !vendor
  | 3 => lc == 1 || lc == 2
  | 4 => !vendor && (lc == 1 || lc == 2)
  | 5 => lc == 0 && vendor
  | _ => false

/-- The ticks of a second of token time (R698). -/
def secondTicks : Nat := 100000000

/-- The first check of R702 that a token fails, as a result code; 0 accepts it.  `want` is the purpose that the command
asks for, where it asks for one. -/
def State.tokenCheck (s : State) (t : List Byte) (want : Option Nat) : Nat :=
  let purpose := field t 4 1
  let level := field t 5 1
  let signer := field t 6 1
  let key := (t.drop 0x40).take 97
  let plain := t.length == 260 && t.take 4 == [0x42, 0x54, 0x4F, 0x4B] && decide (signer ≤ 1) && field t 7 1 == 0
    && field t 0x0C 4 == 0 && ((t.drop 0xA1).take 3).all (· == 0) && (want.map (· == purpose)).getD true
  if !plain then 1 else
  match s.sec.challenge with
  | none => 3
  | some (c, at') =>
    if (t.drop 0x10).take 48 ≠ sha384 c ∨ at' + 60 * secondTicks < s.time.bnd then 3
    else if field c 4 1 ≠ purpose ∨ field c 5 1 ≠ level then 1
    else
      let keyOk := if signer = 0 then s.sec.fuses.owners.getLast? == some (sha384 key)
        else sha384 key == Config.dbgRoot
      if !keyOk then 4
      else if !ecdsaVerify key (sha384 (t.take 0xA4)) ((t.drop 0xA4).take 96) then 2
      else if !s.tokenAllowed purpose level (signer == 1) then 4
      else 0

/-- Takes a token: the challenge is used up, a failed check is counted and reported, and sixteen lock the exchange. -/
def State.takeToken (s : State) (t : List Byte) (want : Option Nat) (path : Path) : Nat × State :=
  let r := s.tokenCheck t want
  let s : State := { s with sec := { s.sec with challenge := none } }
  if r = 0 then (0, s) else
  let n := s.sec.rejected + 1
  let s : State := { s.count .SEC_TOKEN_FAIL_CNT with sec := { s.sec with rejected := n } }
  let s := if 16 ≤ n then s.setReg .SEC_TOKEN_LOCK 1 else s
  (r, (s.mbxResult r).security (.rejected path r))

/-- SUBMIT_TOKEN: an accepted DEBUG token grants its level at a tick; a token of another purpose that passes its checks
completes with OK and grants nothing by itself. -/
def State.submitToken (path : Path) (s : State) : State :=
  if s.isSet .SEC_TOKEN_LOCK then s.mbxResult 5 else
  let t := s.mbx 0 (s.reg .SEC_MBX_LEN)
  match s.takeToken t none path with
  | (0, s) =>
    let s := s.mbxResult 0
    if field t 4 1 = 1 then s.security (.grant (field t 6 1 == 1) (field t 5 1) (field t 8 4) path) else s
  | (_, s) => s

def execSubmitToken (path : Path) (s : State) : Host.Outcome State Fault Refusal :=
  done (s.mailbox 2 (State.submitToken path))

/-- RELINQUISH ends the token that byte 0 of the message names; in BLANK it also lowers the level to L0. -/
def State.relinquish (path : Path) (s : State) : State :=
  let who := field (s.mbx 0 1) 0 1
  if s.reg .SEC_MBX_LEN ≠ 1 ∨ 1 < who then s.mbxResult 1 else
  let vendor := who == 1
  let s := s.mbxResult 0
  let inForce := if vendor then s.sec.vendor.isSome else s.sec.owner.isSome
  if inForce || (s.lifecycle == 0 && !s.sec.lowered) then s.security (.relinquish vendor path) else s

def execRelinquish (path : Path) (s : State) : Host.Outcome State Fault Refusal :=
  done (s.mailbox 3 (State.relinquish path))

/-- The end of a token's duration, which a restart of the MGC puts off to its end (R698, R706). -/
def execTokenExpire (vendor : Bool) (s : State) : Host.Outcome State Fault Refusal :=
  done (match if vendor then s.sec.vendor else s.sec.owner with
    | none => s
    | some t =>
      if s.isSet .BRK_BRAKED || s.inReset || s.isSet .MGC_RESTARTING || t.secs == 0
          || decide (s.time.bnd < t.since + t.secs * secondTicks) then s
      else s.tickEvent 6 3 (.security (.expired vendor)) (applySecurity (.expired vendor)))

/-! ### Lifecycle and owner keys (R694, R695, R704) -/

/-- LC_REQUEST: its message is the token, which names the transition, or empty for OPEN to SEALED. -/
def State.lcRequest (path : Path) (s : State) : State :=
  let n := s.reg .SEC_MBX_LEN
  let full : Bool := decide (32 ≤ s.sec.fuses.toggles)
  if n = 0 then
    if s.lifecycle ≠ 2 then s.mbxResult 4
    else if full then s.mbxResult 9
    else (s.mbxResult 0).security (.lifecycle 1 path)
  else
    let t := s.mbx 0 n
    let purpose := field t 4 1
    if purpose ≠ 2 ∧ purpose ≠ 3 ∧ purpose ≠ 5 then s.mbxResult 1 else
    match s.takeToken t none path with
    | (0, s) =>
      if purpose = 2 ∧ full then s.mbxResult 9
      else (s.mbxResult 0).security (.lifecycle (if purpose = 2 then 2 else if purpose = 3 then 3 else 1) path)
    | (_, s) => s

def execLcRequest (path : Path) (s : State) : Host.Outcome State Fault Refusal :=
  done (s.mailbox 4 (State.lcRequest path))

/-- OWNER_SET burns the first owner key's hash, in SEALED and while none is burned. -/
def State.ownerSet (path : Path) (s : State) : State :=
  if s.reg .SEC_MBX_LEN ≠ 97 then s.mbxResult 1
  else if s.lifecycle ≠ 1 ∨ !s.sec.fuses.owners.isEmpty then s.mbxResult 4
  else
    let f := s.sec.fuses
    ({ s with sec := { s.sec with fuses := { f with owners := [sha384 (s.mbx 0 97)] } } }.mbxResult 0).security (.ownerKey path)

def execOwnerSet (path : Path) (s : State) : Host.Outcome State Fault Refusal :=
  done (s.mailbox 5 (State.ownerSet path))

/-- OWNER_ROTATE, given the new key and then a token of purpose 4, burns the next slot. -/
def State.ownerRotate (path : Path) (s : State) : State :=
  if s.reg .SEC_MBX_LEN ≠ 357 then s.mbxResult 1 else
  match s.takeToken (s.mbx 97 260) (some 4) path with
  | (0, s) =>
    let f := s.sec.fuses
    if 4 ≤ f.owners.length then s.mbxResult 9
    else
      ({ s with sec := { s.sec with fuses := { f with owners := f.owners ++ [sha384 (s.mbx 0 97)] } } }.mbxResult 0).security
        (.ownerKey path)
  | (_, s) => s

def execOwnerRotate (path : Path) (s : State) : Host.Outcome State Fault Refusal :=
  done (s.mailbox 6 (State.ownerRotate path))

/-! ### Attestation (R691, R740) -/

/-- The report of ATTEST. -/
def State.report (s : State) (nonce : List Byte) : List Byte :=
  let id := match s.tileId with
    | some t => t + 2 ^ 31
    | none => 0
  [0x42, 0x41, 0x54, 0x54] ++ leBytes 1 s.lifecycle ++ leBytes 1 s.level ++ leBytes 1 s.sec.fuses.svn ++ leBytes 1 0
    ++ leBytes 4 (s.reg .MGC_FW_VERSION) ++ leBytes 4 0 ++ leBytes 8 Config.serial ++ nonce
    ++ padTo 48 (sha384 ((s.slotImage (s.reg .MGC_FW_SLOT)).take 276)) ++ leBytes 8 s.time.now ++ leBytes 4 id
    ++ List.replicate 12 0

/-- ATTEST leaves the report and its signature in the buffer; without an identity key it fails. -/
def State.attest (s : State) : State :=
  if s.reg .SEC_MBX_LEN ≠ 32 then s.mbxResult 1
  else if s.sec.fuses.secretGone then s.mbxResult 4
  else
    let r := s.report (s.mbx 0 32)
    (s.putMbx 0 (r ++ s.idSign (sha384 r))).mbxResult 0

def execAttest (_path : Path) (s : State) : Host.Outcome State Fault Refusal := done (s.mailbox 7 State.attest)

/-! ### Firmware update (R705, R706) -/

/-- The slot that is not running; in recovery none runs, and slot A is staged. -/
def State.idleSlot (s : State) : Nat := if s.sec.recovery then 0 else 1 - s.reg .MGC_FW_SLOT

/-- FW_STAGE writes the message at the staged offset of the idle slot. -/
def State.fwStage (s : State) : State :=
  let n := s.reg .SEC_MBX_LEN
  let o := s.sec.staged
  if n = 0 ∨ 1024 < n ∨ slotBytes < o + n then s.mbxResult 1 else
  let im := s.slotImage s.idleSlot
  let im := padTo o (im.take o) ++ s.mbx 0 n ++ im.drop (o + n)
  { s with sec := { s.sec with flash := NMap.insert s.sec.flash s.idleSlot im, staged := o + n } }.mbxResult 0

def execFwStage (_path : Path) (s : State) : Host.Outcome State Fault Refusal := done (s.mailbox 8 State.fwStage)

/-- FW_ACTIVATE checks the staged slot; a valid one gets a trial mark and a restart follows.  In recovery the tile then
boots as after a reset. -/
def State.fwActivate (path : Path) (s : State) : State :=
  let n := s.idleSlot
  let s : State := { s with sec := { s.sec with staged := 0 } }
  if !imageSound (s.slotImage n) then (s.mbxResult 7).security (.badImage path 7)
  else if !s.slotValid n then (s.mbxResult 8).security (.badImage path 8)
  else
    { s with sec := { s.sec with trial := some n, restartDue := some (s.time.bnd, path) } }.mbxResult 0

def execFwActivate (path : Path) (s : State) : Host.Outcome State Fault Refusal :=
  done (s.mailbox 9 (State.fwActivate path))

/-- The tick after an activation the MGC restarts into the new slot. -/
def execMgcRestart (s : State) : Host.Outcome State Fault Refusal :=
  done (match s.sec.restartDue with
    | some (t, path) =>
      if s.isSet .BRK_BRAKED || s.inReset || decide (s.time.bnd ≤ t) then s
      else { s with sec := { s.sec with restartDue := none } }.security (.activated path)
    | none => s)

/-- FW_ACCEPT clears the trial mark of the running slot and burns its security version. -/
def State.fwAccept (s : State) : State :=
  let n := s.reg .MGC_FW_SLOT
  let s := s.mbxResult 0
  if s.sec.trial ≠ some n then s else
  let f := s.sec.fuses
  { s with sec := { s.sec with trial := none, fuses := { f with svn := max f.svn (imageSvn (s.slotImage n)) } } }.setReg
    .MGC_FW_TRIAL 0

def execFwAccept (_path : Path) (s : State) : Host.Outcome State Fault Refusal := done (s.mailbox 10 State.fwAccept)

end Sys2Proof.Machine
end

