-- ==== Sys2Proof/Machine/Reset.lean ====
section
/-!
DEFINITION. The three reset levels and the bring-up (R562–R564, R719–R730).
-/
namespace Sys2Proof.Machine

/-! ### The board record (R729, R730) -/

/-- The last code of a multi-function pin's function that the pin allows beyond 0–2, or 0 (R732). -/
def pinExtra (n : Nat) : Nat := if n = 4 ∨ n = 5 then 3 else if 6 ≤ n ∧ n ≤ 8 then 4 else if n = 9 then 5 else 0

/-- Whether a function code is allowed on MF `n` (R732). -/
def funcOk (n f : Nat) : Bool := decide (f ≤ 2) || (pinExtra n != 0 && f == pinExtra n)

/-- Whether a board record is valid (R730). -/
def boardOk (r : List Byte) : Bool :=
  let f (o n : Nat) : Nat := field r o n
  r.length == 128 && r.take 4 == [0x42, 0x42, 0x52, 0x44] && f 4 2 == 1 && f 6 2 == 128
    && decide (1 ≤ f 0x0E 1) && decide (f 0x0F 1 % 4 ≤ 2) && decide (f 0x0F 1 < 8)
    && ((List.range 16).all fun n => funcOk n (f (0x10 + n) 1))
    && decide (1 ≤ f 0x20 1) && decide (f 0x20 1 ≤ 24) && decide (f 0x21 1 ≤ 2)
    && ((r.drop 0x22).take 6).all (· == 0) && ((r.drop 0x58).take 36).all (· == 0)
    && f 0x7C 4 == crc32 (r.take 0x7C)

/-- The firmware applies the stored board record: the subsystem IDs, and the initial pin values, which commit at the
first tick after (R730). -/
def State.applyBoard (s : State) : State :=
  match s.sec.board with
  | none => { s with sec := { s.sec with badBoard := false, subsys := none } }
  | some r =>
    if !boardOk r then { s with sec := { s.sec with badBoard := true, subsys := none } } else
    let f (o n : Nat) : Nat := field r o n
    let put (s : State) (x : Field) (v : Nat) (n : Nat := 0) : State :=
      { s with shadow := NMap.insert s.shadow (regKey x 0 n) v }
    let s : State := { s with sec := { s.sec with badBoard := false, subsys := some (f 8 2, f 0x0A 2) } }
    let s := put (put s .PIN_OUT (f 0x0C 2)) .PIN_SETTLE (f 0x0E 1)
    let s := put (put s .PIN_UART_BAUD (f 0x0F 1 % 4)) .PIN_PMB_FAST (f 0x0F 1 / 4 % 2)
    let s := put s .PIN_TICK_LOG2 (f 0x20 1)
    let s := if f 0x21 1 = 0 then s else put s .PIN_PERST_POLICY (f 0x21 1 - 1)
    let s := foldState (fun s n => put s .PIN_FUNC (f (0x10 + n) 1) n) (List.range 16) s
    s.later 9 (cfgSrc .PIN 0 0x010) .pinFunc

/-! ### Cold and warm resets (R29, R721) -/

/-- Copies the entries of a field that differ from its reset value from another state. -/
def State.copyField (s old : State) (f : Field) : State :=
  foldState (fun s i => foldState (fun s n =>
    if old.reg f i n = s.reg f i n then s else s.setReg f (old.reg f i n) i n) (List.range f.spec.count) s)
    (List.range f.spec.block.instances) s

/-- What the persistent record and the fuses keep over every reset (R662, R721). -/
def recordFields : List Field := [.MEM_CH_RETIRE_MASK, .CPL_LANES_RETIRED, .CRG_PHASE_GOOD, .CRG_CAP_MA, .CRG_F_MAX_MHZ, .MGC_SVC_STATUS]

/-- What a warm reset keeps besides (R120, R644, R711, R719). -/
def warmFields : List Field := [.TIK_MOOT_CNT, .PIN_STRAP_ADDR, .PIN_STRAP_HOST_EN, .PIN_STRAP_PERST_CTX, .PWR_TRIPPED, .MGC_BOOT_CNT]

/-- Retirements in progress come up complete: of a cluster or coupler, and of a memory channel (R662, R677). -/
def State.finishRetirements (s : State) : State :=
  let s := match s.mgc.busy with
    | some r => s.retireUnit (if r.kind = 1 then deckIndex .CLU r.unit else deckIndex .CPL r.unit) r.cause
    | none => s
  foldState (fun s (x : Nat × Nat × Nat × Nat) =>
    let m := s.reg .MEM_CH_RETIRE_MASK x.1
    if m.testBit x.2.1 then s else s.setReg .MEM_CH_RETIRE_MASK (m + 2 ^ x.2.1) x.1) s.mem.retire s

/-- A tile that has left BLANK starts with an empty record (R694). -/
def State.forgetRecord (s : State) : State :=
  let s := foldState (fun s f => foldState (fun s i => s.setReg f (resetValue f 0) i) (List.range f.spec.block.instances) s)
    recordFields s
  { s with deck := { s.deck with units := s.deck.units.map fun (u : Nat × UnitSt) => (u.1, { fused := u.2.fused }) },
           mgc := { s.mgc with kept := [], cluUe := [], cplDown := [], busy := none },
           mem := { s.mem with spared := [], ueWin := [], retire := [] },
           sec := { s.sec with clearRecord := false } }

/-- The tile right after a cold or warm reset, before the boot ROM runs: the registers at their reset values but for what
the record, the fuses and a warm reset keep; nothing in flight anywhere; what local memory holds stays until its
initialisation (R365). -/
def State.resetTo (s : State) (cold : Bool) : State :=
  let old := if s.sec.clearRecord then s.forgetRecord else s.finishRetirements
  let t : State :=
    { pending := s.pending, free := s.free,
      time := if cold then { restart := true } else { now := s.time.now, bnd := s.time.bnd },
      mem := { cells := old.mem.cells, gran := old.mem.gran, err := old.mem.err, spared := old.mem.spared,
               rowErr := if cold then [] else old.mem.rowErr, ueWin := if cold then [] else old.mem.ueWin },
      rte := { ent := old.rte.ent },
      cpls := ((List.range 64).filter fun n => ((old.unitSt (deckIndex .CPL n)).retired).isSome).map fun n => (n, { gone := true }),
      host := { out := old.host.out, inReset := old.host.inReset, linkGts := old.host.linkGts, linkWidth := old.host.linkWidth },
      mgc := { kept := old.mgc.kept, window := if cold then 0 else old.mgc.window,
               cluUe := if cold then [] else old.mgc.cluUe, cplDown := if cold then [] else old.mgc.cplDown },
      sec := { fuses := old.sec.fuses, flash := old.sec.flash, trial := old.sec.trial, issued := old.sec.issued,
               board := old.sec.board },
      deck := { units := old.deck.units },
      pin := { cap := old.pin.cap, resetLow := old.pin.resetLow, pwrLow := old.pin.pwrLow, ir := old.pin.ir,
               tapData := old.pin.tapData, tapDone := old.pin.tapDone, tapDenied := old.pin.tapDenied,
               bsr := old.pin.bsr, bsrOut := old.pin.bsrOut } }
  let t := foldState (fun t f => t.copyField old f) (recordFields ++ if cold then [] else warmFields) t
  if cold then t else t.setReg .PIN_PERST_POLICY (old.reg .PIN_STRAP_PERST_CTX)

/-- Samples the straps from the levels of MF0–MF3 (R719); PIN_PERST_POLICY takes its reset value from one (R749). -/
def State.strap (s : State) (mf : Nat) : State :=
  let s := (s.setReg .PIN_STRAP_ADDR (mf % 4)).setReg .PIN_STRAP_HOST_EN (mf / 4 % 2)
  (s.setReg .PIN_STRAP_PERST_CTX (mf / 8 % 2)).setReg .PIN_PERST_POLICY (mf / 8 % 2)

/-- Steps 1 and 2 of the bring-up: the ROM boots a slot or stays in recovery, and the firmware applies the board record
(R725, R728). -/
def State.bringUp (s : State) (cold : Bool) : State :=
  let s := s.romBoot cold
  if s.sec.recovery then s else s.applyBoard

/-! ### The context reset (R134, R139, R232, R264, R291, R418, R562, R563) -/

/-- A hand that a context reset removes: it issues nothing more and holds nothing; of what it issued only the memory
accesses stay, and their data is discarded. -/
def Hand.dropped (h : Hand) : Hand :=
  { h with removed := true, vblk := [], osbPages := [], accPages := [], stop := none, poison := none, fetchBuf := [],
           ops := h.ops.filter fun o => decide (o.opc < 0xA0) }

/-- What a context reset does to a core. -/
def Core.contextReset (co : Core) : Core :=
  { co with slots := co.slots.map fun (x : Nat × Hand) => (x.1, x.2.dropped), rot := 0, last := none,
            vb := [], ob := [], ab := [], vrf := [], osb := [], acc := [],
            l1 := co.l1.filter fun (x : Nat × CLine) => x.2.st != .v, ic := [], lsq := [], cq := [], gate := false }

/-- What a context reset does to a cluster. -/
def Cluster.contextReset (cl : Cluster) : Cluster :=
  { cl with cc := cl.cc.filter fun (x : Nat × CLine) => x.2.st != .v, asm := [],
            reqs := cl.reqs.map fun (r : Nat × Req) =>
              let stagedFill : Bool := r.2.kind == .stRd || match r.2.use with
                | .fetch _ _ => true
                | _ => false
              (r.1, if stagedFill then { r.2 with noAlloc := true } else r.2) }

/-- The fields that a context reset returns to their reset values (R244, R264, R291, R418, R563, R566, R606). -/
def contextFields : List Field :=
  [.CTX_FP_ILLEGAL, .CTX_FP_MISALIGN, .CTX_FP_UNPOP, .CTX_FP_MATRIX, .CTX_FP_TRAP, .CTX_FP_POISON, .CTX_POISON_TRAP_EN,
   .DBG_BP_EN, .DBG_WP_KIND, .TILE_WIN_VALID, .TILE_WIN_BUSY, .CDC_SLOT_STATE, .CDC_STAGE, .TIK_REPLAY, .FEN_MIR_EN]

/-- Returns every entry of a field to its reset value; breakpoints and watchpoints are those of all 256 cores. -/
def State.clearField (s : State) (f : Field) : State :=
  let cores := if f.spec.block = .DBG then 256 else f.spec.block.instances
  foldState (fun s i => foldState (fun s n =>
    if s.reg f i n = resetValue f n then s else s.setReg f (resetValue f n) i n) (List.range f.spec.count) s) (List.range cores) s

/-- A context reset at its tick.  It changes nothing under the brake (R272). -/
def State.contextReset (s : State) : State :=
  if s.isSet .BRK_BRAKED then s else
  let s := foldState (fun s f => s.clearField f) contextFields (s.defaultTolerance.setReg .CTX_STATE 2)
  { s with
    shadow := foldState (fun m n => NMap.erase m (regKey .TILE_WIN_VALID 0 n)) (List.range 256) s.shadow
    cores := s.cores.map fun (x : Nat × Core) => (x.1, x.2.contextReset)
    clus := s.clus.map fun (x : Nat × Cluster) => (x.1, x.2.contextReset)
    tasks := []
    winEntries := []
    winNew := []
    time := { s.time with replayLeft := 0 }
    cp := { nextList := s.cp.nextList, nextAsync := s.cp.nextAsync }
    codec := {}
    host := { s.host with posted := false, msixPending := [] } }

/-- Once every removed hand has released its holdings and the CP is idle, the context is NONE (R564). -/
def execContextResetDone (s : State) : Host.Outcome State Fault Refusal :=
  done (if s.reg .CTX_STATE ≠ 2 || s.stopped 1 || !(handsWhere s fun _ _ _ => true).isEmpty
      || s.posted.any (fun (p : Nat × PostReq) => p.2.unit == 64 && !p.2.quar) then s
    else s.setReg .CTX_STATE 0)

/-! ### Reset events (R722–R724, R728) -/

/-- A reset at its tick.  Causes are those of PIN_RESET_CAUSE: 1 RESET_N, 2 PWRGD low, 3 PERST_N, 4 PIN_RESET_CMD,
5 the I²C command, 6 a lifecycle transition. -/
def applyReset (level : ResetLevel) (cause : Nat) (s : State) : State :=
  let mark (s : State) (n : Nat) : State :=
    { s with time := { s.time with cur := { s.time.cur with cls := 1, src := n, reset := some level } } }
  match level with
  | .context => mark s.contextReset 2
  | .warm => mark ((s.resetTo false).bringUp false |>.setReg .PIN_RESET_CAUSE cause) 1
  | .cold =>
    let mf := s.pin.cap
    let t := (s.resetTo true).setReg .PIN_RESET_CAUSE cause
    if cause = 1 then mark { t with pin := { t.pin with resetLow := true } } 0
    else if cause = 2 then mark { t with pin := { t.pin with pwrLow := true } } 0
    else mark ((t.strap mf).bringUp true) 0

/-- A reset is invoked, as a class 1 event.  A cold or warm reset also leaves the brake, under which no other event is
applied once fabric time has stopped. -/
def State.invokeReset (s : State) (level : ResetLevel) (cause : Nat) : State :=
  let src := match level with
    | .cold => 0
    | .warm => 1
    | .context => 2
  if s.inReset then s
  else if s.stopped 4 then (if level = .context then s else applyReset level cause s)
  else s.tickEvent 1 src (.reset level cause) (applyReset level cause)

/-- A write of 1 to CTX_RESET. -/
def execCtxReset (s : State) : Host.Outcome State Fault Refusal :=
  done (if s.isSet .BRK_BRAKED || s.reg .CTX_STATE == 0 then s else s.invokeReset .context 0)

def execFunctionLevelReset (s : State) : Host.Outcome State Fault Refusal :=
  done (if !s.hostEn || s.host.inReset || s.isSet .BRK_BRAKED then s else s.invokeReset .context 0)

def execD3hotEntry (s : State) : Host.Outcome State Fault Refusal :=
  done (if !s.hostEn || s.host.inReset || s.isSet .BRK_BRAKED then s else s.invokeReset .context 0)

/-- RESET_N is captured low. -/
def execResetNLow (s : State) : Host.Outcome State Fault Refusal :=
  done (if s.pin.resetLow then s
    else if s.pin.pwrLow then { s with pin := { s.pin with resetLow := true } }
    else s.invokeReset .cold 1)

/-- Leaves a cold reset that a pin held: the straps are sampled and the bring-up starts, once no other pin holds it. -/
def State.release (s : State) (mf : Nat) : State :=
  if s.inReset then s else (({ s with time := { restart := true } }).strap mf).bringUp true

/-- The release of RESET_N is captured, with the levels of MF0–MF3 at that tick. -/
def execResetNRelease (mf : BitVec 4) (s : State) : Host.Outcome State Fault Refusal :=
  done (if !s.pin.resetLow then s else ({ s with pin := { s.pin with resetLow := false } }).release mf.toNat)

/-- PWRGD_IO or PWRGD_CORE has been low for 1 µs. -/
def execPwrgdLow (s : State) : Host.Outcome State Fault Refusal :=
  done (if s.pin.pwrLow then s
    else if s.pin.resetLow then { s with pin := { s.pin with pwrLow := true } }
    else s.invokeReset .cold 2)

/-- Both PWRGD pins are high again. -/
def execPwrgdRelease (mf : BitVec 4) (s : State) : Host.Outcome State Fault Refusal :=
  done (if !s.pin.pwrLow then s else ({ s with pin := { s.pin with pwrLow := false } }).release mf.toNat)

/-- PERST_N is captured low: the endpoint is held in reset, and the policy's reset is invoked. -/
def execPerstNLow (s : State) : Host.Outcome State Fault Refusal :=
  done (if !s.hostEn || s.host.inReset || s.padsTaken then s else
    let s : State := { s with host := { s.host with inReset := true } }
    if s.isSet .PIN_PERST_POLICY then s.invokeReset .context 3 else s.invokeReset .warm 3)

/-- PERST_N rises: the endpoint is released. -/
def execPerstNRelease (s : State) : Host.Outcome State Fault Refusal :=
  done { s with host := { s.host with inReset := false } }

/-- A write to PIN_RESET_CMD. -/
def State.resetCommand (s : State) (level : Nat) (cause : Nat) : State :=
  if s.isSet .BRK_BRAKED then s
  else if level = 1 then s.invokeReset .cold cause
  else if level = 2 then s.invokeReset .warm cause
  else if level = 3 then s.invokeReset .context cause
  else s

def execPinResetCold (s : State) : Host.Outcome State Fault Refusal := done (s.resetCommand 1 4)
def execPinResetWarm (s : State) : Host.Outcome State Fault Refusal := done (s.resetCommand 2 4)
def execPinResetContext (s : State) : Host.Outcome State Fault Refusal := done (s.resetCommand 3 4)

/-- The tick after a lifecycle transition the tile takes a warm reset (R695). -/
def execLcReset (s : State) : Host.Outcome State Fault Refusal :=
  done (match s.sec.resetDue with
    | some t => if s.time.bnd ≤ t then s else s.invokeReset .warm 6
    | none => s)

end Sys2Proof.Machine
end

