-- ==== Sys2Proof/Machine/RegRead.lean ====
section
/-!
DEFINITION. What a read of a register returns (R22–R30, R158): fields that hold a value, and fields that show other
parts of the state.
-/
namespace Sys2Proof.Machine

/-- The code of a slot's state (R136). -/
def State.slotCode (s : State) (core slot : Nat) : Nat :=
  match s.hand core slot with
  | none => 0
  | some h => match h.st with
    | .ready => 1
    | .waiting _ => 2
    | .sleeping => 3
    | .faulted => 4
    | .debug => 5
    | .releasing => 6

/-- Free blocks or pages of a core: of `n`, those not listed. -/
def freeBlocks (n : Nat) (m : NMap BlkSt) : Nat := n - m.length

/-- The seconds left to a token (R710). -/
def State.remain (s : State) (t : Option Token) : Nat :=
  match t with
  | none => 0
  | some t =>
    if t.secs = 0 then 0xFFFFFFFF else (t.since + t.secs * secondTicks - s.time.bnd + secondTicks - 1) / secondTicks

/-- CPR_STATE (R606). -/
def State.cpState (s : State) : Nat :=
  if !s.active then 4 else
  match s.cp.cur with
  | none => 0
  | some c =>
    if ((NMap.find? s.cp.lists c.list).map fun r => r.desc.isNone).getD false then 3
    else if c.wait.isSome || !c.hold.isEmpty then 2 else 1

/-- The frames of the current list. -/
def State.cpFrames (s : State) : List Frame := (s.cp.cur.map (·.frames)).getD []

/-- Fields that show other parts of the state than a stored value. -/
def State.shown (s : State) (f : Field) (inst n : Nat) : Option Nat :=
  let half (v : Nat) (hi : Bool) : Nat := if hi then v / 2 ^ 32 % 2 ^ 32 else v % 2 ^ 32
  let co := s.core inst
  let rol := (s.cpl inst).rol
  match f with
  | .TIK_TIME_LO => some (half s.time.now false)
  | .TIK_TIME_HI => some (half s.time.now true)
  | .COR_SLOT_STATE => some (s.slotCode inst n)
  | .COR_VREG_FREE => some (freeBlocks 64 co.vb)
  | .COR_OSB_FREE => some (freeBlocks 16 co.ob)
  | .COR_ACC_FREE => some (freeBlocks 16 co.ab)
  | .COR_SLOTS_FREE => some (16 - co.slots.length)
  | .COR_ROT_PTR => some co.rot
  | .DBG_SLOT_STATE => some (s.slotCode (s.reg .DBG_CORE) (s.reg .DBG_SLOT))
  | .DBG_LEVEL => some s.level
  | .CLU_TAGS_FREE => some (2048 - (s.clu inst).reqs.length)
  | .CLU_TAGS_QUAR => some ((s.clu inst).reqs.filter fun r => r.2.quar).length
  | .MEM_DIR_USED => some (s.home inst).dir.length
  | .MEM_INBOUND_FREE => some (8192 - (s.home inst).inbound.length - ((s.home inst).txns.filter fun t => t.goal == .request).length)
  | .MEM_RECLAIM_BUSY => some (bit ((s.home inst).walks != 0))
  | .MEM_DEAD_COUNT => some s.dead.length
  | .CPR_STATE => some s.cpState
  | .CPR_DEPTH => some s.cpFrames.length
  | .CPR_LOOPS => some ((s.cpFrames.head?.map fun x => x.loops.length).getD 0)
  | .CPR_TASKS_ACTIVE => some s.tasks.length
  | .CPR_TAGS_FREE => some (1024 - (s.posted.filter fun p => p.2.unit == 64).length)
  | .CPR_WATCH_STATE => some ((s.watcher n).kind + 4 * bit (s.watcher n).armed)
  | .CPR_WATCH_FIRE_LO => some (half (s.watcher n).fires false)
  | .CPR_WATCH_FIRE_HI => some (half (s.watcher n).fires true)
  | .KIT_FREE => some (8192 - s.cp.kitty.length)
  | .KIT_READY => some (s.cp.kitty.filter fun k => match k with
      | .ready _ => true
      | _ => false).length
  | .KIT_RESERVED => some (s.cp.kitty.filter fun k => match k with
      | .ready _ => false
      | _ => true).length
  | .CTX_EFF_POLL_NS => some s.effPollNs
  | .HIF_HOST_REQ_OUT => some s.host.reqs.length
  | .CPL_TX_SEQ => some rol.txSeq
  | .CPL_RX_SEQ => some rol.rxSeq
  | .CPL_REPLAY_FAIL_RUN => some rol.failRun
  | .CPL_CREDIT_AVAIL => some (NMap.get 0 rol.credit n)
  | .CPL_TAGS_FREE => some (NMap.get 0 rol.credit 7)
  | .CDC_HOLD => some (s.slotHold n)
  | .CDC_HIST_LO => some (half (NMap.get 0 s.codec.hist (s.reg .CDC_SLOT_SEL * 272 + n)) false)
  | .CDC_HIST_HI => some (half (NMap.get 0 s.codec.hist (s.reg .CDC_SLOT_SEL * 272 + n)) true)
  | .CDC_SLOT_IMG => some (field (s.slotImg (n / 64)) (4 * (n % 64)) 4)
  | .PWR_TILE_STATE => some s.tileState
  | .CRG_F_LIMIT => some (s.binding inst)
  | .CRG_VFLOOR_V => some (s.reg .CRG_VFLOOR_V inst)
  | .SEC_LC_STATE => some s.lifecycle
  | .SEC_LC_TOGGLES => some s.sec.fuses.toggles
  | .SEC_LEVEL => some s.level
  | .SEC_LEVEL_FREE => some s.freeLevel
  | .SEC_LEVEL_OWNER => some (tokenLevel s.sec.owner)
  | .SEC_LEVEL_VENDOR => some (tokenLevel s.sec.vendor)
  | .SEC_OWNER_REMAIN_S => some (s.remain s.sec.owner)
  | .SEC_VENDOR_REMAIN_S => some (s.remain s.sec.vendor)
  | .SEC_OWNER_SLOT => some s.sec.fuses.owners.length
  | .SEC_SVN => some s.sec.fuses.svn
  | .SEC_ID_PUBKEY => some (field s.idKey (4 * n) 4)
  | .PIN_IN => some s.pin.cap
  | _ => none

/-- What a read of an entry of a field returns (R26). -/
def State.readField (s : State) (f : Field) (inst n : Nat) : Nat :=
  match s.shown f inst n with
  | some v => v
  | none => if f.spec.access = .wo then 0 else s.regS f inst n

/-- The instance under which a field of a block's instance is kept: breakpoints and watchpoints belong to the core that
DBG_CORE selects (R263). -/
def State.instOf (s : State) (f : Field) (inst : Nat) : Nat :=
  if f.spec.block = .DBG ∧ f.spec.shadowed then s.reg .DBG_CORE else inst

/-- The entries of a block that stand at a word's offset: each field with its index and its place (R23). -/
def Block.at' (b : Block) (off : Nat) : List (Field × Nat × Nat × Nat) :=
  b.fields.flatMap fun f =>
    let sp := f.spec
    if f = .COR_SLOT_STATE then
      if off = 0 ∨ off = 4 then (List.range 8).map fun i => (f, 2 * off + i, 4 * i + 3, 4 * i) else []
    else if off < sp.off then []
    else if sp.count ≤ 1 then (if off = sp.off then [(f, 0, sp.hi, sp.lo)] else [])
    else if (off - sp.off) % sp.stride = 0 ∧ (off - sp.off) / sp.stride < sp.count then
      [(f, (off - sp.off) / sp.stride, sp.hi, sp.lo)]
    else []

/-- The offset in the HOST_IF block of the MSI-X table and of the pending-bit array (R527). -/
def msixBase : Nat := 0x1000
def pbaBase : Nat := 0x2000

/-- The offset in the ROUTE_TABLE block at which the entries of the two generations begin (R522). -/
def rteBase : Nat := 0x100000

/-- A word of the MSI-X table: address, data, vector control. -/
def State.msixWord (s : State) (vec word : Nat) : Nat :=
  let e := NMap.get (0, 0, true) s.host.msixTable vec
  match word with
  | 0 => e.1 % 2 ^ 32
  | 1 => e.1 / 2 ^ 32
  | 2 => e.2.1
  | _ => bit e.2.2

/-- Whether a cluster's domain has a clock: it is not fused off, retired, dark or header-gated (R97). -/
def State.hasClock (s : State) (c : Nat) : Bool := s.reg .CRG_GATE_STATE c == 1 || s.reg .CRG_GATE_STATE c == 2

/-- Whether a word belongs to the dead-agent table's registers in a block that does not have them: it reads zero and
ignores writes (R349). -/
def noDeadRegs (b : Block) (inst off : Nat) : Bool := b == .MEM && inst != 0 && decide (0x480 ≤ off ∧ off < 0x490)

/-- A word of a register block, as a read returns it; reserved offsets and bits read as zero. -/
def State.readWord (s : State) (b : Block) (inst off : Nat) : Nat :=
  if b = .COR ∧ !s.hasClock (clusterOf inst) ∨ noDeadRegs b inst off then 0
  else if b = .HIF ∧ msixBase ≤ off ∧ off < msixBase + 256 then s.msixWord ((off - msixBase) / 16) (off / 4 % 4)
  else if b = .HIF ∧ off = pbaBase then (s.host.msixPending.map fun v => 2 ^ v).sum
  else if b = .RTE ∧ rteBase ≤ off then
    let o := off - rteBase
    NMap.get 0 s.rte.ent (o / 16) / 2 ^ (32 * (o / 4 % 4)) % 2 ^ 32
  else ((b.at' off).map fun x =>
    (s.readField x.1 (s.instOf x.1 inst) x.2.1 % 2 ^ (x.2.2.1 + 1 - x.2.2.2)) * 2 ^ x.2.2.2).sum

/-- A word of BAR0 as it is read while the tile is braked: the BRK block works, and every other register gives all ones
(R271). -/
def State.barWord (s : State) (b : Block) (inst off : Nat) : Nat :=
  if s.isSet .BRK_BRAKED ∧ b ≠ .BRK then 0xFFFFFFFF else s.readWord b inst off

end Sys2Proof.Machine
end

