-- ==== Sys2Proof/Machine/Deck.lean ====
section
/-!
DEFINITION. The Deck (chapter 2): its bytes, its updates, and when it becomes ready.
-/
namespace Sys2Proof.Machine

/-- TYPE, INSTANCE, PARENT and the register block of an entry, in the order of R76. -/
def deckUnit (e : Nat) : Nat × Nat × Nat × Option Block :=
  if e = 0 then (1, 0, 0xFFFF, some .TILE)
  else if e ≤ 64 then (2, e - 1, 0, some .CLU)
  else if e ≤ 320 then (3, e - 65, 1 + (e - 65) / 4, some .COR)
  else if e ≤ 328 then (4, e - 321, 0, some .MEM)
  else if e ≤ 336 then (5, e - 329, 321 + (e - 329), none)
  else if e ≤ 344 then (6, e - 337, 0, some .BANK)
  else if e ≤ 408 then (7, e - 345, 337 + (e - 345) / 8, some .CPL)
  else if e ≤ 416 then (8 + (e - 409), 0, 0, ([.RTE, .HIF, .CTX, .CPR, .KIT, .FEN, .CDC, .PWR] : List Block)[e - 409]?)
  else if e ≤ 480 then (0x10, e - 417, 1 + (e - 417), some .CRG)
  else (0x11 + (e - 481), 0, 0, ([.TLM, .SEC, .MGC, .PIN, .TIK, .BRK, .DBG, .DECK] : List Block)[e - 481]?)

/-- The number of entries. -/
def deckCount : Nat := 489

/-- A router, as ATTACH gives it. -/
def router (row col : Nat) : Nat := 128 + 8 * row + col

/-- ATTACH_A and ATTACH_B of an entry (R70), at the routers of R35. -/
def deckAttach (e : Nat) : Nat × Nat :=
  let (ty, inst, _) := deckUnit e
  let cluster (c : Nat) : Nat × Nat := (router (c / 8) (c % 8), 0)
  match ty with
  | 2 => cluster inst
  | 3 => cluster (inst / 4)
  | 4 | 5 => (router (2 * (inst % 4)) (7 * (inst / 4)), router (2 * (inst % 4) + 1) (7 * (inst / 4)))
  | 6 => (router (7 * (inst / 4)) (2 * (inst % 4)), router (7 * (inst / 4)) (2 * (inst % 4) + 1))
  | 7 => let b := inst / 8
    (router (7 * (b / 4)) (2 * (b % 4)), router (7 * (b / 4)) (2 * (b % 4) + 1))
  | 9 | 10 | 11 | 12 | 0x13 => (router 0 0, 0)
  | _ => (0, 0)

/-- Words in the capability block of a type (R79). -/
def capCount (ty : Nat) : Nat :=
  match ty with
  | 1 => 8
  | 2 => 7
  | 3 => 9
  | 4 => 7
  | 6 => 2
  | 7 => 6
  | 8 => 2
  | 9 => 4
  | 10 => 4
  | 11 => 2
  | 12 => 2
  | 13 => 1
  | 14 => 4
  | 15 => 6
  | 0x10 => 6
  | 0x14 => 2
  | _ => 0

/-- Bytes of the capability block of an entry, with what aligns the next one to 8 bytes. -/
def capLen (e : Nat) : Nat :=
  let n := capCount (deckUnit e).1
  if n = 0 then 0 else (8 + 4 * n + 7) / 8 * 8

/-- The Deck offset of an entry's capability block: the blocks follow the entry list in entry order. -/
def capPtr (e : Nat) : Nat := 64 + 32 * deckCount + ((List.range e).map capLen).sum

/-- TOTAL_LEN: to the end of the last capability block, that of the PINS entry. -/
def deckLen : Nat := capPtr 484 + 8 + 4 * capCount 0x14

/-- The words of an entry's capability block as they now stand (R79). -/
def State.capWords (s : State) (e : Nat) : List Nat :=
  let (ty, i, _) := deckUnit e
  let valid (v : Option Nat) : Nat := match v with
    | some v => v + 2 ^ 31
    | none => 0
  let fused := s.deck.units.any fun (u : Nat × UnitSt) => u.2.fused.isSome
  match ty with
  | 1 => [if fused then 60 else 64, 0xB0, s.usableClusters.length, valid s.tileId, 88, s.reg .MGC_FW_VERSION,
      Config.serial % 2 ^ 32, Config.serial / 2 ^ 32 % 2 ^ 32]
  | 2 => [4, 2097152, 16, 600, s.reg .CRG_F_MAX_MHZ i, 2048, deckIndex .CRG i]
  | 3 => [16, 1024, 131072, 131072, 65536, 65536, 8, 4, 0x3F]
  | 4 => [32, s.reg .MEM_CH_RETIRE_MASK i, if s.isSet .MEM_RATE_FALLBACK i then 6400 else 8000, 2097152, 8192,
      Config.spareRows i - (NMap.get [] s.mem.spared i).length, 329 + i]
  | 6 => [8, 1328125]
  | 7 =>
    let nb := s.reg .CPL_NEIGH i
    [s.reg .CPL_LANES_GOOD i, s.reg .CPL_WIDTH i, s.reg .CPL_LINK_STATE i,
     if nb.testBit 31 then 2 ^ 31 + nb % 65536 else 0, nb / 65536 % 64, 2048]
  | 8 => [65536, 2]
  | 9 => [s.host.linkGts, s.host.linkWidth, 16, 39]
  | 10 => [1, 1, 256, 65536]
  | 11 => [8, 16]
  | 12 => [8192, 64]
  | 13 => [4096]
  | 14 => [256, 256, 3, 0xF]
  | 15 => [0x1F, 50, 4000, 40000, 400000, 1100]
  | 0x10 => [8, s.reg .CRG_PHASE_GOOD i, s.reg .CRG_CAP_MA i, 550000, 950000, 2500]
  | 0x14 => [16, 0x58 + s.reg .PIN_STRAP_ADDR]
  | _ => []

/-- The cause for which an entry is DEGRADED, if it is (R75). -/
def State.degraded (s : State) (e : Nat) : Option Nat :=
  let (ty, i, _) := deckUnit e
  match ty with
  | 4 => if s.reg .MEM_CH_RETIRE_MASK i = 0 then none else some 0x12
  | 7 =>
    if s.reg .CPL_LANES_RETIRED i ≠ 0 then some 0x13
    else if s.reg .CPL_LINK_STATE i = 5 then some 0x11 else none
  | _ => (s.unitSt e).degraded

/-- What the Deck should show of an entry now (R71, R75). -/
def State.deckEnt (s : State) (e : Nat) : DeckEnt :=
  let u := s.unitSt e
  let d := s.degraded e
  { status := 1 + 2 * bit u.retired.isSome + 4 * bit d.isSome + 8 * bit u.fused.isSome,
    cause := match u.fused, u.retired with
      | some c, _ => c
      | none, some c => c
      | none, none => d.getD 0,
    words := s.capWords e }

/-- The entries that a new Deck shows. -/
def State.deckNow (s : State) : NMap DeckEnt := (List.range deckCount).map fun e => (e, s.deckEnt e)

/-- The bytes of an entry. -/
def entryBytes (e : Nat) (x : DeckEnt) : List Byte :=
  let (ty, inst, parent, _) := deckUnit e
  let hbm := ty == 5
  leBytes 2 ty ++ leBytes 2 inst ++ leBytes 1 0 ++ leBytes 1 1 ++ leBytes 2 x.status
    ++ leBytes 8 (if hbm then inst * stackBytes else Config.deckBase e) ++ leBytes 4 (if hbm then 48 else Config.deckSize e)
    ++ leBytes 4 (if capLen e = 0 then 0 else capPtr e) ++ leBytes 2 parent ++ leBytes 1 x.cause
    ++ leBytes 1 (if hbm then 30 else 0) ++ leBytes 1 (deckAttach e).1 ++ leBytes 1 (deckAttach e).2 ++ leBytes 2 0

/-- The bytes of a capability block. -/
def capBytes (e : Nat) (x : DeckEnt) : List Byte :=
  let n := capLen e
  if n = 0 then [] else
  let len := 8 + 4 * capCount (deckUnit e).1
  padTo n (leBytes 2 (deckUnit e).1 ++ leBytes 2 len ++ leBytes 4 0 ++ x.words.flatMap (leBytes 4))

/-- The Deck's bytes from offset 0 to TOTAL_LEN − 1 (R63, R64), with a CRC32 and a STATE. -/
def deckWith (gen crc st : Nat) (l : NMap DeckEnt) : List Byte :=
  let entries : List Byte := l.flatMap fun (x : Nat × DeckEnt) => entryBytes x.1 x.2
  let blocks : List Byte := l.flatMap fun (x : Nat × DeckEnt) => capBytes x.1 x.2
  ([0x42, 0x44, 0x43, 0x4B] ++ leBytes 2 0 ++ leBytes 2 1 ++ leBytes 2 64 ++ leBytes 2 32 ++ leBytes 4 deckCount
    ++ leBytes 4 deckLen ++ leBytes 4 0 ++ leBytes 8 gen ++ leBytes 4 crc ++ leBytes 4 st ++ List.replicate 24 0
    ++ entries ++ blocks).take deckLen

/-- GENERATION (R63). -/
def State.deckGen (s : State) : Nat := s.reg64 .DECK_GEN_LO .DECK_GEN_HI

/-- The Deck as it reads; nothing but zeros until it is ready (R60, R62). -/
def State.deckBytes (s : State) : List Byte :=
  if !s.isSet .DECK_READY then [] else
  deckWith s.deckGen s.deck.crc (1 + 2 * s.reg .DECK_UPDATING) s.deck.shown

/-- Bytes of the Deck area (R60). -/
def State.deckRead (s : State) (off n : Nat) : List Byte := padTo n ((s.deckBytes.drop off).take n)

/-- Steps 3 to 5 of an update, with the given generation: CRC32 is taken with bytes 0x20–0x27 as zero (R66). -/
def State.sealDeck (s : State) (gen : Nat) : State :=
  let s := s.setReg64 .DECK_GEN_LO .DECK_GEN_HI gen
  let s : State := { s with deck := { s.deck with crc := crc32 (deckWith gen 0 0 s.deck.shown) } }
  s.setReg .DECK_UPDATING 0

/-- An update begins: UPDATING is set and the changed fields are written. -/
def State.beginUpdate (s : State) : State :=
  { s.setReg .DECK_UPDATING 1 with deck := { s.deck with shown := s.deckNow } }

/-- An update ends, with its event (R81, R84). -/
def State.finishUpdate (s : State) : State :=
  let s := s.sealDeck (s.deckGen + 1)
  if s.isSet .DECK_CHG_EVT_EN then
    s.postEvent (deckIndex .DECK 0) (payload [(0, leBytes 1 0x40), (8, leBytes 8 s.time.now), (0x10, leBytes 8 s.deckGen)])
  else s

/-- An update of the Deck: it begins when something that the Deck shows has changed, and its last steps follow within
100 µs.  A restart of the MGC puts it off (R706). -/
def execDeckUpdate (finish : Bool) (s : State) : Host.Outcome State Fault Refusal :=
  done (if s.stopped 2 || !s.isSet .DECK_READY || s.isSet .MGC_RESTARTING then s
    else if s.isSet .DECK_UPDATING then (if finish then s.finishUpdate else s)
    else if !finish && s.deck.shown != s.deckNow then s.beginUpdate
    else s)

/-- The Deck becomes ready, with GENERATION 1, once every usable cluster and every controller is (R83, R726); the service
thresholds are then driven from the record (R669). -/
def execDeckReady (s : State) : Host.Outcome State Fault Refusal :=
  let up (c : Nat) : Bool := let g := s.reg .CRG_GATE_STATE c
    g != 0 && g != 4
  done (if s.stopped 2 || !s.booted || s.isSet .DECK_READY || s.isSet .MGC_RESTARTING || !s.usableClusters.all up
      || !((List.range 8).all fun k => s.isSet .MEM_INIT_DONE k) then s
    else
      let s : State := { s with deck := { s.deck with shown := s.deckNow } }
      ((s.sealDeck 1).setReg .DECK_READY 1).serviceEval)

/-- The restart of the MGC ends: the new firmware runs, and a Deck update carries its version (R706).  In recovery the
ROM boots as after a reset (R689). -/
def execMgcRestartDone (s : State) : Host.Outcome State Fault Refusal :=
  done (if s.stopped 2 || !s.isSet .MGC_RESTARTING then s else
    let s := s.setReg .MGC_RESTARTING 0
    let s : State := { s with sec := { s.sec with staging := List.replicate 128 0, staged := 0 } }
    if s.sec.recovery then
      let s := s.romBoot false
      if s.sec.recovery then s else s.applyBoard
    else
      let s := s.runSlot (s.sec.trial.getD (s.reg .MGC_FW_SLOT)) false
      if s.isSet .DECK_READY && !s.isSet .DECK_UPDATING then s.beginUpdate.finishUpdate else s)

end Sys2Proof.Machine
end

