-- ==== Sys2Proof/Machine/Image.lean ====
section
/-!
DEFINITION. The image of a braked tile (R273–R279, R350, R523) and the rows that lay it out and read it.
-/
namespace Sys2Proof.Machine

/-! ### Pieces -/

/-- A run of bytes, given byte by byte. -/
structure ImgRun where
  len : Nat
  byte : Nat → Byte

def imgLen (l : List ImgRun) : Nat := (l.map (·.len)).sum

/-- A byte of runs laid end to end; zero beyond them. -/
def imgByte : List ImgRun → Nat → Byte
  | [], _ => 0
  | r :: t, i => if i < r.len then r.byte i else imgByte t (i - r.len)

def imgRun (bs : List Byte) : ImgRun := ⟨bs.length, fun i => bs.getD i 0⟩

/-- An array record: its header and its elements (R278). -/
def arrayRuns (id elem count : Nat) (f : Nat → Nat → Byte) : List ImgRun :=
  [imgRun (leBytes 2 id ++ leBytes 2 elem ++ leBytes 4 0 ++ leBytes 8 count), ⟨count * elem, fun i => f (i / elem) (i % elem)⟩]

/-- An array whose elements are lists of bytes; `none` is an element that holds nothing, of which the spec gives only the
bytes `mark`. -/
def arrayOf (e id elem count : Nat) (mark : List (Nat × Byte)) (f : Nat → Option (List Byte)) : List ImgRun :=
  arrayRuns id elem count fun n b => match f n with
    | some bs => bs.getD b 0
    | none => ((mark.find? (fun (m : Nat × Byte) => m.1 == b)).map (·.2)).getD (Config.imageStale e id n b)

/-! ### Elements -/

/-- A cached line: L, state, presence and flags, data (R350). -/
def lineBytes (x : CLine) (st : Nat) : List Byte :=
  leBytes 8 x.line ++ leBytes 1 st ++ leBytes 1 x.pres ++ leBytes 1 (bit x.hold + 2 * bit x.pfUnused)
    ++ leBytes 5 0 ++ padTo 128 x.data.bytes

/-- The code of a line's state (R350). -/
def CState.code : CState → Nat
  | .s => 1
  | .e => 2
  | .m => 3
  | .o => 4
  | .v => 5

/-- The pointer to an agent (R350); the number that stands for a requester which is no cluster is not given. -/
def pointer (a : Agent) : Nat :=
  (match a.tile with
    | none => 2 ^ 22
    | some t => t % 65536 * 64) + 2 ^ 31
    + (if a.unit < 64 then a.unit else (Config.imageStale 0 0 a.unit 0).toNat % 64)

/-- The code of a directory state (R327). -/
def DirSt.code : DirSt → Nat
  | .shared => 1
  | .excl => 2
  | .owned => 3

/-- A directory entry (R350). -/
def dirBytes (e : DirEntry) (busy : Bool) : List Byte :=
  leBytes 1 (e.st.code + 8 * bit e.coarse + 16 * bit busy + 32 * e.ptrs.length) ++ leBytes 3 0 ++ leBytes 4 e.ls
    ++ (if e.coarse then leBytes 8 e.cvec ++ leBytes 8 e.gvec else padTo 16 (e.ptrs.flatMap fun a => leBytes 4 (pointer a)))
    ++ leBytes 4 ((e.owner.map pointer).getD 0) ++ leBytes 4 0

/-- The code of a request, in the order of R322; a Staged request has none there. -/
def reqCode (k : MsgKind) : Nat :=
  match k with
  | .rdS => 1
  | .rdX _ => 2
  | .wb => 3
  | .ce => 4
  | .ncRd => 5
  | .ncWr => 6
  | .ncAtom => 7
  | .stRd => (Config.imageStale 0 0 0 1).toNat
  | .stWr => (Config.imageStale 0 0 0 2).toNat
  | _ => (Config.imageStale 0 0 0 3).toNat

/-- An inbound entry: 1 waiting, 2 active (R350). -/
def inboundBytes (m : Msg) (phase : Nat) : List Byte :=
  leBytes 8 m.line ++ leBytes 1 (reqCode m.kind) ++ leBytes 1 phase ++ leBytes 2 0 ++ leBytes 4 (pointer m.agent)
    ++ leBytes 4 m.tag ++ leBytes 4 0 ++ leBytes 8 m.arrived

/-- A slot (R278). -/
def slotBytesOf (s : State) (core slot : Nat) (h : Hand) : List Byte :=
  ((List.range 64).flatMap fun i => leBytes 8 (h.u i).toNat) ++ ((List.range 8).flatMap fun i => leBytes 8 (h.p i).toNat)
    ++ leBytes 8 h.pc.toNat ++ leBytes 8 h.live.toNat ++ leBytes 8 h.sleepEnd ++ leBytes 1 (s.slotCode core slot)
    ++ leBytes 1 h.flags.toNat ++ leBytes 1 (h.vregs / 16) ++ leBytes 1 h.osbPages.length ++ leBytes 1 h.accPages.length
    ++ leBytes 3 0 ++ padTo 16 (h.vblk.flatMap (leBytes 1)) ++ padTo 16 (h.osbPages.flatMap (leBytes 1))
    ++ padTo 16 (h.accPages.flatMap (leBytes 1)) ++ List.replicate 368 0

/-! ### Arrays of a unit -/

def State.coreArrays (s : State) (e c : Nat) : List ImgRun :=
  let co := s.core c
  let lines (id : Nat) (m : NMap CLine) : List ImgRun :=
    arrayOf e id 144 512 [(8, 0)] fun n => (NMap.find? m n).map fun x => lineBytes { x with pres := 0, hold := false, pfUnused := false } 1
  arrayOf e 1 1024 16 [(600, 0)] (fun n => (NMap.find? co.slots n).map fun h => slotBytesOf s c n h)
    ++ arrayRuns 2 256 1024 (fun n b => (leBytes 4 ((NMap.get [] co.vrf n).getD (b / 4) 0).toNat).getD (b % 4) 0)
    ++ arrayRuns 3 8192 16 (fun n b => NMap.get 0 co.osb (8192 * n + b))
    ++ arrayRuns 4 8192 16 (fun n b => (leBytes 4 (NMap.get (0 : Word) co.acc (2048 * n + b / 4)).toNat).getD (b % 4) 0)
    ++ lines 5 co.l1 ++ lines 6 co.ic

def State.clusterArrays (s : State) (e c : Nat) : List ImgRun :=
  let cl := s.clu c
  arrayOf e 1 144 16384 [(8, 0)] (fun n => (NMap.find? cl.cc n).map fun x => lineBytes x x.st.code)
    ++ arrayOf e 2 144 32 [(8, 0)] (fun n => (cl.wbuf[n]?).map fun x => lineBytes x x.st.code)

def State.memctlArrays (s : State) (e k : Nat) : List ImgRun :=
  let hs := s.home k
  let active := hs.txns.filter fun t => t.goal == .request
  arrayOf e 1 32 2097152 [(0, 0)] (fun n => (NMap.find? hs.dir n).map fun x => dirBytes x (hs.isPending x.ls))
    ++ arrayOf e 2 32 8192 [(9, 0)] (fun n => match active[n]? with
      | some t => some (inboundBytes t.req 2)
      | none => (hs.inbound[n - active.length]?).map fun m => inboundBytes m 1)

/-- A byte of a stack after correction, and whether its granule is poisoned, lost or uncorrectable (R278). -/
def State.stackByte (s : State) (e o : Nat) : Byte :=
  match decodeGran s.mem (o / 32) with
  | some r => if r.st = .good then r.bytes.getD (o % 32) 0 else 0
  | none => Config.imageStale e 1 (o / 48) (o % 48)

def State.granBad (s : State) (g : Nat) : Bool := ((decodeGran s.mem g).map fun r => r.st != .good).getD true

def State.stackArrays (s : State) (e k : Nat) : List ImgRun :=
  arrayRuns 1 48 (2 ^ 30) (fun n b => s.stackByte e (k * stackBytes + 48 * n + b))
    ++ arrayRuns 2 1 (stackBytes / 256) (fun n _ =>
      BitVec.ofNat 8 ((List.range 8).map fun i => bit (s.granBad (k * stackBytes / 32 + 8 * n + i)) * 2 ^ i).sum)

/-- The kitty's records, in the order of the queue. -/
def State.kittyArrays (s : State) (e : Nat) : List ImgRun :=
  arrayOf e 1 64 8192 [] (fun n => match s.cp.kitty[n]? with
      | some (.ready (some r)) => some r
      | _ => none)
    ++ arrayRuns 2 1 1024 (fun n _ => BitVec.ofNat 8 ((List.range 8).map fun i => bit (decide (8 * n + i < s.cp.kitty.length)) * 2 ^ i).sum)

def State.routeArrays (s : State) : List ImgRun :=
  let gen (id g : Nat) : List ImgRun := arrayRuns id 16 65536 (fun n b => (leBytes 16 (NMap.get 0 s.rte.ent (g * 65536 + n))).getD b 0)
  gen 1 0 ++ gen 2 1

/-- The brake record (R279). -/
def State.brakeRecord (s : State) : List Byte :=
  padTo 128 (leBytes 8 (s.reg64 .BRK_TIME_LO .BRK_TIME_HI) ++ leBytes 1 (s.reg .BRK_SOURCES) ++ leBytes 1 (s.reg .BRK_RX_COUPLER)
    ++ leBytes 2 0 ++ leBytes 4 s.brk.heldCount ++ ((List.range 7).flatMap fun r => leBytes 8 (NMap.get 0 s.brk.rows r)))

/-- The held events in the journal layout: neither applied nor moot. -/
def State.brakeArrays (s : State) (e : Nat) : List ImgRun :=
  let ev (n : Nat) : Option (List Byte) := (s.brk.held[n]?).map fun x =>
    journalBytes (s.brk.heldTimes.getD n 0) x.cls 0 (journalSrc x.cls x.src) (journalData x.act)
  arrayOf e 1 128 1 [] (fun _ => some s.brakeRecord) ++ arrayOf e 2 16 s.brk.held.length [] ev

/-- The array records of an entry (R278). -/
def State.arrays (s : State) (e : Nat) (mem : Bool) : List ImgRun :=
  let (ty, i, _) := deckUnit e
  match ty with
  | 2 => s.clusterArrays e i
  | 3 => s.coreArrays e i
  | 4 => s.memctlArrays e i
  | 5 => if mem then s.stackArrays e i else []
  | 8 => s.routeArrays
  | 12 => s.kittyArrays e
  | 0x16 => s.brakeArrays e
  | 0x18 => arrayOf e 1 deckLen 1 [] fun _ => some (s.deckRead 0 deckLen)
  | _ => []

/-! ### Sections -/

/-- A unit has no clock: a cluster and its cores (R97), or a coupler bank without its PLL (R473). -/
def State.unclockedUnit (s : State) (e : Nat) : Bool :=
  let (ty, i, _) := deckUnit e
  match ty with
  | 2 => !s.hasClock i
  | 3 => !s.hasClock (clusterOf i)
  | 6 => !s.isSet .BANK_PLL_LOCK i
  | 7 => !s.isSet .BANK_PLL_LOCK (i / 8)
  | _ => false

/-- The register block of a unit, word by word; of the BRK block only what lies below the window. -/
def State.blockRun (s : State) (e : Nat) : List ImgRun :=
  match deckUnit e with
  | (_, inst, _, some b) =>
    let n := Config.deckSize e / 4 * 4
    [⟨if b = .BRK then min n 0x100000 else n, fun i => (leBytes 4 (s.readWord b inst (i / 4 * 4))).getD (i % 4) 0⟩]
  | _ => []

/-- The body of an entry's section: empty for a unit that is fused off or retired. -/
def State.body (s : State) (e : Nat) (mem : Bool) : List ImgRun :=
  if !s.usable e then []
  else if s.unclockedUnit e then s.blockRun e
  else s.blockRun e ++ s.arrays e mem

/-- STATUS of an entry as the Deck shows it. -/
def State.deckStatus (s : State) (e : Nat) : Nat :=
  if s.isSet .DECK_READY then ((NMap.find? s.deck.shown e).map (·.status)).getD 0 else 0

/-- A section: its header, its body, and what brings the next one to a multiple of 8 (R277). -/
def State.sectionRuns (s : State) (mem : Bool) (e : Nat) : List ImgRun :=
  let (ty, inst, _) := deckUnit e
  let b := s.body e mem
  let n := imgLen b
  let crc := crc32 ((List.range n).map (imgByte b))
  let head : List Byte := leBytes 4 e ++ leBytes 2 ty ++ leBytes 2 inst ++ leBytes 2 (s.deckStatus e)
    ++ leBytes 2 (bit (!s.usable e) + 2 * bit (s.unclockedUnit e)) ++ leBytes 4 crc ++ leBytes 8 n ++ leBytes 8 0
  imgRun head :: b ++ (if e + 1 = deckCount then [] else [⟨(8 - n % 8) % 8, fun _ => 0⟩])

/-- The length of a section without its contents. -/
def State.sectionLen (s : State) (mem : Bool) (e : Nat) : Nat :=
  let n := imgLen (s.body e mem)
  32 + n + if e + 1 = deckCount then 0 else (8 - n % 8) % 8

/-- The length of the image for a setting of BRK_RO_MEM. -/
def State.imageLen (s : State) (mem : Bool) : Nat := 64 + ((List.range deckCount).map (s.sectionLen mem)).sum

/-- The header (R276). -/
def State.imageHeader (s : State) (mem : Bool) : List Byte :=
  let id := match s.tileId with
    | some t => t + 2 ^ 31
    | none => 0
  let h := [0x42, 0x49, 0x4D, 0x47] ++ leBytes 2 1 ++ leBytes 2 0 ++ leBytes 2 64 ++ leBytes 2 32 ++ leBytes 4 deckCount
    ++ leBytes 8 (s.imageLen mem) ++ leBytes 8 (s.reg64 .BRK_TIME_LO .BRK_TIME_HI) ++ leBytes 4 id
    ++ leBytes 4 (bit mem + 2 * s.reg .DECK_UPDATING) ++ leBytes 8 s.deckGen
  h ++ leBytes 4 (crc32 h) ++ leBytes 12 0

/-- A byte of the image in a layout. -/
def State.imageByte (s : State) (mem : Bool) (i : Nat) : Byte :=
  imgByte (imgRun (s.imageHeader mem) :: (List.range deckCount).flatMap (s.sectionRuns mem)) i

/-! ### Read-out (R273–R275) -/

/-- `n` bytes of the image as the window and the test port give them: zeros unless the tile is braked, the read-out is
allowed and the layout is fixed, and zeros beyond the image. -/
def State.readOut (s : State) (i n : Nat) : List Byte :=
  match s.brk.layout with
  | some mem =>
    if s.isSet .BRK_BRAKED && s.isSet .BRK_RO_AUTH then
      (List.range n).map fun j => if i + j < s.reg64 .BRK_RO_LEN_LO .BRK_RO_LEN_HI then s.imageByte mem (i + j) else 0
    else List.replicate n 0
  | none => List.replicate n 0

/-- Where the window of the BRK block begins (R280). -/
def windowBase : Nat := 0x100000

/-- An aligned word of BAR0 outside the Deck area, as a read of the host finds it (R271, R275). -/
def State.bar0Read (s : State) (b : Block) (inst off : Nat) : Nat :=
  if b = .BRK ∧ windowBase ≤ off ∧ off < 2 * windowBase then
    leNat (s.readOut (s.reg64 .BRK_RO_POS_LO .BRK_RO_POS_HI + (off - windowBase)) 4)
  else s.barWord b inst off

/-- BRK_RO_START fixes the layout for the setting of BRK_RO_MEM and sets BRK_RO_LEN; there is an image only while the tile
is braked. -/
def State.startReadOut (s : State) (mem : Bool) : State :=
  if !s.isSet .BRK_BRAKED then s else
  let s : State := { s with brk := { s.brk with layout := some mem } }
  s.setReg64 .BRK_RO_LEN_LO .BRK_RO_LEN_HI (s.imageLen mem)

def execBrkRoStart (s : State) : Host.Outcome State Fault Refusal := done (s.startReadOut (s.isSet .BRK_RO_MEM))

end Sys2Proof.Machine
end

