-- ==== Sys2Proof/Machine/Matrix.lean ====
section
/-!
DEFINITION. The matrix engine: operand pages and accumulator tiles, formats, the fixed order of summation, conversions,
the two queues, the notice gate, and the matrix instructions (R208–R237).
-/
namespace Sys2Proof.Machine

/-! ### Pages and tiles (R208–R211) -/

/-- A run of a sparse table's entries as a list; unlisted entries are `d`. -/
def fillFrom {α : Type} (d : α) : NMap α → Nat → Nat → List α
  | _, _, 0 => []
  | [], p, n + 1 => d :: fillFrom d [] (p + 1) n
  | (k, v) :: t, p, n + 1 => if k = p then v :: fillFrom d t (p + 1) n else d :: fillFrom d ((k, v) :: t) (p + 1) n

/-- Entries `base` to `base + n − 1` of a sparse table. -/
def NMap.run {α : Type} (d : α) (m : NMap α) (base n : Nat) : List α :=
  fillFrom d (m.filter fun x => decide (base ≤ x.1) && decide (x.1 < base + n)) base n

/-- Replaces a run of a sparse table's entries. -/
def NMap.setRun {α : Type} [DecidableEq α] (d : α) (m : NMap α) (base : Nat) (l : List α) : NMap α :=
  m.filter (fun x => decide (x.1 < base))
    ++ (l.zipIdx.filter fun x => decide (x.1 ≠ d)).map (fun x => (base + x.2, x.1))
    ++ m.filter (fun x => decide (base + l.length ≤ x.1))

def Hand.numPages (h : Hand) : Nat := h.osbPages.length
def Hand.numTiles (h : Hand) : Nat := h.accPages.length / 2

/-- The bytes of an OSB page of a hand. -/
def Core.page (co : Core) (h : Hand) (p : Nat) : List Byte := NMap.run 0 co.osb (8192 * h.osbPages.getD p 0) 8192

def Core.setPage (co : Core) (h : Hand) (p : Nat) (l : List Byte) : Core :=
  { co with osb := NMap.setRun 0 co.osb (8192 * h.osbPages.getD p 0) l }

/-- The 4,096 words of an accumulator tile, row by row. -/
def Core.tile (co : Core) (h : Hand) (t : Nat) : List Word :=
  NMap.run 0 co.acc (2048 * h.accPages.getD (2 * t) 0) 2048
    ++ NMap.run 0 co.acc (2048 * h.accPages.getD (2 * t + 1) 0) 2048

def Core.setTile (co : Core) (h : Hand) (t : Nat) (l : List Word) : Core :=
  let acc := NMap.setRun 0 co.acc (2048 * h.accPages.getD (2 * t) 0) (l.take 2048)
  { co with acc := NMap.setRun 0 acc (2048 * h.accPages.getD (2 * t + 1) 0) (l.drop 2048) }

/-- The page that holds a hand's scales, its highest (R210). -/
def Hand.scalePage (h : Hand) : Nat := h.numPages - 1

/-- The 512 bytes of a scale slot. -/
def Core.slotBytes (co : Core) (h : Hand) (p : Nat) : List Byte := ((co.page h h.scalePage).drop (512 * p)).take 512

def Core.setSlotBytes (co : Core) (h : Hand) (p : Nat) (l : List Byte) : Core :=
  co.setPage h h.scalePage (overlay (co.page h h.scalePage) (512 * p) l)

/-! ### Formats (R212) -/

/-- Bits per element of a format code. -/
def fmtBits : Nat → Nat
  | 0 => 16
  | 1 => 16
  | 5 => 4
  | _ => 8

/-- K of a format (R213): the elements of a vector. -/
def fmtK (f : Nat) : Nat := 1024 / fmtBits f

/-- Element `k` of vector `v` of a page. -/
def element (f : Nat) (page : Array Byte) (v k : Nat) : Nat :=
  let b (o : Nat) : Nat := (page.getD (128 * v + o) 0).toNat
  match fmtBits f with
  | 16 => b (2 * k) + 256 * b (2 * k + 1)
  | 8 => b k
  | _ => if k % 2 = 0 then b (k / 2) % 16 else b (k / 2) / 16

/-- A finite datum of a format whose greatest exponent is an ordinary one. -/
def Fmt.decodeFinite (f : Fmt) (bits : Nat) : FV :=
  let frac := bits % 2 ^ f.fbits
  let ex := bits / 2 ^ f.fbits % 2 ^ f.ebits
  let neg := bits / 2 ^ (f.fbits + f.ebits) % 2 == 1
  if ex = 0 then .num neg frac (1 - f.bias - f.fbits) else .num neg (2 ^ f.fbits + frac) (ex - f.bias - f.fbits)

/-- The value of an element of a floating-point format; NaNs of E4M3 and E5M2 are quiet. -/
def elementVal (f : Nat) (bits : Nat) : FV :=
  match f with
  | 0 => fmtBF16.decode bits
  | 1 => fmtF16.decode bits
  | 2 => if bits % 128 = 127 then .nan false else fmtE4M3.decodeFinite bits
  | 3 => match fmtE5M2.decode bits with
    | .nan _ => .nan false
    | x => x
  | _ => fmtE2M1.decodeFinite bits

/-- Whether `mma` accepts a pair of formats (R213). -/
def pairOk (a b : Nat) : Bool :=
  (decide (a = b) && decide (a ≤ 5)) || (decide (a = 2 ∨ a = 3) && decide (b = 2 ∨ b = 3))

/-! ### Summation (R223–R225) -/

/-- A number times a power of two. -/
def FV.scale (x : FV) (k : Int) : FV :=
  match x with
  | .num n m e => .num n m (e + k)
  | x => x

/-- The exact sum of a group of products and its flags (R223, R225). -/
def groupSum (ps : List (FV × FV)) (scale : Option Int) : FV × FFlags :=
  match scale with
  | none => (.nan false, 0)
  | some k =>
    let qs := ps.map fun p => FV.mul p.1 p.2
    let fl := qs.foldl (fun acc q => acc ||| q.2) 0
    let vs := qs.map fun q => q.1.scale k
    if vs.any FV.isNan then (.nan false, fl)
    else match vs.contains (.inf false), vs.contains (.inf true) with
      | true, true => (.nan false, fl ||| flInvalid)
      | true, false => (.inf false, fl)
      | false, true => (.inf true, fl)
      | false, false => match vs with
        | [] => (.num false 0 0, fl)
        | v :: t => (t.foldl (fun acc x => (FV.add .near acc x).1) v, fl)

/-- Adds one group to an accumulator: two roundings (R223). -/
def addGroup (acc : Nat × FFlags) (g : FV × FFlags) : Nat × FFlags :=
  let s := fmtF32.write .near g.1
  let c := fmtF32.fadd .near acc.1 s.1
  (c.1, acc.2 ||| g.2 ||| s.2 ||| c.2)

/-- Adds one INT8 group, clamping to INT32 (R224). -/
def addGroupInt (acc : Int × FFlags) (g : Int) : Int × FFlags :=
  let t := acc.1 + g
  if t > 2147483647 then (2147483647, acc.2 ||| flOverflow)
  else if t < -2147483648 then (-2147483648, acc.2 ||| flOverflow)
  else (t, acc.2)

/-- The scale of a pair of MXFP4 blocks; a scale of 0xFF makes the group NaN. -/
def scaleOf (sa sb : Array Byte) (i j g : Nat) : Option Int :=
  let a := (sa.getD (8 * i + g / 2) 0).toNat
  let b := (sb.getD (8 * j + g / 2) 0).toNat
  if a = 255 ∨ b = 255 then none else some ((a : Int) + b - 254)

/-- One element of an accumulator after an `mma` (R223, R224). -/
def mmaElement (fa fb : Nat) (a b sa sb : Array Byte) (i j start : Nat) : Nat × FFlags :=
  let groups := List.range (fmtK fa / 16)
  let ks (g : Nat) : List Nat := (List.range 16).map (16 * g + ·)
  if fa = 4 then
    let sum (g : Nat) : Int := (ks g).foldl (fun acc k =>
      acc + (BitVec.ofNat 8 (element 4 a i k)).toInt * (BitVec.ofNat 8 (element 4 b j k)).toInt) 0
    let r := groups.foldl (fun acc g => addGroupInt acc (sum g)) ((BitVec.ofNat 32 start).toInt, (0 : FFlags))
    ((BitVec.ofInt 32 r.1).toNat, r.2)
  else
    groups.foldl (fun acc g => addGroup acc (groupSum
      ((ks g).map fun k => (elementVal fa (element fa a i k), elementVal fb (element fb b j k)))
      (if fa = 5 then scaleOf sa sb i j g else some 0))) (start, 0)

/-- The accumulator after an `mma`, and the flags it raises. -/
def mmaTile (fa fb : Nat) (zero : Bool) (a b sa sb : Array Byte) (acc : Array Word) : List Word × FFlags :=
  let out := (List.range 4096).map fun n =>
    mmaElement fa fb a b sa sb (n / 64) (n % 64) (if zero then 0 else (acc.getD n 0).toNat)
  (out.map fun x => BitVec.ofNat 32 x.1, out.foldl (fun f x => f ||| x.2) 0)

/-! ### Conversions on the way out (R220–R222) -/

/-- A value above the largest finite one of a format: a saturating clamp raises overflow. -/
def flClamp : FFlags := flOverflow ||| flInexact

/-- An F32 pattern to BF16, FP16 or E5M2. -/
def outIeee (f : Fmt) (sat : Bool) (x : Nat) : Nat × FFlags :=
  match fmtF32.decode x with
  | .nan s => (f.qnan, if s then flInvalid else 0)
  | .inf n => if sat then (f.maxBits n, flInvalid) else (f.infBits n, 0)
  | .num n m e =>
    let r := f.round .near n m e
    if f.over r then (if sat then f.maxBits n else f.infBits n, flClamp) else (f.pack n r, r.flags)

/-- Whether a rounded magnitude is above a whole number. -/
def Rounded.above (r : Rounded) (limit : Nat) : Bool :=
  if 0 ≤ r.q then decide (limit < r.sig * 2 ^ r.q.toNat) else decide (limit * 2 ^ (-r.q).toNat < r.sig)

/-- An F32 pattern to E4M3; a NaN keeps its sign. -/
def outE4M3 (sat : Bool) (x : Nat) : Nat × FFlags :=
  let sign := x / 2 ^ 31 % 2 * 128
  match fmtF32.decode x with
  | .nan s => (sign + 0x7F, if s then flInvalid else 0)
  | .inf _ => (if sat then sign + 0x7E else 0x7F, flInvalid)
  | .num n m e =>
    let r := fmtE4M3.round .near n m e
    if r.above 448 then (if sat then sign + 0x7E else 0x7F, flClamp) else (fmtE4M3.pack n r, r.flags)

/-- An F32 pattern, divided by 2^k, to E2M1, clamped to ±6.  The spec states no result for a NaN; `free` is it. -/
def outE2M1 (k : Int) (x free : Nat) : Nat × FFlags :=
  let sign := x / 2 ^ 31 % 2 * 8
  match fmtF32.decode x with
  | .nan _ => (free % 16, flInvalid)
  | .inf _ => (sign + 7, flInvalid)
  | .num n m e =>
    let r := fmtE2M1.round .near n m (e - k)
    if r.above 6 then (sign + 7, flClamp) else (fmtE2M1.pack n r, r.flags)

/-- An INT32 pattern to INT8. -/
def outInt8 (x : Nat) : Nat × FFlags :=
  let v := (BitVec.ofNat 32 x).toInt
  if v > 127 then (127, flOverflow) else if v < -128 then (128, flOverflow) else (x % 256, 0)

/-- One element converted for `mx.st`, by OFMT (R217). -/
def outConv (ofmt : Nat) (sat : Bool) (x : Nat) : Nat × FFlags :=
  match ofmt with
  | 1 => outIeee fmtBF16 sat x
  | 2 => outIeee fmtF16 sat x
  | 3 => outE4M3 sat x
  | 4 => outIeee fmtE5M2 sat x
  | 6 => outInt8 x
  | _ => (x, 0)

/-- Bytes per stored element of an OFMT. -/
def outBytes (ofmt : Nat) : Nat :=
  match ofmt with
  | 0 => 4
  | 5 => 4
  | 1 => 2
  | 2 => 2
  | _ => 1

/-- The stored bytes of a tile, row after row, and the flags raised. -/
def storedTile (ofmt : Nat) (sat trans : Bool) (t : Array Word) : List Byte × FFlags :=
  let xs := (List.range 4096).map fun n =>
    outConv ofmt sat (t.getD (if trans then n % 64 * 64 + n / 64 else n) 0).toNat
  (xs.flatMap fun x => leBytes (outBytes ofmt) x.1, xs.foldl (fun f x => f ||| x.2) 0)

/-- The scale byte and the 32 elements of an MXFP4 block (R221). -/
def mxBlock (xs : List Nat) : Nat × List Nat × FFlags :=
  let vs := xs.map fmtF32.decode
  if vs.any fun v => match v with
    | .num _ _ _ => false
    | _ => true then (255, xs.map fun _ => 0, flInvalid)
  else
    let logs : List Int := vs.filterMap fun v => match v with
      | .num _ m e => if m = 0 then none else some (e + (Nat.log2 m : Int))
      | _ => none
    match logs with
    | [] => (0, xs.map fun x => x / 2 ^ 31 % 2 * 8, 0)
    | l :: t =>
      let k : Int := max (-127) (min 127 (t.foldl max l - 2))
      let ys := xs.map fun x => outE2M1 k x 0
      ((k + 127).toNat, ys.map (·.1), ys.foldl (fun f y => f ||| y.2) 0)

/-! ### Legality (R163, R207, R214–R219, R235) -/

/-- The fields of a memory form: SRA a uniform register; the stride u[SRB], an immediate or W1 (R214). -/
def memFormOk (ins : Insn) : Bool :=
  decide (ins.sra.toNat < 64)
    && (if ins.imb then !ins.lng
        else if ins.lng then ins.srb == 0 && ins.src == 0
        else decide (ins.srb.toNat < 64) && ins.src == 0)

/-- Every matrix instruction has TYP, UA and UB zero; and the forms that R235 names have PRD, PIV and UC zero. -/
def mxPlain (ins : Insn) : Bool := ins.typ == 0 && !ins.ua && !ins.ub && !ins.uc && ins.prd == 0 && !ins.piv

/-- SRB, SRC and W1 are not used. -/
def noStride (ins : Insn) : Bool := ins.srb == 0 && ins.src == 0 && !ins.imb && !ins.lng

def fnBits (ins : Insn) (hi lo : Nat) : Nat := bitsOf ins.fn.toNat hi lo

def mxLdLegal (h : Hand) (ins : Insn) : Bool :=
  let part := ins.fn.getLsbD 5
  let trans := ins.fn.getLsbD 4
  mxPlain ins && fnWithin ins 0xFF && decide (fnBits ins 2 0 ≤ 5) && decide (fnBits ins 7 6 ≠ 3)
    && decide (ins.dst.toNat < 16) && (!part || decide (fnBits ins 2 0 = 5)) && !(part && trans)
    && (if ins.fn.getLsbD 3 then !trans && noStride ins && decide (ins.sra.toNat + (if part then 2 else 32) ≤ h.vregs)
        else memFormOk ins)

def mmaLegal (ins : Insn) : Bool :=
  mxPlain ins && fnWithin ins 0x7F && decide (fnBits ins 2 0 ≤ 5) && decide (fnBits ins 5 3 ≤ 5)
    && decide (ins.dst.toNat < 8) && ins.src == 0 && !ins.imb && !ins.lng

def mxStLegal (h : Hand) (ins : Insn) : Bool :=
  mxPlain ins && fnWithin ins 0x1FF && decide (fnBits ins 2 0 ≤ 6) && decide (fnBits ins 8 7 ≠ 3)
    && decide (ins.dst.toNat < 8)
    && (if ins.fn.getLsbD 3 then noStride ins && decide (ins.sra.toNat + 16 * outBytes (fnBits ins 2 0) ≤ h.vregs)
        else memFormOk ins)

def mxClrLegal (ins : Insn) : Bool :=
  mxPlain ins && fnWithin ins 0 && decide (ins.dst.toNat < 8) && ins.sra == 0 && noStride ins

/-- The registers that a register-mode `mx.cvt` reads and writes (R219). -/
def cvtRuns (op : Nat) : Nat × Nat :=
  match op with
  | 0 => (4, 1)
  | 1 => (4, 1)
  | 2 => (1, 4)
  | 3 => (1, 4)
  | 4 => (8, 1)
  | _ => (1, 8)

def cvtRegLegal (h : Hand) (ins : Insn) : Bool :=
  let op := fnBits ins 2 0
  let r := cvtRuns op
  let runOk (v n : Nat) : Bool := decide (v % n = 0) && decide (v + n ≤ h.vregs)
  ins.typ == 0 && !ins.ua && !ins.ub && fnWithin ins 0xF && decide (op ≤ 5) && ins.srb == 0 && !ins.imb && !ins.lng
    && runOk ins.sra.toNat r.1 && runOk ins.dst.toNat r.2
    && (if op ≤ 3 then ins.src == 0 && !ins.uc else fieldOk h.vregs 1 .opn ins.uc ins.src.toNat)

def cvtTileLegal (ins : Insn) : Bool :=
  mxPlain ins && fnWithin ins 0x47F && decide (fnBits ins 2 0 ≤ 5) && decide (ins.dst.toNat < 16) && noStride ins

/-- Whether a page or a tile number names nothing of the hand (R235). -/
def badPage (h : Hand) (p : Nat) : Bool := decide (h.numPages ≤ p)
def badTile (h : Hand) (t : Nat) : Bool := decide (h.numTiles ≤ t)

/-- The greatest POS of a format in tile mode (R219). -/
def maxPos (f : Nat) : Nat := fmtK f / 64 - 1

/-! ### Queues and dependences (R227, R229) -/

/-- What an instruction reads and writes of the hand's matrix state: pages (0), scale slots (1) and tiles (2). -/
structure MxUse where
  reads : List (Nat × Nat) := []
  writes : List (Nat × Nat) := []
deriving DecidableEq, Repr

def mxUse (opc : Nat) (ins : Insn) : MxUse :=
  let d := ins.dst.toNat
  let a := ins.sra.toNat
  let b := ins.srb.toNat
  match opc with
  | 0xA0 => { writes := [(if ins.fn.getLsbD 5 then 1 else 0, d)] }
  | 0xA1 =>
    let slots := if fnBits ins 2 0 = 5 then [(1, a), (1, b)] else []
    { reads := [(0, a), (0, b)] ++ slots ++ (if ins.fn.getLsbD 6 then [] else [(2, d)]), writes := [(2, d)] }
  | 0xA2 => { reads := [(2, d)], writes := if ins.fn.getLsbD 6 then [(2, d)] else [] }
  | 0xA3 => { writes := [(2, d)] }
  | _ => if ins.fn.getLsbD 10 then
      { reads := [(2, a)], writes := (0, d) :: (if fnBits ins 2 0 = 5 then [(1, d)] else []) }
    else {}

/-- Whether two places are the same storage: a scale slot lies in the hand's last page (R210). -/
def samePlace (last : Nat) (x y : Nat × Nat) : Bool :=
  x == y || (x == (0, last) && y.1 == 1) || (y == (0, last) && x.1 == 1)

/-- Whether a later matrix instruction must wait for an earlier one of its hand; an `mma` after an `mma` into the same
tile need not, on account of that tile (R229). -/
def mxBlocks (last : Nat) (o : MemOp) (opc : Nat) (ins : Insn) : Bool :=
  let e := mxUse o.opc o.insn
  let n := mxUse opc ins
  let chained := o.opc == 0xA1 && opc == 0xA1 && o.insn.dst == ins.dst
  let strip (l : List (Nat × Nat)) : List (Nat × Nat) := if chained then l.filter fun x => x.1 != 2 else l
  let hit (l m : List (Nat × Nat)) : Bool := l.any fun x => m.any fun y => samePlace last x y
  hit (strip e.writes) (strip (n.reads ++ n.writes)) || hit e.reads (strip n.writes)

/-- Whether the engine takes an instruction now: its port's queue has room, and nothing earlier blocks it. -/
def mxAccepts (co : Core) (h : Hand) (opc : Nat) (ins : Insn) : Bool :=
  let q := if opc = 0xA0 ∨ opc = 0xA2 then co.lsq else co.cq
  decide (q.length < 4)
    && !(h.ops.any fun o => decide (0xA0 ≤ o.opc ∧ o.opc ≤ 0xA4) && mxBlocks h.scalePage o opc ins)

/-! ### Issue -/

/-- The stride of a memory form (R214). -/
def strideOf (h : Hand) (ins : Insn) : Nat :=
  if ins.imb then imm16 ins else if ins.lng then ins.w1.toNat % 2 ^ 32
  else (h.u (ins.srb.toNat % 64)).toNat % 2 ^ 32

/-- The address of row `r` of a memory form. -/
def rowAddr (h : Hand) (ins : Insn) (r : Nat) : Nat :=
  ((h.u (ins.sra.toNat % 64)).toNat + r * strideOf h ins) % 2 ^ 64

/-- The 64-byte pieces of the rows of a memory form: the row and the address of each (R236, R283). -/
def rowPieces (h : Hand) (ins : Insn) (rows bytes : Nat) : List (Nat × Nat) :=
  (List.range rows).flatMap fun r => (List.range (bytes / 64)).map fun j => (r, (rowAddr h ins r + 64 * j) % 2 ^ 64)

/-- MISALIGN of the base or stride, or UNPOP of the lowest row that fails (R236). -/
def rowFault (s : State) (h : Hand) (ins : Insn) (l : List (Nat × Nat)) : Option (Nat × Nat × Nat) :=
  let base := (h.u (ins.sra.toNat % 64)).toNat
  if base % 64 ≠ 0 ∨ strideOf h ins % 64 ≠ 0 then some (2, 0xFF, base)
  else (l.find? fun p => !s.populated (s.normalise p.2)).map fun p => (3, p.1, p.2)

/-- Adds an accepted instruction to its hand and its port's queue. -/
def acceptMx (s : State) (i : Issue) (h : Hand) (opc : Nat) (ins : Insn) (parts : List Part) (res : NMap PartRes)
    (rd wr : Bool) : State :=
  let c := i.core.val
  let sl := i.slot.val
  let o : MemOp := { id := h.nextOp, opc := opc, insn := ins, pc := (atPc h ins).pc,
                     w0 := (wordOfInsn (BitVec.ofNat 8 opc) ins).toNat, parts := parts, res := res }
  let stop := watchStop s c sl rd wr (parts.map fun p => (p.thread, p.addr, p.size)) h
  let s := s.setHand c sl { h with ops := h.ops ++ [o], nextOp := h.nextOp + 1, stop := stop }
  let s := s.onCore c fun co =>
    if opc = 0xA0 ∨ opc = 0xA2 then { co with lsq := co.lsq ++ [(sl, o.id)] } else { co with cq := co.cq ++ [(sl, o.id)] }
  pumpOp s c sl o.id

/-- The uniform registers that a memory form reads. -/
def memFormNames (ins : Insn) : List Nat :=
  ins.sra.toNat % 64 :: (if ins.imb || ins.lng then [] else [ins.srb.toNat % 64])

/-- The rows of a memory-form `mx.ld`, and the bytes of each (R215). -/
def ldRows (ins : Insn) : Nat × Nat :=
  if ins.fn.getLsbD 5 then (1, 512)
  else if ins.fn.getLsbD 4 then (fmtK (fnBits ins 2 0), 8 * fmtBits (fnBits ins 2 0))
  else (64, 128)

/-- Whether `mx.ld` raises the matrix fault (R235). -/
def mxLdMatrix (h : Hand) (ins : Insn) : Bool :=
  let fp4 := decide (fnBits ins 2 0 = 5)
  badPage h ins.dst.toNat || (ins.fn.getLsbD 4 && fp4) || (fp4 && !ins.fn.getLsbD 5 && ins.dst.toNat == h.scalePage)

/-- The issue of `mx.ld`. -/
def mxLdSpec (i : Issue) (ins : Insn) : IssueSpec :=
  let reg := ins.fn.getLsbD 3
  let r := ldRows ins
  let accs (h : Hand) : List (Nat × Nat) := if reg then [] else rowPieces h ins r.1 r.2
  { opc := 0xA0, unit := .matrix,
    names := if reg then { v := runOf ins.sra.toNat (if ins.fn.getLsbD 5 then 2 else 32) } else { u := memFormNames ins },
    legal := fun h => mxLdLegal h ins, matrix := fun h => mxLdMatrix h ins,
    access := fun s _ h => if reg then none else rowFault s h ins (accs h),
    ready := fun s co h => mxAccepts co h 0xA0 ins
      && (reg || (mayAccess h && !((accs h).any fun p => s.winHeld (s.normalise p.2)))),
    body := fun s _ h => acceptMx s i h 0xA0 ins ((accs h).map fun p =>
      { thread := p.1, addr := s.normalise p.2, size := 64, op := .load, hint := fnBits ins 7 6 }) [] true false }

/-- mx.ld (R215): a scale load must have a stride of 0, and what it does with another stride is not defined (R8). -/
def execMxLd (i : Issue) (ins : Insn) (s : State) : Host.Outcome State Fault Refusal :=
  let sp := mxLdSpec i ins
  match issuer s i 0xA0 .matrix ins with
  | some (co, h) =>
    if ins.fn.getLsbD 5 && !ins.fn.getLsbD 3 && strideOf h ins != 0 && sp.legal h && !sp.matrix h
        && !mustWait h sp.names && sp.ready s co h && h.poison.isNone
        && (breakMask s i.core i.slot h == 0 || h.skipBp) then .fault .notDefined
    else done (issue s i ins sp)
  | none => done s

/-- What the issue of `mma` asks, and its effect. -/
def mmaSpec (i : Issue) (ins : Insn) : IssueSpec :=
  let fa := fnBits ins 2 0
  { opc := 0xA1, unit := .matrix, legal := fun _ => mmaLegal ins,
      matrix := fun h => badPage h ins.sra.toNat || badPage h ins.srb.toNat || badTile h ins.dst.toNat
        || !pairOk fa (fnBits ins 5 3)
        || (fa == 5 && (ins.sra.toNat == h.scalePage || ins.srb.toNat == h.scalePage)),
      ready := fun _ co h => mxAccepts co h 0xA1 ins,
      body := fun s _ h => acceptMx s i h 0xA1 ins [] [] false false }

/-- mma (R216): accepted into the compute queue. -/
def execMma (i : Issue) (ins : Insn) (s : State) : Host.Outcome State Fault Refusal :=
  done (issue s i ins (mmaSpec i ins))

/-- The stored bytes of an `mx.st`, and its flags. -/
def mxStored (co : Core) (h : Hand) (ins : Insn) : List Byte × FFlags :=
  storedTile (fnBits ins 2 0) (ins.fn.getLsbD 4) (ins.fn.getLsbD 5) (co.tile h ins.dst.toNat).toArray

/-- What the issue of `mxSt` asks, and its effect. -/
def mxStSpec (i : Issue) (ins : Insn) : IssueSpec :=
  let reg := ins.fn.getLsbD 3
  let n := outBytes (fnBits ins 2 0)
  let accs (h : Hand) : List (Nat × Nat) := if reg then [] else rowPieces h ins 64 (64 * n)
  let run := if reg then runOf ins.sra.toNat (16 * n) else []
  { opc := 0xA2, unit := .matrix,
      names := if reg then { v := run, wv := run } else { u := memFormNames ins },
      legal := fun h => mxStLegal h ins, matrix := fun h => badTile h ins.dst.toNat,
      access := fun s _ h => if reg then none else rowFault s h ins (accs h),
      ready := fun s co h => mxAccepts co h 0xA2 ins
        && (reg || (mayAccess h && !((accs h).any fun p => s.winHeld (s.normalise p.2)))),
      body := fun s co h =>
        let data := if reg then [] else (mxStored co h ins).1
        acceptMx s i h 0xA2 ins ((accs h).zipIdx.map fun p =>
          { thread := p.1.1, addr := s.normalise p.1.2, size := 64, op := .store ((data.drop (64 * p.2)).take 64),
            hint := fnBits ins 8 7 }) [] false true }

/-- mx.st (R217): the rows of a memory form are stores in ascending order. -/
def execMxSt (i : Issue) (ins : Insn) (s : State) : Host.Outcome State Fault Refusal :=
  done (issue s i ins (mxStSpec i ins))

/-- What the issue of `mxClr` asks, and its effect. -/
def mxClrSpec (i : Issue) (ins : Insn) : IssueSpec :=
  { opc := 0xA3, unit := .matrix, legal := fun _ => mxClrLegal ins, matrix := fun h => badTile h ins.dst.toNat,
      ready := fun _ co h => mxAccepts co h 0xA3 ins,
      body := fun s _ h => acceptMx s i h 0xA3 ins [] [] false false }

/-- mx.clr (R218). -/
def execMxClr (i : Issue) (ins : Insn) (s : State) : Host.Outcome State Fault Refusal :=
  done (issue s i ins (mxClrSpec i ins))

/-- One thread's conversion by a register-mode `mx.cvt`: the destination registers and the flags; `free` supplies what
the spec does not state. -/
def cvtThread (op : Nat) (sat : Bool) (xs : List Nat) (scale : Nat) (free : Nat → Nat) : List Nat × FFlags :=
  let flags (ys : List (Nat × FFlags)) : FFlags := ys.foldl (fun f y => f ||| y.2) 0
  let pack (w : Nat) (ys : List (Nat × FFlags)) : List Nat × FFlags :=
    ([ys.zipIdx.foldl (fun acc y => acc + y.1.1 * 2 ^ (w * y.2)) 0], flags ys)
  let x0 := xs.getD 0 0
  match op with
  | 0 => pack 8 (xs.map (outE4M3 sat))
  | 1 => pack 8 (xs.map (outIeee fmtE5M2 sat))
  | 2 => ((List.range 4).map fun n => (fmtF32.write .near (elementVal 2 (x0 / 256 ^ n % 256))).1, 0)
  | 3 => ((List.range 4).map fun n => (fmtF32.write .near (elementVal 3 (x0 / 256 ^ n % 256))).1, 0)
  | 4 =>
    if scale = 255 then ([0], 0)
    else pack 4 (xs.zipIdx.map fun x => outE2M1 ((scale : Int) - 127) x.1 (free x.2))
  | _ =>
    if scale = 255 then (List.replicate 8 fmtF32.qnan, 0)
    else
      let ys := (List.range 8).map fun n =>
        fmtF32.write .near ((elementVal 5 (x0 / 16 ^ n % 16)).scale ((scale : Int) - 127))
      (ys.map (·.1), flags ys)

/-- What the issue of `mxCvtReg` asks, and its effect. -/
def mxCvtRegSpec (i : Issue) (ins : Insn) : IssueSpec :=
  let op := fnBits ins 2 0
  let r := cvtRuns op
  let dRun := runOf ins.dst.toNat r.2
  { opc := 0xA4, unit := .matrix,
      names := { v := runOf ins.sra.toNat r.1 ++ dRun ++ (if 4 ≤ op then vecNames .opn ins.uc ins.src.toNat 1 else []),
                 u := if 4 ≤ op then uniNames .opn ins.uc ins.src.toNat else [],
                 p := [ins.prd.toNat], wv := dRun },
      legal := fun h => cvtRegLegal h ins,
      ready := fun _ co h => mxAccepts co h 0xA4 ins,
      body := fun s co h =>
        let one (k : Nat) : List Nat × FFlags :=
          cvtThread op (ins.fn.getLsbD 3) ((List.range r.1).map fun j => (co.v h (ins.sra.toNat + j) k).toNat)
            (if op ≤ 3 then 0 else srcC co h ins .u32 k % 256) (fun n => Config.freeValue s.free (8 * k + n))
        let en := numsWhere 64 (h.enabled ins)
        let fl := orFlags (fun k => (one k).2) (h.enabled ins)
        let res : NMap PartRes := (en.map fun k =>
          (k, ({ bytes := (one k).1.flatMap (leBytes 4), gran := .good } : PartRes)))
          ++ [(64, { bytes := leBytes 1 fl.toNat, gran := .good })]
        let s := if op = 4 then { s with free := s.free + 1 } else s
        acceptMx s i h 0xA4 ins [] res false false }

/-- mx.cvt in register mode (R219): its sources are read as it issues. -/
def execMxCvtReg (i : Issue) (ins : Insn) (s : State) : Host.Outcome State Fault Refusal :=
  done (if ins.fn.getLsbD 10 then s else issue s i ins (mxCvtRegSpec i ins))

/-- What the issue of `mxCvtTile` asks, and its effect. -/
def mxCvtTileSpec (i : Issue) (ins : Insn) : IssueSpec :=
  let f := fnBits ins 2 0
  { opc := 0xA4, unit := .matrix, legal := fun _ => cvtTileLegal ins,
      matrix := fun h => badPage h ins.dst.toNat || badTile h ins.sra.toNat
        || (f == 5 && ins.dst.toNat == h.scalePage) || decide (maxPos f < fnBits ins 6 5),
      ready := fun _ co h => mxAccepts co h 0xA4 ins,
      body := fun s _ h => acceptMx s i h 0xA4 ins [] [] false false }

/-- mx.cvt in tile mode (R219). -/
def execMxCvtTile (i : Issue) (ins : Insn) (s : State) : Host.Outcome State Fault Refusal :=
  done (if !ins.fn.getLsbD 10 then s else issue s i ins (mxCvtTileSpec i ins))

/-! ### Running and completing -/

/-- An `mma` at the head of the compute queue starts once its core's gate is OPEN; while the gate is SHUT and no notice
for the cluster awaits acknowledgement, the engine sends one of weight 3 (R234). -/
def execMmaStart (core : Fin 256) (s : State) : Host.Outcome State Fault Refusal :=
  done (let c := core.val
    if !s.clocked (clusterOf c) then s else
    match (s.core c).cq with
    | [] => s
    | (sl, id) :: rest => match s.hand c sl with
      | none => s
      | some h => match h.ops.find? fun o => o.id == id with
        | none => s
        | some o =>
          if o.opc ≠ 0xA1 then s
          else if !(s.core c).gate then
            if (s.pwr.notices.any fun n => n.1 == clusterOf c) || s.isSet .CRG_NOTICE_PEND (clusterOf c) then s else s.sendNotice (clusterOf c) 3
          else
            let start (x : MemOp) : MemOp := if x.id = id then { x with started := true } else x
            (s.setHand c sl { h with ops := h.ops.map start }).onCore c fun co => { co with cq := rest, mmaAt := s.time.bnd })

/-- The bytes that a load of a page received, with a poisoned granule's bytes as R237 gives them. -/
def loadedBytes (ins : Insn) (r : PartRes) : List Byte :=
  let pattern : List Byte := match fnBits ins 2 0 with
    | 0 => [0xC0, 0x7F]
    | 1 => [0x00, 0x7E]
    | 2 => [0x7F, 0x7F]
    | 3 => [0x7E, 0x7E]
    | 5 => if ins.fn.getLsbD 5 then [0xFF, 0xFF] else [0, 0]
    | _ => [0, 0]
  (List.range 64).map fun n =>
    if r.gran = .good ∨ r.grans.getD (n / 32) r.gran = .good then r.bytes.getD n 0 else pattern.getD (n % 2) 0

/-- The page bytes of a transposed load: element j of row r becomes element r of vector j (R215). -/
def transposed (f : Nat) (rows : Array Byte) : List Byte :=
  let w := fmtBits f / 8
  (List.range 8192).map fun b =>
    let j := b / 128
    let e := b % 128
    rows.getD ((e / w) * (64 * w) + w * j + e % w) 0

/-- The bytes of a run of registers in the mapping of R215: byte 256m + 4i + n is byte n of thread i's register m. -/
def runBytes (co : Core) (h : Hand) (r n : Nat) : List Byte :=
  (List.range n).flatMap fun m => (List.range 64).flatMap fun i => leBytes 4 (co.v h (r + m) i).toNat

/-- Writes what a completed `mx.ld` loaded. -/
def finishMxLd (s : State) (c slot : Nat) (h : Hand) (o : MemOp) : State :=
  let ins := o.insn
  let co := s.core c
  let bytes := if ins.fn.getLsbD 3 then runBytes co h ins.sra.toNat (if ins.fn.getLsbD 5 then 2 else 32)
    else o.parts.zipIdx.flatMap fun p => loadedBytes ins (o.part p.2)
  let bytes := if ins.fn.getLsbD 4 then transposed (fnBits ins 2 0) bytes.toArray else bytes
  let h := match o.parts.zipIdx.find? fun p => (o.part p.2).gran != .good with
    | some (p, n) =>
      let first := if (o.part n).grans.getD 0 .good = .good ∧ 1 < (o.part n).grans.length then 32 else 0
      h.seePoison s o p.thread (p.addr + first)
    | none => h
  let co := if ins.fn.getLsbD 5 then co.setSlotBytes h ins.dst.toNat bytes else co.setPage h ins.dst.toNat bytes
  (s.setCore c co).setHand c slot h

/-- Completes an `mma`: the accumulator in the one order of summation, and its flags (R223–R225). -/
def finishMma (s : State) (c slot : Nat) (h : Hand) (o : MemOp) : State :=
  let ins := o.insn
  let co := s.core c
  let page (n : Nat) : Array Byte := (co.page h n).toArray
  let sl (n : Nat) : Array Byte := (co.slotBytes h n).toArray
  let r := mmaTile (fnBits ins 2 0) (fnBits ins 5 3) (ins.fn.getLsbD 6) (page ins.sra.toNat) (page ins.srb.toNat)
    (sl ins.sra.toNat) (sl ins.srb.toNat) (co.tile h ins.dst.toNat).toArray
  (s.setCore c (co.setTile h ins.dst.toNat r.1)).setHand c slot { h with flags := h.flags ||| r.2 }

/-- Completes an `mx.st`: the registers of its register form for live threads, its flags, and CLR. -/
def finishMxSt (s : State) (c slot : Nat) (h : Hand) (o : MemOp) : State :=
  let ins := o.insn
  let co := s.core c
  let r := mxStored co h ins
  let data := r.1.toArray
  let n := 16 * outBytes (fnBits ins 2 0)
  let word (m i : Nat) : Word := BitVec.ofNat 32 (leNat ((List.range 4).map fun b => data.getD (256 * m + 4 * i + b) 0))
  let co := if ins.fn.getLsbD 3 then (List.range n).foldl (fun co m =>
      Core.setV co h (ins.sra.toNat + m) fun i => if h.live.getLsbD i then some (word m i) else none) co
    else co
  let co := if ins.fn.getLsbD 6 then co.setTile h ins.dst.toNat (List.replicate 4096 0) else co
  (s.setCore c co).setHand c slot { h with flags := h.flags ||| r.2 }

/-- Completes a register-mode `mx.cvt`. -/
def finishCvtReg (s : State) (c slot : Nat) (h : Hand) (o : MemOp) : State :=
  let n := (cvtRuns (fnBits o.insn 2 0)).2
  let co := (List.range n).foldl (fun co m => Core.setV co h (o.insn.dst.toNat + m) fun k =>
    (NMap.find? o.res k).bind fun r => if k < 64 then some (BitVec.ofNat 32 (leNat ((r.bytes.drop (4 * m)).take 4))) else none)
    (s.core c)
  let fl : FFlags := BitVec.ofNat 6 (leNat (o.part 64).bytes)
  (s.setCore c co).setHand c slot { h with flags := h.flags ||| fl }

/-- The 64 converted elements of vector `v` in tile mode, with its two scales for MXFP4, and the flags. -/
def cvtVector (f : Nat) (sat : Bool) (xs : List Nat) : List Nat × List Nat × FFlags :=
  if f = 5 then
    let a := mxBlock (xs.take 32)
    let b := mxBlock (xs.drop 32)
    (a.2.1 ++ b.2.1, [a.1, b.1], a.2.2 ||| b.2.2)
  else
    let ys := xs.map fun x => match f with
      | 0 => outIeee fmtBF16 sat x
      | 1 => outIeee fmtF16 sat x
      | 2 => outE4M3 sat x
      | 3 => outIeee fmtE5M2 sat x
      | _ => outInt8 x
    (ys.map (·.1), [], ys.foldl (fun fl y => fl ||| y.2) 0)

/-- The bytes that 64 elements of a format take. -/
def packElements (f : Nat) (xs : List Nat) : List Byte :=
  if f = 5 then (List.range 32).map fun n => BitVec.ofNat 8 (xs.getD (2 * n) 0 + 16 * xs.getD (2 * n + 1) 0)
  else xs.flatMap (leBytes (fmtBits f / 8))

/-- Completes a tile-mode `mx.cvt`. -/
def finishCvtTile (s : State) (c slot : Nat) (h : Hand) (o : MemOp) : State :=
  let ins := o.insn
  let f := fnBits ins 2 0
  let pos := fnBits ins 6 5
  let co := s.core c
  let t := (co.tile h ins.sra.toNat).toArray
  let vec (v : Nat) : List Nat := (List.range 64).map fun n =>
    (t.getD (if ins.fn.getLsbD 4 then 64 * n + v else 64 * v + n) 0).toNat
  let out := (List.range 64).map fun v => cvtVector f (ins.fn.getLsbD 3) (vec v)
  let w := 8 * fmtBits f
  let page := out.zipIdx.foldl (fun pg x => overlay pg (128 * x.2 + w * pos) (packElements f x.1.1)) (co.page h ins.dst.toNat)
  let co := co.setPage h ins.dst.toNat page
  let co := if f = 5 then
      co.setSlotBytes h ins.dst.toNat (out.zipIdx.foldl
        (fun sl x => overlay sl (8 * x.2 + 2 * pos) (x.1.2.1.map (BitVec.ofNat 8))) (co.slotBytes h ins.dst.toNat))
    else co
  (s.setCore c co).setHand c slot { h with flags := h.flags ||| out.foldl (fun fl x => fl ||| x.2.2) 0 }

/-- Whether a matrix instruction can complete: its rows are all answered; an `mma` has started, after every earlier
`mma` of its hand; the other compute instructions are at the head of their queue. -/
def mxDone (co : Core) (slot : Nat) (h : Hand) (o : MemOp) : Bool :=
  match o.opc with
  | 0xA0 => o.answered
  | 0xA2 => o.answered
  | 0xA1 => o.started && !(h.ops.any fun x => x.opc == 0xA1 && decide (x.id < o.id))
  | _ => co.cq.head? == some (slot, o.id)

/-- A matrix instruction completes (R228): its effect on pages, tiles and registers is made, unless its hand has been
removed, whose data is discarded (R247). -/
def execMatrixInsnComplete (x : HandId) (op : Nat) (s : State) : Host.Outcome State Fault Refusal :=
  done (let c := x.core.val
    let sl := x.slot.val
    if !s.clocked (clusterOf c) then s else
    match s.hand c sl with
    | none => s
    | some h => match h.ops.find? fun o => o.id == op with
      | none => s
      | some o =>
        if o.opc < 0xA0 ∨ 0xA4 < o.opc ∨ !mxDone (s.core c) sl h o then s else
        let h := { h with ops := h.ops.filter fun o => o.id != op }
        let s := s.onCore c fun co => { co with lsq := co.lsq.filter (· ≠ (sl, op)), cq := co.cq.filter (· ≠ (sl, op)) }
        let s := s.setHand c sl h
        let s := if h.removed then s else match o.opc with
          | 0xA0 => finishMxLd s c sl h o
          | 0xA1 => finishMma s c sl h o
          | 0xA2 => finishMxSt s c sl h o
          | 0xA3 => (s.onCore c fun co => co.setTile h o.insn.dst.toNat (List.replicate 4096 0))
          | _ => if o.insn.fn.getLsbD 10 then finishCvtTile s c sl h o else finishCvtReg s c sl h o
        settle (pumpHand s c sl) c sl)

end Sys2Proof.Machine
end

