-- ==== Sys2Proof/Machine/RegWrite.lean ====
section
/-!
DEFINITION. Writes of registers (R22–R30, R528), the commit of shadows (R676, R677), of pin functions (R732–R734) and of
the tile ID (R739).
-/
namespace Sys2Proof.Machine

/-! ### Pins (R732–R734, R745) -/

/-- The level that a pin function drives on MF `n`; `none` leaves the pad to the board. -/
def State.funcDrive (s : State) (n : Nat) : Option Bool :=
  let out := (s.reg .PIN_OUT).testBit n
  match s.reg .PIN_FUNC 0 n with
  | 1 => some out
  | 2 => if out then none else some false
  | 3 => if n = 4 then some (Config.uartTx s.time.bnd) else none
  | 5 => some (s.time.now % 2 ^ s.reg .PIN_TICK_LOG2 == 0)
  | _ => none

/-- What the tile drives on MF `n`: under EXTEST and CLAMP the boundary register, under HIGHZ nothing, in the tick of a
function commit the level held from before it, and otherwise the function's level. -/
def State.padDrive (s : State) (n : Nat) : Option Bool :=
  if s.pin.ir = .extest ∨ s.pin.ir = .clamp then some (s.pin.bsrOut.testBit n)
  else if s.pin.ir = .highz then none
  else if NMap.find? s.pin.settle n = some s.time.bnd then NMap.get none s.pin.keep n
  else s.funcDrive n

/-- The commit of everything that waits in the PIN block: a pin whose function changes starts its settle window (R733,
R734). -/
def applyPinFunc (s : State) : State :=
  let l := s.waiting .PIN 0
  let one (s : State) (x : Field × Nat × Nat) : State :=
    let v := s.regS x.1 x.2.1 x.2.2
    let n := x.2.2
    let s : State := if x.1 = .PIN_FUNC ∧ v ≠ s.reg .PIN_FUNC 0 n then
        { s with pin := { s.pin with settle := NMap.insert s.pin.settle n s.time.bnd,
                                     keep := NMap.set none s.pin.keep n (s.funcDrive n) } }
      else s
    s.setReg x.1 v x.2.1 n
  (foldState one (l.filter fun x => x.1 = .PIN_FUNC) s |> foldState one (l.filter fun x => x.1 ≠ .PIN_FUNC)).dropShadows l

/-- What waits in the PIN block commits at the next tick. -/
def State.commitPins (s : State) : State :=
  match s.waiting .PIN 0 with
  | [] => s
  | x :: _ => s.later 9 (cfgSrc .PIN 0 (x.1.spec.off + x.1.spec.stride * x.2.2)) .pinFunc

def execPinFuncCommit (s : State) : Host.Outcome State Fault Refusal := done (if s.stopped 4 then s else s.commitPins)

/-- The window of a pin ends: the capture then is every detector's new reference, and it fires nothing (R734). -/
def execPinSettleEnd (n : Fin 16) (s : State) : Host.Outcome State Fault Refusal :=
  done (match NMap.find? s.pin.settle n with
    | none => s
    | some c =>
      if s.stopped 4 || decide (s.time.bnd < c + 1 + s.reg .PIN_SETTLE) then s else
      let prime (w : Watcher) : Watcher := if w.armed ∧ w.kind = 1 ∧ w.pin = n then { w with last := s.pin.cap.testBit n } else w
      { s with pin := { s.pin with settle := NMap.erase s.pin.settle n, keep := NMap.erase s.pin.keep n },
               cp := { s.cp with watch := s.cp.watch.map fun (x : Nat × Watcher) => (x.1, prime x.2) } })

/-! ### The tile ID (R50, R739) -/

/-- A normalised address after a change of the tile's own ID. -/
def renamed (old new a : Nat) : Nat := if tileOf a = old then new * 2 ^ 48 + offsetOf a else a

/-- What the tile holds under its own ID goes over to the new one: an address of this tile keeps naming it (R50, R329). -/
def State.renameOwn (s : State) (old new : Nat) : State :=
  let line (l : Nat) : Nat := lineOf (renamed old new (128 * l))
  let part (p : Part) : Part := { p with addr := renamed old new p.addr }
  let msg (m : Msg) : Msg := { m with line := line m.line, part := m.part.map part }
  let cl (x : Nat × CLine) : Nat × CLine := (x.1, { x.2 with line := line x.2.line, snoops := x.2.snoops.map msg })
  let op (o : MemOp) : MemOp := { o with parts := o.parts.map part }
  let hand (h : Hand) : Hand := { h with ops := h.ops.map op, fetchBuf := h.fetchBuf.map fun (x : Nat × LineData) => (line x.1, x.2) }
  let core (c : Core) : Core :=
    { c with slots := c.slots.map fun (x : Nat × Hand) => (x.1, hand x.2), l1 := c.l1.map cl, ic := c.ic.map cl }
  let req (r : Req) : Req := { r with line := line r.line, part := r.part.map part }
  let clu (c : Cluster) : Cluster :=
    { c with cc := c.cc.map cl, wbuf := c.wbuf.map fun x => (cl (0, x)).2, reqs := c.reqs.map fun (x : Nat × Req) => (x.1, req x.2) }
  let goal (g : TxnGoal) : TxnGoal := match g with
    | .backInval m => .backInval (msg m)
    | g => g
  let home (h : HomeSt) : HomeSt :=
    { h with inbound := h.inbound.map msg, txns := h.txns.map fun t => { t with req := msg t.req, goal := goal t.goal } }
  let post (p : PostReq) : PostReq := { p with part := p.part.map part }
  { s with cores := s.cores.map fun (x : Nat × Core) => (x.1, core x.2), clus := s.clus.map fun (x : Nat × Cluster) => (x.1, clu x.2),
           homes := s.homes.map fun (x : Nat × HomeSt) => (x.1, home x.2), mesh := s.mesh.map msg,
           posted := s.posted.map fun (x : Nat × PostReq) => (x.1, post x.2) }

/-- The tile ID commits (R739), and the time tree sees it (R106). -/
def applyTileId (s : State) : State :=
  let v := s.regS .MGC_TILE_ID
  let ok := s.regS .MGC_TILE_ID_VALID
  let old := s.tileId.getD 0xFFFF
  let s := (s.setReg .MGC_TILE_ID v).setReg .MGC_TILE_ID_VALID ok
  let s := s.dropShadows [(.MGC_TILE_ID, 0, 0), (.MGC_TILE_ID_VALID, 0, 0)]
  (s.renameOwn old (s.tileId.getD 0xFFFF)).chooseParent

/-- Whether a write of the tile ID is accepted: not VALID with a reserved ID, and no coupler in TIME, ACTIVE or DEGRADED. -/
def State.tileIdOk (s : State) (v : Word) : Bool :=
  !(v.getLsbD 31 && decide (0xFFFE ≤ v.toNat % 65536)) && (List.range 64).all fun n => !(s.link n == 3 || s.linkUp n)

/-- A write of the tile ID: its two fields wait for the next tick, or the write is discarded and counted. -/
def State.writeTileId (s : State) (v : Word) : State :=
  if !s.tileIdOk v then s.cfgErr .MGC
  else ((s.setShadow .MGC_TILE_ID (v.toNat % 65536)).setShadow .MGC_TILE_ID_VALID (bit (v.getLsbD 31))).later 9 (cfgSrc .MGC 0 0x10) .tileId

/-- A write of MGC_TILE_ID; its reserved bits must be zero (R30). -/
def execMgcTileId (v : Word) (s : State) : Host.Outcome State Fault Refusal :=
  if s.isSet .BRK_BRAKED || s.inReset then done s
  else if v.toNat / 65536 % 32768 ≠ 0 then .fault .notDefined
  else done (s.writeTileId v)

/-! ### Shadows (R676, R677) -/

/-- A commit that enables a mirror, or gives an enabled one another fence or address, makes it write at the first tick
after (R560). -/
def State.mirrorsChanged (s : State) (l : List (Field × Nat × Nat)) : State :=
  let on (x : Field × Nat × Nat) : Bool :=
    (x.1 == .FEN_MIR_EN && s.regS .FEN_MIR_EN 0 x.2.2 == 1 && !s.isSet .FEN_MIR_EN 0 x.2.2)
      || (s.regS .FEN_MIR_EN 0 x.2.2 == 1 && (x.1 == .FEN_MIR_FENCE || x.1 == .FEN_MIR_ADDR_LO || x.1 == .FEN_MIR_ADDR_HI)
          && s.regS x.1 0 x.2.2 != s.reg x.1 0 x.2.2)
  foldState (fun s x => if on x then
      s.onCp fun cp => { cp with mirDue := cp.mirDue.filter (· != x.2.2) ++ [x.2.2], mirLast := NMap.insert cp.mirLast x.2.2 s.time.bnd }
    else s) l s

/-- Whether the length-map base that waits for a controller is a listed encoding: the area lies in the controller's stack
(R388). -/
def State.mapBaseOk (s : State) (k : Nat) : Bool :=
  let a := s.regS .CDC_LMAP_BASE_LO 0 k * 2 ^ 20 + s.regS .CDC_LMAP_BASE_HI 0 k * 2 ^ 32
  decide (k * stackBytes ≤ a) && decide (a + mapBytes ≤ (k + 1) * stackBytes)

/-- The length-map bases that a commit would set and that break the rule are not set, and the write is counted. -/
def State.dropBadBases (s : State) : State :=
  foldState (fun s k =>
    let l := [(Field.CDC_LMAP_BASE_LO, 0, k), (.CDC_LMAP_BASE_HI, 0, k)]
    if (l.any fun x => (NMap.find? s.shadow (regKey x.1 x.2.1 x.2.2)).isSome) && !s.mapBaseOk k then (s.dropShadows l).cfgErr .CDC else s)
    (List.range 8) s

/-- What follows in the same tick from the values that a block's commit has put into force. -/
def State.afterCommit (s : State) (b : Block) (inst : Nat) : State :=
  match b with
  | .TIK => (if s.isSet .TIK_REPLAY then s else { s with time := { s.time with replayLeft := 0 } }).chooseParent
  | .CPL =>
    if s.isSet .CPL_ENABLE inst || s.link inst == 0 then s else
    let s := if s.link inst = 1 ∨ s.link inst = 2 ∨ s.link inst = 3 then s.attemptFails inst else s
    if s.link inst = 0 then s else s.toDetect inst
  | _ => s

/-- A block's waiting shadows commit together; those of breakpoints and watchpoints only while L2 is in effect (R262). -/
def applyShadowCommit (b : Block) (inst : Nat) (s : State) : State :=
  let s := if b = .CDC then s.dropBadBases else s
  let l := s.waiting b inst
  if b = .DBG ∧ s.level < 2 then s.dropShadows l else
  let s := if b = .FEN then s.mirrorsChanged l else s
  let s := foldState (fun s (x : Field × Nat × Nat) => s.setReg x.1 (s.regS x.1 x.2.1 x.2.2) x.2.1 x.2.2) l s
  (s.dropShadows l).afterCommit b inst

/-- Writes to a block have reached its domain: its shadows commit at the next tick, as one event that has the place of the
first register written. -/
def execShadowCommit (b : Block) (inst : Nat) (s : State) : Host.Outcome State Fault Refusal :=
  done (if s.stopped 4 then s
    else if b = .PIN then s.commitPins
    else match s.waiting b inst with
      | [] => s
      | x :: t =>
        let off (x : Field × Nat × Nat) : Nat := x.1.spec.off + x.1.spec.stride * x.2.2
        s.later 9 (cfgSrc b inst (t.foldl (fun m y => min m (off y)) (off x))) (.shadowCommit b inst))

/-! ### Register writes (R24–R28, R528) -/

/-- The state that a command of the table leaves; the commands that a write stands for always leave one. -/
def nextOf (o : Host.Outcome State Fault Refusal) (s : State) : State :=
  match o with
  | .next t => t
  | _ => s

/-- What a write of a mailbox command does; codes above 10 are not listed. -/
def State.mailboxCmd (s : State) (path : Path) (v : Nat) : State :=
  match v with
  | 1 => nextOf (execGetChallenge path s) s
  | 2 => nextOf (execSubmitToken path s) s
  | 3 => nextOf (execRelinquish path s) s
  | 4 => nextOf (execLcRequest path s) s
  | 5 => nextOf (execOwnerSet path s) s
  | 6 => nextOf (execOwnerRotate path s) s
  | 7 => nextOf (execAttest path s) s
  | 8 => nextOf (execFwStage path s) s
  | 9 => nextOf (execFwActivate path s) s
  | 10 => nextOf (execFwAccept path s) s
  | _ => s.cfgErr .SEC

/-- Two free values, the larger first: the mesh's sums of a snapshot. -/
def State.snapValues (s : State) : Nat × Nat × State :=
  let a := Config.freeValue s.free 0
  let b := Config.freeValue (s.free + 1) 0
  (a + b, b, { s with free := s.free + 2 })

/-- The action of a WO field written with a non-zero value (R26). -/
def State.action (s : State) (path : Path) (f : Field) (inst v : Nat) : State :=
  let cl : Fin 64 := Fin.ofNat 64 inst
  let k : Fin 8 := Fin.ofNat 8 inst
  match f with
  | .COR_CNT_CLR => nextOf (execCorCntClr (Fin.ofNat 256 inst) s) s
  | .DBG_CMD => if v ≤ 5 then debugRequest v s else s.cfgErr .DBG
  | .BRK_RO_START => s.startReadOut (s.isSet .BRK_RO_MEM)
  | .TILE_WIN_COMMIT => nextOf (execTileWinCommit s) s
  | .MEM_DEAD_DECLARE => nextOf (execMemDeadDeclare s) s
  | .MEM_CH_RETIRE_GO => nextOf (execMemChRetireGo k s) s
  | .CDC_SLOT_OP => if v ≤ 4 then s.slotOpWrite v else s.cfgErr .CDC
  | .CPL_RETRAIN => nextOf (execCplRetrain cl s) s
  | .CPL_RESTART => nextOf (execCplRestart cl s) s
  | .CPL_LANE_RETIRE_GO => nextOf (execCplLaneRetireGo cl s) s
  | .RTE_FILL => nextOf (execRteFill (BitVec.ofNat 2 v) s) s
  | .RTE_SW_GO => nextOf (execRteSwGo s) s
  | .CTX_CREATE => nextOf (execCtxCreate s) s
  | .CTX_RESET => nextOf (execCtxReset s) s
  | .FEN_INIT_GO => nextOf (execFenInitGo s) s
  | .CRG_PHASE_RETIRE_GO => nextOf (execCrgPhaseRetireGo cl s) s
  | .MGC_SVC_CLEAR => nextOf (execMgcSvcClear s) s
  | .MGC_RETIRE_GO => nextOf (execMgcRetireGo s) s
  | .MGC_LDG_SNAP => let (issued, out, s) := s.snapValues; nextOf (execMgcLdgSnap issued out s) s
  | .MGC_LDG_AUDIT => nextOf (execMgcLdgAudit s) s
  | .SEC_MBX_CMD => s.mailboxCmd path v
  | .PIN_RESET_CMD => s.resetCommand v 4
  | _ => s

/-- Whether a value is a listed encoding of an entry (R28, R732). -/
def Field.lists (f : Field) (n v : Nat) : Bool := f.spec.enc.lists v && (f != .PIN_FUNC || funcOk n v)

/-- The fields of the context that only a write in state NONE changes (R535): those of class A. -/
def contextFixed (f : Field) : Bool := f.spec.block == .CTX && f.spec.access == .rw && !f.spec.shadowed

/-- A write of `v` to an entry of a field, by its access code; the second answer says whether the write is counted as a
configuration error. -/
def State.writeField (s : State) (path : Path) (f : Field) (inst n v : Nat) : State × Bool :=
  match f.spec.access with
  | .ro => (s, false)
  | .w1c => (s.setReg f (s.reg f inst n - (s.reg f inst n &&& v)) inst n, false)
  | .wo => (if v = 0 then s else s.action path f inst v, false)
  | .rw =>
    if !f.lists n v then (s, true)
    else if contextFixed f && s.reg .CTX_STATE != 0 then (s, true)
    else if f = .RTE_LOADED then (nextOf (execRteLoaded (BitVec.ofNat 2 v) s) s, false)
    else if f = .DBG_ACC_DATA_HI then (nextOf (execDbgAccWrite none (BitVec.ofNat 32 v) s) s, false)
    else if f.spec.block = .DBG ∧ f.spec.shadowed ∧ s.level < 2 then (s.setReg .DBG_RESULT 1, false)
    else if f.spec.shadowed || f.spec.block == .TILE then (s.setShadow f v inst n, false)
    else if f = .TIK_ALIGN_EN then ((s.setReg f v).chooseParent, false)
    else (s.setReg f v inst n, false)

/-- Whether a word written to a register sets only bits that a field has (R30). -/
def reservedOk (fs : List (Field × Nat × Nat × Nat)) (v : Nat) : Bool :=
  decide (fs.foldl (fun r x => putBits r x.2.2.1 x.2.2.2 0) v = 0)

/-- A write of a word to the MSI-X table; clearing a mask sends the message that is pending (R527). -/
def State.writeMsix (s : State) (vec word v : Nat) : State :=
  let e := NMap.get (0, 0, true) s.host.msixTable vec
  let e' : Nat × Nat × Bool := match word with
    | 0 => (putBits e.1 31 0 v, e.2)
    | 1 => (putBits e.1 63 32 v, e.2)
    | 2 => (e.1, v, e.2.2)
    | _ => (e.1, e.2.1, v % 2 == 1)
  let s : State := { s with host := { s.host with msixTable := NMap.insert s.host.msixTable vec e' } }
  if !e'.2.2 && s.host.msixPending.contains vec then
    { s with host := { s.host with msixPending := s.host.msixPending.erase vec } }.sendMsi vec
  else s

/-- A write of one whole register; `none` where it sets a reserved bit, for which the spec gives no outcome (R8, R30). -/
def State.writeWord (s : State) (path : Path) (b : Block) (inst off v : Nat) : Option State :=
  if b = .HIF ∧ msixBase ≤ off ∧ off < msixBase + 256 then
    let word := off / 4 % 4
    if (word = 0 ∧ v % 4 ≠ 0) ∨ (word = 3 ∧ 1 < v) then none else some (s.writeMsix ((off - msixBase) / 16) word v)
  else if b = .HIF ∧ off = pbaBase ∨ noDeadRegs b inst off then some s
  else if b = .RTE ∧ rteBase ≤ off ∧ off < rteBase + 2 * 65536 * 16 then
    let e := (off - rteBase) / 16
    let word := off / 4 % 4
    if (word = 2 ∧ 4 ≤ v) ∨ (word = 3 ∧ v ≠ 0) then none
    else some (nextOf (execRteEnt (Fin.ofNat 2 (e / 65536)) (Fin.ofNat 65536 e) (Fin.ofNat 4 word) (BitVec.ofNat 32 v) s) s)
  else
    let fs := b.at' off
    if !reservedOk fs v then none
    else if b = .MGC ∧ off = 0x10 then some (s.writeTileId (BitVec.ofNat 32 v))
    else if b = .COR ∧ !s.hasClock (clusterOf inst) then some s
    else
      let wo (x : Field × Nat × Nat × Nat) : Bool := x.1.spec.access == .wo
      let one (a : State × Bool) (x : Field × Nat × Nat × Nat) : State × Bool :=
        let r := a.1.writeField path x.1 (a.1.instOf x.1 inst) x.2.1 (bitsOf v x.2.2.1 x.2.2.2)
        (r.1, a.2 || r.2)
      let r := ((fs.filter fun x => !wo x) ++ fs.filter wo).foldl one (s, false)
      some (if r.2 then r.1.cfgErr b inst else r.1)

/-- A register whose bytes are not all enabled is not written, and the write is counted (R25). -/
def State.writeReg (s : State) (path : Path) (b : Block) (inst off : Nat) (bytes : List (Option Byte)) : Option State :=
  if bytes.all (·.isSome) then s.writeWord path b inst off (leNat (bytes.filterMap id))
  else if bytes.any (·.isSome) then some (s.cfgErr b inst)
  else some s

/-- Whether a braked tile accepts a write: of the read-out registers alone (R271, R678); they are written only then. -/
def roWrite (b : Block) (off : Nat) : Bool := b == .BRK && (off == 0x18 || off == 0x20 || off == 0x24)

/-- A write that reaches BAR0 (R59, R60, R528): of 4 or 8 bytes with their enables, at an aligned offset. -/
def State.writeBar (s : State) (path : Path) (at' : Bar0) (bytes : List (Option Byte)) : Option State :=
  let n := bytes.length
  let aligned (off : Nat) : Bool := (n == 4 || n == 8) && off % n == 0
  match at' with
  | .deck _ => some s
  | .hole off => some (if aligned off || s.isSet .BRK_BRAKED then s else s.cfgErr .HIF)
  | .block b inst off =>
    if b.instances ≤ inst then some s
    else if s.isSet .BRK_BRAKED != roWrite b off then some s
    else if !aligned off then some (s.cfgErr .HIF)
    else
      let lo := s.writeReg path b inst off (bytes.take 4)
      if n = 4 then lo else lo.bind fun s => s.writeReg path b inst (off + 4) (bytes.drop 4)

/-- A register write of the host through BAR0. -/
def execRegisterWrite (at' : Bar0) (bytes : List (Option Byte)) (s : State) : Host.Outcome State Fault Refusal :=
  if !s.hostEn || s.host.inReset || !s.booted then done s else
  match s.writeBar .bar0 at' bytes with
  | some t => done t
  | none => .fault .notDefined

end Sys2Proof.Machine
end

