-- ==== Sys2Proof/Machine/Manage.lean ====
section
/-!
DEFINITION. The I²C management target and its commands, the PMBus host, the board record's staging copy, and the status
pins (R731, R735–R741, R746).
-/
namespace Sys2Proof.Machine

/-! ### The target (R735–R738) -/

/-- Status and data of a response. -/
def State.respond (s : State) (status : Nat) (data : List Byte) : State := { s with pin := { s.pin with resp := some (status, data) } }

/-- Receives a command: a response that has not been read is discarded, a bad PEC is counted and not executed, and the
state of the tile may turn the command away with BUSY or NOT_READY.  A tile in reset, braked, or without its pads does not
answer. -/
def State.i2c (s : State) (pec status mbx : Bool) (f : State → State) : State :=
  if s.inReset || s.isSet .BRK_BRAKED || s.padsTaken then s else
  let s : State := { s with pin := { s.pin with resp := none, pmb := s.pin.pmb.map fun p => { p with asked := false } } }
  if !pec then (s.count .PIN_I2C_PEC_ERR_CNT).respond 4 []
  else if s.isSet .MGC_RESTARTING && !status then s.respond 1 []
  else if s.sec.recovery && !(status || mbx) then s.respond 6 []
  else f s

/-- An executed command is counted. -/
def State.i2cDone (s : State) : State := s.count .PIN_I2C_CMD_CNT

/-- The flags of STATUS. -/
def State.statusFlags (s : State) : Nat :=
  s.reg .DECK_READY + 2 * bit s.sec.recovery + 4 * s.reg .PWR_UV_ACTIVE + 8 * bit s.throttled + 16 * s.reg .PWR_TRIPPED
    + 32 * bit s.sec.badBoard

/-- The tile ID with its VALID bit. -/
def State.idWord (s : State) : Nat := match s.tileId with
  | some t => t + 2 ^ 31
  | none => 0

def execStatus (pec : Bool) (s : State) : Host.Outcome State Fault Refusal :=
  done (s.i2c pec true false fun s => s.i2cDone.respond 0
    (leBytes 1 s.lifecycle ++ leBytes 1 s.level ++ leBytes 1 s.statusFlags ++ leBytes 1 (s.reg .PIN_RESET_CAUSE)
      ++ leBytes 2 (s.reg .MGC_SVC_STATUS) ++ leBytes 2 0 ++ leBytes 4 s.idWord ++ leBytes 4 (s.reg .MGC_FW_VERSION)))

/-- A count from 1 to `max`, or BAD_LEN. -/
def State.counted (s : State) (n max : Nat) (f : State → State) : State := if n = 0 ∨ max < n then s.respond 3 [] else f s

def execDeckRead (pec : Bool) (off n : Nat) (s : State) : Host.Outcome State Fault Refusal :=
  done (s.i2c pec false false fun s => s.counted n 240 fun s => s.i2cDone.respond 0 (s.deckRead off n))

/-- An aligned 4-byte read of BAR0 with what it does besides: DBG_ACC performs its access, and the voltage floor recorder
starts again (R257, R617). -/
def State.readBar (s : State) (at' : Bar0) : Nat × State :=
  match at' with
  | .deck off => (leNat (s.deckRead off 4), s)
  | .hole _ => (0, s)
  | .block b inst off =>
    if b.instances ≤ inst then (0, s)
    else if b = .DBG ∧ off = Field.DBG_ACC_DATA_LO.spec.off then
      let s := nextOf (execDbgAccRead s) s
      (s.readWord b inst off, s)
    else if b = .CRG ∧ off = Field.CRG_VFLOOR_V.spec.off then (s.readWord b inst off, s.readFloor inst)
    else (s.readWord b inst off, s)

/-- The offset that a BAR0 operand names, in its block. -/
def barOffset : Bar0 → Nat
  | .deck off => off
  | .hole off => off
  | .block _ _ off => off

def execRegRead (pec : Bool) (at' : Bar0) (s : State) : Host.Outcome State Fault Refusal :=
  done (s.i2c pec false false fun s =>
    if barOffset at' % 4 ≠ 0 then s.respond 7 [] else
    let (v, s) := s.readBar at'
    s.i2cDone.respond 0 (leBytes 4 v))

/-- REG_WRITE reaches every register under the rules of BAR0; a reserved bit that is set has no given outcome. -/
def execRegWrite (pec : Bool) (at' : Bar0) (v : Word) (s : State) : Host.Outcome State Fault Refusal :=
  match s.writeBar .i2c at' ((leBytes 4 v.toNat).map some) with
  | some _ => done (s.i2c pec false false fun s => match s.writeBar .i2c at' ((leBytes 4 v.toNat).map some) with
    | some t => t.i2cDone.respond 0 []
    | none => s)
  | none => if !pec || s.inReset || s.isSet .BRK_BRAKED || s.padsTaken || s.isSet .MGC_RESTARTING || s.sec.recovery then
      done (s.i2c pec false false fun s => s)
    else .fault .notDefined

/-- SET_TILE_ID writes MGC_TILE_ID; a discarded write gives FAILED (R739). -/
def execSetTileId (pec : Bool) (id : BitVec 16) (valid : Bool) (s : State) : Host.Outcome State Fault Refusal :=
  done (s.i2c pec false false fun s =>
    let v : Word := BitVec.ofNat 32 (id.toNat + bit valid * 2 ^ 31)
    (s.writeTileId v).i2cDone.respond (if s.tileIdOk v then 0 else 7) [])

/-- RESET: a cold or warm reset leaves no response. -/
def execReset (pec : Bool) (level : BitVec 8) (s : State) : Host.Outcome State Fault Refusal :=
  done (s.i2c pec false false fun s =>
    if level = 1 ∨ level = 2 then s.i2cDone.resetCommand level.toNat 5
    else if level = 3 then (s.i2cDone.respond 0 []).resetCommand 3 5
    else s.respond 7 [])

/-- RETIRE_AGENT acts as a write of MEM_DEAD_DECLARE. -/
def execRetireAgent (pec : Bool) (id : BitVec 16) (cluster : Fin 64) (all : Bool) (s : State) : Host.Outcome State Fault Refusal :=
  done (s.i2c pec false false fun s => (s.declareAgent 0 id.toNat cluster all).i2cDone.respond 0 [])

/-! ### The mailbox over I²C (R709) -/

def execMbxWrite (pec : Bool) (off : Nat) (bs : List Byte) (s : State) : Host.Outcome State Fault Refusal :=
  done (s.i2c pec false true fun s => if 236 < bs.length ∨ 1024 < off + bs.length then s.respond 3 [] else
    (s.putMbx off bs).i2cDone.respond 0 [])

def execMbxRun (pec : Bool) (cmd : BitVec 8) (len : Nat) (s : State) : Host.Outcome State Fault Refusal :=
  done (s.i2c pec false true fun s =>
    if 1024 < len then s.respond 3 []
    else if cmd = 0 ∨ 10 < cmd.toNat then s.respond 7 []
    else
      let s := (s.setReg .SEC_MBX_LEN len).mailboxCmd .i2c cmd.toNat
      s.i2cDone.respond 0 (leBytes 1 (s.reg .SEC_MBX_RESULT)))

def execMbxRead (pec : Bool) (off n : Nat) (s : State) : Host.Outcome State Fault Refusal :=
  done (s.i2c pec false true fun s => s.counted n 240 fun s =>
    if 1024 < off + n then s.respond 3 [] else s.i2cDone.respond 0 (s.mbx off n))

/-! ### Reads at L1 (R737) -/

/-- A command that a level gates. -/
def State.atLevel (s : State) (l : Nat) (f : State → State) : State := if s.level < l then s.respond 5 [] else f s

def execTlmRead (pec : Bool) (off n : Nat) (s : State) : Host.Outcome State Fault Refusal :=
  done (s.i2c pec false false fun s => s.atLevel 1 fun s => s.counted n 240 fun s =>
    s.i2cDone.respond 0 ((List.range n).map fun i => BitVec.ofNat 8 (s.readWord .TLM 0 ((off + i) / 4 * 4) >>> (8 * ((off + i) % 4)))))

/-- JNL_READ returns journal records as the MGC reads them from memory; `recs` are the records, `none` for poison. -/
def execJnlRead (pec : Bool) (idx n : Nat) (recs : List (Option (List Byte))) (s : State) : Host.Outcome State Fault Refusal :=
  done (s.i2c pec false false fun s => s.atLevel 1 fun s => s.counted n 15 fun s =>
    let at' (i : Nat) : Nat := (s.reg64 .TIK_JNL_BASE_LO .TIK_JNL_BASE_HI + 16 * (idx + i)) % 2 ^ 48
    let seen := recs.length == n && recs.zipIdx.all fun x => s.seesRecord (0xFFFF * 2 ^ 48 + at' x.2) 16 x.1
    if 2 ^ s.reg .TIK_JNL_LOG2 < idx + n ∨ !seen ∨ recs.any (·.isNone) then s.respond 7 []
    else s.i2cDone.respond 0 (recs.flatMap fun r => r.getD []))

/-! ### PMBus (R741) -/

/-- Whether MF6 and MF7 belong to the PMBus host. -/
def State.pmbOn (s : State) : Bool := s.reg .PIN_FUNC 0 6 == 4 && s.reg .PIN_FUNC 0 7 == 4

/-- Bytes that a transaction writes besides its command code, and reads; a block has up to 240. -/
def pmbWrites (txn : Nat) : Nat := if txn = 1 then 1 else if txn = 2 then 2 else 0
def pmbReads (txn n : Nat) : Bool := if txn = 3 then n == 1 else if txn = 4 then n == 2 else if txn = 5 then decide (n ≤ 240) else n == 0

/-- PMB_XFER starts a transaction; its response is BUSY until the transaction ends. -/
def execPmbXfer (pec : Bool) (addr : BitVec 7) (txn : Nat) (code : Byte) (bs : List Byte) (s : State) : Host.Outcome State Fault Refusal :=
  done (s.i2c pec false false fun s =>
    if !s.pmbOn then s.respond 6 []
    else if 5 < txn ∨ bs.length ≠ pmbWrites txn then s.respond 3 []
    else if s.pin.pmb.isSome then s.respond 1 []
    else { s.i2cDone with pin := { s.pin with
      resp := none, pmb := some { addr := addr.toNat, txn := txn, code := code.toNat, data := bs, since := s.time.bnd } } })

/-- A transaction ends: with what it read, or failed: not acknowledged, with a bad PEC, or past the timeout. -/
def execPmbDone (ok : Bool) (bs : List Byte) (s : State) : Host.Outcome State Fault Refusal :=
  done (match s.pin.pmb with
    | none => s
    | some p =>
      if s.inReset || s.isSet .BRK_BRAKED || (ok && !pmbReads p.txn bs.length) then s else
      let s : State := { s with pin := { s.pin with pmb := none } }
      if !p.asked then s
      else if ok && s.pmbOn && decide (s.time.bnd ≤ p.since + ticksOfUs 25000) then s.respond 0 bs
      else s.respond 7 [])

/-! ### The board record (R729–R731) -/

def execBoardRead (pec : Bool) (off n : Nat) (s : State) : Host.Outcome State Fault Refusal :=
  done (s.i2c pec false false fun s => s.counted n 128 fun s =>
    if 128 < off + n then s.respond 3 []
    else s.i2cDone.respond 0 (((s.sec.board.getD (List.replicate 128 0)).drop off).take n))

/-- Whether the stored record may be changed: in BLANK and OPEN, and in SEALED with an owner token of L2 or higher. -/
def State.boardOpen (s : State) : Bool :=
  s.lifecycle == 0 || s.lifecycle == 2 || (s.lifecycle == 1 && decide (2 ≤ tokenLevel s.sec.owner))

def execBoardWrite (pec : Bool) (off : Nat) (bs : List Byte) (s : State) : Host.Outcome State Fault Refusal :=
  done (s.i2c pec false false fun s =>
    if !s.boardOpen then s.respond 5 []
    else if 128 < off + bs.length then s.respond 3 []
    else { s.i2cDone with sec := { s.sec with staging := overlay s.sec.staging off bs } }.respond 0 [])

/-- BOARD_COMMIT stores a valid staging copy; the copy is all zeros after it either way. -/
def execBoardCommit (pec : Bool) (s : State) : Host.Outcome State Fault Refusal :=
  done (s.i2c pec false false fun s =>
    if !s.boardOpen then s.respond 5 [] else
    let ok := boardOk s.sec.staging
    { s.i2cDone with sec := { s.sec with board := if ok then some s.sec.staging else s.sec.board,
                                         staging := List.replicate 128 0 } }.respond (if ok then 0 else 7) [])

/-! ### Status pins (R669, R746) -/

/-- ALERT_N is low. -/
def State.alertLow (s : State) : Bool := s.sec.recovery || s.isSet .PWR_UV_ACTIVE || s.throttled || s.isSet .PWR_TRIPPED

/-- SERVICE_N is low. -/
def State.serviceLow (s : State) : Bool := s.reg .MGC_SVC_STATUS != 0

/-- THERMTRIP_N is low (R644). -/
def State.thermtripLow (s : State) : Bool := s.isSet .PWR_TRIPPED

end Sys2Proof.Machine
end

