-- ==== Sys2Proof/Machine/Tap.lean ====
section
/-!
DEFINITION. The test access port (R743–R745): its instructions with their data registers, the access register, and the
read-out of the image.
-/
namespace Sys2Proof.Machine

/-- Selects an instruction; DONE and DENIED belong to accesses made under it. -/
def State.selectTap (s : State) (ir : TapIr) : State := { s with pin := { s.pin with ir := ir, tapDone := false, tapDenied := false } }

/-- IDCODE. -/
def State.idcode (s : State) : Nat :=
  0xB * 2 ^ 28 + s.reg .HIF_IDS_DEVICE % 65536 * 4096 + Config.manufacturer % 2048 * 2 + 1

/-- TAP reset selects IDCODE. -/
def execTapReset (s : State) : Host.Outcome State Fault Refusal := done (s.selectTap .idcode)

def execIdcode (s : State) : Host.Outcome State Fault Refusal :=
  done { (s.selectTap .idcode) with pin := { (s.selectTap .idcode).pin with tapData := s.idcode } }

def execBypass (s : State) : Host.Outcome State Fault Refusal := done (s.selectTap .bypass)

/-! ### Boundary scan (R745) -/

/-- The boundary register is scanned: it captures the pads and takes new values.  Cells 0–15 are MF0–MF15; the other pins
that it covers follow. -/
def State.boundary (s : State) (pads v : Nat) : State := { s with pin := { s.pin with bsr := pads, bsrOut := v } }

def execExtest (pads v : BitVec 32) (s : State) : Host.Outcome State Fault Refusal :=
  done ((s.boundary pads.toNat v.toNat).selectTap .extest)

def execSamplePreload (pads v : BitVec 32) (s : State) : Host.Outcome State Fault Refusal :=
  done ((s.boundary pads.toNat v.toNat).selectTap .samplePreload)

def execClamp (s : State) : Host.Outcome State Fault Refusal := done (s.selectTap .clamp)
def execHighz (s : State) : Host.Outcome State Fault Refusal := done (s.selectTap .highz)

/-! ### Private instructions (R743, R744) -/

/-- The level that a private instruction needs. -/
def tapLevel : TapIr → Nat
  | .obs => 1
  | .dbgAcc => 2
  | .roAddr => 3
  | .roData => 3
  | .scan => 3
  | _ => 0

/-- Whether an instruction works: its level is in effect, and it works while braked, where the read-out has its own
authorisation. -/
def State.tapAllowed (s : State) (ir : TapIr) : Bool :=
  let braked := s.isSet .BRK_BRAKED
  match ir with
  | .obs => !braked && decide (1 ≤ s.level)
  | .mbx => !braked
  | .dbgAcc => !braked && decide (2 ≤ s.level)
  | .roAddr => if braked then s.isSet .BRK_RO_AUTH else decide (3 ≤ s.level)
  | .roData => if braked then s.isSet .BRK_RO_AUTH else decide (3 ≤ s.level)
  | .scan => decide (3 ≤ s.level)
  | _ => true

/-- An instruction whose level is not in effect captures DENIED. -/
def State.tapDeny (s : State) (denied : Bool) : State := { s with pin := { s.pin with tapDenied := denied } }

/-- Selects a private instruction. -/
def State.selectPrivate (s : State) (ir : TapIr) : State := (s.selectTap ir).tapDeny (!s.tapAllowed ir)

def execObs (s : State) : Host.Outcome State Fault Refusal := done (s.selectPrivate .obs)
def execTapMbx (s : State) : Host.Outcome State Fault Refusal := done (s.selectPrivate .mbx)
def execTapDbgAcc (s : State) : Host.Outcome State Fault Refusal := done (s.selectPrivate .dbgAcc)
def execTapScan (s : State) : Host.Outcome State Fault Refusal := done (s.selectPrivate .scan)

/-- Whether the selected instruction reaches what an access names: OBS reads everything, MBX the SEC block and DBG_ACC the
DEBUG block. -/
def tapReaches (ir : TapIr) (at' : Bar0) (write : Bool) : Bool :=
  match ir, at' with
  | .obs, _ => !write
  | .mbx, .block b _ _ => b == .SEC
  | .dbgAcc, .block b _ _ => b == .DBG
  | _, _ => false

/-- Update-DR of the access register with START set: a read leaves its data for the next Capture-DR, with DONE; an access
that is not allowed leaves DENIED and changes nothing else.  The register holds a word offset, so every access is aligned. -/
def execTapAccess (at' : Bar0) (write : Bool) (data : Word) (s : State) : Host.Outcome State Fault Refusal :=
  let ir := s.pin.ir
  if s.inReset || barOffset at' % 4 != 0 || !(ir == .obs || ir == .mbx || ir == .dbgAcc) then done s
  else if !s.tapAllowed ir || !tapReaches ir at' write then
    done { s with pin := { s.pin with tapDone := false, tapDenied := true } }
  else
    let finish (s : State) (v : Nat) : State := { s with pin := { s.pin with tapData := v, tapDone := true, tapDenied := false } }
    if write then match s.writeBar .tap at' ((leBytes 4 data.toNat).map some) with
      | some t => done (finish t data.toNat)
      | none => .fault .notDefined
    else
      let (v, t) := s.readBar at'
      done (finish t v)

/-! ### Read-out (R274, R744) -/

/-- RO_ADDR sets the image offset, and with START performs BRK_RO_START for its setting of BRK_RO_MEM. -/
def execRoAddr (v : DWord) (s : State) : Host.Outcome State Fault Refusal :=
  let ok := s.tapAllowed .roAddr
  let s := (s.selectTap .roAddr).tapDeny (!ok)
  done (if !ok then s else
    let s : State := { s with brk := { s.brk with roAddr := v.toNat / 8 % 2 ^ 58 * 8 } }
    if v.getLsbD 63 && s.isSet .BRK_BRAKED then (s.setReg .BRK_RO_MEM (bit (v.getLsbD 62))).startReadOut (v.getLsbD 62) else s)

/-- RO_DATA captures the 8 image bytes at the offset, little-endian, and its Update-DR advances the offset by 8. -/
def execRoData (s : State) : Host.Outcome State Fault Refusal :=
  let ok := s.tapAllowed .roData
  let v := leNat (s.readOut s.brk.roAddr 8)
  let s := (s.selectTap .roData).tapDeny (!ok)
  let s : State := { s with pin := { s.pin with tapData := v } }
  done (if !ok then s else { s with brk := { s.brk with roAddr := s.brk.roAddr + 8 } })

end Sys2Proof.Machine
end

