-- ==== Sys2Proof/Machine/Tick.lean ====
section
/-!
DEFINITION. The tick boundary (R99–R102, R109, R113, R114, R116–R118, R750, R751): fabric time, the capture of the pins, and
the application of the events that belong to the tick, in trump order; and the brake of a tick (R265).
-/
namespace Sys2Proof.Machine

/-- What an event does when it is applied. -/
def applyAct : TickAct → State → State
  | .reset l c => applyReset l c
  | .brake src n => applyBrake src n
  | .undervoltage mv => applyUndervoltage mv
  | .gateFault c k st mv => applyGateFault c k st mv
  | .thermalTrip n t => applyThermalTrip n t
  | .fatal c e => applyFatal c e
  | .security a => applySecurity a
  | .debugCmd c core slot sc t => applyDebug c core slot sc t
  | .doorbell t e => applyDoorbell t e
  | .ackWord a e => applyAck a e
  | .fenceSeen n _ => observeFence n
  | .shadowCommit b i => applyShadowCommit b i
  | .windowCommit => applyWindowCommit
  | .ctxCreate => State.ctxCreate
  | .slotOp op => applySlotOp op
  | .codecOp id => applyCodecOp id
  | .fenceInit => State.fenceInit
  | .ledgerSnap i o => applyLedgerSnap i o
  | .channelRetire k ch c => applyChannelRetire k ch c
  | .unitRetire k u c => applyUnitRetire k u c
  | .phaseRetire c => applyPhaseRetire c
  | .routeSwitch => applyRouteSwitch
  | .wakeTolerance ns => applyWakeTolerance ns
  | .exchange => applyExchange
  | .replayStart => applyReplayStart
  | .replayEnd => applyReplayEnd
  | .pinFunc => applyPinFunc
  | .watchFire n _ _ => fireWatch n
  | .telemetry x => applyTelemetry x
  | .linkUp n => applyLinkUp n
  | .eqApply n l => applyEq n l
  | .tileId => applyTileId

/-- Applies an event of the current tick. -/
def State.applyEvt (s : State) (e : TickEvt) : State := s.applyEvent e.cls e.src e.act (applyAct e.act)

/-- Applies, in trump order, what waits in the current tick for its brake: the brake, then the events after it. -/
def State.applyReady (s : State) : State :=
  foldState State.applyEvt s.time.ready { s with time := { s.time with ready := [] } }

/-- The events of one tick in trump order (R116); events of equal class and index keep the order of their coming. -/
def inTrumpOrder (l : List TickEvt) : List TickEvt := l.foldl (fun a e => insertEvt e a) []

/-- Whether an event is the brake. -/
def TickEvt.isBrake (e : TickEvt) : Bool := match e.act with
  | .brake _ _ => true
  | _ => false

/-- Applies the events that have come to belong to this tick up to its brake, if it has one; the rest wait for the brake. -/
def State.applyDue (s : State) : State :=
  let l := inTrumpOrder s.time.due
  let first := l.takeWhile fun (e : TickEvt) => !e.isBrake
  let rest := l.dropWhile fun (e : TickEvt) => !e.isBrake
  foldState State.applyEvt first { s with time := { s.time with due := [], ready := rest } }

/-- What is left of a slew after one more tick: a tick is lengthened or shortened by 1/256 at most (R109). -/
def slewed (x : Int) : Int := if 0 < x then x - 1 else if x < 0 then x + 1 else 0

/-- Fabric time at a boundary: one more, or 0 at the first after a cold reset (R99, R100). -/
def TimeSt.next (t : TimeSt) : TimeSt :=
  { t with now := if t.restart then 0 else t.now + 1, bnd := t.bnd + 1, restart := false, cur := {}, slew := slewed t.slew }

/-- What an edge watcher's detector makes of a capture: a change in a selected direction is one firing to come, and a pin
whose function settles is not compared (R601, R734). -/
def State.detect (s : State) (w : Watcher) : Watcher :=
  if !w.armed || w.kind != 1 || (NMap.find? s.pin.settle w.pin).isSome then w else
  let now := s.pin.cap.testBit w.pin
  let sel := if now then w.edge.testBit 0 else w.edge.testBit 1
  { w with last := now, next := if now != w.last && sel then w.next + 1 else w.next }

/-- The capture of MF0–MF15 at a boundary, and the edge detectors on it (R114, R601); while the test port has the pads the
capture stays (R745). -/
def State.capture (s : State) (mf : BitVec 16) : State :=
  if s.padsTaken then s else
  let s : State := { s with pin := { s.pin with cap := mf.toNat } }
  { s with cp := { s.cp with watch := s.cp.watch.map fun (x : Nat × Watcher) => (x.1, s.detect x.2) } }

/-- One tick more in the state that the tile is in: 100 of them are a microsecond of PWR_RES_T (R652). -/
def State.reside (s : State) : State :=
  let n := s.tileState
  let t := NMap.get 0 s.pwr.part n + 1
  let s : State := { s with pwr := { s.pwr with part := NMap.set 0 s.pwr.part n (t % 100) } }
  if t < 100 then s
  else s.setReg64 .PWR_RES_T_LO .PWR_RES_T_HI (min (s.reg64 .PWR_RES_T_LO .PWR_RES_T_HI 0 n + 1) (2 ^ 64 - 1)) 0 n

/-- A tick boundary.  `mf` are the levels of MF0–MF15 that it captures; `upsets` are the errors of the hardware that come
about in the tick before it, which no command makes. -/
def execTickBoundary (mf : BitVec 16) (upsets : List Upset) (s : State) : Host.Outcome State Fault Refusal :=
  done (if s.inReset then s else
    let s := s.applyReady
    if s.inReset then s else
    let t := { s with time := s.time.next }
    if t.stopped 4 then { s with time := { s.time with bnd := s.time.bnd + 1 } } else
    (((foldState applyUpset upsets (t.capture mf)).applyDue).reside).scanIdle)

/-- The brake of the current tick is applied, and then the events of the tick that come after it. -/
def execBrakeApply (s : State) : Host.Outcome State Fault Refusal := done s.applyReady

end Sys2Proof.Machine
end

