-- ==== Sys2Proof/Machine/Uniform.lean ====
section
/-!
DEFINITION. The uniform and predicate instructions and system reads (R181–R185, R205, R206): each uniform and
system-read instruction executes once for the whole hand (R151, R182).
-/
namespace Sys2Proof.Machine

/-- A uniform instruction that computes a register from its sources (R181). -/
def uniOp (opc n fnMask : Nat) (i : Issue) (ins : Insn) (f : Ty → Nat → Nat → Nat → DWord) (s : State) : State :=
  let sp (k : Nat) : Spc := if n < k then .no else .uni
  let r : OpRule := { types := tyInt, d := .uni, a := sp 1, b := sp 2, c := sp 3, fnMask := fnMask, p0 := true }
  let t := insnTy ins
  issue s i ins
    { opc := opc, unit := .uniform, names := vecNamesOf r ins 1 1 1 1 [],
      legal := fun h => ruleOk r h.vregs 1 1 1 1 ins,
      body := fun s _ h =>
        let v := f t (uniA h ins t) (if n ≤ 1 then 0 else uniB h ins t) (if n ≤ 2 then 0 else h.uTy t ins.src.toNat)
        s.setHand i.core i.slot (h.setU (ins.dst.toNat % 64) v) }

def execUmov (i : Issue) (ins : Insn) (s : State) : Host.Outcome State Fault Refusal :=
  done (uniOp 0x40 1 0 i ins (fun t a _ _ => uniResult t a) s)

def execUadd (i : Issue) (ins : Insn) (s : State) : Host.Outcome State Fault Refusal :=
  done (uniOp 0x41 2 1 i ins
    (fun t a b _ => uniResult t (intSum t (ins.fn.getLsbD 0) (intOf t a + intOf t b))) s)

def execUsub (i : Issue) (ins : Insn) (s : State) : Host.Outcome State Fault Refusal :=
  done (uniOp 0x42 2 1 i ins
    (fun t a b _ => uniResult t (intSum t (ins.fn.getLsbD 0) (intOf t a - intOf t b))) s)

def execUmul (i : Issue) (ins : Insn) (s : State) : Host.Outcome State Fault Refusal :=
  done (uniOp 0x43 2 0 i ins (fun t a b _ => uniResult t (a * b)) s)

def execUmulhi (i : Issue) (ins : Insn) (s : State) : Host.Outcome State Fault Refusal :=
  done (uniOp 0x44 2 0 i ins (fun t a b _ => uniResult t (aluMulhi t a b)) s)

def execUmin (i : Issue) (ins : Insn) (s : State) : Host.Outcome State Fault Refusal :=
  done (uniOp 0x45 2 0 i ins (fun t a b _ => uniResult t (aluMinMax t true a b).1) s)

def execUmax (i : Issue) (ins : Insn) (s : State) : Host.Outcome State Fault Refusal :=
  done (uniOp 0x46 2 0 i ins (fun t a b _ => uniResult t (aluMinMax t false a b).1) s)

def execUand (i : Issue) (ins : Insn) (s : State) : Host.Outcome State Fault Refusal :=
  done (uniOp 0x47 2 0 i ins (fun t a b _ => uniResult t (a &&& b)) s)

def execUor (i : Issue) (ins : Insn) (s : State) : Host.Outcome State Fault Refusal :=
  done (uniOp 0x48 2 0 i ins (fun t a b _ => uniResult t (a ||| b)) s)

def execUxor (i : Issue) (ins : Insn) (s : State) : Host.Outcome State Fault Refusal :=
  done (uniOp 0x49 2 0 i ins (fun t a b _ => uniResult t (a ^^^ b)) s)

def execUnot (i : Issue) (ins : Insn) (s : State) : Host.Outcome State Fault Refusal :=
  done (uniOp 0x4A 1 0 i ins (fun t a _ _ => uniResult t (aluNot t a)) s)

def execUshl (i : Issue) (ins : Insn) (s : State) : Host.Outcome State Fault Refusal :=
  done (uniOp 0x4B 2 0 i ins (fun t a b _ => uniResult t (aluShl t a b)) s)

def execUshr (i : Issue) (ins : Insn) (s : State) : Host.Outcome State Fault Refusal :=
  done (uniOp 0x4C 2 0 i ins (fun t a b _ => uniResult t (aluShr t a b)) s)

/-- ucmp: the code is FUN bits 3:0; codes 8–15 are illegal (R184). -/
def execUcmp (i : Issue) (ins : Insn) (s : State) : Host.Outcome State Fault Refusal :=
  done (uniOp 0x4D 2 7 i ins
    (fun t a b _ => BitVec.ofNat 64 (bit (cmpInt t (ins.fn.toNat % 16) a b))) s)

def execUsel (i : Issue) (ins : Insn) (s : State) : Host.Outcome State Fault Refusal :=
  done (uniOp 0x4E 3 0 i ins (fun t a b c => uniResult t (if c ≠ 0 then a else b)) s)

/-! ### Predicate instructions (R183) -/

/-- cmp: writes a predicate per enabled thread (R148, R184). -/
def execCmp (i : Issue) (ins : Insn) (s : State) : Host.Outcome State Fault Refusal :=
  let r : OpRule := { types := tyAll, d := .pred, a := .opn, b := .opn, c := .no, fnMask := 7 }
  let fp := footprint ins.typ.toNat
  let t := insnTy ins
  done (issue s i ins
    { opc := 0x60, unit := .vector, names := vecNamesOf r ins 1 fp fp 1 [ins.dst.toNat % 8],
      legal := fun h => ruleOk r h.vregs 1 fp fp 1 ins,
      body := fun s co h =>
        let f (k : Nat) := aluCmp t (ins.fn.toNat % 16) (srcA co h ins t k) (srcB co h ins t k)
        let fl := orFlags (fun k => (f k).2) (h.enabled ins)
        let h' := h.setP (ins.dst.toNat % 8) (h.enabled ins) fun k => (f k).1
        s.setHand i.core i.slot { h' with flags := h.flags ||| fl } })

/-- pand, por, pxor: FUN bit 0 inverts the first source and bit 1 the second (R183).  In the long form W1 is source B,
one bit for each thread (R166). -/
def predOp (opc : Nat) (i : Issue) (ins : Insn) (f : Bool → Bool → Bool) (s : State) : State :=
  let r : OpRule := { types := [0], d := .pred, a := .pred, b := .pred, c := .no, fnMask := 3, immOk := false }
  issue s i ins
    { opc := opc, unit := .vector,
      names := { p := [ins.prd.toNat, ins.dst.toNat % 8, ins.sra.toNat % 8, ins.srb.toNat % 8] },
      legal := fun h => ruleOk r h.vregs 1 1 1 1 ins,
      body := fun s _ h =>
        let b : DWord := if ins.lng then ins.w1 else h.p (ins.srb.toNat % 8)
        s.setHand i.core i.slot (h.setP (ins.dst.toNat % 8) (h.enabled ins) fun k =>
          f ((h.p (ins.sra.toNat % 8)).getLsbD k != ins.fn.getLsbD 0) (b.getLsbD k != ins.fn.getLsbD 1)) }

def execPand (i : Issue) (ins : Insn) (s : State) : Host.Outcome State Fault Refusal :=
  done (predOp 0x61 i ins (fun a b => a && b) s)

def execPor (i : Issue) (ins : Insn) (s : State) : Host.Outcome State Fault Refusal :=
  done (predOp 0x62 i ins (fun a b => a || b) s)

def execPxor (i : Issue) (ins : Insn) (s : State) : Host.Outcome State Fault Refusal :=
  done (predOp 0x63 i ins (fun a b => a != b) s)

def execPnot (i : Issue) (ins : Insn) (s : State) : Host.Outcome State Fault Refusal :=
  let r : OpRule := { types := [0], d := .pred, a := .pred, b := .no, c := .no }
  done (issue s i ins
    { opc := 0x64, unit := .vector, names := { p := [ins.prd.toNat, ins.dst.toNat % 8, ins.sra.toNat % 8] },
      legal := fun h => ruleOk r h.vregs 1 1 1 1 ins,
      body := fun s _ h =>
        s.setHand i.core i.slot (h.setP (ins.dst.toNat % 8) (h.enabled ins) fun k =>
          !(h.p (ins.sra.toNat % 8)).getLsbD k) })

/-- Whether every, some or no live thread's bit of a mask is 1 (R149). -/
def anyLive (h : Hand) (m : DWord) : Bool := (m &&& h.live) != 0
def allLive (h : Hand) (m : DWord) : Bool := (m &&& h.live) == h.live

/-- An instruction on the vector ALU that writes a uniform register from a predicate, for the hand as a whole (R185). -/
def predToUni (opc fnMask : Nat) (fnOk : Bool) (i : Issue) (ins : Insn) (f : Hand → DWord → DWord) (s : State) : State :=
  let r : OpRule := { types := [0], d := .uni, a := .pred, b := .no, c := .no, fnMask := fnMask, p0 := true }
  issue s i ins
    { opc := opc, unit := .vector, names := { p := [ins.sra.toNat % 8], u := [ins.dst.toNat % 64] },
      legal := fun h => ruleOk r h.vregs 1 1 1 1 ins && fnOk,
      body := fun s _ h => s.setHand i.core i.slot (h.setU (ins.dst.toNat % 64) (f h (h.p (ins.sra.toNat % 8)))) }

/-- ptest: FUN 1:0 asks any, all or none; FUN bit 2 inverts the source (R183). -/
def execPtest (i : Issue) (ins : Insn) (s : State) : Host.Outcome State Fault Refusal :=
  done (predToUni 0x65 7 (decide (ins.fn.toNat % 4 ≠ 3)) i ins (fun h m =>
    let m := if ins.fn.getLsbD 2 then ~~~m else m
    BitVec.ofNat 64 (bit (match ins.fn.toNat % 4 with
      | 0 => anyLive h m
      | 1 => allLive h m
      | _ => !anyLive h m))) s)

def execPcnt (i : Issue) (ins : Insn) (s : State) : Host.Outcome State Fault Refusal :=
  done (predToUni 0x66 0 true i ins (fun h m => BitVec.ofNat 64 (aluPopc .u64 (m &&& h.live).toNat)) s)

def execPmovu (i : Issue) (ins : Insn) (s : State) : Host.Outcome State Fault Refusal :=
  done (predToUni 0x67 0 true i ins (fun h m => m &&& h.live) s)

def execUpmov (i : Issue) (ins : Insn) (s : State) : Host.Outcome State Fault Refusal :=
  let r : OpRule := { types := [0], d := .pred, a := .uni, b := .no, c := .no }
  done (issue s i ins
    { opc := 0x68, unit := .vector, names := { p := [ins.prd.toNat, ins.dst.toNat % 8], u := [ins.sra.toNat % 64] },
      legal := fun h => ruleOk r h.vregs 1 1 1 1 ins,
      body := fun s _ h =>
        s.setHand i.core i.slot (h.setP (ins.dst.toNat % 8) (h.enabled ins) fun k =>
          (h.u (ins.sra.toNat % 64)).getLsbD k) })

/-- ptst: sets a predicate where the vector register is not zero, for U32 or U64 (R183). -/
def execPtst (i : Issue) (ins : Insn) (s : State) : Host.Outcome State Fault Refusal :=
  let r : OpRule := { types := [0, 3], d := .pred, a := .vec, b := .no, c := .no }
  let fp := footprint ins.typ.toNat
  done (issue s i ins
    { opc := 0x69, unit := .vector, names := vecNamesOf r ins 1 fp 1 1 [ins.dst.toNat % 8],
      legal := fun h => ruleOk r h.vregs 1 fp 1 1 ins,
      body := fun s co h =>
        s.setHand i.core i.slot (h.setP (ins.dst.toNat % 8) (h.enabled ins) fun k =>
          decide (co.vTy h (insnTy ins) ins.sra.toNat k ≠ 0)) })

/-! ### System reads (R205, R206) -/

/-- sys: FUN bits 3:0 select the quantity; selectors 6–15 are illegal (R205). -/
def execSys (i : Issue) (ins : Insn) (s : State) : Host.Outcome State Fault Refusal :=
  let r : OpRule := { types := [0], d := .uni, a := .no, b := .no, c := .no, fnMask := 15, p0 := true }
  let sel := ins.fn.toNat % 16
  done (issue s i ins
    { opc := 0xC8, unit := .uniform, names := { u := [ins.dst.toNat % 64] },
      legal := fun h => ruleOk r h.vregs 1 1 1 1 ins && decide (sel ≤ 5),
      body := fun s _ h =>
        let v := match sel with
          | 0 => s.coreTime
          | 1 => s.tileId.getD 0xFFFF
          | 2 => clusterOf i.core
          | 3 => i.core.val
          | 4 => i.slot.val
          | _ => h.live.toNat
        s.setHand i.core i.slot (h.setU (ins.dst.toNat % 64) (BitVec.ofNat 64 v)) })

/-- Whether an outstanding instruction can still set a sticky flag (R206): loads and atomics can set poison-seen,
and matrix instructions the IEEE flags. -/
def canFlag (o : MemOp) : Bool :=
  o.opc = 0x80 || o.opc = 0x82 || decide (0x88 ≤ o.opc ∧ o.opc ≤ 0x8F) || decide (0xA0 ≤ o.opc ∧ o.opc ≤ 0xA4)

/-- flg: waits for every earlier instruction that can set a flag, reads the flags and clears the selected ones. -/
def execFlg (i : Issue) (ins : Insn) (s : State) : Host.Outcome State Fault Refusal :=
  let r : OpRule := { types := [0], d := .uni, a := .no, b := .no, c := .no, fnMask := 0x3F, p0 := true }
  done (issue s i ins
    { opc := 0xC9, unit := .uniform, names := { u := [ins.dst.toNat % 64] },
      legal := fun h => ruleOk r h.vregs 1 1 1 1 ins,
      ready := fun _ _ h => !h.ops.any canFlag,
      body := fun s _ h =>
        let h' := h.setU (ins.dst.toNat % 64) (BitVec.ofNat 64 h.flags.toNat)
        s.setHand i.core i.slot { h' with flags := h.flags &&& ~~~(ins.fn.extractLsb' 0 6) } })

end Sys2Proof.Machine
end

