-- ==== Sys2Proof/Machine/Dispatch.lean ====
section
/-!
DEFINITION. The meaning of each command: one arm for each constructor of `Instr`, one direct call each.
-/
namespace Sys2Proof.Machine

open Sys2Proof

def exec (i : Instr) (s : State) : Host.Outcome State Fault Refusal :=
  match i with
  | .registerWrite at' bytes => Sys2Proof.Machine.execRegisterWrite at' bytes s
  | .shadowCommit b inst => Sys2Proof.Machine.execShadowCommit b inst s
  | .deckUpdate finish => Sys2Proof.Machine.execDeckUpdate finish s
  | .deckReady => Sys2Proof.Machine.execDeckReady s
  | .timeAnnSend n => Sys2Proof.Machine.execTimeAnnSend n s
  | .timeAnn n => Sys2Proof.Machine.execTimeAnn n s
  | .timeMeasure frac => Sys2Proof.Machine.execTimeMeasure frac s
  | .timeReq n t2 t3 => Sys2Proof.Machine.execTimeReq n t2 t3 s
  | .timeRsp n t4 => Sys2Proof.Machine.execTimeRsp n t4 s
  | .timeStep => Sys2Proof.Machine.execTimeStep s
  | .replayStart => Sys2Proof.Machine.execReplayStart s
  | .replayApply rec => Sys2Proof.Machine.execReplayApply rec s
  | .replayEnd => Sys2Proof.Machine.execReplayEnd s
  | .handPlace => Sys2Proof.Machine.execHandPlace s
  | .handRelease x => Sys2Proof.Machine.execHandRelease x s
  | .storageZeroed core what n => Sys2Proof.Machine.execStorageZeroed core what n s
  | .branchWaitEnd x => Sys2Proof.Machine.execBranchWaitEnd x s
  | .yieldEnd x => Sys2Proof.Machine.execYieldEnd x s
  | .sleepEnd x => Sys2Proof.Machine.execSleepEnd x s
  | .instructionFetch x => Sys2Proof.Machine.execInstructionFetch x s
  | .mov h insn => Sys2Proof.Machine.execMov h insn s
  | .add h insn => Sys2Proof.Machine.execAdd h insn s
  | .sub h insn => Sys2Proof.Machine.execSub h insn s
  | .mul h insn => Sys2Proof.Machine.execMul h insn s
  | .mulhi h insn => Sys2Proof.Machine.execMulhi h insn s
  | .fma h insn => Sys2Proof.Machine.execFma h insn s
  | .min h insn => Sys2Proof.Machine.execMin h insn s
  | .max h insn => Sys2Proof.Machine.execMax h insn s
  | .abs h insn => Sys2Proof.Machine.execAbs h insn s
  | .neg h insn => Sys2Proof.Machine.execNeg h insn s
  | .and h insn => Sys2Proof.Machine.execAnd h insn s
  | .or h insn => Sys2Proof.Machine.execOr h insn s
  | .xor h insn => Sys2Proof.Machine.execXor h insn s
  | .not h insn => Sys2Proof.Machine.execNot h insn s
  | .shl h insn => Sys2Proof.Machine.execShl h insn s
  | .shr h insn => Sys2Proof.Machine.execShr h insn s
  | .rot h insn => Sys2Proof.Machine.execRot h insn s
  | .popc h insn => Sys2Proof.Machine.execPopc h insn s
  | .clz h insn => Sys2Proof.Machine.execClz h insn s
  | .bfe h insn => Sys2Proof.Machine.execBfe h insn s
  | .bfi h insn => Sys2Proof.Machine.execBfi h insn s
  | .sel h insn => Sys2Proof.Machine.execSel h insn s
  | .cvt h insn => Sys2Proof.Machine.execCvt h insn s
  | .div h insn => Sys2Proof.Machine.execDiv h insn s
  | .rem h insn => Sys2Proof.Machine.execRem h insn s
  | .sqrt h insn => Sys2Proof.Machine.execSqrt h insn s
  | .rcp h insn => Sys2Proof.Machine.execRcp h insn s
  | .rsqrt h insn => Sys2Proof.Machine.execRsqrt h insn s
  | .exp2 h insn => Sys2Proof.Machine.execExp2 h insn s
  | .log2 h insn => Sys2Proof.Machine.execLog2 h insn s
  | .sin h insn => Sys2Proof.Machine.execSin h insn s
  | .cos h insn => Sys2Proof.Machine.execCos h insn s
  | .lane h insn => Sys2Proof.Machine.execLane h insn s
  | .umov h insn => Sys2Proof.Machine.execUmov h insn s
  | .uadd h insn => Sys2Proof.Machine.execUadd h insn s
  | .usub h insn => Sys2Proof.Machine.execUsub h insn s
  | .umul h insn => Sys2Proof.Machine.execUmul h insn s
  | .umulhi h insn => Sys2Proof.Machine.execUmulhi h insn s
  | .umin h insn => Sys2Proof.Machine.execUmin h insn s
  | .umax h insn => Sys2Proof.Machine.execUmax h insn s
  | .uand h insn => Sys2Proof.Machine.execUand h insn s
  | .uor h insn => Sys2Proof.Machine.execUor h insn s
  | .uxor h insn => Sys2Proof.Machine.execUxor h insn s
  | .unot h insn => Sys2Proof.Machine.execUnot h insn s
  | .ushl h insn => Sys2Proof.Machine.execUshl h insn s
  | .ushr h insn => Sys2Proof.Machine.execUshr h insn s
  | .ucmp h insn => Sys2Proof.Machine.execUcmp h insn s
  | .usel h insn => Sys2Proof.Machine.execUsel h insn s
  | .cmp h insn => Sys2Proof.Machine.execCmp h insn s
  | .pand h insn => Sys2Proof.Machine.execPand h insn s
  | .por h insn => Sys2Proof.Machine.execPor h insn s
  | .pxor h insn => Sys2Proof.Machine.execPxor h insn s
  | .pnot h insn => Sys2Proof.Machine.execPnot h insn s
  | .ptest h insn => Sys2Proof.Machine.execPtest h insn s
  | .pcnt h insn => Sys2Proof.Machine.execPcnt h insn s
  | .pmovu h insn => Sys2Proof.Machine.execPmovu h insn s
  | .upmov h insn => Sys2Proof.Machine.execUpmov h insn s
  | .ptst h insn => Sys2Proof.Machine.execPtst h insn s
  | .bra h insn => Sys2Proof.Machine.execBra h insn s
  | .loopInsn h insn => Sys2Proof.Machine.execLoopInsn h insn s
  | .callInsn h insn => Sys2Proof.Machine.execCallInsn h insn s
  | .ret h insn => Sys2Proof.Machine.execRet h insn s
  | .halt h insn => Sys2Proof.Machine.execHalt h insn s
  | .brk h insn => Sys2Proof.Machine.execBrk h insn s
  | .trap h insn => Sys2Proof.Machine.execTrap h insn s
  | .yield h insn => Sys2Proof.Machine.execYield h insn s
  | .sleepTicks h insn => Sys2Proof.Machine.execSleepTicks h insn s
  | .noticeInsn h insn => Sys2Proof.Machine.execNoticeInsn h insn s
  | .nopInsn h insn => Sys2Proof.Machine.execNopInsn h insn s
  | .ld h insn => Sys2Proof.Machine.execLd h insn s
  | .st h insn => Sys2Proof.Machine.execSt h insn s
  | .uld h insn => Sys2Proof.Machine.execUld h insn s
  | .ust h insn => Sys2Proof.Machine.execUst h insn s
  | .fence h insn => Sys2Proof.Machine.execFence h insn s
  | .invInsn h insn => Sys2Proof.Machine.execInvInsn h insn s
  | .atomAdd h insn => Sys2Proof.Machine.execAtomAdd h insn s
  | .atomMin h insn => Sys2Proof.Machine.execAtomMin h insn s
  | .atomMax h insn => Sys2Proof.Machine.execAtomMax h insn s
  | .atomAnd h insn => Sys2Proof.Machine.execAtomAnd h insn s
  | .atomOr h insn => Sys2Proof.Machine.execAtomOr h insn s
  | .atomXor h insn => Sys2Proof.Machine.execAtomXor h insn s
  | .atomXchg h insn => Sys2Proof.Machine.execAtomXchg h insn s
  | .atomCas h insn => Sys2Proof.Machine.execAtomCas h insn s
  | .memAccessComplete x op => Sys2Proof.Machine.execMemAccessComplete x op s
  | .poisonTrap x => Sys2Proof.Machine.execPoisonTrap x s
  | .mxLd h insn => Sys2Proof.Machine.execMxLd h insn s
  | .mma h insn => Sys2Proof.Machine.execMma h insn s
  | .mmaStart core => Sys2Proof.Machine.execMmaStart core s
  | .mxSt h insn => Sys2Proof.Machine.execMxSt h insn s
  | .mxClr h insn => Sys2Proof.Machine.execMxClr h insn s
  | .mxCvtReg h insn => Sys2Proof.Machine.execMxCvtReg h insn s
  | .mxCvtTile h insn => Sys2Proof.Machine.execMxCvtTile h insn s
  | .matrixInsnComplete x op => Sys2Proof.Machine.execMatrixInsnComplete x op s
  | .noticeGateShut core => Sys2Proof.Machine.execNoticeGateShut core s
  | .shflIdx h insn => Sys2Proof.Machine.execShflIdx h insn s
  | .shflUp h insn => Sys2Proof.Machine.execShflUp h insn s
  | .shflDown h insn => Sys2Proof.Machine.execShflDown h insn s
  | .shflXor h insn => Sys2Proof.Machine.execShflXor h insn s
  | .bcast h insn => Sys2Proof.Machine.execBcast h insn s
  | .rdlane h insn => Sys2Proof.Machine.execRdlane h insn s
  | .scan h insn => Sys2Proof.Machine.execScan h insn s
  | .red h insn => Sys2Proof.Machine.execRed h insn s
  | .enq h insn => Sys2Proof.Machine.execEnq h insn s
  | .fsig h insn => Sys2Proof.Machine.execFsig h insn s
  | .sys h insn => Sys2Proof.Machine.execSys h insn s
  | .flg h insn => Sys2Proof.Machine.execFlg h insn s
  | .handRemove x => Sys2Proof.Machine.execHandRemove x s
  | .debugStop x => Sys2Proof.Machine.execDebugStop x s
  | .dbgHalt => Sys2Proof.Machine.execDbgHalt s
  | .dbgRun => Sys2Proof.Machine.execDbgRun s
  | .dbgStep => Sys2Proof.Machine.execDbgStep s
  | .dbgKill => Sys2Proof.Machine.execDbgKill s
  | .dbgBrake => Sys2Proof.Machine.execDbgBrake s
  | .dbgAccRead => Sys2Proof.Machine.execDbgAccRead s
  | .dbgAccWrite lo hi => Sys2Proof.Machine.execDbgAccWrite lo hi s
  | .brakeNLow => Sys2Proof.Machine.execBrakeNLow s
  | .brake n => Sys2Proof.Machine.execBrake n s
  | .brakeApply => Sys2Proof.Machine.execBrakeApply s
  | .brakeStopDomains => Sys2Proof.Machine.execBrakeStopDomains s
  | .brkRoStart => Sys2Proof.Machine.execBrkRoStart s
  | .tileWinCommit => Sys2Proof.Machine.execTileWinCommit s
  | .windowDrainDone => Sys2Proof.Machine.execWindowDrainDone s
  | .rds m => Sys2Proof.Machine.execRds m s
  | .rdx m => Sys2Proof.Machine.execRdx m s
  | .wb m => Sys2Proof.Machine.execWb m s
  | .ce m => Sys2Proof.Machine.execCe m s
  | .ncrd m => Sys2Proof.Machine.execNcrd m s
  | .ncwr m => Sys2Proof.Machine.execNcwr m s
  | .ncatom m => Sys2Proof.Machine.execNcatom m s
  | .strd m => Sys2Proof.Machine.execStrd m s
  | .stwr m => Sys2Proof.Machine.execStwr m s
  | .rejoin m => Sys2Proof.Machine.execRejoin m s
  | .data m => Sys2Proof.Machine.execData m s
  | .grant m => Sys2Proof.Machine.execGrant m s
  | .ack m => Sys2Proof.Machine.execAck m s
  | .atomRsp m => Sys2Proof.Machine.execAtomRsp m s
  | .snps m => Sys2Proof.Machine.execSnps m s
  | .snpx m => Sys2Proof.Machine.execSnpx m s
  | .snpnc m => Sys2Proof.Machine.execSnpnc m s
  | .inv m => Sys2Proof.Machine.execInv m s
  | .mcastSnoop m => Sys2Proof.Machine.execMcastSnoop m s
  | .snpRsp m => Sys2Proof.Machine.execSnpRsp m s
  | .winHoldEnd c line => Sys2Proof.Machine.execWinHoldEnd c line s
  | .snoopDeadline k ls a => Sys2Proof.Machine.execSnoopDeadline k ls a s
  | .routeLossTimeout d => Sys2Proof.Machine.execRouteLossTimeout d s
  | .memDeadDeclare => Sys2Proof.Machine.execMemDeadDeclare s
  | .reclaimWalkDone k => Sys2Proof.Machine.execReclaimWalkDone k s
  | .lossReport k => Sys2Proof.Machine.execLossReport k s
  | .reqTimeout c tag => Sys2Proof.Machine.execReqTimeout c tag s
  | .tagQuarantineEnd c tag => Sys2Proof.Machine.execTagQuarantineEnd c tag s
  | .leaveCoherence c => Sys2Proof.Machine.execLeaveCoherence c s
  | .leaveCoherenceDone c => Sys2Proof.Machine.execLeaveCoherenceDone c s
  | .cacheInitDone u => Sys2Proof.Machine.execCacheInitDone u s
  | .memInitDone k slow => Sys2Proof.Machine.execMemInitDone k slow s
  | .refresh k forced => Sys2Proof.Machine.execRefresh k forced s
  | .scrubStep k ch pc forced => Sys2Proof.Machine.execScrubStep k ch pc forced s
  | .rowSpare k ls left forced => Sys2Proof.Machine.execRowSpare k ls left forced s
  | .memChRetireGo k => Sys2Proof.Machine.execMemChRetireGo k s
  | .chRetireWalk k => Sys2Proof.Machine.execChRetireWalk k s
  | .chRetireDone k => Sys2Proof.Machine.execChRetireDone k s
  | .readTimingAdjust k ch pc pin early late => Sys2Proof.Machine.execReadTimingAdjust k ch pc pin early late s
  | .writeTraining k ch pc moves ok forced => Sys2Proof.Machine.execWriteTraining k ch pc moves ok forced s
  | .stackTempRead k temp fast forced => Sys2Proof.Machine.execStackTempRead k temp fast forced s
  | .packerBlock k forced => Sys2Proof.Machine.execPackerBlock k forced s
  | .asmFlushTimeout c block => Sys2Proof.Machine.execAsmFlushTimeout c block s
  | .slotLoad => Sys2Proof.Machine.execSlotLoad s
  | .slotArm => Sys2Proof.Machine.execSlotArm s
  | .slotClear => Sys2Proof.Machine.execSlotClear s
  | .slotHistClr => Sys2Proof.Machine.execSlotHistClr s
  | .beacon n => Sys2Proof.Machine.execBeacon n s
  | .signalDetect n => Sys2Proof.Machine.execSignalDetect n s
  | .trainingFrame n phys ctl => Sys2Proof.Machine.execTrainingFrame n phys ctl s
  | .trainPhaseEnd n lanes => Sys2Proof.Machine.execTrainPhaseEnd n lanes s
  | .trainTimeout n => Sys2Proof.Machine.execTrainTimeout n s
  | .codewordLock n nonce => Sys2Proof.Machine.execCodewordLock n nonce s
  | .codewordLockLoss n => Sys2Proof.Machine.execCodewordLockLoss n s
  | .identify n => Sys2Proof.Machine.execIdentify n s
  | .identifySeal n entry => Sys2Proof.Machine.execIdentifySeal n entry s
  | .identifyAck n => Sys2Proof.Machine.execIdentifyAck n s
  | .identifyResend n => Sys2Proof.Machine.execIdentifyResend n s
  | .identifyTimeout n => Sys2Proof.Machine.execIdentifyTimeout n s
  | .timeTimeout n => Sys2Proof.Machine.execTimeTimeout n s
  | .linkUp n => Sys2Proof.Machine.execLinkUp n s
  | .downExit n => Sys2Proof.Machine.execDownExit n s
  | .laneSerLimit n lane counts => Sys2Proof.Machine.execLaneSerLimit n lane counts s
  | .cplRetrain n => Sys2Proof.Machine.execCplRetrain n s
  | .cplRestart n => Sys2Proof.Machine.execCplRestart n s
  | .cplLaneRetireGo n => Sys2Proof.Machine.execCplLaneRetireGo n s
  | .lpReq n => Sys2Proof.Machine.execLpReq n s
  | .lpAck n => Sys2Proof.Machine.execLpAck n s
  | .lpExit n beacon => Sys2Proof.Machine.execLpExit n beacon s
  | .lpExitTimeout n => Sys2Proof.Machine.execLpExitTimeout n s
  | .eqUpdSend n lane codes forced => Sys2Proof.Machine.execEqUpdSend n lane codes forced s
  | .eqUpd n => Sys2Proof.Machine.execEqUpd n s
  | .eqAck n => Sys2Proof.Machine.execEqAck n s
  | .eqNak n => Sys2Proof.Machine.execEqNak n s
  | .eqApply n lane => Sys2Proof.Machine.execEqApply n lane s
  | .bankPllUnlock b => Sys2Proof.Machine.execBankPllUnlock b s
  | .flitReceive n first ok corr bs => Sys2Proof.Machine.execFlitReceive n first ok corr bs s
  | .link n => Sys2Proof.Machine.execLink n s
  | .linkSend n => Sys2Proof.Machine.execLinkSend n s
  | .replayTimeout n => Sys2Proof.Machine.execReplayTimeout n s
  | .couplerAudit n => Sys2Proof.Machine.execCouplerAudit n s
  | .packetForward from' => Sys2Proof.Machine.execPacketForward from' s
  | .routeWaitRelease => Sys2Proof.Machine.execRouteWaitRelease s
  | .routeWaitTimeout => Sys2Proof.Machine.execRouteWaitTimeout s
  | .rteSwGo => Sys2Proof.Machine.execRteSwGo s
  | .routeSw n => Sys2Proof.Machine.execRouteSw n s
  | .routeSwitch => Sys2Proof.Machine.execRouteSwitch s
  | .routeDrainEnd => Sys2Proof.Machine.execRouteDrainEnd s
  | .rteFill mask => Sys2Proof.Machine.execRteFill mask s
  | .rteFillDone => Sys2Proof.Machine.execRteFillDone s
  | .rteEnt gen id word v => Sys2Proof.Machine.execRteEnt gen id word v s
  | .rteLoaded mask => Sys2Proof.Machine.execRteLoaded mask s
  | .bar2Read x n => Sys2Proof.Machine.execBar2Read x n s
  | .bar2Write x bs ep => Sys2Proof.Machine.execBar2Write x bs ep s
  | .bar2Atomic x op wide c new => Sys2Proof.Machine.execBar2Atomic x op wide c new s
  | .hostCompletion tag data ep => Sys2Proof.Machine.execHostCompletion tag data ep s
  | .hostCplTimeout tag => Sys2Proof.Machine.execHostCplTimeout tag s
  | .ctxCreate => Sys2Proof.Machine.execCtxCreate s
  | .ctxReset => Sys2Proof.Machine.execCtxReset s
  | .functionLevelReset => Sys2Proof.Machine.execFunctionLevelReset s
  | .d3hotEntry => Sys2Proof.Machine.execD3hotEntry s
  | .contextResetDone => Sys2Proof.Machine.execContextResetDone s
  | .doorbellPoll => Sys2Proof.Machine.execDoorbellPoll s
  | .doorbellObserve => Sys2Proof.Machine.execDoorbellObserve s
  | .ackObserve => Sys2Proof.Machine.execAckObserve s
  | .headWriteback => Sys2Proof.Machine.execHeadWriteback s
  | .descFetch b => Sys2Proof.Machine.execDescFetch b s
  | .descNop => Sys2Proof.Machine.execDescNop s
  | .descList => Sys2Proof.Machine.execDescList s
  | .descExchange => Sys2Proof.Machine.execDescExchange s
  | .exchangeCommit => Sys2Proof.Machine.execExchangeCommit s
  | .descComplete => Sys2Proof.Machine.execDescComplete s
  | .evtMsi => Sys2Proof.Machine.execEvtMsi s
  | .fenceSignal m => Sys2Proof.Machine.execFenceSignal m s
  | .fenceObserve n => Sys2Proof.Machine.execFenceObserve n s
  | .fenInitGo => Sys2Proof.Machine.execFenInitGo s
  | .mirrorWrite m => Sys2Proof.Machine.execMirrorWrite m s
  | .cpNop ws => Sys2Proof.Machine.execCpNop ws s
  | .cpBarrier ws => Sys2Proof.Machine.execCpBarrier ws s
  | .cpLaunch ws => Sys2Proof.Machine.execCpLaunch ws s
  | .cpLaunchIndirect ws t => Sys2Proof.Machine.execCpLaunchIndirect ws t s
  | .cpCopy ws data => Sys2Proof.Machine.execCpCopy ws data s
  | .cpFill ws => Sys2Proof.Machine.execCpFill ws s
  | .cpWriteValue ws => Sys2Proof.Machine.execCpWriteValue ws s
  | .cpSignal ws => Sys2Proof.Machine.execCpSignal ws s
  | .cpSignalAdd ws => Sys2Proof.Machine.execCpSignalAdd ws s
  | .cpWait ws => Sys2Proof.Machine.execCpWait ws s
  | .waitTimeout => Sys2Proof.Machine.execWaitTimeout s
  | .cpIf ws v t => Sys2Proof.Machine.execCpIf ws v t s
  | .cpElse ws t => Sys2Proof.Machine.execCpElse ws t s
  | .cpEndif ws => Sys2Proof.Machine.execCpEndif ws s
  | .cpLoop ws t => Sys2Proof.Machine.execCpLoop ws t s
  | .cpLoopWhile ws v t => Sys2Proof.Machine.execCpLoopWhile ws v t s
  | .cpEndloop ws => Sys2Proof.Machine.execCpEndloop ws s
  | .cpCall ws => Sys2Proof.Machine.execCpCall ws s
  | .cpReturn ws => Sys2Proof.Machine.execCpReturn ws s
  | .cpPatch ws v => Sys2Proof.Machine.execCpPatch ws v s
  | .cpTimerWait ws => Sys2Proof.Machine.execCpTimerWait ws s
  | .timerWaitEnd => Sys2Proof.Machine.execTimerWaitEnd s
  | .cpWatch ws => Sys2Proof.Machine.execCpWatch ws s
  | .cpUnwatch ws => Sys2Proof.Machine.execCpUnwatch ws s
  | .cpSurvey ws data => Sys2Proof.Machine.execCpSurvey ws data s
  | .cpEncode ws data => Sys2Proof.Machine.execCpEncode ws data s
  | .cpSeal ws => Sys2Proof.Machine.execCpSeal ws s
  | .cpNotice ws => Sys2Proof.Machine.execCpNotice ws s
  | .cpSetWakeTolerance ws => Sys2Proof.Machine.execCpSetWakeTolerance ws s
  | .asyncComplete id => Sys2Proof.Machine.execAsyncComplete id s
  | .cpReqTimeout tag => Sys2Proof.Machine.execCpReqTimeout tag s
  | .listComplete id => Sys2Proof.Machine.execListComplete id s
  | .taskComplete id => Sys2Proof.Machine.execTaskComplete id s
  | .kittyRecordReady n => Sys2Proof.Machine.execKittyRecordReady n s
  | .kittyLaunch ps => Sys2Proof.Machine.execKittyLaunch ps s
  | .kittySignal => Sys2Proof.Machine.execKittySignal s
  | .kittySignalAdd => Sys2Proof.Machine.execKittySignalAdd s
  | .kittyList => Sys2Proof.Machine.execKittyList s
  | .watchTimerFire n => Sys2Proof.Machine.execWatchTimerFire n s
  | .watchEdgeFire n => Sys2Proof.Machine.execWatchEdgeFire n s
  | .watchMemoryRead n => Sys2Proof.Machine.execWatchMemoryRead n s
  | .freqChange c => Sys2Proof.Machine.execFreqChange c s
  | .freqSwitch c => Sys2Proof.Machine.execFreqSwitch c s
  | .currentClamp c above => Sys2Proof.Machine.execCurrentClamp c above s
  | .droopGuard c code => Sys2Proof.Machine.execDroopGuard c code s
  | .crgVfloorV c => Sys2Proof.Machine.execCrgVfloorV c s
  | .phaseFail c phase driver => Sys2Proof.Machine.execPhaseFail c phase driver s
  | .crgPhaseRetireGo c => Sys2Proof.Machine.execCrgPhaseRetireGo c s
  | .turnOn c => Sys2Proof.Machine.execTurnOn c s
  | .gateFault c check stage mv => Sys2Proof.Machine.execGateFault c check stage mv s
  | .clusterReady c => Sys2Proof.Machine.execClusterReady c s
  | .noticeReceive => Sys2Proof.Machine.execNoticeReceive s
  | .noticeAck c => Sys2Proof.Machine.execNoticeAck c s
  | .stateEntry x => Sys2Proof.Machine.execStateEntry x s
  | .wake x latency => Sys2Proof.Machine.execWake x latency s
  | .uvEmergency mv => Sys2Proof.Machine.execUvEmergency mv s
  | .uvClear mv => Sys2Proof.Machine.execUvClear mv s
  | .collapse mv => Sys2Proof.Machine.execCollapse mv s
  | .thermalThrottle temps => Sys2Proof.Machine.execThermalThrottle temps s
  | .thermalTrip sensor temp => Sys2Proof.Machine.execThermalTrip sensor temp s
  | .governor watts => Sys2Proof.Machine.execGovernor watts s
  | .telemetrySample mv ma clus temps forced => Sys2Proof.Machine.execTelemetrySample mv ma clus temps forced s
  | .corCntClr core => Sys2Proof.Machine.execCorCntClr core s
  | .mgcRetireGo => Sys2Proof.Machine.execMgcRetireGo s
  | .clusterRetire => Sys2Proof.Machine.execClusterRetire s
  | .drainDeadline c => Sys2Proof.Machine.execDrainDeadline c s
  | .couplerRetire => Sys2Proof.Machine.execCouplerRetire s
  | .couplerRetireDrained n => Sys2Proof.Machine.execCouplerRetireDrained n s
  | .serviceEval => Sys2Proof.Machine.execServiceEval s
  | .mgcSvcClear => Sys2Proof.Machine.execMgcSvcClear s
  | .ledgerAudit book inst => Sys2Proof.Machine.execLedgerAudit book inst s
  | .mgcLdgAudit => Sys2Proof.Machine.execMgcLdgAudit s
  | .mgcLdgSnap issued out => Sys2Proof.Machine.execMgcLdgSnap issued out s
  | .errorWindowRoll => Sys2Proof.Machine.execErrorWindowRoll s
  | .getChallenge path => Sys2Proof.Machine.execGetChallenge path s
  | .submitToken path => Sys2Proof.Machine.execSubmitToken path s
  | .relinquish path => Sys2Proof.Machine.execRelinquish path s
  | .lcRequest path => Sys2Proof.Machine.execLcRequest path s
  | .lcReset => Sys2Proof.Machine.execLcReset s
  | .ownerSet path => Sys2Proof.Machine.execOwnerSet path s
  | .ownerRotate path => Sys2Proof.Machine.execOwnerRotate path s
  | .attest path => Sys2Proof.Machine.execAttest path s
  | .fwStage path => Sys2Proof.Machine.execFwStage path s
  | .fwActivate path => Sys2Proof.Machine.execFwActivate path s
  | .mgcRestart => Sys2Proof.Machine.execMgcRestart s
  | .mgcRestartDone => Sys2Proof.Machine.execMgcRestartDone s
  | .fwAccept path => Sys2Proof.Machine.execFwAccept path s
  | .tokenExpire vendor => Sys2Proof.Machine.execTokenExpire vendor s
  | .resetNLow => Sys2Proof.Machine.execResetNLow s
  | .resetNRelease mf => Sys2Proof.Machine.execResetNRelease mf s
  | .pwrgdLow => Sys2Proof.Machine.execPwrgdLow s
  | .perstNLow => Sys2Proof.Machine.execPerstNLow s
  | .pinResetCold => Sys2Proof.Machine.execPinResetCold s
  | .pinResetWarm => Sys2Proof.Machine.execPinResetWarm s
  | .pinResetContext => Sys2Proof.Machine.execPinResetContext s
  | .pinFuncCommit => Sys2Proof.Machine.execPinFuncCommit s
  | .pinSettleEnd n => Sys2Proof.Machine.execPinSettleEnd n s
  | .mgcTileId v => Sys2Proof.Machine.execMgcTileId v s
  | .status pec => Sys2Proof.Machine.execStatus pec s
  | .deckRead pec off n => Sys2Proof.Machine.execDeckRead pec off n s
  | .regRead pec at' => Sys2Proof.Machine.execRegRead pec at' s
  | .regWrite pec at' v => Sys2Proof.Machine.execRegWrite pec at' v s
  | .setTileId pec id valid => Sys2Proof.Machine.execSetTileId pec id valid s
  | .reset pec level => Sys2Proof.Machine.execReset pec level s
  | .retireAgent pec id cluster all => Sys2Proof.Machine.execRetireAgent pec id cluster all s
  | .mbxWrite pec off bs => Sys2Proof.Machine.execMbxWrite pec off bs s
  | .mbxRun pec cmd len => Sys2Proof.Machine.execMbxRun pec cmd len s
  | .mbxRead pec off n => Sys2Proof.Machine.execMbxRead pec off n s
  | .tlmRead pec off n => Sys2Proof.Machine.execTlmRead pec off n s
  | .jnlRead pec idx n recs => Sys2Proof.Machine.execJnlRead pec idx n recs s
  | .pmbXfer pec addr txn code bs => Sys2Proof.Machine.execPmbXfer pec addr txn code bs s
  | .pmbDone ok bs => Sys2Proof.Machine.execPmbDone ok bs s
  | .boardRead pec off n => Sys2Proof.Machine.execBoardRead pec off n s
  | .boardWrite pec off bs => Sys2Proof.Machine.execBoardWrite pec off bs s
  | .boardCommit pec => Sys2Proof.Machine.execBoardCommit pec s
  | .tapReset => Sys2Proof.Machine.execTapReset s
  | .extest pads v => Sys2Proof.Machine.execExtest pads v s
  | .idcode => Sys2Proof.Machine.execIdcode s
  | .samplePreload pads v => Sys2Proof.Machine.execSamplePreload pads v s
  | .clamp => Sys2Proof.Machine.execClamp s
  | .highz => Sys2Proof.Machine.execHighz s
  | .obs => Sys2Proof.Machine.execObs s
  | .tapMbx => Sys2Proof.Machine.execTapMbx s
  | .tapDbgAcc => Sys2Proof.Machine.execTapDbgAcc s
  | .tapAccess at' write data => Sys2Proof.Machine.execTapAccess at' write data s
  | .roAddr v => Sys2Proof.Machine.execRoAddr v s
  | .roData => Sys2Proof.Machine.execRoData s
  | .tapScan => Sys2Proof.Machine.execTapScan s
  | .bypass => Sys2Proof.Machine.execBypass s
  | .tickBoundary mf upsets => Sys2Proof.Machine.execTickBoundary mf upsets s
  | .unassignedOpcode h opc insn => Sys2Proof.Machine.execUnassignedOpcode h opc insn s
  | .pwrgdRelease mf => Sys2Proof.Machine.execPwrgdRelease mf s
  | .perstNRelease => Sys2Proof.Machine.execPerstNRelease s
  | .couplerTimeExchange n frac => Sys2Proof.Machine.execCouplerTimeExchange n frac s
  | .bankPllLock b => Sys2Proof.Machine.execBankPllLock b s
  | .hostLinkChange gts width => Sys2Proof.Machine.execHostLinkChange gts width s
  | .vfloorRecord c code => Sys2Proof.Machine.execVfloorRecord c code s

end Sys2Proof.Machine
end

