-- ==== Sys2Proof/Safety.lean ====
section
/-!
DEFINITION. The words that claims use: which parts of the state two states share, what a command that issues from a hand
needs, and what counts as a safe run.
-/
namespace Sys2Proof.Safety
open Sys2Proof.Machine

/-- The parts of the state. -/
inductive Comp where
  | pending | free | regs | shadow | time | mem | cores | clus | homes | mesh | xmit | dead | filter | filterInit
  | winEntries | winNew | posted | rejoin | rte | cpls | host | tasks | cp | brk | pwr | mgc | codec | sec | deck | pin
deriving DecidableEq, Repr

/-- `t` agrees with `s` in every part but those listed. -/
def Same (ch : List Comp) (s t : State) : Prop :=
  (.pending ∈ ch ∨ t.pending = s.pending) ∧ (.free ∈ ch ∨ t.free = s.free) ∧ (.regs ∈ ch ∨ t.regs = s.regs)
  ∧ (.shadow ∈ ch ∨ t.shadow = s.shadow) ∧ (.time ∈ ch ∨ t.time = s.time) ∧ (.mem ∈ ch ∨ t.mem = s.mem)
  ∧ (.cores ∈ ch ∨ t.cores = s.cores) ∧ (.clus ∈ ch ∨ t.clus = s.clus) ∧ (.homes ∈ ch ∨ t.homes = s.homes)
  ∧ (.mesh ∈ ch ∨ t.mesh = s.mesh) ∧ (.xmit ∈ ch ∨ t.xmit = s.xmit) ∧ (.dead ∈ ch ∨ t.dead = s.dead)
  ∧ (.filter ∈ ch ∨ t.filter = s.filter) ∧ (.filterInit ∈ ch ∨ t.filterInit = s.filterInit)
  ∧ (.winEntries ∈ ch ∨ t.winEntries = s.winEntries) ∧ (.winNew ∈ ch ∨ t.winNew = s.winNew)
  ∧ (.posted ∈ ch ∨ t.posted = s.posted) ∧ (.rejoin ∈ ch ∨ t.rejoin = s.rejoin) ∧ (.rte ∈ ch ∨ t.rte = s.rte)
  ∧ (.cpls ∈ ch ∨ t.cpls = s.cpls) ∧ (.host ∈ ch ∨ t.host = s.host) ∧ (.tasks ∈ ch ∨ t.tasks = s.tasks)
  ∧ (.cp ∈ ch ∨ t.cp = s.cp) ∧ (.brk ∈ ch ∨ t.brk = s.brk) ∧ (.pwr ∈ ch ∨ t.pwr = s.pwr) ∧ (.mgc ∈ ch ∨ t.mgc = s.mgc)
  ∧ (.codec ∈ ch ∨ t.codec = s.codec) ∧ (.sec ∈ ch ∨ t.sec = s.sec) ∧ (.deck ∈ ch ∨ t.deck = s.deck)
  ∧ (.pin ∈ ch ∨ t.pin = s.pin)

/-- Every register but those of the fields listed reads as before. -/
def SameRegs (fs : List Field) (s t : State) : Prop := ∀ f i n, f ∉ fs → t.reg f i n = s.reg f i n

/-- A command answers the next state `t`. -/
def Goes (c : Instr) (s t : State) : Prop := exec c s = .next t

/-- A command answers a next state of which `p` holds. -/
def Ends (c : Instr) (s : State) (p : State → Prop) : Prop := ∃ t, exec c s = .next t ∧ p t

/-- A step that goes on. -/
def Completes (o : Host.Outcome State Fault Refusal) : Prop := ∃ t, o = .next t

/-! ### Commands of a hand -/

/-- An instruction of hand `h` is at the point of issuing: its cluster is clocked, its words stand at the hand's program
counter, the choice rules let it issue, no breakpoint holds it, no poison waits to trap, and no register that it names is
still to be written or read by an earlier instruction. -/
def CanIssue (s : State) (i : Issue) (opc : Nat) (u : ExecUnit) (ins : Insn) (h : Hand) (names : Names) : Prop :=
  issuer s i opc u ins = some (s.core i.core, h) ∧ (breakMask s i.core i.slot h = 0 ∨ h.skipBp = true)
    ∧ h.poison = none ∧ mustWait h names = false

/-- As `CanIssue`, for an instruction given by what its issue asks: its fields are legal, it raises no matrix fault, nothing
that it must wait for is missing, and its accesses raise no fault. -/
def Clear (s : State) (i : Issue) (ins : Insn) (sp : IssueSpec) (h : Hand) : Prop :=
  CanIssue s i sp.opc sp.unit ins h sp.names ∧ sp.legal h = true ∧ sp.matrix h = false
    ∧ sp.ready s (s.core i.core) h = true ∧ sp.access s (s.core i.core) h = none

/-- The registers that count issues (R157). -/
def issueFields : List Field := [.COR_ISSUE_CNT_LO, .COR_ISSUE_CNT_HI, .COR_DUAL_CNT_LO, .COR_DUAL_CNT_HI]

/-- Nothing changes but the hand that issues, storage of its core, and the counts of issues. -/
def OnlyHand (i : Issue) (s t : State) : Prop :=
  Same [.cores, .regs] s t ∧ SameRegs issueFields s t ∧ (∀ d, d ≠ i.core.val → t.core d = s.core d)
    ∧ ∀ n, n ≠ i.slot.val → t.hand i.core n = s.hand i.core n

/-- As `OnlyHand`, and no vector register changes. -/
def OnlyHandRegs (i : Issue) (s t : State) : Prop := OnlyHand i s t ∧ (t.core i.core).vrf = (s.core i.core).vrf

/-- A command of the vector ALU that gives each enabled thread a result and flags: its constructor and opcode, the demands on
its fields, how many vector registers its destination and sources take, the predicate registers it names beside PRD, and the
result. -/
structure VecRow where
  cmd : Issue → Insn → Instr
  opc : Nat
  rule : Insn → OpRule
  nd : Insn → Nat
  na : Insn → Nat
  nb : Insn → Nat
  nc : Insn → Nat
  legal : Insn → Bool
  preds : Insn → List Nat
  res : Core → Hand → Insn → Nat → Nat × FFlags

/-- The footprint of an instruction's TYP. -/
def fp (ins : Insn) : Nat := footprint ins.typ.toNat

/-- A row of the vector ALU whose sources and result have the instruction's own type (R172). -/
def aluRow (cmd : Issue → Insn → Instr) (opc : Nat) (types : List Nat) (n : Nat) (mask : Insn → Nat)
    (res : Insn → Nat → Nat → Nat → Nat × FFlags) : VecRow :=
  { cmd := cmd, opc := opc, rule := fun ins => vecRule types n (mask ins), nd := fp, na := fp, nb := fp, nc := fp,
    legal := fun _ => true, preds := fun _ => [],
    res := fun co h ins k => res ins (if n = 0 then k else srcA co h ins (insnTy ins) k)
      (if n ≤ 1 then 0 else srcB co h ins (insnTy ins) k) (if n ≤ 2 then 0 else srcC co h ins (insnTy ins) k) }

/-- The vector instructions of R172, in the order of its table. -/
def vecRows : List VecRow :=
  [aluRow .mov 0x01 tyAll 1 (fun _ => 0) fun _ a _ _ => (a, 0),
   aluRow .add 0x02 tyAll 2 satMask fun ins a b _ => aluAdd (insnTy ins) ins a b,
   aluRow .sub 0x03 tyAll 2 satMask fun ins a b _ => aluSub (insnTy ins) ins a b,
   aluRow .mul 0x04 tyAll 2 rndMask fun ins a b _ => aluMul (insnTy ins) ins a b,
   aluRow .mulhi 0x05 ty32 2 (fun _ => 0) fun ins a b _ => (aluMulhi (insnTy ins) a b, 0),
   aluRow .fma 0x06 (ty32 ++ tyFloat) 3 rndMask fun ins a b c => aluFma (insnTy ins) ins a b c,
   aluRow .min 0x07 tyAll 2 (fun _ => 0) fun ins a b _ => aluMinMax (insnTy ins) true a b,
   aluRow .max 0x08 tyAll 2 (fun _ => 0) fun ins a b _ => aluMinMax (insnTy ins) false a b,
   aluRow .abs 0x09 (1 :: 4 :: tyFloat) 1 (fun _ => 0) fun ins a _ _ => (aluAbs (insnTy ins) a, 0),
   aluRow .neg 0x0A (1 :: 4 :: tyFloat) 1 (fun _ => 0) fun ins a _ _ => (aluNeg (insnTy ins) a, 0),
   aluRow .and 0x0B tyInt 2 (fun _ => 0) fun _ a b _ => (a &&& b, 0),
   aluRow .or 0x0C tyInt 2 (fun _ => 0) fun _ a b _ => (a ||| b, 0),
   aluRow .xor 0x0D tyInt 2 (fun _ => 0) fun _ a b _ => (a ^^^ b, 0),
   aluRow .not 0x0E tyInt 1 (fun _ => 0) fun ins a _ _ => (2 ^ (insnTy ins).width - 1 - a % 2 ^ (insnTy ins).width, 0),
   aluRow .shl 0x0F tyInt 2 (fun _ => 0) fun ins a b _ => (aluShl (insnTy ins) a b, 0),
   aluRow .shr 0x10 tyInt 2 (fun _ => 0) fun ins a b _ => (aluShr (insnTy ins) a b, 0),
   aluRow .rot 0x11 [0, 3] 2 (fun _ => 0) fun ins a b _ => (aluRot (insnTy ins) a b, 0),
   aluRow .popc 0x12 tyInt 1 (fun _ => 0) fun ins a _ _ => (aluPopc (insnTy ins) a, 0),
   aluRow .clz 0x13 tyInt 1 (fun _ => 0) fun ins a _ _ => (aluClz (insnTy ins) a, 0),
   aluRow .bfe 0x14 ty32 2 (fun _ => 0) fun ins a b _ => (aluBfe (insnTy ins) a b, 0),
   aluRow .bfi 0x15 [0] 3 (fun _ => 0) fun _ a b c => (aluBfi a b c, 0),
   aluRow .div 0x18 [0, 1, 2, 5] 2 rndMask fun ins a b _ => aluDiv (insnTy ins) ins a b,
   aluRow .rem 0x19 ty32 2 (fun _ => 0) fun ins a b _ => aluRem (insnTy ins) a b,
   aluRow .sqrt 0x1A [2, 5] 1 (fun _ => 3) fun ins a _ _ => fmap1 (insnTy ins) (fun f => f.fsqrt (fnMode ins)) a,
   aluRow .rcp 0x1B [2] 1 (fun _ => 3) fun _ a _ _ => f32Rcp a,
   aluRow .rsqrt 0x1C [2] 1 (fun _ => 3) fun _ a _ _ => f32Rsqrt a,
   aluRow .exp2 0x1D [2] 1 (fun _ => 3) fun _ a _ _ => f32Exp2 a,
   aluRow .log2 0x1E [2] 1 (fun _ => 3) fun _ a _ _ => f32Log2 a,
   aluRow .sin 0x1F [2] 1 (fun _ => 3) fun _ a _ _ => f32Trig false a,
   aluRow .cos 0x20 [2] 1 (fun _ => 3) fun _ a _ _ => f32Trig true a,
   aluRow .lane 0x21 [0] 0 (fun _ => 0) fun _ k _ _ => (k, 0)]

/-- A row of the lane exchange: each enabled thread reads source A of the lane that `f` names from the selector and the
thread (R200). -/
def shflRow (cmd : Issue → Insn → Instr) (opc : Nat) (vecB : Bool) (f : Nat → Nat → Nat) : VecRow :=
  { cmd := cmd, opc := opc, rule := fun _ => { types := tyAll, d := .vec, a := .opn, b := .opn, c := .no },
    nd := fp, na := fp, nb := fun _ => 1, nc := fun _ => 1, legal := fun ins => vecB || ins.ub || ins.imb || ins.lng,
    preds := fun _ => [], res := fun co h ins k => (srcA co h ins (insnTy ins) (f (srcB co h ins .u32 k % 64) k), 0) }

/-- The lane exchange of R200, sel and cvt (R172, R180). -/
def moveRows : List VecRow :=
  [shflRow .shflIdx 0xB0 true fun b _ => b,
   shflRow .shflUp 0xB1 false fun b k => if b ≤ k then k - b else k,
   shflRow .shflDown 0xB2 false fun b k => if k + b ≤ 63 then k + b else k,
   shflRow .shflXor 0xB3 false fun b k => k ^^^ b,
   shflRow .bcast 0xB4 false fun b _ => b,
   { cmd := .sel, opc := 0x16, rule := fun _ => vecRule tyAll 2 15, nd := fp, na := fp, nb := fp, nc := fun _ => 1,
     legal := fun _ => true, preds := fun ins => [ins.fn.toNat % 8],
     res := fun co h ins k =>
       (if (h.p (ins.fn.toNat % 8)).getLsbD k != ins.fn.getLsbD 3 then srcA co h ins (insnTy ins) k
        else srcB co h ins (insnTy ins) k, 0) },
   { cmd := .cvt, opc := 0x17,
     rule := fun ins => vecRule tyAll (if insnTy ins = .f16x2 ∨ insnTy ins = .bf16x2 then 2 else 1) 0xFF,
     nd := fp, na := fun ins => footprint (ins.fn.toNat % 16), nb := fun ins => footprint (ins.fn.toNat % 16),
     nc := fun _ => 1, legal := fun ins => decide (ins.fn.toNat % 16 ≤ 6), preds := fun _ => [],
     res := fun co h ins k =>
       let src := (Ty.ofCode (ins.fn.toNat % 16)).getD .u32
       aluCvt (insnTy ins) ins src (srcA co h ins src k)
         (if !decide (insnTy ins = .f16x2 ∨ insnTy ins = .bf16x2) then 0
          else if ins.imb then immB ins (insnTy ins) else srcB co h ins src k) }]

/-- What such an instruction does: for each enabled thread its result stands in the destination, every other lane of it and
every other register stays, the flags that enabled threads raise join the hand's sticky flags, and the hand goes on to the
next instruction. -/
def VecEffect (r : VecRow) : Prop :=
  ∀ (s : State) (i : Issue) (ins : Insn) (h : Hand),
    CanIssue s i r.opc .vector ins h (vecNamesOf (r.rule ins) ins (r.nd ins) (r.na ins) (r.nb ins) (r.nc ins) (r.preds ins)) →
    ruleOk (r.rule ins) h.vregs (r.nd ins) (r.na ins) (r.nb ins) (r.nc ins) ins = true → r.legal ins = true →
    Ends (r.cmd i ins) s fun t =>
      let co := s.core i.core
      let h' := { h.issued s.coreTime ins with flags := h.flags ||| orFlags (fun k => (r.res co h ins k).2) (h.enabled ins) }
      t.hand i.core i.slot = some h'
      ∧ (∀ k < 64, (t.core i.core).vTy h (insnTy ins) ins.dst.toNat k =
          if h.enabled ins k then (r.res co h ins k).1 % 2 ^ (insnTy ins).width else co.vTy h (insnTy ins) ins.dst.toNat k)
      ∧ (∀ p, p ≠ h.phys ins.dst.toNat → ((insnTy ins).wide = true → p ≠ h.phys (ins.dst.toNat + 1)) →
          NMap.get zeroLanes (t.core i.core).vrf p = NMap.get zeroLanes co.vrf p)
      ∧ OnlyHand i s t

/-- A command that executes once for the hand and writes a uniform register (R182): what must hold beside the common
conditions, the value, and the sticky flags afterwards. -/
structure UniRow where
  cmd : Issue → Insn → Instr
  opc : Nat
  unit : ExecUnit
  names : Insn → Names
  legal : Hand → Insn → Bool
  ready : Hand → Bool := fun _ => true
  val : State → Issue → Hand → Insn → DWord
  flags : Hand → Insn → FFlags := fun h _ => h.flags

/-- The demands of a uniform instruction with `n` sources (R181). -/
def uniRule (n mask : Nat) : OpRule :=
  { types := tyInt, d := .uni, a := if n < 1 then .no else .uni, b := if n < 2 then .no else .uni,
    c := if n < 3 then .no else .uni, fnMask := mask, p0 := true }

/-- A row of the uniform ALU: its result from its sources (R181). -/
def uniRow (cmd : Issue → Insn → Instr) (opc n mask : Nat) (f : Insn → Ty → Nat → Nat → Nat → DWord) : UniRow :=
  { cmd := cmd, opc := opc, unit := .uniform, names := fun ins => vecNamesOf (uniRule n mask) ins 1 1 1 1 [],
    legal := fun h ins => ruleOk (uniRule n mask) h.vregs 1 1 1 1 ins,
    val := fun _ _ h ins => f ins (insnTy ins) (uniA h ins (insnTy ins)) (if n ≤ 1 then 0 else uniB h ins (insnTy ins))
      (if n ≤ 2 then 0 else h.uTy (insnTy ins) ins.src.toNat) }

/-- The demands of a command that reads a predicate register, or nothing, and writes a uniform one (R185, R205). -/
def toUniRule (a : Spc) (mask : Nat) : OpRule :=
  { types := [0], d := .uni, a := a, b := .no, c := .no, fnMask := mask, p0 := true }

/-- A row that tests or counts a predicate register for the hand as a whole (R185). -/
def testRow (cmd : Issue → Insn → Instr) (opc mask : Nat) (ok : Insn → Bool) (f : Insn → Hand → DWord → DWord) : UniRow :=
  { cmd := cmd, opc := opc, unit := .vector, names := fun ins => { p := [ins.sra.toNat % 8], u := [ins.dst.toNat % 64] },
    legal := fun h ins => ruleOk (toUniRule .pred mask) h.vregs 1 1 1 1 ins && ok ins,
    val := fun _ _ h ins => f ins h (h.p (ins.sra.toNat % 8)) }

/-- The instructions of R181, R185, R205 and R206. -/
def uniRows : List UniRow :=
  [uniRow .umov 0x40 1 0 fun _ t a _ _ => uniResult t a,
   uniRow .uadd 0x41 2 1 fun ins t a b _ => uniResult t (intSum t (ins.fn.getLsbD 0) (intOf t a + intOf t b)),
   uniRow .usub 0x42 2 1 fun ins t a b _ => uniResult t (intSum t (ins.fn.getLsbD 0) (intOf t a - intOf t b)),
   uniRow .umul 0x43 2 0 fun _ t a b _ => uniResult t (a * b),
   uniRow .umulhi 0x44 2 0 fun _ t a b _ => uniResult t (aluMulhi t a b),
   uniRow .umin 0x45 2 0 fun _ t a b _ => uniResult t (aluMinMax t true a b).1,
   uniRow .umax 0x46 2 0 fun _ t a b _ => uniResult t (aluMinMax t false a b).1,
   uniRow .uand 0x47 2 0 fun _ t a b _ => uniResult t (a &&& b),
   uniRow .uor 0x48 2 0 fun _ t a b _ => uniResult t (a ||| b),
   uniRow .uxor 0x49 2 0 fun _ t a b _ => uniResult t (a ^^^ b),
   uniRow .unot 0x4A 1 0 fun _ t a _ _ => uniResult t (2 ^ t.width - 1 - a % 2 ^ t.width),
   uniRow .ushl 0x4B 2 0 fun _ t a b _ => uniResult t (aluShl t a b),
   uniRow .ushr 0x4C 2 0 fun _ t a b _ => uniResult t (aluShr t a b),
   uniRow .ucmp 0x4D 2 7 fun ins t a b _ => BitVec.ofNat 64 (bit (cmpInt t (ins.fn.toNat % 16) a b)),
   uniRow .usel 0x4E 3 0 fun _ t a b c => uniResult t (if c ≠ 0 then a else b),
   testRow .ptest 0x65 7 (fun ins => decide (ins.fn.toNat % 4 ≠ 3)) fun ins h m =>
     let m := if ins.fn.getLsbD 2 then ~~~m else m
     BitVec.ofNat 64 (bit (if ins.fn.toNat % 4 = 0 then (m &&& h.live) != 0
       else if ins.fn.toNat % 4 = 1 then (m &&& h.live) == h.live else (m &&& h.live) == 0)),
   testRow .pcnt 0x66 0 (fun _ => true) fun _ h m => BitVec.ofNat 64 (aluPopc .u64 (m &&& h.live).toNat),
   testRow .pmovu 0x67 0 (fun _ => true) fun _ h m => m &&& h.live,
   { cmd := .sys, opc := 0xC8, unit := .uniform, names := fun ins => { u := [ins.dst.toNat % 64] },
     legal := fun h ins => ruleOk (toUniRule .no 15) h.vregs 1 1 1 1 ins && decide (ins.fn.toNat % 16 ≤ 5),
     val := fun s i h ins => BitVec.ofNat 64 ([s.time.now, s.tileId.getD 0xFFFF, i.core.val / 4, i.core.val, i.slot.val,
       h.live.toNat].getD (ins.fn.toNat % 16) 0) },
   { cmd := .flg, opc := 0xC9, unit := .uniform, names := fun ins => { u := [ins.dst.toNat % 64] },
     legal := fun h ins => ruleOk (toUniRule .no 0x3F) h.vregs 1 1 1 1 ins, ready := fun h => !h.ops.any canFlag,
     val := fun _ _ h _ => BitVec.ofNat 64 h.flags.toNat, flags := fun h ins => h.flags &&& ~~~(ins.fn.extractLsb' 0 6) },
   { cmd := .rdlane, opc := 0xB5, unit := .vector,
     names := fun ins => vecNamesOf { types := tyLane, d := .uni, a := .opn, b := .opn, c := .no, p0 := true } ins 1 (fp ins) 1 1 [],
     legal := fun h ins => ruleOk { types := tyLane, d := .uni, a := .opn, b := .opn, c := .no, p0 := true } h.vregs 1 (fp ins) 1 1 ins
       && (ins.ub || ins.imb || ins.lng),
     val := fun s i h ins => BitVec.ofNat 64
       (srcA (s.core i.core) h ins (insnTy ins) (srcB (s.core i.core) h ins .u32 0 % 64)) }]

/-- What such an instruction does: the register takes the value, and the hand goes on. -/
def UniEffect (r : UniRow) : Prop :=
  ∀ (s : State) (i : Issue) (ins : Insn) (h : Hand), CanIssue s i r.opc r.unit ins h (r.names ins) → r.legal h ins = true →
    r.ready h = true →
    Ends (r.cmd i ins) s fun t =>
      t.hand i.core i.slot = some { (h.issued s.coreTime ins).setU (ins.dst.toNat % 64) (r.val s i h ins) with flags := r.flags h ins }
      ∧ OnlyHandRegs i s t

/-- A command that writes a predicate register for enabled threads (R148, R183). -/
structure PredRow where
  cmd : Issue → Insn → Instr
  opc : Nat
  names : Insn → Names
  legal : Hand → Insn → Bool
  bit : Core → Hand → Insn → Nat → Bool
  flags : Core → Hand → Insn → FFlags := fun _ _ _ => 0

/-- A row that combines two predicate registers, each inverted by a FUN bit (R183). -/
def combineRow (cmd : Issue → Insn → Instr) (opc : Nat) (f : Bool → Bool → Bool) : PredRow :=
  { cmd := cmd, opc := opc,
    names := fun ins => { p := [ins.prd.toNat, ins.dst.toNat % 8, ins.sra.toNat % 8, ins.srb.toNat % 8] },
    legal := fun h ins =>
      ruleOk { types := [0], d := .pred, a := .pred, b := .pred, c := .no, fnMask := 3, immOk := false } h.vregs 1 1 1 1 ins,
    bit := fun _ h ins k => f ((h.p (ins.sra.toNat % 8)).getLsbD k != ins.fn.getLsbD 0)
      ((if ins.lng then ins.w1 else h.p (ins.srb.toNat % 8)).getLsbD k != ins.fn.getLsbD 1) }

/-- The instructions of R183 that write a predicate register. -/
def predRows : List PredRow :=
  [{ cmd := .cmp, opc := 0x60,
     names := fun ins => vecNamesOf { types := tyAll, d := .pred, a := .opn, b := .opn, c := .no, fnMask := 7 } ins 1 (fp ins)
       (fp ins) 1 [ins.dst.toNat % 8],
     legal := fun h ins => ruleOk { types := tyAll, d := .pred, a := .opn, b := .opn, c := .no, fnMask := 7 } h.vregs 1 (fp ins)
       (fp ins) 1 ins,
     bit := fun co h ins k => (aluCmp (insnTy ins) (ins.fn.toNat % 16) (srcA co h ins (insnTy ins) k)
       (srcB co h ins (insnTy ins) k)).1,
     flags := fun co h ins => orFlags (fun k => (aluCmp (insnTy ins) (ins.fn.toNat % 16) (srcA co h ins (insnTy ins) k)
       (srcB co h ins (insnTy ins) k)).2) (h.enabled ins) },
   combineRow .pand 0x61 fun a b => a && b,
   combineRow .por 0x62 fun a b => a || b,
   combineRow .pxor 0x63 fun a b => a != b,
   { cmd := .pnot, opc := 0x64, names := fun ins => { p := [ins.prd.toNat, ins.dst.toNat % 8, ins.sra.toNat % 8] },
     legal := fun h ins => ruleOk { types := [0], d := .pred, a := .pred, b := .no, c := .no } h.vregs 1 1 1 1 ins,
     bit := fun _ h ins k => !(h.p (ins.sra.toNat % 8)).getLsbD k },
   { cmd := .upmov, opc := 0x68,
     names := fun ins => { p := [ins.prd.toNat, ins.dst.toNat % 8], u := [ins.sra.toNat % 64] },
     legal := fun h ins => ruleOk { types := [0], d := .pred, a := .uni, b := .no, c := .no } h.vregs 1 1 1 1 ins,
     bit := fun _ h ins k => (h.u (ins.sra.toNat % 64)).getLsbD k },
   { cmd := .ptst, opc := 0x69,
     names := fun ins => vecNamesOf { types := [0, 3], d := .pred, a := .vec, b := .no, c := .no } ins 1 (fp ins) 1 1
       [ins.dst.toNat % 8],
     legal := fun h ins => ruleOk { types := [0, 3], d := .pred, a := .vec, b := .no, c := .no } h.vregs 1 (fp ins) 1 1 ins,
     bit := fun co h ins k => decide (co.vTy h (insnTy ins) ins.sra.toNat k ≠ 0) }]

/-- What such an instruction does: the enabled threads' bits take their values, bits of threads that are not live become 0,
and the others stay. -/
def PredEffect (r : PredRow) : Prop :=
  ∀ (s : State) (i : Issue) (ins : Insn) (h : Hand), CanIssue s i r.opc .vector ins h (r.names ins) → r.legal h ins = true →
    Ends (r.cmd i ins) s fun t =>
      (∃ h', t.hand i.core i.slot = some h' ∧ h'.pc = (h.issued s.coreTime ins).pc ∧ h'.ureg = h.ureg
        ∧ h'.flags = h.flags ||| r.flags (s.core i.core) h ins
        ∧ (∀ k < 64, ∀ p, (h'.p p).getLsbD k =
            if p = ins.dst.toNat % 8 ∧ p ≠ 0 then
              h.live.getLsbD k && (if h.enabled ins k then r.bit (s.core i.core) h ins k else (h.p p).getLsbD k)
            else (h.p p).getLsbD k))
      ∧ OnlyHandRegs i s t

/-- A command of the memory unit: the accesses it makes for enabled threads, as thread and address, and what each is
(R191–R197). -/
structure MemRow where
  cmd : Issue → Insn → Instr
  opc : Nat
  names : Insn → Names
  legal : Hand → Insn → Bool
  size : Insn → Nat
  release : Bool
  accs : Core → Hand → Insn → List (Nat × Nat)
  op : Core → Hand → Insn → Nat → PartOp
  hint : Insn → Nat := fun _ => 0

/-- HINT of a load or store (R193). -/
def hintOf (ins : Insn) : Nat := ins.fn.toNat / 256 % 4

/-- SIZE of a load or store, in bytes (R193). -/
def sizeOf' (ins : Insn) : Nat := 2 ^ (ins.fn.toNat % 8)

/-- A row of the atomics (R194). -/
def amoRow (cmd : Issue → Insn → Instr) (opc : Nat) (op : AmoOp) (types : List Nat) : MemRow :=
  let cas := op == .cas
  { cmd := cmd, opc := opc,
    names := fun ins =>
      let base := vecNamesOf (amoRule types) ins (fp ins) 2 1 (if cas then 2 * fp ins else fp ins) []
      if cas && ins.uc then { base with u := (ins.src.toNat + 1) % 64 :: base.u } else base
    legal := fun h ins => ruleOk (amoRule types) h.vregs (fp ins) 2 1 (fp ins) ins && !ins.imb && decide (scopeOf ins ≤ 5)
      && (!cas || (if ins.uc then decide (ins.src.toNat < 63) else decide (ins.src.toNat + 2 * fp ins ≤ h.vregs)))
    size := fun ins => (insnTy ins).width / 8, release := true, accs := threadAccesses,
    op := fun co h ins k => .amo op ins.typ.toNat (srcC co h ins (insnTy ins) k)
      (if !cas then 0 else if ins.uc then h.uTy (insnTy ins) (ins.src.toNat + 1)
       else co.vTy h (insnTy ins) (ins.src.toNat + fp ins) k) }

/-- The loads, stores and atomics of R191. -/
def memRows : List MemRow :=
  [{ cmd := .ld, opc := 0x80, names := fun ins => vecNamesOf ldRule ins (sizeRegs (ins.fn.toNat % 8)) 2 1 1 [],
     legal := fun h ins => accessFnOk ins 4 false && ruleOk ldRule h.vregs (sizeRegs (ins.fn.toNat % 8)) 2 1 1 ins,
     size := sizeOf', release := false, accs := threadAccesses, op := fun _ _ _ _ => .load, hint := hintOf },
   { cmd := .st, opc := 0x81, names := fun ins => { vecNamesOf ldRule ins (sizeRegs (ins.fn.toNat % 8)) 2 1 1 [] with wv := [] },
     legal := fun h ins => accessFnOk ins 4 true && ruleOk ldRule h.vregs (sizeRegs (ins.fn.toNat % 8)) 2 1 1 ins,
     size := sizeOf', release := true, accs := threadAccesses, op := fun co h ins k => .store (storeData co h ins k),
     hint := hintOf },
   { cmd := .uld, opc := 0x82, names := fun ins => vecNamesOf uldRule ins 1 1 1 1 [],
     legal := fun h ins => accessFnOk ins 3 false && scalarOffset ins && ruleOk uldRule h.vregs 1 1 1 1 ins,
     size := sizeOf', release := false, accs := fun _ h ins => handAccess h ins, op := fun _ _ _ _ => .load, hint := hintOf },
   { cmd := .ust, opc := 0x83, names := fun ins => vecNamesOf uldRule ins 1 1 1 1 [],
     legal := fun h ins => accessFnOk ins 3 true && scalarOffset ins && ruleOk uldRule h.vregs 1 1 1 1 ins,
     size := sizeOf', release := true, accs := fun _ h ins => handAccess h ins,
     op := fun _ h ins _ => .store (leBytes (sizeOf' ins) (h.u (ins.dst.toNat % 64)).toNat), hint := hintOf },
   amoRow .atomAdd 0x88 .add tyAmoF, amoRow .atomMin 0x89 .min tyAmoF, amoRow .atomMax 0x8A .max tyAmoF,
   amoRow .atomAnd 0x8B .and tyInt, amoRow .atomOr 0x8C .or tyInt, amoRow .atomXor 0x8D .xor tyInt,
   amoRow .atomXchg 0x8E .xchg tyAmoF, amoRow .atomCas 0x8F .cas tyInt]

/-- An access of the memory unit is recorded with its hand, which goes on: one part for each access, at its normalised
address, not yet answered. -/
def Recorded (s : State) (i : Issue) (ins : Insn) (h : Hand) (opc : Nat) (parts : List Part) (t : State) : Prop :=
  ∃ o h', t.hand i.core i.slot = some h' ∧ h'.ops = h.ops ++ [o] ∧ o.id = h.nextOp ∧ o.opc = opc ∧ o.insn = ins
    ∧ o.parts = parts ∧ h'.pc = (h.issued s.coreTime ins).pc ∧ h'.ureg = h.ureg ∧ h'.flags = h.flags

/-- What such an instruction does as it issues: its accesses are recorded, and each goes as far as it can go at once; with no
thread enabled it makes none (R153). -/
def MemEffect (r : MemRow) : Prop :=
  ∀ (s : State) (i : Issue) (ins : Insn) (h : Hand), CanIssue s i r.opc .memory ins h (r.names ins) → r.legal h ins = true →
    accessFault s (r.size ins) (r.accs (s.core i.core) h ins) = none → mayAccess h = true →
    (r.release && isRelease ins → released s i.core h (scopeOf ins) = true) →
    (r.accs (s.core i.core) h ins).any (fun p => s.winHeld (s.normalise p.2)) = false →
    ∃ x, OnlyHandRegs i s x ∧
      if r.accs (s.core i.core) h ins = [] then
        exec (r.cmd i ins) s = .next x ∧ x.hand i.core i.slot = some (h.issued s.coreTime ins)
      else exec (r.cmd i ins) s = .next (pumpOp x i.core i.slot h.nextOp) ∧
        Recorded s i ins h r.opc ((r.accs (s.core i.core) h ins).map fun p =>
          { thread := p.1, addr := s.normalise p.2, size := r.size ins, op := r.op (s.core i.core) h ins p.1, hint := r.hint ins }) x

/-- A hand stops with a fault of a kind: its registers, its core's and memory keep their values, its program counter stays at
the instruction, and once nothing that it issued is outstanding it is FAULTED; until then the fault waits. -/
def StopsWith (s : State) (i : Issue) (h : Hand) (kind : Nat) (t : State) : Prop :=
  (∃ h', t.hand i.core i.slot = some h' ∧ h'.pc = h.pc ∧ h'.ureg = h.ureg ∧ h'.preds = h.preds ∧ h'.flags = h.flags
    ∧ h'.ops = h.ops
    ∧ if h.ops = [] then h'.st = .faulted ∧ h'.stop = none
      else ∃ f, h'.stop = some (.fault f) ∧ f.kind = kind ∧ f.pc = h.pc ∧ f.resume = h.pc)
  ∧ (t.core i.core).vrf = (s.core i.core).vrf ∧ (t.core i.core).osb = (s.core i.core).osb
  ∧ (t.core i.core).acc = (s.core i.core).acc ∧ t.mem = s.mem

/-- Whether the bit of PRD, inverted by PIV, is 1 for a thread. -/
def predBit (h : Hand) (ins : Insn) (k : Nat) : Bool := (h.p ins.prd.toNat).getLsbD k != ins.piv

/-- The condition of bra in FUN bits 2:0 (R186, R188). -/
def BraHolds (h : Hand) (ins : Insn) : Prop :=
  match ins.fn.toNat % 8 with
  | 0 => True
  | 1 => ∃ k < 64, h.live.getLsbD k ∧ predBit h ins k
  | 2 => ∀ k < 64, h.live.getLsbD k → predBit h ins k
  | 3 => ∀ k < 64, h.live.getLsbD k → ¬ predBit h ins k
  | 4 => h.u ins.dst.toNat = 0
  | _ => h.u ins.dst.toNat ≠ 0

/-- The target of bra, loop and call: indirect, absolute, or a signed count of words in bits 43:20 (R187). -/
def TargetOf (h : Hand) (ins : Insn) : DWord :=
  if ins.fn.getLsbD 3 then h.u ins.sra.toNat
  else if ins.lng then ins.w1
  else h.pc + 8 * (ins.sra ++ ins.srb ++ ins.src).signExtend 64

/-- The control instructions with what their issue asks. -/
def controlSpecs (i : Issue) (ins : Insn) : List (Instr × IssueSpec) :=
  [(.bra i ins, braSpec i ins), (.loopInsn i ins, loopInsnSpec i ins), (.callInsn i ins, callInsnSpec i ins),
   (.ret i ins, retSpec i ins), (.halt i ins, haltSpec i ins), (.brk i ins, brkSpec i ins), (.trap i ins, trapSpec i ins),
   (.yield i ins, yieldSpec i ins), (.sleepTicks i ins, sleepTicksSpec i ins), (.noticeInsn i ins, noticeInsnSpec i ins),
   (.nopInsn i ins, nopInsnSpec ins)]

/-- The matrix instructions with what their issue asks. -/
def matrixSpecs (i : Issue) (ins : Insn) : List (Instr × IssueSpec) :=
  [(.mxLd i ins, mxLdSpec i ins), (.mma i ins, mmaSpec i ins), (.mxSt i ins, mxStSpec i ins), (.mxClr i ins, mxClrSpec i ins)]
    ++ (if ins.fn.getLsbD 10 then [(.mxCvtTile i ins, mxCvtTileSpec i ins)] else [(.mxCvtReg i ins, mxCvtRegSpec i ins)])

/-- A hand that goes to a target: it waits for the words that stand there. -/
def GoneTo (h : Hand) (a : DWord) : Prop := h.pc = a ∧ (h.st = .waiting .branch ∨ h.st = .waiting .fetch)

/-- The combination of neighbours in pairs over `n` rounds, for the lane `k` that remains (R202). -/
def pairUp (f : Nat → Nat → Nat) (x : Nat → Nat) : Nat → Nat → Nat
  | 0, k => x k
  | n + 1, k => f (pairUp f x n (2 * k)) (pairUp f x n (2 * k + 1))

/-- The combination of values in order; the identity where there is none (R202). -/
def inOrderOf (f : Nat → Nat → Nat) (ident : Nat) : List Nat → Nat
  | [] => ident
  | v :: t => t.foldl f v

/-- A cache's table is well formed: its keys rise, each line stands in its own set, and in one way of it. -/
def CacheOk (m : NMap CLine) (ways : Nat) (set : Nat → Nat) : Prop :=
  m.sorted = true ∧ ∀ k x, NMap.find? m k = some x → k / ways = set x.line ∧
    ∀ j y, NMap.find? m j = some y → y.line = x.line → j = k

/-- No line that a core's L1 holds coherently is Staged in its cluster's cache. -/
def L1Agrees (s : State) (core : Nat) : Prop :=
  ∀ k x, NMap.find? (s.core core).l1 k = some x → x.st ≠ .v → ∀ e ∈ (s.clu (core / 4)).cc, e.2.line = x.line → e.2.st ≠ .v

/-- As `OnlyHandRegs`, and an operation joins those that the hand has outstanding. -/
def Began (s : State) (i : Issue) (h : Hand) (opc : Nat) (ins : Insn) (parts : List Part) (t : State) : Prop :=
  Same [.cores, .regs] s t ∧ SameRegs issueFields s t ∧ Recorded s i ins h opc parts t

/-! ### Events -/

/-- The parts that posting an event, or another write of the command processor, may change. -/
def postParts : List Comp := [.regs, .posted, .mesh, .xmit, .host, .mgc]

/-- The registers that posting an event may change (R546, R549, R720). -/
def postRegs : List Field := [.CTX_EVT_TAIL, .CTX_EVT_LOST_CNT, .HIF_CPL_TO_CNT]

/-- Nothing changes but the registers listed, and what posting events changes. -/
def OnlyPosts (fs : List Field) (s t : State) : Prop := Same postParts s t ∧ SameRegs (fs ++ postRegs) s t

/-- Nothing changes but the registers listed. -/
def OnlyRegs (fs : List Field) (s t : State) : Prop := Same [.regs] s t ∧ SameRegs fs s t

/-- An event joins those of the next tick, once, and nothing else changes. -/
def Queues (e : TickEvt) (s t : State) : Prop :=
  Same [.time] s t ∧ t.time = { s.time with due := if e ∈ s.time.due then s.time.due else s.time.due ++ [e] }

/-- An event sampled now can be applied in the current tick: the trump order has a place for it, and nothing that the tick
has applied makes it moot or holds it (R116–R118). -/
def Occurs (s : State) (cls src : Nat) (act : TickAct) : Prop :=
  s.ticking = true ∧ s.inOrder cls src = true ∧ s.time.ready = [] ∧ s.moot cls act = false
    ∧ (3 ≤ cls → cls ≤ 6 → s.time.cur.brake = false ∧ s.isSet .BRK_BRAKED = false)

/-- The state in which an event of a class and source index is applied: its place in the tick is noted, and it is in the
journal (R121, R123). -/
def Met (s : State) (cls src : Nat) (x : State) : Prop :=
  Same (.time :: postParts) s x ∧ SameRegs [.TIK_JNL_PTR, .TIK_JNL_WRAPS, .HIF_CPL_TO_CNT] s x
    ∧ x.time = { s.time with cur := { s.time.cur with cls := cls, src := src } }
    ∧ (s.isSet .TIK_JNL_EN = false → Same [.time] s x)

/-- Fields whose write does nothing but store: no action follows, and the field may be written now (R26, R251, R535). -/
def StoresOnly (s : State) (f : Field) : Prop :=
  f.spec.access ≠ .wo ∧ f ≠ .RTE_LOADED ∧ f ≠ .DBG_ACC_DATA_HI ∧ f ≠ .TIK_ALIGN_EN ∧ (contextFixed f = true → s.reg .CTX_STATE = 0)
    ∧ (f.spec.block = .DBG → f.spec.shadowed = true → 2 ≤ s.level)

/-- Nothing changes but the registers listed, each by field, instance and index. -/
def OnlyRegsAt (l : List (Field × Nat × Nat)) (s t : State) : Prop :=
  Same [.regs] s t ∧ ∀ f i n, (f, i, n) ∉ l → t.reg f i n = s.reg f i n

/-! ### Messages, memory and homes -/

/-- A message is taken off the mesh and another is sent: on the mesh, or to another tile. -/
def Answered (s : State) (m : Msg) (tile : Option Nat) (r : Msg) (t : State) : Prop :=
  t.mesh = dropFirst m s.mesh ++ (if tile = none then [r] else [])
  ∧ t.xmit = s.xmit ++ match tile with
    | none => []
    | some d => [(d, r)]

/-- The answer of a kind to a request, with nothing in it. -/
def answerOf (m : Msg) (kind : MsgKind) : Msg := { kind := kind, agent := m.agent, home := m.home, line := m.line, tag := m.tag }

/-- A home receives a request and can serve it at once: home and memory run, nothing else waits there, no channel is being
retired, no agent is declared dead, and the offset is populated. -/
def AtHome (s : State) (m : Msg) (k : Nat) : Prop :=
  m.home = ⟨none, k⟩ ∧ k < 8 ∧ receivable m s.mesh = true ∧ s.homeReady k = true ∧ (s.home k).inbound = [] ∧ (s.home k).txns = []
  ∧ NMap.find? s.mem.retire k = none ∧ s.dead = [] ∧ (s.home k).reclaim = [] ∧ populatedOffset (offsetOf (128 * m.line)) = true

/-- Nothing changes but the messages, the home `k`, the count of its inbound entries taken, and the parts listed. -/
def OnlyHome (fs : List Comp) (k : Nat) (s t : State) : Prop :=
  Same ([.mesh, .xmit, .homes, .mgc] ++ fs) s t ∧ t.mgc = (s.issue 1 k).mgc ∧ ∀ j, j ≠ k → t.home j = s.home j

/-- Granule `g` can be read without an error, and its channel is in use. -/
def Sound (s : State) (g : Nat) : Prop := NMap.get [] s.mem.err g = [] ∧ s.retiredAt (32 * g) = false

/-- The line at a tile-local offset, where no granule of it has an error: zeros for one that is not GOOD (R359). -/
def memLine (m : MemSt) (o : Nat) : LineData :=
  let st (i : Nat) : GState := NMap.get .good m.gran (o / 128 * 4 + i)
  { bytes := (List.range 4).flatMap fun i => if st i = .good then rawBytes m (o / 128 * 4 + i) else List.replicate 32 0,
    gran := (List.range 4).map st }

/-- The data of memory change in the granules listed alone; nothing else that the controllers hold changes. -/
def OnlyGrans (gs : List Nat) (s t : State) : Prop :=
  t.mem = { s.mem with cells := t.mem.cells, gran := t.mem.gran, err := t.mem.err }
  ∧ ∀ g, g ∉ gs → decodeGran t.mem g = decodeGran s.mem g

/-! ### Ticks and couplers -/

/-- A command whose effect is an event of a class of the trump order: applied now where the tick still has a place for it,
and otherwise an event of the next tick (R116, R750). -/
def Applies (c : Instr) (s : State) (cls src : Nat) (act : TickAct) (f : State → State) : Prop :=
  (Occurs s cls src act → ∃ x, Met s cls src x ∧ exec c s = .next (f x))
  ∧ (s.ticking = true → s.inOrder cls src = false → Ends c s (Queues ⟨cls, src, act⟩ s))

/-- The parts that a change of a link's state may touch. -/
def linkParts : List Comp := .cpls :: .time :: postParts

/-- The registers that a link's leaving its state may change (R111, R460, R463, R500). -/
def linkRegs : List Field :=
  [.CPL_DROP_PKT_CNT, .CPL_WIDTH, .CPL_LOCK, .CPL_LP, .CPL_LINK_STATE, .CPL_DOWN_CAUSE, .TIK_JOINED, .TIK_IS_ROOT, .TIK_HOLDOVER,
   .TIK_ROOT_VALID, .TIK_DEPTH, .TIK_PARENT, .TIK_ROOT_ID] ++ postRegs

/-- No coupler but `n` changes. -/
def OnlyCpl (n : Nat) (s t : State) : Prop := ∀ j, j ≠ n → t.cpl j = s.cpl j

/-- A coupler has left for another link state: its width, its lock and its low power are gone, and Rollipor starts empty
(R460, R500). -/
def LinkLeft (n st : Nat) (s t : State) : Prop :=
  t.link n = st ∧ t.reg .CPL_WIDTH n = 0 ∧ t.reg .CPL_LOCK n = 0 ∧ t.reg .CPL_LP n = 0 ∧ (t.cpl n).rol = {} ∧ (t.cpl n).held = none
  ∧ (t.cpl n).transit = [] ∧ (t.cpl n).ctl = [] ∧ (t.cpl n).retrain = false ∧ OnlyCpl n s t

/-- A failed attempt: it is counted, and the coupler goes back to DETECT, or DOWN once the allowed attempts have failed
(R441). -/
def AttemptFailed (n : Nat) (s t : State) : Prop :=
  (t.cpl n).failRun = (s.cpl n).failRun + 1 ∧ t.reg .CPL_TRAIN_FAIL_CNT n = satAdd32 (s.reg .CPL_TRAIN_FAIL_CNT n) 1
  ∧ (if s.reg .CPL_TRAIN_RETRIES n ≤ (s.cpl n).failRun + 1 then LinkLeft n 6 s t ∧ t.reg .CPL_DOWN_CAUSE n = 1
     else LinkLeft n 0 s t ∧ Same [.cpls, .time, .regs] s t)
  ∧ Same linkParts s t ∧ SameRegs (.CPL_TRAIN_FAIL_CNT :: linkRegs) s t

/-- A retrain has begun: it is counted, the coupler trains with its taps, and Rollipor's state is held (R461, R462). -/
def Retrains (n : Nat) (s t : State) : Prop :=
  t.link n = 1 ∧ t.reg .CPL_RETRAIN_CNT n = satAdd32 (s.reg .CPL_RETRAIN_CNT n) 1 ∧ (t.cpl n).retrain = true ∧ (t.cpl n).phase = 1
  ∧ (t.cpl n).held = some (s.cpl n).rol ∧ (t.cpl n).rol = {} ∧ t.reg .CPL_WIDTH n = 0 ∧ t.reg .CPL_LOCK n = 0
  ∧ Same linkParts s t ∧ OnlyCpl n s t

/-- No lane of a coupler is retired or waits for it. -/
def LanesWhole (s : State) (n : Nat) : Prop := s.reg .CPL_LANES_RETIRED n = 0 ∧ (s.cpl n).retireDue = []

/-- A coupler's bank runs and the one control flit that it has received is of class `op`, with body and data. -/
def Takes (s : State) (n op : Nat) (b d : List Byte) : Prop :=
  s.banksRun = true ∧ (s.cpl n).ctl = [(b, d)] ∧ field b 1 1 = op

/-- The state once that flit has been taken. -/
def taken (s : State) (n : Nat) : State := s.onCpl n fun c => { c with ctl := [] }

/-! ### Commands of the command processor -/

/-- The CP stands at a command: its words are those listed, as the CP reads them; its opcode is `op`; it breaks no rule of
R570; it has not to wait for its list, and no commit of the window table is under way (R290). -/
def AtCmd (s : State) (op : Nat) (ws : List (Option Nat)) (c : CmdCtx) : Prop :=
  s.winEntries = [] ∧ ∃ w0, ws = some w0 :: c.words.map some ∧ s.atCommand = some (c.cur, c.frame, c.rest)
    ∧ (c.cur.w0 = some w0 ∨ (c.cur.w0 = none ∧ s.sees c.frame.pc 8 (some w0) = true))
    ∧ cmdOp w0 = op ∧ c.op = op ∧ c.arg = cmdArg w0 ∧ badWord0 w0 (c.frame.base + c.frame.len - c.frame.pc) = none
    ∧ (cmdBarrier w0 = true → s.listBusy c.cur.list = false) ∧ c.words.length + 1 = cmdWords w0
    ∧ ∀ k < c.words.length, s.sees (c.frame.pc + 8 * (k + 1)) 8 (some (c.w (k + 1))) = true

/-- The state in which that command runs: CPR_CMD_ADDR names it (R606). -/
def reached (s : State) (c : CmdCtx) : State := s.setReg64 .CPR_CMD_ADDR_LO .CPR_CMD_ADDR_HI c.frame.pc

/-- A command has run in state `x`, and its list goes on with the frames `fs`: it is counted, the frames that have reached
their end are closed, and where none is left the list's issue has ended (R575, R582, R587, R606). -/
def Counted (c : CmdCtx) (fs : List Frame) (x t : State) : Prop :=
  t.reg .CPR_CMD_CNT = satAdd32 (x.reg .CPR_CMD_CNT) 1 ∧ SameRegs [.CPR_CMD_CNT] x t ∧ Same [.regs, .cp] x t
    ∧ (closeFrames fs ≠ [] → t.cp = { x.cp with cur := some { c.cur with frames := closeFrames fs, w0 := none, wait := none }, burst := 0 })
    ∧ (closeFrames fs = [] → t.cp = { x.cp with cur := none, burst := 0, lists := t.cp.lists }
        ∧ ∀ r, NMap.find? x.cp.lists c.cur.list = some r → NMap.find? t.cp.lists c.cur.list = some { r with ended := true })

/-- A command has run and made requests: the list goes on with the next command once they are answered (R572). -/
def GoesOnAfter (c : CmdCtx) (before x t : State) : Prop :=
  ∃ t0, Counted c (c.goto c.next) x t0 ∧ t = { t0 with cp := { t0.cp with cur := t0.cp.cur.map fun (z : Cur) => { z with hold := newPosts before x } } }

/-- The issue of the current list ends with a status; the list is `id`. -/
def ListEnds (id status : Nat) (x t : State) : Prop :=
  t.cp.cur = none ∧ t.cp.descs = x.cp.descs
    ∧ ∀ r, NMap.find? x.cp.lists id = some r → NMap.find? t.cp.lists id = some { r with status := status, ended := true }

/-- A bad command: CMD_ERROR is posted with its cause, and its list's issue ends as ABORTED (R577, R605). -/
def Aborted (c : CmdCtx) (cause : Nat) (x t : State) : Prop :=
  t = (x.cmdError (x.cmdAt c.cur.list c.op c.frame.pc) cause 0).endWith 2 ∧ ListEnds c.cur.list 2 x t
    ∧ t.reg .CPR_CMD_ERR_CNT = satAdd32 (x.reg .CPR_CMD_ERR_CNT) 1
    ∧ Same (.cp :: postParts) x t ∧ SameRegs (.CPR_CMD_ERR_CNT :: postRegs) x t

/-- The CP reads a command's target: an address inside the frame, where word 0 is `w` (R580). -/
def TargetAt (s : State) (c : CmdCtx) (a w : Nat) : Prop :=
  a = c.frame.pc + 8 * (c.arg / 256) ∧ a + 8 ≤ c.frame.base + c.frame.len ∧ s.sees a 8 (some w) = true

/-- The context is ACTIVE and the CP runs. -/
def CpRuns (s : State) : Prop := s.active = true ∧ s.stopped 1 = false

/-- The asynchronous command that a command of the list becomes (R571, R588). -/
def asyncOf (s : State) (c : CmdCtx) (codec : Bool) (tail : Tail) : AsyncCmd :=
  { codec := codec, list := c.cur.list, tail := tail, cmd := { op := c.op, addr := c.frame.pc, origin := bit (s.fromKitty c.cur.list), dseq := s.dseqOf c.cur.list } }

/-- An asynchronous command is issued: its engine holds it under the next number. -/
def issuedAsync (x : State) (a : AsyncCmd) : State :=
  { x with cp := { x.cp with asyncs := NMap.insert x.cp.asyncs x.cp.nextAsync a, nextAsync := x.cp.nextAsync + 1 } }

/-- A task is issued: it has the next task ID (R590). -/
def issuedTask (x : State) (t : Task) : State :=
  ({ x with tasks := NMap.insert x.tasks t.id t } : State).setReg64 .CPR_NEXT_TASK_LO .CPR_NEXT_TASK_HI (t.id + 1)

/-- The CP applies the record at the head of the kitty: it is ready, well formed and due (R596, R597), and no commit of the
window table is under way (R290). -/
def AtKitty (s : State) (b : List Byte) : Prop :=
  CpRuns s ∧ s.winEntries = [] ∧ s.kittyDue = true ∧ s.kittyHead = some (some b) ∧ kittyBad b = false

/-- The state once the record at the head is taken. -/
def popped (s : State) : State := { s with cp := { s.cp with kitty := s.cp.kitty.drop 1, burst := s.cp.burst + 1 } }

/-- The same, with the record counted as applied (R606). -/
def applied (s : State) : State := (popped s).count .KIT_APPLIED_CNT

/-! ### Security and management -/

/-- The MGC runs its firmware and takes mailbox commands (R689, R706, R709). -/
def MbxRuns (s : State) : Prop :=
  s.isSet .BRK_BRAKED = false ∧ s.inReset = false ∧ s.isSet .MGC_RESTARTING = false ∧ s.sec.recovery = false

/-- A mailbox command and its number (R709). -/
def MailboxRow (p : Path) (n : Nat) (c : Instr) : Prop :=
  (n, c) ∈ [(1, .getChallenge p), (2, .submitToken p), (3, .relinquish p), (4, .lcRequest p), (5, .ownerSet p), (6, .ownerRotate p),
   (7, .attest p), (8, .fwStage p), (9, .fwActivate p), (10, .fwAccept p)]

/-- A command completes with a mailbox result and changes nothing else. -/
def Answers (c : Instr) (s : State) (code : Nat) : Prop :=
  Ends c s fun t => t.reg .SEC_MBX_RESULT = code ∧ OnlyRegs [.SEC_MBX_RESULT] s t

/-- A command has brought the tile to `y` and raises a security event: class 6 with its code, applied now or in the next
tick (R707). -/
def Secured (c : Instr) (s y : State) (a : SecAct) : Prop :=
  (Occurs y 6 a.facts.1 (.security a) → ∃ x, Met y 6 a.facts.1 x ∧ Goes c s (applySecurity a x))
  ∧ (y.ticking = true → y.inOrder 6 a.facts.1 = false →
      Goes c s { y with time := { y.time with due := y.time.due ++ [⟨6, a.facts.1, .security a⟩] } })

/-- The same, where the state before the event is known by what holds of it. -/
def SecuredIf (c : Instr) (s : State) (p : State → Prop) (a : SecAct) : Prop := ∃ y, p y ∧ Secured c s y a

/-- The I²C target answers, and the tile serves its commands (R738). -/
def I2cUp (s : State) : Prop :=
  s.inReset = false ∧ s.isSet .BRK_BRAKED = false ∧ s.padsTaken = false ∧ s.isSet .MGC_RESTARTING = false ∧ s.sec.recovery = false

/-- A command has been received: a response that was not read is discarded (R735). -/
def received (s : State) : State :=
  { s with pin := { s.pin with resp := none, pmb := s.pin.pmb.map fun (p : Pmb) => { p with asked := false } } }

/-- The target holds a response. -/
def responds (s : State) (status : Nat) (data : List Byte) : State := { s with pin := { s.pin with resp := some (status, data) } }

/-- A command that was executed, with its data; only the count of commands changes besides (R738). -/
def served (s : State) (data : List Byte) : State := responds ((received s).count .PIN_I2C_CMD_CNT) 0 data

/-- A command that was turned away with a status. -/
def refusedWith (s : State) (status : Nat) : State := responds (received s) status []

/-- The commands of R737, by code, with and without a good PEC, and with operands that do not matter here. -/
def I2cRow (pec : Bool) (code : Nat) (c : Instr) : Prop :=
  (code, c) ∈ [(1, .status pec), (2, .deckRead pec 0 1), (3, .regRead pec (.deck 0)), (4, .regWrite pec (.deck 0) 0), (5, .setTileId pec 0 false),
    (6, .reset pec 2), (7, .retireAgent pec 0 0 false), (8, .mbxWrite pec 0 []), (9, .mbxRun pec 7 0), (10, .mbxRead pec 0 1), (11, .tlmRead pec 0 1),
    (12, .jnlRead pec 0 1 []), (13, .pmbXfer pec 0 0 0 []), (14, .boardRead pec 0 1), (15, .boardWrite pec 0 []), (16, .boardCommit pec)]

/-- The test port has an instruction selected; DONE and DENIED are clear but for `denied` (R743). -/
def selected (s : State) (ir : TapIr) (denied : Bool := false) : State :=
  { s with pin := { s.pin with ir := ir, tapDone := false, tapDenied := denied } }

end Sys2Proof.Safety
end

