-- ==== Sys2Proof/WellFormed.lean ====
section
/-!
DEFINITION. Which commands are well formed: the limits that an operand's type does not already give.
-/
namespace Sys2Proof

/-- The second word of an instruction is there only under LNG (R159, R166). -/
def Insn.wf (i : Insn) : Bool := i.lng || i.w1 == 0

end Sys2Proof
end

