-- ==== Sys2Proof/Certificates/Slice0/Obligations.lean ====
section
/-!
DEFINITION. The statements for the provers.
-/
open Sys2Proof Sys2Proof.Machine Sys2Proof.Safety

/-! ### The machine as a whole -/

/-- A step runs the command at the front of the queue; idling on an empty queue is the model's own (log entry 2). -/
def Obligations.StepRunsFrontCommand : Prop :=
  (∀ (c : Instr) (rest : List Instr) (s : State), s.pending = c :: rest → step s = exec c { s with pending := rest })
  ∧ ∀ s : State, s.pending = [] → step s = .next s

/-- No command touches the queue. -/
def Obligations.CommandsKeepTheQueue : Prop :=
  ∀ (c : Instr) (s t : State), exec c s = .next t → t.pending = s.pending

/-- Memory after reset is in canonical form. -/
def Obligations.MemoryFormHoldsAtReset : Prop := State.reset.mem.wf = true

/-- Every step keeps memory in canonical form, from every state that has it. -/
def Obligations.EveryStepKeepsMemoryForm : Prop :=
  ∀ s t : State, s.mem.wf = true → step s = .next t → t.mem.wf = true

/-! ### Instruction words -/

/-- No bit of an instruction word is dropped: the opcode and every field are read back as they were written. -/
def Obligations.InstructionWordsRoundTrip : Prop :=
  (∀ (opc : BitVec 8) (i : Insn), i.wf = true →
    opcodeOfWord (wordOfInsn opc i) = opc ∧ insnOfWords (wordOfInsn opc i) i.w1 = i)
  ∧ (∀ (opc opc' : BitVec 8) (i j : Insn), i.wf = true → j.wf = true → wordOfInsn opc i = wordOfInsn opc' j → i.w1 = j.w1 →
      opc = opc' ∧ i = j)
  ∧ ∀ w0 w1 : DWord, wordOfInsn (opcodeOfWord w0) (insnOfWords w0 w1) = w0

/-- Words written out bit by bit from the frame of R160. -/
def Obligations.InstructionWordFields : Prop :=
  (opcodeOfWord 0x0200102000508000 = 0x02
    ∧ insnOfWords 0x0200102000508000 0 = { dst := 1, sra := 2, srb := 0, src := 5, imb := true })
  ∧ (opcodeOfWord 0x8270304000080402 = 0x82
    ∧ insnOfWords 0x8270304000080402 7
      = { prd := 3, piv := true, dst := 3, sra := 4, lng := true, typ := 0, fn := 0x402, w1 := 7 })
  ∧ opcodeOfWord 0xFF00000000000000 = 0xFF
  ∧ insnOfWords 0x00E0000000000000 0 = { prd := 7 } ∧ insnOfWords 0x0010000000000000 0 = { piv := true }
  ∧ insnOfWords 0x000FF00000000000 0 = { dst := 255 } ∧ insnOfWords 0x00000FF000000000 0 = { sra := 255 }
  ∧ insnOfWords 0x0000000FF0000000 0 = { srb := 255 } ∧ insnOfWords 0x000000000FF00000 0 = { src := 255 }
  ∧ insnOfWords 0x0000000000080000 9 = { lng := true, w1 := 9 } ∧ insnOfWords 0x0000000000040000 0 = { ua := true }
  ∧ insnOfWords 0x0000000000020000 0 = { ub := true } ∧ insnOfWords 0x0000000000010000 0 = { uc := true }
  ∧ insnOfWords 0x0000000000008000 0 = { imb := true } ∧ insnOfWords 0x0000000000007800 0 = { typ := 15 }
  ∧ insnOfWords 0x00000000000007FF 0 = { fn := 0x7FF }

/-! ### What instructions compute -/

/-- R174: integer arithmetic for one thread. -/
def Obligations.IntegerResultsWrap : Prop :=
  ∀ (t : Ty) (ins : Insn) (a b c : Nat), t.isInt = true → a < 2 ^ t.width → b < 2 ^ t.width → c < 2 ^ t.width →
    (ins.fn.getLsbD 0 = false → (aluAdd t ins a b).1 = (a + b) % 2 ^ t.width
      ∧ (aluSub t ins a b).1 = (2 ^ t.width + a - b) % 2 ^ t.width)
    ∧ (ins.fn.getLsbD 0 = true →
        intOf t (aluAdd t ins a b).1 = max (loOf t) (min (hiOf t) (intOf t a + intOf t b))
        ∧ intOf t (aluSub t ins a b).1 = max (loOf t) (min (hiOf t) (intOf t a - intOf t b)))
    ∧ (aluMul t ins a b).1 = a * b % 2 ^ t.width ∧ (aluFma t ins a b c).1 = (a * b + c) % 2 ^ t.width
    ∧ aluNeg t a = (2 ^ t.width - a) % 2 ^ t.width
    ∧ aluShl t a b = (if t.width ≤ b then 0 else a * 2 ^ b % 2 ^ t.width)
    ∧ (t.width ≤ b → aluShr t a b = if t.signed ∧ a.testBit (t.width - 1) then 2 ^ t.width - 1 else 0)
    ∧ aluPopc t a = ((List.range t.width).map fun k => bit (a.testBit k)).sum
    ∧ (∀ n, aluClz t a = n ↔ n ≤ t.width ∧ a < 2 ^ (t.width - n) ∧ (n < t.width → 2 ^ (t.width - 1 - n) ≤ a))
    ∧ (t = .u32 → ∀ k, (aluBfe t a b).testBit k =
        (decide (k < b / 256 % 256) && decide (b % 256 + k < 32) && a.testBit (b % 256 + k)))
    ∧ (t.wide = false → b / 256 % 256 = 0 → aluBfe t a b = 0)
    ∧ (t = .u32 → ∀ k, (aluBfi a b c).testBit k =
        if b % 256 ≤ k ∧ k < b % 256 + b / 256 % 256 ∧ k < 32 then a.testBit (k - b % 256) else c.testBit k)

/-- R175: the corners of integer division and the flags of integer operations. -/
def Obligations.DivisionCorners : Prop :=
  (∀ (t : Ty) (ins : Insn) (a : Nat), t.isInt = true →
    aluDiv t ins a 0 = (2 ^ t.width - 1, flDivZero) ∧ aluRem t a 0 = (a, flDivZero))
  ∧ (∀ ins : Insn, aluDiv .s32 ins 0x80000000 0xFFFFFFFF = (0x80000000, 0) ∧ aluRem .s32 0x80000000 0xFFFFFFFF = (0, 0))
  ∧ (∀ (t : Ty) (ins : Insn) (a b c : Nat), t.isInt = true →
      (b ≠ 0 → (aluDiv t ins a b).2 = 0 ∧ (aluRem t a b).2 = 0) ∧ (aluAdd t ins a b).2 = 0 ∧ (aluSub t ins a b).2 = 0
      ∧ (aluMul t ins a b).2 = 0 ∧ (aluFma t ins a b c).2 = 0 ∧ (aluMinMax t true a b).2 = 0 ∧ (aluMinMax t false a b).2 = 0
      ∧ ∀ code, (aluCmp t code a b).2 = 0)
  ∧ ∀ (t : Ty) (a b : Nat), t.isInt = true → t.signed = true → a < 2 ^ t.width → b < 2 ^ t.width → b ≠ 0 →
      intOf t (aluRem t a b).1 = Int.tmod (intOf t a) (intOf t b)

/-- R184: the compare codes. -/
def Obligations.CompareCodes : Prop :=
  (∀ (t : Ty) (a b : Nat), t.isInt = true →
    ((aluCmp t 0 a b).1 = decide (intOf t a = intOf t b) ∧ (aluCmp t 1 a b).1 = decide (intOf t a ≠ intOf t b)
      ∧ (aluCmp t 2 a b).1 = decide (intOf t a < intOf t b) ∧ (aluCmp t 3 a b).1 = decide (intOf t a ≤ intOf t b)
      ∧ (aluCmp t 4 a b).1 = decide (intOf t b < intOf t a) ∧ (aluCmp t 5 a b).1 = decide (intOf t b ≤ intOf t a)
      ∧ (aluCmp t 6 a b).1 = true ∧ (aluCmp t 7 a b).1 = false)
    ∧ (∀ code < 8, cmpInt t code a b = (aluCmp t code a b).1))
  ∧ (∀ (p : Ty × Fmt × Nat), p ∈ [(Ty.f32, fmtF32, 32), (.f16x2, fmtF16, 16), (.bf16x2, fmtBF16, 16)] →
      ∀ (a b code : Nat),
        let x := p.2.1.decode (a % 2 ^ p.2.2)
        let y := p.2.1.decode (b % 2 ^ p.2.2)
        (x.isNan = true ∨ y.isNan = true → code < 8 → (aluCmp p.1 code a b).1 = decide (code = 1 ∨ code = 7))
        ∧ (x.isNan = false → y.isNan = false →
            (aluCmp p.1 0 a b).1 = (!FV.lt x y && !FV.lt y x) ∧ (aluCmp p.1 1 a b).1 = (FV.lt x y || FV.lt y x)
            ∧ (aluCmp p.1 2 a b).1 = FV.lt x y ∧ (aluCmp p.1 3 a b).1 = !FV.lt y x
            ∧ (aluCmp p.1 4 a b).1 = FV.lt y x ∧ (aluCmp p.1 5 a b).1 = !FV.lt x y
            ∧ (aluCmp p.1 6 a b).1 = true ∧ (aluCmp p.1 7 a b).1 = false)
        ∧ (aluCmp p.1 code a b).2 = if x = .nan true ∨ y = .nan true then flInvalid else 0)
  ∧ (∀ f ∈ [fmtF32, fmtF16, fmtBF16], (cmpFloat f 0 (2 ^ (f.ebits + f.fbits)) 0).1 = true
      ∧ (cmpFloat f 0 0 (2 ^ (f.ebits + f.fbits))).1 = true)
  ∧ ∀ (s : State) (i : Issue) (ins : Insn) (h : Hand), 8 ≤ ins.fn.toNat % 16 →
      (CanIssue s i 0x60 .vector ins h (vecNamesOf { types := tyAll, d := .pred, a := .opn, b := .opn, c := .no, fnMask := 7 } ins 1
          (fp ins) (fp ins) 1 [ins.dst.toNat % 8]) → Ends (.cmp i ins) s (StopsWith s i h 1))
      ∧ (CanIssue s i 0x4D .uniform ins h (vecNamesOf (uniRule 2 7) ins 1 1 1 1 []) → Ends (.ucmp i ins) s (StopsWith s i h 1))

/-! ### What instructions of a hand do -/

/-- The vector instructions of R172, each with its own result. -/
def Obligations.VectorArithmetic : Prop := ∀ r ∈ vecRows, VecEffect r

/-- Lane exchange, selection and conversion. -/
def Obligations.LaneExchangeSelectConvert : Prop := ∀ r ∈ moveRows, VecEffect r

/-- The instructions that write a uniform register. -/
def Obligations.UniformInstructions : Prop := ∀ r ∈ uniRows, UniEffect r

/-- The instructions that write a predicate register. -/
def Obligations.PredicateInstructions : Prop := ∀ r ∈ predRows, PredEffect r

/-- R202: the order of scan and red, and their identities. -/
def Obligations.ScanGivesPrefixes : Prop :=
  (∀ (s : State) (i : Issue) (ins : Insn) (h : Hand), Clear s i ins (scanSpec i ins) h →
    Ends (.scan i ins) s fun t =>
      let co := s.core i.core
      let f := fun a b => (combineOf ins a b).1
      let who (k : Nat) := (List.range (if ins.fn.getLsbD 3 then k else k + 1)).filter (h.enabled ins)
      (∀ k < 64, (t.core i.core).vTy h (insnTy ins) ins.dst.toNat k =
        if h.enabled ins k then
          inOrderOf f (combineId (insnTy ins) (ins.fn.toNat % 8)) ((who k).map (srcA co h ins (insnTy ins))) % 2 ^ (insnTy ins).width
        else co.vTy h (insnTy ins) ins.dst.toNat k)
      ∧ (∃ fl, t.hand i.core i.slot = some { h.issued s.coreTime ins with flags := h.flags ||| fl }
          ∧ ((insnTy ins).isInt = true → fl = 0))
      ∧ OnlyHand i s t)
  ∧ (∀ (s : State) (i : Issue) (ins : Insn) (h : Hand), Clear s i ins (redSpec i ins) h →
    Ends (.red i ins) s fun t =>
      let co := s.core i.core
      let v := pairUp (fun a b => (combineOf ins a b).1) (fun k =>
        if h.enabled ins k then srcA co h ins (insnTy ins) k else combineId (insnTy ins) (ins.fn.toNat % 8)) 6 0
      (∃ h' fl, t.hand i.core i.slot = some { h' with flags := h.flags ||| fl } ∧ ((insnTy ins).isInt = true → fl = 0)
        ∧ (∃ w, h' = (h.issued s.coreTime ins).setU (ins.dst.toNat % 64) w
            ∧ if insnTy ins = .s32 then w.extractLsb' 0 32 = BitVec.ofNat 32 v else w = BitVec.ofNat 64 v))
      ∧ Same [.cores, .regs, .free] s t ∧ SameRegs issueFields s t ∧ (insnTy ins ≠ .s32 → t.free = s.free)
      ∧ (∀ d, d ≠ i.core.val → t.core d = s.core d) ∧ (∀ n, n ≠ i.slot.val → t.hand i.core n = s.hand i.core n)
      ∧ (t.core i.core).vrf = (s.core i.core).vrf)
  ∧ (∀ t ∈ [Ty.u32, .s32, .u64, .s64], combineId t 0 = 0 ∧ intOf t (combineId t 1) = hiOf t ∧ intOf t (combineId t 2) = loOf t
      ∧ combineId t 3 = 2 ^ t.width - 1 ∧ combineId t 4 = 0 ∧ combineId t 5 = 0)
  ∧ combineId .f32 0 = 0x80000000 ∧ combineId .f32 1 = 0x7F800000 ∧ combineId .f32 2 = 0xFF800000

/-- R187, R188: control transfers. -/
def Obligations.ControlTransfers : Prop :=
  ∀ (s : State) (i : Issue) (ins : Insn) (h : Hand),
    let next := h.pc + (if ins.lng then 16 else 8)
    let d := ins.dst.toNat
    (Clear s i ins (braSpec i ins) h → Ends (.bra i ins) s fun t => OnlyHandRegs i s t ∧
      ∃ h', t.hand i.core i.slot = some h' ∧ h'.ureg = h.ureg ∧ h'.preds = h.preds ∧ h'.flags = h.flags ∧ h'.live = h.live
        ∧ (BraHolds h ins → GoneTo h' (TargetOf h ins)) ∧ (¬ BraHolds h ins → h'.pc = next ∧ h'.st = .ready))
    ∧ (Clear s i ins (loopInsnSpec i ins) h → Ends (.loopInsn i ins) s fun t => OnlyHandRegs i s t ∧
      ∃ h', t.hand i.core i.slot = some h' ∧ h'.ureg = (h.setU d (h.u d - 1)).ureg ∧ h'.preds = h.preds ∧ h'.flags = h.flags
        ∧ (h.u d ≠ 1 → GoneTo h' (TargetOf h ins)) ∧ (h.u d = 1 → h'.pc = next ∧ h'.st = .ready))
    ∧ (Clear s i ins (callInsnSpec i ins) h → Ends (.callInsn i ins) s fun t => OnlyHandRegs i s t ∧
      ∃ h', t.hand i.core i.slot = some h' ∧ h'.ureg = (h.setU d next).ureg ∧ h'.preds = h.preds ∧ h'.flags = h.flags
        ∧ GoneTo h' (TargetOf h ins))
    ∧ (Clear s i ins (retSpec i ins) h → Ends (.ret i ins) s fun t => OnlyHandRegs i s t ∧
      ∃ h', t.hand i.core i.slot = some h' ∧ h'.ureg = h.ureg ∧ h'.preds = h.preds ∧ h'.flags = h.flags
        ∧ GoneTo h' (h.u ins.sra.toNat))
    ∧ (CanIssue s i 0x70 .uniform ins h (braSpec i ins).names → (braSpec i ins).legal h = true → BraHolds h ins →
        (TargetOf h ins).toNat % 8 ≠ 0 → Ends (.bra i ins) s (StopsWith s i h 2))
    ∧ (CanIssue s i 0x71 .uniform ins h (loopInsnSpec i ins).names → (loopInsnSpec i ins).legal h = true → h.u d ≠ 1 →
        (TargetOf h ins).toNat % 8 ≠ 0 → Ends (.loopInsn i ins) s (StopsWith s i h 2))
    ∧ (CanIssue s i 0x72 .uniform ins h (callInsnSpec i ins).names → (callInsnSpec i ins).legal h = true →
        (TargetOf h ins).toNat % 8 ≠ 0 → Ends (.callInsn i ins) s (StopsWith s i h 2))
    ∧ (∀ p ∈ controlSpecs i ins, CanIssue s i p.2.opc .uniform ins h p.2.names →
        (p.2.opc = 0x70 → ins.fn.toNat % 8 = 0 ∨ 4 ≤ ins.fn.toNat % 8) → ins.prd ≠ 0 ∨ ins.piv = true →
        Ends p.1 s (StopsWith s i h 1))
    ∧ ∀ p ∈ (controlSpecs i ins).take 3, CanIssue s i p.2.opc .uniform ins h p.2.names → ins.fn.getLsbD 3 = true →
        ins.srb ≠ 0 ∨ ins.src ≠ 0 → Ends p.1 s (StopsWith s i h 1)

/-- R186: the control instructions that are no transfers. -/
def Obligations.ControlOfHands : Prop :=
  ∀ (s : State) (i : Issue) (ins : Insn) (h : Hand),
    let next := h.issued s.coreTime ins
    (Clear s i ins (haltSpec i ins) h → Ends (.halt i ins) s fun t =>
      Same [.cores, .regs, .tasks] s t ∧ SameRegs issueFields s t ∧
      if h.ops = [] then t.hand i.core i.slot = some { next with st := .releasing, stop := none }
        ∧ (∀ k, s.task h.task = some k → t.task h.task = some { k with flags := k.flags ||| h.flags })
      else t.hand i.core i.slot = some { next with stop := some .halt } ∧ t.tasks = s.tasks)
    ∧ (Clear s i ins (brkSpec i ins) h → Ends (.brk i ins) s fun t => OnlyHandRegs i s t ∧
      ∃ f, t.hand i.core i.slot = some { next with stop := some (.debug f) } ∧ f.kind = 0x11 ∧ f.code = ins.fn.toNat
        ∧ f.pc = next.pc ∧ (f.policy = true ↔ s.level < 2))
    ∧ (Clear s i ins (trapSpec i ins) h → Ends (.trap i ins) s fun t =>
      ∃ h', t.hand i.core i.slot = some h' ∧ h'.pc = next.pc ∧ h'.ureg = h.ureg ∧ h'.preds = h.preds ∧ h'.flags = h.flags
        ∧ if h.ops = [] then h'.st = .faulted ∧ h'.stop = none
          else ∃ f, h'.stop = some (.fault f) ∧ f.kind = 5 ∧ f.code = ins.fn.toNat ∧ f.pc = h.pc ∧ f.resume = next.pc)
    ∧ (Clear s i ins (yieldSpec i ins) h → Ends (.yield i ins) s fun t => OnlyHandRegs i s t ∧
      t.hand i.core i.slot = some { next with st := .waiting .yield })
    ∧ (Clear s i ins (sleepTicksSpec i ins) h → Ends (.sleepTicks i ins) s fun t => OnlyHandRegs i s t ∧
      t.hand i.core i.slot = some (if sleepCount h ins = 0 then next
        else { next with st := .sleeping, sleepEnd := s.time.now + sleepCount h ins }))
    ∧ (Clear s i ins (noticeInsnSpec i ins) h → Ends (.noticeInsn i ins) s fun t =>
      Same [.cores, .regs, .pwr] s t ∧ SameRegs issueFields s t ∧ t.hand i.core i.slot = some next
        ∧ t.pwr = { s.pwr with notices := s.pwr.notices ++ [(i.core.val / 4, ins.fn.toNat % 4)] })
    ∧ (Clear s i ins (nopInsnSpec ins) h → Ends (.nopInsn i ins) s fun t => OnlyHandRegs i s t ∧ t.hand i.core i.slot = some next)

/-- R170, R207: illegal instructions. -/
def Obligations.IllegalInstructions : Prop :=
  (∀ (s : State) (i : Issue) (opc : BitVec 8) (ins : Insn) (h : Hand), opcodeAssigned opc.toNat = false →
    CanIssue s i opc.toNat .uniform ins h {} → Ends (.unassignedOpcode i opc ins) s (StopsWith s i h 1))
  ∧ opcodeAssigned 0 = false ∧ (∀ o, 0xD0 ≤ o → o ≤ 0xFF → opcodeAssigned o = false)
  ∧ (∀ r ∈ vecRows ++ moveRows, ∀ (s : State) (i : Issue) (ins : Insn) (h : Hand),
      CanIssue s i r.opc .vector ins h (vecNamesOf (r.rule ins) ins (r.nd ins) (r.na ins) (r.nb ins) (r.nc ins) (r.preds ins)) →
      (ruleOk (r.rule ins) h.vregs (r.nd ins) (r.na ins) (r.nb ins) (r.nc ins) ins && r.legal ins) = false →
      Ends (r.cmd i ins) s (StopsWith s i h 1))
  ∧ (∀ r ∈ uniRows, ∀ (s : State) (i : Issue) (ins : Insn) (h : Hand),
      CanIssue s i r.opc r.unit ins h (r.names ins) → r.legal h ins = false → Ends (r.cmd i ins) s (StopsWith s i h 1))
  ∧ (∀ r ∈ predRows, ∀ (s : State) (i : Issue) (ins : Insn) (h : Hand),
      CanIssue s i r.opc .vector ins h (r.names ins) → r.legal h ins = false → Ends (r.cmd i ins) s (StopsWith s i h 1))
  ∧ (∀ r ∈ memRows, ∀ (s : State) (i : Issue) (ins : Insn) (h : Hand),
      CanIssue s i r.opc .memory ins h (r.names ins) → r.legal h ins = false → Ends (r.cmd i ins) s (StopsWith s i h 1))
  ∧ ∀ (s : State) (i : Issue) (ins : Insn) (h : Hand),
      ∀ p ∈ controlSpecs i ins ++ matrixSpecs i ins ++ [(.scan i ins, scanSpec i ins), (.red i ins, redSpec i ins),
          (.fence i ins, fenceSpec i ins), (.invInsn i ins, invInsnSpec i ins), (.enq i ins, enqSpec i ins),
          (.fsig i ins, fsigSpec i ins)],
        CanIssue s i p.2.opc p.2.unit ins h p.2.names → p.2.legal h = false → Ends p.1 s (StopsWith s i h 1)

/-- The ends of waits. -/
def Obligations.WaitsEnd : Prop :=
  ∀ (s : State) (x : HandId) (h : Hand), s.clocked (x.core.val / 4) = true → s.hand x.core x.slot = some h →
    (h.st = .waiting .branch → Goes (.branchWaitEnd x) s (s.setHand x.core x.slot { h with st := .ready }))
    ∧ (h.st = .waiting .yield → Goes (.yieldEnd x) s (s.setHand x.core x.slot { h with st := .ready }))
    ∧ (h.st = .sleeping → h.sleepEnd ≤ s.time.now → Goes (.sleepEnd x) s (s.setHand x.core x.slot { h with st := .ready, sleepEnd := 0 }))
    ∧ (s.time.now < h.sleepEnd → Goes (.sleepEnd x) s s)

/-- The accessors of hands and their registers. -/
def Obligations.HandWritesKeepTheRest : Prop :=
  (∀ (s : State) (c n d m : Nat) (h : Hand), (s.setHand c n h).hand d m = if d = c ∧ m = n then some h else s.hand d m)
  ∧ (∀ (s : State) (c n : Nat) (h : Hand), Same [.cores] s (s.setHand c n h)
      ∧ ((s.setHand c n h).core c).vrf = (s.core c).vrf ∧ ∀ d, d ≠ c → (s.setHand c n h).core d = s.core d)
  ∧ (∀ (h : Hand) (n m : Nat) (v : DWord), (h.setU n v).u m = if m = n ∧ n ≠ 0 then v else h.u m)
  ∧ (∀ (h : Hand) (n m : Nat) (v : DWord), (h.setPRaw n v).p m = if m = n ∧ n ≠ 0 then v else h.p m)
  ∧ (∀ h : Hand, h.u 0 = 0 ∧ h.p 0 = BitVec.allOnes 64)
  ∧ ∀ (co : Core) (h : Hand) (r q k : Nat) (f : Nat → Option Word), k < 64 →
      (co.setV h r f).v h q k = if h.phys q = h.phys r then (f k).getD (co.v h r k) else co.v h q k

/-! ### Memory and task instructions -/

/-- Issue of loads, stores and atomics. -/
def Obligations.MemoryInstructionsIssue : Prop := ∀ r ∈ memRows, MemEffect r

/-- R196: the checks of an access. -/
def Obligations.AccessChecks : Prop :=
  (∀ (s : State) (size : Nat) (l : List (Nat × Nat)),
    (accessFault s size l = none ↔ ∀ p ∈ l, p.2 % size = 0 ∧ s.populated (s.normalise p.2) = true)
    ∧ ∀ k t a, accessFault s size l = some (k, t, a) →
        (k = 2 ↔ ∃ p ∈ l, p.2 % size ≠ 0) ∧ (k = 2 ∨ k = 3)
        ∧ ∃ l1 l2, l = l1 ++ (t, a) :: l2 ∧ ¬ (a % size = 0 ∧ s.populated (s.normalise a) = true)
          ∧ ∀ p ∈ l1, p.2 % size = 0 ∧ s.populated (s.normalise p.2) = true)
  ∧ ∀ r ∈ memRows, ∀ (s : State) (i : Issue) (ins : Insn) (h : Hand) (k t a : Nat), CanIssue s i r.opc .memory ins h (r.names ins) →
      r.legal h ins = true → mayAccess h = true → (r.release && isRelease ins → released s i.core h (scopeOf ins) = true) →
      (r.accs (s.core i.core) h ins).any (fun p => s.winHeld (s.normalise p.2)) = false →
      accessFault s (r.size ins) (r.accs (s.core i.core) h ins) = some (k, t, a) → Ends (r.cmd i ins) s (StopsWith s i h k)

/-- fence and inv. -/
def Obligations.FencesAndInvalidations : Prop :=
  (∀ (s : State) (i : Issue) (ins : Insn) (h : Hand), Clear s i ins (fenceSpec i ins) h →
    Ends (.fence i ins) s fun t =>
      t.hand i.core i.slot = some (h.issued s.coreTime ins) ∧ t.mem = s.mem ∧ SameRegs issueFields s t
      ∧ (t.core i.core).vrf = (s.core i.core).vrf
      ∧ (CacheOk (s.core i.core).l1 8 l1Set → L1Agrees s i.core → ∀ k, NMap.find? (t.core i.core).l1 k =
          match NMap.find? (s.core i.core).l1 k with
          | none => none
          | some x => if x.st = .v ∧ isAcquire ins ∧ someEnabled h ins ∧ 2 ≤ scopeOf ins then none else some x))
  ∧ (∀ (s : State) (i : Issue) (ins : Insn) (h : Hand), Clear s i ins (invInsnSpec i ins) h →
    Ends (.invInsn i ins) s fun t =>
      let range := if ins.fn.getLsbD 10 then some (s.normalise (h.u ins.sra.toNat).toNat, (h.u ins.srb.toNat).toNat) else none
      t.mem = s.mem ∧ SameRegs issueFields s t ∧ (t.core i.core).vrf = (s.core i.core).vrf
      ∧ (∃ h', t.hand i.core i.slot = some h' ∧ { h' with fetchBuf := h.fetchBuf } = h.issued s.coreTime ins)
      ∧ (CacheOk (s.core i.core).l1 8 l1Set → L1Agrees s i.core → ∀ k, NMap.find? (t.core i.core).l1 k =
          match NMap.find? (s.core i.core).l1 k with
          | none => none
          | some x => if x.st = .v ∧ someEnabled h ins ∧ 2 ≤ scopeOf ins ∧ lineIn range x.line 1 then none else some x)
      ∧ (ins.fn.getLsbD 9 = true → someEnabled h ins = true →
          (t.core i.core).ic = (s.core i.core).ic.filter fun x => !lineIn range x.2.line 1))

/-- The completion of memory instructions. -/
def Obligations.AccessesComplete : Prop :=
  ∀ (s : State) (x : HandId) (op : Nat) (h : Hand) (o : MemOp),
    s.clocked (x.core.val / 4) = true → s.hand x.core x.slot = some h → h.removed = false →
    h.ops.find? (fun o => o.id == op) = some o → o.opc < 0xA0 ∨ 0xA4 < o.opc → enqOwes s x.core x.slot op = false →
    o.answered = true →
    let n := if o.opc = 0x80 then sizeRegs (o.insn.fn.toNat % 8) else footprint o.insn.typ.toNat
    o.insn.dst.toNat % n = 0 →
    ∃ u h', Goes (.memAccessComplete x op) s
        (settle (pumpHand (if o.acquires then invalidateStaged u x.core (scopeOf o.insn) none else u) x.core x.slot) x.core x.slot)
      ∧ Same [.cores] s u ∧ (∀ d, d ≠ x.core.val → u.core d = s.core d)
      ∧ (∀ m, m ≠ x.slot.val → u.hand x.core m = s.hand x.core m)
      ∧ u.hand x.core x.slot = some h' ∧ h'.ops = h.ops.filter (fun o => o.id != op) ∧ h'.pc = h.pc ∧ h'.preds = h.preds
      ∧ h'.ureg = (if o.opc = 0x82 then (h.setU (o.insn.dst.toNat % 64) (BitVec.ofNat 64 (loadValue o (o.part 0)))).ureg else h.ureg)
      ∧ h'.flags = (if isLoad o.opc ∧ ∃ p ∈ o.parts.zipIdx, (o.part p.2).gran ≠ .good then h.flags ||| 0x20 else h.flags)
      ∧ (isLoad o.opc = true → o.opc ≠ 0x82 → ∀ j < n, ∀ k < 64, (u.core x.core).v h (o.insn.dst.toNat + j) k =
          match o.parts.zipIdx.find? (fun p => p.1.thread == k) with
          | some p => BitVec.ofNat 32 (loadValue o (o.part p.2) / 2 ^ (32 * j))
          | none => (s.core x.core).v h (o.insn.dst.toNat + j) k)
      ∧ (∀ q, (∀ j < n, q ≠ h.phys (o.insn.dst.toNat + j)) →
          NMap.get zeroLanes (u.core x.core).vrf q = NMap.get zeroLanes (s.core x.core).vrf q)
      ∧ (isLoad o.opc = false ∨ o.opc = 0x82 → (u.core x.core).vrf = (s.core x.core).vrf)

/-- The poison trap, and instruction fetch. -/
def Obligations.PoisonTrapAndFetch : Prop :=
  (∀ (s : State) (x : HandId) (h : Hand) (f : FaultRec), s.clocked (x.core.val / 4) = true → s.hand x.core x.slot = some h →
    h.poison = some f → h.canIssue = true → Ends (.poisonTrap x) s fun t =>
      ∃ h', t.hand x.core x.slot = some h' ∧ h'.pc = h.pc ∧ h'.poison = none ∧ h'.ureg = h.ureg ∧ t.mem = s.mem
        ∧ if h.ops = [] then h'.st = .faulted else h'.stop = some (.fault { f with resume := h.pc }))
  ∧ ∀ (s : State) (x : HandId) (h : Hand), s.clocked (x.core.val / 4) = true → (s.core x.core).icinit = false →
      (s.clu (x.core.val / 4)).ccinit = false → s.hand x.core x.slot = some h → h.canIssue = true →
      (fetchNeed s (s.core x.core) h = none → h.st = .waiting .fetch →
        Goes (.instructionFetch x) s (s.setHand x.core x.slot { h with st := .ready }))
      ∧ (∀ a, fetchNeed s (s.core x.core) h = some a → s.populated (s.normalise a.toNat) = false →
          Ends (.instructionFetch x) s fun t => ∃ h', t.hand x.core x.slot = some h' ∧ t.mem = s.mem
            ∧ if h.ops = [] then h'.st = .faulted ∧ h'.pc = a
              else ∃ f, h'.stop = some (.fault f) ∧ f.kind = 3 ∧ f.resume = a)
      ∧ (∀ a key l, fetchNeed s (s.core x.core) h = some a → s.populated (s.normalise a.toNat) = true →
          fetching s x.core x.slot (lineOf (s.normalise a.toNat)) = false → s.winHeld (s.normalise a.toNat) = false →
          s.memTy (128 * lineOf (s.normalise a.toNat)) = .coherent →
          (s.clu (x.core.val / 4)).find (lineOf (s.normalise a.toNat)) = some (key, l) →
          Ends (.instructionFetch x) s fun t =>
            (∃ w y, NMap.find? (t.core x.core).ic (l1Set (lineOf (s.normalise a.toNat)) * 8 + w) = some y ∧ w < 8
              ∧ y.line = lineOf (s.normalise a.toNat) ∧ y.data = l.data)
            ∧ t.hand x.core x.slot = some { h with st := .waiting .fetch } ∧ t.mem = s.mem)

/-- R203, R204: task instructions. -/
def Obligations.TaskInstructionsIssue : Prop :=
  (∀ (s : State) (i : Issue) (ins : Insn) (h : Hand), Clear s i ins (enqSpec i ins) h →
    let accs := threadAccesses (s.core i.core) h ins
    let got := accs.take (8192 - s.cp.kitty.length)
    released s i.core h 3 = true ∧ (∀ p ∈ accs, p.2 % 64 = 0 ∧ s.populated (s.normalise p.2) = true) ∧
    ∃ x h', Same [.cores, .regs, .cp, .mgc] s x ∧ SameRegs (.KIT_ENQ_CNT :: .KIT_FULL_CNT :: issueFields) s x
      ∧ Goes (.enq i ins) s (if got = [] then x else pumpOp x i.core i.slot h.nextOp)
      ∧ x.cp.kitty = s.cp.kitty ++ (List.range got.length).map (fun j => KSlot.reserved i.core i.slot h.nextOp j)
      ∧ x.reg .KIT_ENQ_CNT = satAdd32 (s.reg .KIT_ENQ_CNT) got.length
      ∧ x.reg .KIT_FULL_CNT = satAdd32 (s.reg .KIT_FULL_CNT) (accs.length - got.length)
      ∧ x.hand i.core i.slot = some h' ∧ h'.ureg = h.ureg ∧ h'.flags = h.flags ∧ h'.pc = (h.issued s.coreTime ins).pc
      ∧ (∀ k < 64, ∀ p, (h'.p p).getLsbD k =
          if p = ins.dst.toNat ∧ p ≠ 0 then
            h.live.getLsbD k && (if h.enabled ins k then decide (k ∈ got.map (·.1)) else (h.p p).getLsbD k)
          else (h.p p).getLsbD k)
      ∧ (got ≠ [] → ∃ o, h'.ops = h.ops ++ [o] ∧ o.opc = 0xC0 ∧ o.parts.map (fun p => (p.thread, p.addr, p.size, p.op)) =
          got.map fun p => (p.1, s.normalise p.2, 64, PartOp.load))
      ∧ (x.core i.core).vrf = (s.core i.core).vrf)
  ∧ (∀ (s : State) (i : Issue) (ins : Insn) (h : Hand), Clear s i ins (fsigSpec i ins) h →
    let who := numsWhere 64 (h.enabled ins)
    let value (k : Nat) := srcB (s.core i.core) h ins .u64 k
    let parts : List Part := who.map fun k =>
      { thread := k, addr := s.fenceAddr (fsigFence (s.core i.core) h ins k), size := 16,
        op := .signal (if ins.fn.getLsbD 0 then .add (value k) else .set (value k)) false }
    (∀ k ∈ who, fsigFence (s.core i.core) h ins k < 4096) ∧
    if who = [] then Ends (.fsig i ins) s fun t => OnlyHandRegs i s t ∧ t.hand i.core i.slot = some (h.issued s.coreTime ins)
    else ∃ x, Began s i h 0xC1 ins parts x ∧ Goes (.fsig i ins) s (pumpOp x i.core i.slot h.nextOp))
  ∧ ∀ (s : State) (i : Issue) (ins : Insn) (h : Hand) (k : Nat), CanIssue s i 0xC1 .memory ins h (fsigSpec i ins).names →
      (fsigSpec i ins).legal h = true → (fsigSpec i ins).ready s (s.core i.core) h = true → k < 64 → h.enabled ins k = true →
      4096 ≤ fsigFence (s.core i.core) h ins k → Ends (.fsig i ins) s (StopsWith s i h 3)

/-! ### The matrix engine -/

/-- Acceptance of matrix instructions. -/
def Obligations.MatrixInstructionsIssue : Prop :=
  (∀ (s : State) (i : Issue) (ins : Insn) (h : Hand), ∀ p ∈ matrixSpecs i ins, Clear s i ins p.2 h →
    (p.2.opc = 0xA0 → ins.fn.getLsbD 5 = true → ins.fn.getLsbD 3 = false → strideOf h ins = 0) →
    ∃ x h' o, Goes p.1 s (pumpOp x i.core i.slot h.nextOp) ∧ Same [.cores, .regs, .free] s x ∧ SameRegs issueFields s x
      ∧ x.hand i.core i.slot = some h' ∧ h'.ops = h.ops ++ [o] ∧ o.id = h.nextOp ∧ o.opc = p.2.opc ∧ o.insn = ins ∧ o.started = false
      ∧ h'.pc = (h.issued s.coreTime ins).pc ∧ h'.ureg = h.ureg ∧ h'.preds = h.preds ∧ h'.flags = h.flags
      ∧ (x.core i.core).vrf = (s.core i.core).vrf ∧ (x.core i.core).osb = (s.core i.core).osb
      ∧ (x.core i.core).acc = (s.core i.core).acc
      ∧ (if p.2.opc = 0xA0 ∨ p.2.opc = 0xA2 then
          (x.core i.core).lsq = (s.core i.core).lsq ++ [(i.slot.val, h.nextOp)] ∧ (x.core i.core).cq = (s.core i.core).cq
        else (x.core i.core).cq = (s.core i.core).cq ++ [(i.slot.val, h.nextOp)] ∧ (x.core i.core).lsq = (s.core i.core).lsq)
      ∧ (p.2.opc = 0xA0 → ins.fn.getLsbD 3 = false → ins.fn.getLsbD 4 = false → ins.fn.getLsbD 5 = false →
          o.parts.map (fun q => (q.thread, q.addr, q.size, q.op)) = (List.range 64).flatMap fun r => (List.range 2).map fun j =>
            (r, s.normalise (((h.u (ins.sra.toNat % 64)).toNat + r * strideOf h ins + 64 * j) % 2 ^ 64), 64, PartOp.load)))
  ∧ (∀ (s : State) (i : Issue) (ins : Insn) (h : Hand), ∀ p ∈ matrixSpecs i ins, CanIssue s i p.2.opc p.2.unit ins h p.2.names →
      p.2.legal h = true → p.2.matrix h = true → Ends p.1 s (StopsWith s i h 4))
  ∧ ∀ (s : State) (i : Issue) (ins : Insn) (h : Hand), Clear s i ins (mxLdSpec i ins) h → ins.fn.getLsbD 5 = true →
      ins.fn.getLsbD 3 = false → strideOf h ins ≠ 0 → exec (.mxLd i ins) s = .fault .notDefined

/-- R234: the notice gate. -/
def Obligations.GateHoldsMma : Prop :=
  (∀ (s : State) (core : Fin 256) (sl id : Nat) (rest : List (Nat × Nat)) (h : Hand) (o : MemOp), s.clocked (core.val / 4) = true →
    (s.core core).cq = (sl, id) :: rest → s.hand core sl = some h → h.ops.find? (fun o => o.id == id) = some o → o.opc = 0xA1 →
    ((s.core core).gate = true → Ends (.mmaStart core) s fun t =>
      Same [.cores] s t ∧ (t.core core).cq = rest ∧ (t.core core).gate = true ∧ (t.core core).mmaAt = s.time.bnd
      ∧ ∃ h', t.hand core sl = some h' ∧ h'.ops.find? (fun o => o.id == id) = some { o with started := true })
    ∧ ((s.core core).gate = false → s.isSet .CRG_NOTICE_PEND (core.val / 4) = false → (∀ n ∈ s.pwr.notices, n.1 ≠ core.val / 4) →
        Goes (.mmaStart core) s { s with pwr := { s.pwr with notices := s.pwr.notices ++ [(core.val / 4, 3)] } })
    ∧ ((s.core core).gate = false → (s.isSet .CRG_NOTICE_PEND (core.val / 4) = true ∨ ∃ n ∈ s.pwr.notices, n.1 = core.val / 4) →
        Goes (.mmaStart core) s s))
  ∧ (∀ (s : State) (x : HandId) (op : Nat) (h : Hand) (o : MemOp), s.clocked (x.core.val / 4) = true →
      s.hand x.core x.slot = some h → h.ops.find? (fun o => o.id == op) = some o → o.opc = 0xA3 ∨ o.opc = 0xA4 →
      ((s.core x.core).cq.head? = some (x.slot.val, op) → Ends (.matrixInsnComplete x op) s fun t =>
        ∀ h', t.hand x.core x.slot = some h' → ∀ q ∈ h'.ops, q.id ≠ op)
      ∧ ((s.core x.core).cq.head? ≠ some (x.slot.val, op) → Goes (.matrixInsnComplete x op) s s))
  ∧ ∀ (s : State) (core : Fin 256), s.clocked (core.val / 4) = true → (s.core core).gate = true →
      (s.core core).mmaAt + shutTicks s (core.val / 4) ≤ s.time.bnd → Ends (.noticeGateShut core) s fun t =>
        (t.core core).gate = false ∧ Same [.cores, .regs] s t ∧ SameRegs [.CRG_GATE_OPEN, .CRG_PRERAISE] s t
        ∧ ∀ d, d ≠ core.val → t.core d = s.core d

/-- The completion of matrix instructions. -/
def Obligations.MatrixInstructionsComplete : Prop :=
  ∀ (s : State) (x : HandId) (op : Nat) (h : Hand) (o : MemOp), s.clocked (x.core.val / 4) = true →
    s.hand x.core x.slot = some h → h.removed = false → h.ops.find? (fun o => o.id == op) = some o → 0xA0 ≤ o.opc → o.opc ≤ 0xA4 →
    mxDone (s.core x.core) x.slot h o = true → h.accPages.Nodup → h.osbPages.Nodup →
    ∃ u h', Goes (.matrixInsnComplete x op) s (settle (pumpHand u x.core x.slot) x.core x.slot)
      ∧ Same [.cores] s u ∧ (∀ d, d ≠ x.core.val → u.core d = s.core d)
      ∧ u.hand x.core x.slot = some h' ∧ h'.ops = h.ops.filter (fun o => o.id != op) ∧ h'.pc = h.pc ∧ h'.ureg = h.ureg
      ∧ h'.preds = h.preds ∧ (u.core x.core).lsq = (s.core x.core).lsq.filter (· ≠ (x.slot.val, op))
      ∧ (u.core x.core).cq = (s.core x.core).cq.filter (· ≠ (x.slot.val, op))
      ∧ (o.opc = 0xA1 → o.insn.dst.toNat < h.numTiles →
          let co := s.core x.core
          let r := mmaTile (fnBits o.insn 2 0) (fnBits o.insn 5 3) (o.insn.fn.getLsbD 6) (co.page h o.insn.sra.toNat).toArray
            (co.page h o.insn.srb.toNat).toArray (co.slotBytes h o.insn.sra.toNat).toArray
            (co.slotBytes h o.insn.srb.toNat).toArray (co.tile h o.insn.dst.toNat).toArray
          (u.core x.core).tile h o.insn.dst.toNat = r.1 ∧ h'.flags = h.flags ||| r.2
            ∧ (u.core x.core).osb = co.osb ∧ (u.core x.core).vrf = co.vrf)
      ∧ (o.opc = 0xA3 → o.insn.dst.toNat < h.numTiles →
          (u.core x.core).tile h o.insn.dst.toNat = List.replicate 4096 0 ∧ h'.flags = h.flags
            ∧ (u.core x.core).osb = (s.core x.core).osb ∧ (u.core x.core).vrf = (s.core x.core).vrf)
      ∧ (o.opc = 0xA2 → o.insn.dst.toNat < h.numTiles → (u.core x.core).osb = (s.core x.core).osb ∧
          (o.insn.fn.getLsbD 6 = true → (u.core x.core).tile h o.insn.dst.toNat = List.replicate 4096 0)
          ∧ (o.insn.fn.getLsbD 6 = false → (u.core x.core).acc = (s.core x.core).acc)
          ∧ h'.flags = h.flags ||| (mxStored (s.core x.core) h o.insn).2
          ∧ (o.insn.fn.getLsbD 3 = false → (u.core x.core).vrf = (s.core x.core).vrf))
      ∧ (o.opc = 0xA0 → o.insn.dst.toNat < h.numPages → o.insn.fn.getLsbD 5 = false →
          (u.core x.core).acc = (s.core x.core).acc ∧ (u.core x.core).vrf = (s.core x.core).vrf
          ∧ (o.insn.fn.getLsbD 3 = true → o.insn.fn.getLsbD 4 = false →
              (u.core x.core).page h o.insn.dst.toNat = runBytes (s.core x.core) h o.insn.sra.toNat 32)
          ∧ (o.insn.fn.getLsbD 3 = false → o.insn.fn.getLsbD 4 = false → o.parts.length = 128 →
              (u.core x.core).page h o.insn.dst.toNat = o.parts.zipIdx.flatMap fun p => loadedBytes o.insn (o.part p.2))
          ∧ (o.insn.fn.getLsbD 3 = false → o.insn.fn.getLsbD 4 = true → (u.core x.core).page h o.insn.dst.toNat =
              transposed (fnBits o.insn 2 0) (o.parts.zipIdx.flatMap fun p => loadedBytes o.insn (o.part p.2)).toArray))
      ∧ (o.opc = 0xA4 → o.insn.fn.getLsbD 10 = true → (u.core x.core).acc = (s.core x.core).acc ∧ (u.core x.core).vrf = (s.core x.core).vrf)
      ∧ (o.opc = 0xA4 → o.insn.fn.getLsbD 10 = false → (u.core x.core).acc = (s.core x.core).acc
          ∧ (u.core x.core).osb = (s.core x.core).osb
          ∧ (o.insn.dst.toNat % (cvtRuns (fnBits o.insn 2 0)).2 = 0 → ∀ m < (cvtRuns (fnBits o.insn 2 0)).2, ∀ k < 64,
              (u.core x.core).v h (o.insn.dst.toNat + m) k =
                match NMap.find? o.res k with
                | some r => BitVec.ofNat 32 (leNat ((r.bytes.drop (4 * m)).take 4))
                | none => (s.core x.core).v h (o.insn.dst.toNat + m) k))

/-- R224: INT8 summation. -/
def Obligations.IntSummationClamps : Prop :=
  ∀ (a b sa sb : Array Byte) (i j start : Nat),
    let byte (p : Array Byte) (v k : Nat) : Int := (p.getD (128 * v + k) 0).toInt
    let group (g : Nat) : Int := ((List.range 16).map fun k => byte a i (16 * g + k) * byte b j (16 * g + k)).sum
    let clamp (v : Int) : Int := max (-2147483648) (min 2147483647 v)
    let run (n : Nat) : Int := (List.range n).foldl (fun c g => clamp (c + group g)) (BitVec.ofNat 32 start).toInt
    let r := mmaElement 4 4 a b sa sb i j start
    (BitVec.ofNat 32 r.1).toInt = run 8
      ∧ (r.2 = flOverflow ↔ ∃ g < 8, run g + group g ≠ clamp (run g + group g)) ∧ (r.2 = flOverflow ∨ r.2 = 0)

/-! ### Placement, release and task completion -/

/-- Placement (R130, R131, R142, R146, R591, R592). -/
def Obligations.HandsArePlaced : Prop :=
  (∀ (s : State) (t : Task) (c i low : Nat) (cand : List Nat), s.active = true → s.stopped 1 = false → s.placing = some t →
    s.task t.id = some t → t.held = false → candidates s t = low :: cand →
    (circular (low :: cand) (t.cursor.getD low)).find? (fun c => s.clocked c && !s.drains c && (coreFor s c t).isSome) = some c →
    coreFor s c t = some i →
    (t.nweight = 0 ∨ ∃ a, NMap.find? t.noticed c = some a ∧ a + noticeTicks s c ≤ s.time.bnd) →
    Ends .handPlace s fun u => ∃ slot h,
      i / 4 = c ∧ slot < 16 ∧ s.hand i slot = none ∧ u.hand i slot = some h
      ∧ (h.task = t.id ∧ h.vregs = t.vregs ∧ h.pc = BitVec.ofNat 64 t.pc ∧ h.st = .ready ∧ h.flags = 0 ∧ h.ops = [])
      ∧ (∀ k < 64, h.live.getLsbD k = decide (64 * t.placed + k < t.threads))
      ∧ (∀ n, n ≠ 0 → h.p n = 0)
      ∧ (h.u 0 = 0 ∧ h.u 1 = BitVec.ofNat 64 t.placed ∧ h.u 2 = BitVec.ofNat 64 ((t.threads + 63) / 64) ∧ h.u 3 = BitVec.ofNat 64 t.id
          ∧ h.u 4 = BitVec.ofNat 64 s.coreTime ∧ h.u 5 = 0 ∧ h.u 6 = 0 ∧ h.u 7 = 0)
      ∧ (∀ k, 8 ≤ k → k < 64 → h.u k = BitVec.ofNat 64 (leNat ((t.params.drop (8 * (k - 8))).take 8)))
      ∧ (h.vblk.length = t.vregs / 16 ∧ h.vblk.Nodup ∧ ∀ b, NMap.get .free (u.core i).vb b =
          if b ∈ h.vblk then .used else NMap.get .free (s.core i).vb b)
      ∧ (h.osbPages.length = t.opg ∧ h.osbPages.Nodup ∧ ∀ b, NMap.get .free (u.core i).ob b =
          if b ∈ h.osbPages then .used else NMap.get .free (s.core i).ob b)
      ∧ (h.accPages.length = t.apg ∧ h.accPages.Nodup ∧ ∀ b, NMap.get .free (u.core i).ab b =
          if b ∈ h.accPages then .used else NMap.get .free (s.core i).ab b)
      ∧ (∀ b ∈ h.vblk, b < 64 ∧ NMap.get .free (s.core i).vb b = .free)
      ∧ (∀ b ∈ h.osbPages, b < 16 ∧ NMap.get .free (s.core i).ob b = .free)
      ∧ (∀ b ∈ h.accPages, b < 16 ∧ NMap.get .free (s.core i).ab b = .free)
      ∧ (u.core i).vrf = (s.core i).vrf ∧ (u.core i).osb = (s.core i).osb ∧ (u.core i).acc = (s.core i).acc
      ∧ (∀ n, n ≠ slot → u.hand i n = s.hand i n) ∧ (∀ d, d ≠ i → u.core d = s.core d) ∧ Same [.cores, .tasks] s u
      ∧ u.task t.id = some { t with
          placed := t.placed + 1, cursor := some (((low :: cand).find? (c < ·)).getD low), firstPlaced := some (t.firstPlaced.getD s.time.now) })
  ∧ (∀ (s : State) (t : Task) (c low : Nat) (cand : List Nat), s.active = true → s.stopped 1 = false → s.placing = some t →
    t.held = false → candidates s t = low :: cand →
    (circular (low :: cand) (t.cursor.getD low)).find? (fun c => s.clocked c && !s.drains c && (coreFor s c t).isSome) = some c →
    t.nweight ≠ 0 → NMap.find? t.noticed c = none →
    Ends .handPlace s fun u => Same [.pwr, .tasks] s u ∧ u.pwr = { s.pwr with notices := s.pwr.notices ++ [(c, t.nweight)] })
  ∧ ∀ (s : State) (t : Task), s.active = true → s.stopped 1 = false → s.placing = some t → s.task t.id = some t → t.held = false →
    candidates s t = [] → Ends .handPlace s fun u => Same [.tasks] s u ∧
      u.task t.id = some { t with noCluster := true, dark := t.dark || decide (0 < t.placed) }

/-- Release and zeroing (R132, R133, R247, R248). -/
def Obligations.ReleasedStorageIsZeroed : Prop :=
  (∀ (s : State) (x : HandId) (h : Hand), s.clocked (x.core.val / 4) = true → s.hand x.core x.slot = some h → h.removed = true →
    h.ops = [] → Ends (.handRemove x) s fun t => t.hand x.core x.slot = some { h with st := .releasing, stop := none, poison := none }
      ∧ Same [.cores] s t ∧ (∀ d, d ≠ x.core.val → t.core d = s.core d) ∧ ∀ n, n ≠ x.slot.val → t.hand x.core n = s.hand x.core n)
  ∧ (∀ (s : State) (x : HandId) (h : Hand), s.clocked (x.core.val / 4) = true → s.hand x.core x.slot = some h → h.st = .releasing →
    h.ops = [] → Ends (.handRelease x) s fun t => t.hand x.core x.slot = none
      ∧ Same [.cores] s t ∧ (∀ d, d ≠ x.core.val → t.core d = s.core d) ∧ (∀ n, n ≠ x.slot.val → t.hand x.core n = s.hand x.core n)
      ∧ (∀ b, NMap.get .free (t.core x.core).vb b = if b ∈ h.vblk then .zeroing else NMap.get .free (s.core x.core).vb b)
      ∧ (∀ b, NMap.get .free (t.core x.core).ob b = if b ∈ h.osbPages then .zeroing else NMap.get .free (s.core x.core).ob b)
      ∧ (∀ b, NMap.get .free (t.core x.core).ab b = if b ∈ h.accPages then .zeroing else NMap.get .free (s.core x.core).ab b)
      ∧ (t.core x.core).vrf = (s.core x.core).vrf ∧ (t.core x.core).osb = (s.core x.core).osb ∧ (t.core x.core).acc = (s.core x.core).acc)
  ∧ (∀ (s : State) (x : HandId) (h : Hand), s.hand x.core x.slot = some h → h.ops ≠ [] →
    Goes (.handRelease x) s s ∧ Goes (.handRemove x) s s)
  ∧ ∀ (s : State) (core : Fin 256) (n : Nat), s.clocked (core.val / 4) = true →
    (NMap.get .free (s.core core).vb n = .zeroing → Ends (.storageZeroed core .regs n) s fun t =>
      Same [.cores] s t ∧ (∀ d, d ≠ core.val → t.core d = s.core d) ∧ (t.core core).slots = (s.core core).slots
      ∧ NMap.get .free (t.core core).vb n = .free
      ∧ ∀ r, NMap.get zeroLanes (t.core core).vrf r = if r / 16 = n then zeroLanes else NMap.get zeroLanes (s.core core).vrf r)
    ∧ (NMap.get .free (s.core core).ob n = .zeroing → Ends (.storageZeroed core .osb n) s fun t =>
      Same [.cores] s t ∧ (∀ d, d ≠ core.val → t.core d = s.core d) ∧ (t.core core).slots = (s.core core).slots
      ∧ NMap.get .free (t.core core).ob n = .free
      ∧ ∀ a, NMap.get 0 (t.core core).osb a = if a / 8192 = n then 0 else NMap.get 0 (s.core core).osb a)
    ∧ (NMap.get .free (s.core core).ab n = .zeroing → Ends (.storageZeroed core .acc n) s fun t =>
      Same [.cores] s t ∧ (∀ d, d ≠ core.val → t.core d = s.core d) ∧ (t.core core).slots = (s.core core).slots
      ∧ NMap.get .free (t.core core).ab n = .free
      ∧ ∀ a, NMap.get 0 (t.core core).acc a = if a / 2048 = n then 0 else NMap.get 0 (s.core core).acc a)
    ∧ (NMap.get .free (s.core core).vb n ≠ .zeroing → Goes (.storageZeroed core .regs n) s s)
    ∧ (NMap.get .free (s.core core).ob n ≠ .zeroing → Goes (.storageZeroed core .osb n) s s)
    ∧ (NMap.get .free (s.core core).ab n ≠ .zeroing → Goes (.storageZeroed core .acc n) s s)

/-- Completion of tasks (R593). -/
def Obligations.TasksComplete : Prop :=
  (∀ (s : State) (id : Nat) (t : Task), s.stopped 1 = false → s.task id = some t →
    (t.aborted = false ∧ t.noCluster = false ∧ t.placed < t.hands ∨ handsWhere s (fun _ _ h => h.task == id) ≠ []) →
    Goes (.taskComplete id) s s)
  ∧ (∀ (s : State) (id : Nat) (t : Task), s.stopped 1 = false → s.task id = some t →
    (t.aborted = true ∨ t.noCluster = true ∨ t.hands ≤ t.placed) → handsWhere s (fun _ _ h => h.task == id) = [] →
    s.stagedDone = true →
    Ends (.taskComplete id) s fun u => u.tasks = NMap.erase s.tasks id
      ∧ Same [.tasks, .regs, .posted, .mesh, .xmit, .host, .mgc, .cp] s u
      ∧ u.reg .CPR_TASK_CNT = satAdd32 (s.reg .CPR_TASK_CNT) 1
      ∧ u.reg .CPR_TASK_ERR_CNT = (if t.faulted ∨ t.dark ∨ t.noCluster then satAdd32 (s.reg .CPR_TASK_ERR_CNT) 1 else s.reg .CPR_TASK_ERR_CNT)
      ∧ SameRegs [.CPR_TASK_CNT, .CPR_TASK_ERR_CNT, .CPR_CMD_ERR_CNT, .CTX_EVT_TAIL, .CTX_EVT_LOST_CNT, .HIF_CPL_TO_CNT] s u
      ∧ (t.tail.fence = 0xFFFF → t.tail.evt = false → t.faulted = false → t.dark = false → t.noCluster = false →
          Same [.tasks, .regs] s u))
  ∧ ∀ (s : State) (id : Nat) (t : Task), s.stopped 1 = false → s.task id = some t →
    (t.aborted = true ∨ t.noCluster = true ∨ t.hands ≤ t.placed) → handsWhere s (fun _ _ h => h.task == id) = [] →
    s.stagedDone = false → Ends (.taskComplete id) s fun u => u.tasks = s.tasks ∧ u.cores = s.cores ∧ u.mem = s.mem

/-! ### Hand debugging and the brake -/

/-- The five debug requests (R251, R252). -/
def Obligations.DebugRequestsQueue : Prop :=
  ∀ p ∈ ([(.dbgHalt, 1), (.dbgRun, 2), (.dbgStep, 3), (.dbgKill, 4), (.dbgBrake, 5)] : List (Instr × Nat)), ∀ s : State,
    let least := if p.2 = 5 then 3 else 2
    let e : TickEvt := ⟨7, s.reg .DBG_CORE * 16 + s.reg .DBG_SLOT,
      .debugCmd p.2 (s.reg .DBG_CORE) (s.reg .DBG_SLOT) (s.reg .DBG_SCOPE) (s.reg64 .DBG_TASK_LO .DBG_TASK_HI)⟩
    (s.isSet .BRK_BRAKED = true → Goes p.1 s s)
    ∧ (s.isSet .BRK_BRAKED = false → s.level < least → Ends p.1 s fun t =>
        t.reg .DBG_RESULT = 1 ∧ Same [.regs] s t ∧ SameRegs [.DBG_RESULT] s t)
    ∧ (s.isSet .BRK_BRAKED = false → least ≤ s.level → s.isSet .DBG_PENDING = true → Ends p.1 s fun t =>
        t.reg .DBG_RESULT = 5 ∧ Same [.regs] s t ∧ SameRegs [.DBG_RESULT] s t)
    ∧ (s.isSet .BRK_BRAKED = false → least ≤ s.level → s.isSet .DBG_PENDING = false → Ends p.1 s fun t =>
        t.reg .DBG_PENDING = 1 ∧ SameRegs [.DBG_PENDING] s t ∧ Same [.regs, .time] s t
        ∧ t.time = { s.time with due := if e ∈ s.time.due then s.time.due else s.time.due ++ [e] })

/-- What debug requests do (R253, R255, R256). -/
def Obligations.DebugCommandsAct : Prop :=
  ∀ (s : State) (core slot task : Nat),
    let act (cmd : Nat) : State := applyAct (.debugCmd cmd core slot 0 task) s
    let only (r : Nat) (t : State) : Prop :=
      t.reg .DBG_RESULT = r ∧ t.reg .DBG_PENDING = 0 ∧ Same [.regs] s t ∧ SameRegs [.DBG_RESULT, .DBG_PENDING] s t
    let hand (h : Hand) (t : State) : Prop :=
      t.hand core slot = some h ∧ t.reg .DBG_RESULT = 0 ∧ t.reg .DBG_PENDING = 0 ∧ Same [.regs, .cores] s t
      ∧ SameRegs [.DBG_RESULT, .DBG_PENDING] s t ∧ (∀ n, n ≠ slot → t.hand core n = s.hand core n)
      ∧ (∀ d, d ≠ core → t.core d = s.core d) ∧ (t.core core).vrf = (s.core core).vrf
    (s.hand core slot = none → only 3 (act 1) ∧ only 3 (act 2) ∧ only 3 (act 3) ∧ only 3 (act 4))
    ∧ ∀ h, s.hand core slot = some h →
      (h.st ≠ .debug → h.st ≠ .faulted → only 2 (act 2) ∧ only 2 (act 3))
      ∧ (h.st ≠ .debug → h.st ≠ .faulted → h.st ≠ .releasing → h.removed = false → h.stop = none →
          hand { h with stop := some (.debug { kind := 0x10, pc := h.pc, resume := h.pc, code := 0x1000, time := s.coreTime }) } (act 1))
      ∧ (h.st = .debug ∨ h.st = .faulted → h.removed = false →
          hand { h with st := .ready, sleepEnd := 0, skipBp := true, stepping := true, stop := none } (act 3)
          ∧ (s.coreTime < h.sleepEnd → hand { h with st := .sleeping, skipBp := true, stop := none } (act 2))
          ∧ (h.sleepEnd ≤ s.coreTime → hand { h with st := .ready, sleepEnd := 0, skipBp := true, stop := none } (act 2)))
      ∧ (h.removed = false → (act 4).hand core slot = some { h with removed := true } ∧ (act 4).reg .DBG_RESULT = 0
          ∧ Same [.regs, .cores, .tasks] s (act 4) ∧ SameRegs [.DBG_RESULT, .DBG_PENDING] s (act 4)
          ∧ ∀ tk, s.task h.task = some tk → (act 4).task h.task = some { tk with lost := tk.lost + 1, faulted := true })

/-- DEBUG and DBG_ACC (R253, R257, R258, R261). -/
def Obligations.HandsEnterDebug : Prop :=
  (∀ (s : State) (x : HandId) (h : Hand) (f : FaultRec), s.clocked (x.core.val / 4) = true → s.hand x.core x.slot = some h →
    h.stop = some (.debug f) → h.removed = false →
    (h.ops ≠ [] → Goes (.debugStop x) s s)
    ∧ (h.ops = [] → f.policy = false → Ends (.debugStop x) s fun t =>
        t.hand x.core x.slot = some { h with st := .debug, stop := none, stepping := false }
        ∧ (∀ d, d ≠ x.core.val → t.core d = s.core d) ∧ (∀ n, n ≠ x.slot.val → t.hand x.core n = s.hand x.core n)
        ∧ Same [.cores, .regs, .posted, .mesh, .xmit, .host, .mgc] s t
        ∧ SameRegs [.CTX_EVT_TAIL, .CTX_EVT_LOST_CNT, .HIF_CPL_TO_CNT] s t)
    ∧ (h.ops = [] → f.policy = true → s.reg .CTX_FP_TRAP = 0 → Ends (.debugStop x) s fun t =>
        t.hand x.core x.slot = some { h with st := .debug, stop := none, stepping := false } ∧ t.tasks = s.tasks)
    ∧ (h.ops = [] → f.policy = true → s.reg .CTX_FP_TRAP = 1 → Ends (.debugStop x) s fun t =>
        t.hand x.core x.slot = some { h with st := .debug, stop := none, stepping := false, removed := true }))
  ∧ ∀ (s : State) (h : Hand) (lo hi : Word), s.isSet .BRK_BRAKED = false → 2 ≤ s.level →
      s.hand (s.reg .DBG_CORE) (s.reg .DBG_SLOT) = some h → h.st = .debug ∨ h.st = .faulted →
      (∀ o ∈ h.ops, o.opc < 0xA0 ∨ 0xA4 < o.opc) →
      let sp := s.reg .DBG_SPACE
      let i := s.reg .DBG_INDEX
      let v : DWord := hi ++ lo
      ((sp = 1 ∧ 0 < i ∧ i < 64) ∨ (sp = 3 ∧ i = 0 ∧ v.toNat % 8 = 0) ∨ (sp = 7 ∧ i < 1024 * h.osbPages.length) ∨ (sp = 9 ∧ i = 0) →
        ∃ t u, Goes (.dbgAccWrite (some lo) hi) s t ∧ t.reg .DBG_RESULT = 0 ∧ Same [.cores, .regs] s t
          ∧ SameRegs [.DBG_RESULT, .DBG_PENDING, .DBG_ACC_DATA_LO, .DBG_ACC_DATA_HI] s t
          ∧ (∀ d, d ≠ s.reg .DBG_CORE → t.core d = s.core d)
          ∧ (∃ h', t.hand (s.reg .DBG_CORE) (s.reg .DBG_SLOT) = some h'
              ∧ (∀ n, h'.u n = if sp = 1 ∧ n = i then v else h.u n) ∧ h'.pc = (if sp = 3 then v else h.pc)
              ∧ h'.sleepEnd = (if sp = 9 then v.toNat else h.sleepEnd) ∧ h'.preds = h.preds ∧ h'.flags = h.flags)
          ∧ Goes .dbgAccRead t u ∧ u.reg64 .DBG_ACC_DATA_LO .DBG_ACC_DATA_HI = v.toNat ∧ u.reg .DBG_RESULT = 0 ∧ u.cores = t.cores)
      ∧ ((sp = 1 ∧ 64 ≤ i) ∨ (sp = 2 ∧ 8 ≤ i) ∨ (sp = 3 ∧ (i ≠ 0 ∨ v.toNat % 8 ≠ 0)) ∨ sp = 5 ∨ sp = 6 ∨ (sp = 0 ∧ h.vregs ≤ i)
          ∨ (sp = 7 ∧ 1024 * h.osbPages.length ≤ i) ∨ 10 ≤ sp →
        Ends (.dbgAccWrite (some lo) hi) s fun t => t.reg .DBG_RESULT = 4 ∧ Same [.regs] s t
          ∧ SameRegs [.DBG_RESULT, .DBG_PENDING, .DBG_ACC_DATA_LO, .DBG_ACC_DATA_HI] s t)

/-- The brake (R265, R268, R270, R273, R275). -/
def Obligations.BrakeIsApplied : Prop :=
  (∀ s : State, s.ticking = true → s.padsTaken = false → s.isSet .BRK_BRAKED = false →
    (s.inOrder 2 0 = true → Ends .brakeNLow s fun t => ⟨2, 0, .brake 0 none⟩ ∈ t.time.ready ∧ Same [.time] s t)
    ∧ (s.inOrder 2 0 = false → Ends .brakeNLow s fun t => ⟨2, 0, .brake 0 none⟩ ∈ t.time.due ∧ Same [.time] s t))
  ∧ (∀ (s u : State) (n : Fin 64) (b d : List Byte), s.takeCtl n 0x81 = some ((b, d), u) →
      (s.isSet .BRK_RX_EN = true → s.isSet .BRK_BRAKED = false → u.isSet .BRK_RX_EN = true → u.isSet .BRK_BRAKED = false →
        Ends (.brake n) s fun t => ⟨2, 0, .brake 0 (some n.val)⟩ ∈ t.time.due ∧ Same [.time, .brk] u t))
  ∧ (∀ (s : State) (src : Nat) (n : Option Nat), s.isSet .BRK_BRAKED = false →
      s.time.ready = [⟨2, src, .brake src n⟩] → s.time.cur.reset = none →
      Ends .brakeApply s fun t => t.reg .BRK_BRAKED = 1 ∧ t.reg64 .BRK_TIME_LO .BRK_TIME_HI = s.time.now % 2 ^ 64
        ∧ t.reg .BRK_SOURCES = s.reg .BRK_SOURCES ||| 2 ^ src ∧ t.reg .BRK_RO_AUTH = (if s.level = 3 then 1 else 0)
        ∧ t.brk = { s.brk with bnd := s.time.bnd, outLow := true } ∧ t.time.cur.brake = true ∧ t.time.ready = []
        ∧ (s.isSet .BRK_FWD_EN = true → ∀ c < 64, (s.link c = 3 ∨ s.linkUp c = true) → s.isSet .CPL_LP c = false →
            (t.cpl c).wire = (s.cpl c).wire ++ [flitBytes ⟨true, s.brakeBody⟩])
        ∧ Same [.regs, .time, .brk, .cpls, .host, .posted, .mesh, .xmit, .mgc] s t
        ∧ SameRegs [.BRK_BRAKED, .BRK_TIME_LO, .BRK_TIME_HI, .BRK_SOURCES, .BRK_RO_AUTH, .BRK_RX_COUPLER, .TIK_JNL_PTR, .TIK_JNL_WRAPS,
            .HIF_CPL_TO_CNT] s t
        ∧ (s.isSet .BRK_FWD_EN = false → s.isSet .BRK_MSI_EN = false → s.isSet .TIK_JNL_EN = false → Same [.regs, .time, .brk] s t))
  ∧ (∀ (s : State) (e : TickEvt), s.time.cur.brake = true → s.time.cur.reset = none →
      (3 ≤ e.cls → e.cls ≤ 6 → (s.applyEvt e).brk.heldCount = s.brk.heldCount + 1
        ∧ (s.applyEvt e).brk.held = (if s.brk.held.length < 64 then s.brk.held ++ [e] else s.brk.held)
        ∧ Same [.time, .brk] s (s.applyEvt e))
      ∧ (7 ≤ e.cls → ∃ x : State, Same [.time] s x ∧ s.applyEvt e = x.discardMoot e.cls e.src e.act))
  ∧ (∀ s : State, s.isSet .BRK_BRAKED = true → Ends .brakeStopDomains s fun t =>
      (∀ r < 7, NMap.find? t.brk.rows r = match NMap.find? s.brk.rows r with
        | some x => some x
        | none => if s.brk.bnd + stopAfter.getD r 0 ≤ s.time.bnd then
            some (s.reg64 .BRK_TIME_LO .BRK_TIME_HI + stopAfter.getD r 0) else none)
      ∧ Same [.brk, .mem] s t ∧ t.mem.cells = s.mem.cells ∧ t.mem.gran = s.mem.gran
      ∧ (NMap.find? s.brk.rows 2 = none → s.brk.bnd + 3 ≤ s.time.bnd → ∀ k < 8, NMap.find? t.mem.selfRefresh k = some true))
  ∧ ∀ s : State, (s.isSet .BRK_BRAKED = false → Goes .brkRoStart s s)
      ∧ (s.isSet .BRK_BRAKED = true → Ends .brkRoStart s fun t => t.brk = { s.brk with layout := some (s.isSet .BRK_RO_MEM) }
          ∧ Same [.brk, .regs] s t ∧ SameRegs [.BRK_RO_LEN_LO, .BRK_RO_LEN_HI] s t)

/-! ### Registers and the Deck -/

/-- Register writes (R25, R26, R28, R30, R676). -/
def Obligations.RegisterWrites : Prop :=
  ∀ (s : State) (b : Block) (inst off : Nat) (v : Word), s.hostEn = true → s.host.inReset = false → s.booted = true →
    inst < b.instances → off % 4 = 0 →
    let fs := b.at' off
    let place (x : Field × Nat × Nat × Nat) : Nat := regKey x.1 (s.instOf x.1 inst) x.2.1
    let val (x : Field × Nat × Nat × Nat) : Nat := bitsOf v.toNat x.2.2.1 x.2.2.2
    let cmd : Instr := .registerWrite (.block b inst off) ((leBytes 4 v.toNat).map some)
    (s.isSet .BRK_BRAKED = false → ¬(b = .HIF ∧ msixBase ≤ off) → ¬(b = .RTE ∧ rteBase ≤ off) → ¬(b = .MGC ∧ off = 0x10) →
      ¬(b = .BRK ∧ (off = 0x18 ∨ off = 0x20 ∨ off = 0x24)) → (b = .COR → s.hasClock (inst / 4) = true) →
      (∀ x ∈ fs, StoresOnly s x.1) →
      (reservedOk fs v.toNat = true → Ends cmd s fun t =>
        Same [.regs, .shadow] s t
        ∧ (∀ x ∈ fs, x.1 ≠ b.cfgErr → match x.1.spec.access with
            | .rw =>
              if x.1.lists x.2.1 (val x) = false then t.reg x.1 (s.instOf x.1 inst) x.2.1 = s.reg x.1 (s.instOf x.1 inst) x.2.1
                ∧ NMap.find? t.shadow (place x) = NMap.find? s.shadow (place x)
              else if x.1.spec.shadowed ∨ x.1.spec.block = .TILE then NMap.find? t.shadow (place x) = some (val x)
                ∧ t.reg x.1 (s.instOf x.1 inst) x.2.1 = s.reg x.1 (s.instOf x.1 inst) x.2.1
              else t.reg x.1 (s.instOf x.1 inst) x.2.1 = val x
            | .w1c => t.reg x.1 (s.instOf x.1 inst) x.2.1 =
                s.reg x.1 (s.instOf x.1 inst) x.2.1 - (s.reg x.1 (s.instOf x.1 inst) x.2.1 &&& val x)
            | _ => t.reg x.1 (s.instOf x.1 inst) x.2.1 = s.reg x.1 (s.instOf x.1 inst) x.2.1)
        ∧ ((∃ x ∈ fs, x.1.spec.access = .rw ∧ x.1.lists x.2.1 (val x) = false) →
            t.reg b.cfgErr inst = satAdd32 (s.reg b.cfgErr inst) 1)
        ∧ ((∀ x ∈ fs, x.1.spec.access = .rw → x.1.lists x.2.1 (val x) = true) → t.reg b.cfgErr inst = s.reg b.cfgErr inst)
        ∧ (∀ f i n, regKey f i n ≠ regKey b.cfgErr inst 0 → (∀ x ∈ fs, regKey f i n ≠ place x) → t.reg f i n = s.reg f i n)
        ∧ (∀ k, (∀ x ∈ fs, k ≠ place x) → NMap.find? t.shadow k = NMap.find? s.shadow k))
      ∧ (reservedOk fs v.toNat = false → exec cmd s = .fault .notDefined))
    ∧ (s.isSet .BRK_BRAKED = false → ¬(b = .BRK ∧ (off = 0x18 ∨ off = 0x20 ∨ off = 0x24)) → ∀ bytes : List (Option Byte),
        bytes.length = 4 → none ∈ bytes → (∃ x, some x ∈ bytes) → Ends (.registerWrite (.block b inst off) bytes) s fun t =>
          t.reg b.cfgErr inst = satAdd32 (s.reg b.cfgErr inst) 1 ∧ OnlyRegs [b.cfgErr] s t)
    ∧ (s.isSet .BRK_BRAKED = true → b ≠ .BRK → Goes cmd s s)
    ∧ (∀ i bytes, b.instances ≤ i → Goes (.registerWrite (.block b i off) bytes) s s)
    ∧ ∀ o bytes, Goes (.registerWrite (.deck o) bytes) s s

/-- The commit of shadows (R676). -/
def Obligations.ShadowsCommit : Prop :=
  (∀ (s : State) (b : Block) (inst : Nat), s.stopped 4 = false →
    (s.waiting b inst ≠ [] → b ≠ .PIN → ∃ src t, Goes (.shadowCommit b inst) s t ∧ Queues ⟨9, src, .shadowCommit b inst⟩ s t)
    ∧ (s.waiting b inst = [] → b ≠ .PIN → Goes (.shadowCommit b inst) s s))
  ∧ (∀ (s : State) (b : Block) (inst : Nat), (b = .DBG → 2 ≤ s.level) → (b = .CDC → ∀ k < 8, s.mapBaseOk k = true) →
      ∀ x ∈ s.waiting b inst,
        (applyAct (.shadowCommit b inst) s).reg x.1 x.2.1 x.2.2 = s.regS x.1 x.2.1 x.2.2
        ∧ NMap.find? (applyAct (.shadowCommit b inst) s).shadow (regKey x.1 x.2.1 x.2.2) = none)
  ∧ (∀ (s : State) (b : Block) (inst src : Nat), s.time.cur.reset ≠ some .cold → ∀ x ∈ s.waiting b inst,
        (s.discardMoot 9 src (.shadowCommit b inst)).regS x.1 x.2.1 x.2.2 = s.reg x.1 x.2.1 x.2.2)

/-- The Deck's life (R66, R81, R83). -/
def Obligations.DeckUpdates : Prop :=
  (∀ s : State, s.stopped 2 = false → s.booted = true → s.isSet .DECK_READY = false → s.isSet .MGC_RESTARTING = false →
    (∀ c ∈ s.usableClusters, s.reg .CRG_GATE_STATE c ≠ 0 ∧ s.reg .CRG_GATE_STATE c ≠ 4) →
    (∀ k < 8, s.isSet .MEM_INIT_DONE k = true) →
    Ends .deckReady s fun t => t.reg .DECK_READY = 1 ∧ t.deckGen = 1 ∧ t.deck.shown = s.deckNow
      ∧ Same (.deck :: postParts) s t)
  ∧ (∀ s : State, s.stopped 2 = false → s.isSet .DECK_READY = true → s.isSet .MGC_RESTARTING = false →
    (s.isSet .DECK_UPDATING = false → s.deck.shown ≠ s.deckNow → Ends (.deckUpdate false) s fun t =>
      t.reg .DECK_UPDATING = 1 ∧ t.deck = { s.deck with shown := s.deckNow } ∧ Same [.regs, .deck] s t ∧ SameRegs [.DECK_UPDATING] s t)
    ∧ (s.isSet .DECK_UPDATING = false → s.deck.shown = s.deckNow → Goes (.deckUpdate false) s s)
    ∧ (s.isSet .DECK_UPDATING = true → s.deckGen + 1 < 2 ^ 64 → Ends (.deckUpdate true) s fun t =>
      t.reg .DECK_UPDATING = 0 ∧ t.deckGen = s.deckGen + 1 ∧ t.deck.shown = s.deck.shown
      ∧ t.deck.crc = crc32 (deckWith (s.deckGen + 1) 0 0 s.deck.shown)
      ∧ Same (.deck :: postParts) s t ∧ SameRegs ([.DECK_UPDATING, .DECK_GEN_LO, .DECK_GEN_HI] ++ postRegs) s t))

/-- The state after reset (R29). -/
def Obligations.RegistersAtReset : Prop :=
  let s := State.reset
  (∀ p ∈ ([(.CTX_STATE, 0), (.BRK_BRAKED, 0), (.BRK_FATAL_EN, 1), (.BRK_MSI_EN, 1), (.BRK_FWD_EN, 1), (.BRK_RX_EN, 1), (.DBG_EVT_EN, 1),
      (.DBG_PENDING, 0), (.DBG_WP_LOG2LEN, 3), (.DECK_READY, 0), (.DECK_CHG_EVT_EN, 1), (.COR_DUAL_EN, 1), (.PWR_GOV_MHZ, 2000),
      (.TIK_REPLAY, 0), (.CPR_TASK_CNT, 0)] : List (Field × Nat)), s.reg p.1 = p.2)
  ∧ (∀ c slot, s.hand c slot = none) ∧ s.tasks = [] ∧ s.posted = [] ∧ s.mesh = [] ∧ s.xmit = [] ∧ s.pending = [] ∧ s.shadow = []
  ∧ s.mem.cells = [] ∧ s.time.now = 0 ∧ s.host.out = [] ∧ s.cp.kitty = [] ∧ s.cp.descs = []

/-! ### Retirement, service thresholds and the ledger -/

/-- Retirement under load (R663–R667, R347). -/
def Obligations.RetirementUnderLoad : Prop :=
  (∀ s : State, s.isSet .BRK_BRAKED = false → s.reg .MGC_RETIRE_KIND ≠ 0 →
    let kind := s.reg .MGC_RETIRE_KIND
    let unit := s.reg .MGC_RETIRE_UNIT
    let entry := if kind = 1 then deckIndex .CLU unit else deckIndex .CPL unit
    ((s.mgc.busy ≠ none ∨ s.mgc.due ≠ []) → Ends .mgcRetireGo s fun t => t.reg .MGC_RETIRE_RESULT = 1
      ∧ t.reg .MGC_CFG_ERR = satAdd32 (s.reg .MGC_CFG_ERR) 1 ∧ OnlyRegs [.MGC_RETIRE_RESULT, .MGC_CFG_ERR] s t)
    ∧ (s.mgc.busy = none → s.mgc.due = [] →
      (s.usable entry = false → Ends .mgcRetireGo s fun t => t.reg .MGC_RETIRE_RESULT = 2 ∧ OnlyRegs [.MGC_RETIRE_RESULT] s t)
      ∧ (s.usable entry = true → kind = 1 → s.lastCluster unit = true → Ends .mgcRetireGo s fun t =>
          t.reg .MGC_RETIRE_RESULT = 3 ∧ OnlyRegs [.MGC_RETIRE_RESULT] s t)
      ∧ (s.usable entry = true → (kind = 1 → s.lastCluster unit = false) → Ends .mgcRetireGo s fun t =>
          t.reg .MGC_RETIRE_RESULT = 0 ∧ Same [.regs, .mgc] s t ∧ SameRegs [.MGC_RETIRE_RESULT] s t
          ∧ t.mgc = { s.mgc with due := [{ kind := kind, unit := unit, cause := 2, since := s.time.bnd }] })))
  ∧ (∀ p ∈ ([(.clusterRetire, 1), (.couplerRetire, 2)] : List (Instr × Nat)), ∀ (s : State) (r : Retire) (rest : List Retire),
    s.mgc.due = r :: rest → r.kind = p.2 → s.mgc.busy = none → r.since < s.time.bnd → s.isSet .MGC_RESTARTING = false →
    s.usable (if p.2 = 1 then deckIndex .CLU r.unit else deckIndex .CPL r.unit) = true → (p.2 = 1 → s.lastCluster r.unit = false) →
    Occurs s 9 (cfgSrc .MGC 0 0x4E4) (.unitRetire r.kind r.unit r.cause) →
    Ends p.1 s fun t => t.mgc.due = rest
      ∧ (p.2 = 2 ∨ s.reg .CRG_GATE_STATE r.unit = 1 ∨ s.reg .CRG_GATE_STATE r.unit = 2 ∨ s.reg .CRG_GATE_STATE r.unit = 4 →
          t.reg .MGC_RETIRE_BUSY = 1)
      ∧ (p.2 = 2 → (t.cpl r.unit).leaving = some s.time.bnd ∧ t.deck = s.deck)
      ∧ (p.2 = 1 → s.reg .CRG_GATE_STATE r.unit = 1 →
          NMap.find? t.deck.draining r.unit = some (s.time.bnd + ticksOfUs (s.reg .MGC_DRAIN_US)) ∧ t.cores = s.cores
          ∧ t.mgc.busy = some { kind := 1, unit := r.unit, cause := r.cause, since := s.time.bnd }))
  ∧ (∀ (s : State) (c : Fin 64) (d : Nat), NMap.find? s.deck.draining c = some d →
    (s.time.bnd < d → Goes (.drainDeadline c) s s)
    ∧ (s.stopped 1 = false → d ≤ s.time.bnd → Ends (.drainDeadline c) s fun t => Same [.cores, .tasks, .mgc] s t
        ∧ (∀ core slot h, s.hand core slot = some h → t.hand core slot =
            some (if core / 4 = c.val ∧ h.st ≠ .releasing then { h with removed := true } else h))
        ∧ (∀ core slot, s.hand core slot = none → t.hand core slot = none)
        ∧ ∀ core, (t.core core).vrf = (s.core core).vrf ∧ (t.core core).l1 = (s.core core).l1))
  ∧ (∀ (s : State) (c : Fin 64), s.clocked c = true → s.noHands c = true →
    ((s.clu c).leaving = false → ((s.regSt c).entering = true ∨ NMap.find? s.deck.draining c ≠ none) →
      Ends (.leaveCoherence c) s fun t => (t.clu c).leaving = true ∧ t.mem = s.mem ∧ t.tasks = s.tasks
        ∧ (∀ d, d ≠ c.val → t.clu d = s.clu d) ∧ ∀ core, (t.core core).slots = (s.core core).slots)
    ∧ (s.hasLeft c = true → NMap.find? s.deck.draining c = none → Ends (.leaveCoherenceDone c) s fun t =>
        t.reg .CRG_GATE_STATE c = 3 ∧ t.reg .CRG_F_EFF_MHZ c = 0 ∧ t.clu c = {} ∧ (∀ i < 4, t.core (4 * c + i) = {})
        ∧ (∀ d, d / 4 ≠ c.val → t.core d = s.core d) ∧ t.mem = s.mem ∧ t.tasks = s.tasks)
    ∧ (∀ r, s.hasLeft c = true → NMap.find? s.deck.draining c ≠ none → s.mgc.busy = some r → r.kind = 1 → r.unit = c.val →
        Ends (.leaveCoherenceDone c) s fun t => t.reg .CRG_GATE_STATE c = 0 ∧ t.reg .CRG_V_SET c = 0 ∧ t.clu c = {}
          ∧ (∀ i < 4, t.core (4 * c + i) = {}) ∧ t.usable (deckIndex .CLU c) = false ∧ t.mgc.busy = none
          ∧ t.reg .MGC_RETIRE_BUSY = 0 ∧ NMap.find? t.deck.draining c = none ∧ t.tasks = s.tasks))
  ∧ ∀ (s : State) (n : Fin 64) (r : Retire) (at' : Nat), s.mgc.busy = some r → r.kind = 2 → r.unit = n.val →
    (s.cpl n).leaving = some at' → s.banksRun = true →
    (s.linkUp n = false ∨ s.cplIdle n = true ∨ at' + ticksOfUs 1000 ≤ s.time.bnd) →
    Ends (.couplerRetireDrained n) s fun t => t.link n = 6 ∧ t.reg .CPL_DOWN_CAUSE n = Config.freeValue s.free 0 % 16
      ∧ t.usable (deckIndex .CPL n) = false ∧ (t.cpl n).gone = true ∧ t.mgc.busy = none ∧ t.reg .MGC_RETIRE_BUSY = 0
      ∧ t.free = s.free + 1 ∧ t.cores = s.cores ∧ t.mem = s.mem

/-- Thresholds, windows, audits (R662, R668–R674, R755, R157). -/
def Obligations.ServiceAndLedger : Prop :=
  (∀ s : State, s.isSet .BRK_BRAKED = false → s.booted = true → s.isSet .MGC_RESTARTING = false →
    Ends .serviceEval s fun t => OnlyPosts [.MGC_SVC_VAL, .MGC_SVC_STATUS] s t
      ∧ ∀ n < 12, t.reg .MGC_SVC_VAL 0 n = min (s.svcQuantity n) 0xFFFFFFFF
        ∧ (t.reg .MGC_SVC_STATUS).testBit n =
          ((s.reg .MGC_SVC_STATUS).testBit n || (s.reg .MGC_SVC_LIM 0 n != 0 && decide (s.reg .MGC_SVC_LIM 0 n ≤ s.svcQuantity n))))
  ∧ (∀ s : State, s.isSet .BRK_BRAKED = false → Ends .mgcSvcClear s fun t => OnlyRegs [.MGC_SVC_STATUS] s t
      ∧ ∀ n < 12, (t.reg .MGC_SVC_STATUS).testBit n = ((s.reg .MGC_SVC_STATUS).testBit n && s.svcCrossed n))
  ∧ (∀ s : State, s.isSet .BRK_BRAKED = false →
      (s.time.now / windowTicks = s.mgc.window → Goes .errorWindowRoll s s)
      ∧ (s.time.now / windowTicks ≠ s.mgc.window → Ends .errorWindowRoll s fun t => Same [.mgc, .mem] s t ∧ t.mem = { s.mem with ueWin := [] }
          ∧ t.mgc = { s.mgc with window := s.time.now / windowTicks, ueGran := 0, ueWord := 0, cluUe := [], cplDown := [] }))
  ∧ (∀ (s : State) (book : Fin 11) (inst : Nat), s.isSet .BRK_BRAKED = false → bookHas book inst = true →
      NMap.find? s.mgc.unquiet (book * 65536 + inst) ≠ none → s.quiescent book inst = true →
      (s.bookOut book inst = s.required book inst → Ends (.ledgerAudit book inst) s fun t =>
        Same [.regs, .mgc] s t ∧ SameRegs [.MGC_LDG_AUDITS, .MGC_LDG_LAST] s t
        ∧ t.reg .MGC_LDG_AUDITS 0 book = satAdd32 (s.reg .MGC_LDG_AUDITS 0 book) 1 ∧ t.reg .MGC_LDG_LAST 0 book = inst
        ∧ t.mgc = { s.mgc with unquiet := NMap.erase s.mgc.unquiet (book * 65536 + inst) })
      ∧ (s.bookOut book inst ≠ s.required book inst → Ends (.ledgerAudit book inst) s fun t =>
        Same (.cpls :: postParts) s t ∧ SameRegs ([.MGC_LDG_AUDITS, .MGC_LDG_LAST, .MGC_LDG_FAILS] ++ postRegs) s t
        ∧ t.reg .MGC_LDG_AUDITS 0 book = satAdd32 (s.reg .MGC_LDG_AUDITS 0 book) 1
        ∧ t.reg .MGC_LDG_FAILS 0 book = satAdd32 (s.reg .MGC_LDG_FAILS 0 book) 1 ∧ t.reg .MGC_LDG_LAST 0 book = inst + 65536
        ∧ NMap.find? t.mgc.leak (book * 65536 + inst) = none))
  ∧ (∀ (s : State) (book : Fin 11) (inst : Nat), s.isSet .BRK_BRAKED = false → s.quiescent book inst = false →
      Goes (.ledgerAudit book inst) s s)
  ∧ (∀ s : State, s.isSet .BRK_BRAKED = false → Ends .mgcLdgAudit s fun t =>
      Same (.cpls :: postParts) s t ∧ SameRegs ([.MGC_LDG_AUDITS, .MGC_LDG_LAST, .MGC_LDG_FAILS] ++ postRegs) s t
      ∧ ∀ book < 11, s.reg .MGC_LDG_AUDITS 0 book ≤ 0xFFFFFFFF → s.reg .MGC_LDG_AUDITS 0 book ≤ t.reg .MGC_LDG_AUDITS 0 book)
  ∧ (∀ (s : State) (issued out : Nat), s.isSet .BRK_BRAKED = false → out ≤ issued →
      ∃ t, Goes (.mgcLdgSnap issued out) s t ∧ Queues ⟨9, cfgSrc .MGC 0 0x500, .ledgerSnap issued out⟩ s t)
  ∧ (∀ (s : State) (issued out : Nat), let t := applyAct (.ledgerSnap issued out) s
      t.reg64 .MGC_LDG_SNAP_TIME_LO .MGC_LDG_SNAP_TIME_HI = s.time.now % 2 ^ 64 ∧ Same [.regs] s t
      ∧ ∀ book < 11, t.reg .MGC_LDG_OUT 0 book =
          (((bookInsts book).map (s.bookOut book)).sum + if book = 4 then out else 0) % 2 ^ 32)
  ∧ ∀ (s : State) (core : Fin 256), s.clocked (core.val / 4) = true → Ends (.corCntClr core) s fun t =>
      t.reg64 .COR_ISSUE_CNT_LO .COR_ISSUE_CNT_HI core = 0 ∧ t.reg64 .COR_DUAL_CNT_LO .COR_DUAL_CNT_HI core = 0
      ∧ t.reg64 .COR_IDLE_CNT_LO .COR_IDLE_CNT_HI core = 0
      ∧ OnlyRegsAt ([.COR_ISSUE_CNT_LO, .COR_ISSUE_CNT_HI, .COR_DUAL_CNT_LO, .COR_DUAL_CNT_HI, .COR_IDLE_CNT_LO, .COR_IDLE_CNT_HI].map
          fun f => (f, core.val, 0)) s t

/-! ### Power -/

/-- R619: what a shed phase leaves. -/
def Obligations.PhasesAreShed : Prop :=
  (∀ (s : State) (c : Fin 64) (p : Fin 8) (d : Bool),
    ((s.reg .CRG_PHASE_GOOD c).testBit p = false → Goes (.phaseFail c p d) s s)
    ∧ ((s.reg .CRG_PHASE_GOOD c).testBit p = true →
      let mask := s.reg .CRG_PHASE_GOOD c - 2 ^ p.val
      let k := ((List.range 8).filter mask.testBit).length
      Ends (.phaseFail c p d) s fun t =>
        let cap := t.reg .CRG_CAP_MA c
        let f := t.reg .CRG_F_MAX_MHZ c
        t.reg .CRG_PHASE_GOOD c = mask ∧ cap = min 24000 (4000 * k) ∧ f % 25 = 0 ∧ f * 24000 ≤ 2000 * cap ∧ 2000 * cap < (f + 25) * 24000
        ∧ t.reg .CRG_SHED_CNT c = satAdd32 (s.reg .CRG_SHED_CNT c) 1 ∧ (t.unitSt (deckIndex .CRG c)).degraded = some 0x10
        ∧ (5 ≤ k → Same (.deck :: postParts) s t)
        ∧ (k < 5 → t.usable (deckIndex .CLU c) = false ∧ t.reg .CRG_GATE_STATE c = 6 ∧
            (s.reg .CRG_GATE_STATE c = 1 → t.clu c = {} ∧ ∀ i < 4, t.core (4 * c + i) = {}))))
  ∧ ∀ (s : State) (c : Fin 64), s.isSet .BRK_BRAKED = false → ∃ t, Goes (.crgPhaseRetireGo c) s t
      ∧ Queues ⟨9, cfgSrc .CRG c 0x030, .phaseRetire c⟩ s t

/-- Frequency, voltage, protection and telemetry. -/
def Obligations.FrequencyAndRail : Prop :=
  (∀ (s : State) (c : Fin 64), s.isSet .BRK_BRAKED = false → (s.reg .CRG_GATE_STATE c = 1 ∨ s.reg .CRG_GATE_STATE c = 2) →
    (s.regSt c).change = none → (s.regSt c).freq ≠ s.effective c →
    Ends (.freqChange c) s fun t => Same [.regs, .pwr] s t
      ∧ (∀ l ∈ s.limits c, s.effective c ≤ l)
      ∧ ((s.regSt c).freq < s.effective c → t.reg .CRG_V_SET c = s.vCode c (s.effective c) ∧ OnlyRegsAt [(.CRG_V_SET, c.val, 0)] s { t with pwr := s.pwr }
          ∧ (t.regSt c).change = some ⟨s.effective c, s.time.bnd + 2 * (s.vCode c (s.effective c) - s.reg .CRG_V_SET c)⟩)
      ∧ (s.effective c < (s.regSt c).freq → t.regs = s.regs ∧ (t.regSt c).change = some ⟨s.effective c, s.time.bnd⟩))
  ∧ (∀ (s : State) (c : Fin 64) (x : FreqChange), s.isSet .BRK_BRAKED = false → (s.regSt c).change = some x →
    (s.time.bnd < x.at' → Goes (.freqSwitch c) s s)
    ∧ (x.at' ≤ s.time.bnd → Ends (.freqSwitch c) s fun t => Same [.regs, .pwr] s t
        ∧ (t.regSt c) = { s.regSt c with freq := x.target, change := none } ∧ t.reg .CRG_V_SET c = s.vCode c x.target
        ∧ t.reg .CRG_F_EFF_MHZ c = (if s.reg .CRG_GATE_STATE c = 1 then x.target else s.reg .CRG_F_EFF_MHZ c)
        ∧ SameRegs [.CRG_V_SET, .CRG_F_EFF_MHZ] s t))
  ∧ (∀ (s : State) (c : Fin 64), s.clocked c = true →
    ((s.regSt c).edges < 8 → ((s.regSt c).edges = 0 ∨ (s.regSt c).clampAt + 10 ≤ s.time.bnd) → Ends (.currentClamp c true) s fun t =>
        Same [.regs, .pwr] s t ∧ (t.regSt c).edges = (s.regSt c).edges + 1
        ∧ t.reg .CRG_CLAMP_CNT c = (if (s.regSt c).edges = 0 then satAdd32 (s.reg .CRG_CLAMP_CNT c) 1 else s.reg .CRG_CLAMP_CNT c)
        ∧ SameRegs [.CRG_CLAMP_CNT] s t)
    ∧ ((s.regSt c).edges = 8 → Goes (.currentClamp c true) s s)
    ∧ (0 < (s.regSt c).edges → (s.regSt c).clampAt + 100 ≤ s.time.bnd → Ends (.currentClamp c false) s fun t =>
        Same [.pwr] s t ∧ (t.regSt c).edges = (s.regSt c).edges - 1)
    ∧ ∀ code, ((s.regSt c).droop = false → code + 20 < s.reg .CRG_V_SET c → Ends (.droopGuard c code) s fun t =>
          (t.regSt c).droop = true ∧ t.reg .CRG_DROOP_CNT c = satAdd32 (s.reg .CRG_DROOP_CNT c) 1
          ∧ Same [.regs, .pwr] s t ∧ SameRegs [.CRG_DROOP_CNT] s t)
        ∧ ((s.regSt c).droop = true → s.reg .CRG_V_SET c ≤ code + 10 → Ends (.droopGuard c code) s fun t =>
          (t.regSt c).droop = false ∧ Same [.pwr] s t)
        ∧ ((s.regSt c).droop = true → code + 10 < s.reg .CRG_V_SET c → Goes (.droopGuard c code) s s))
  ∧ (∀ (s : State) (c : Fin 64) (code : BitVec 10), s.isSet .BRK_BRAKED = false →
    ((s.reg .CRG_GATE_STATE c = 1 ∨ s.reg .CRG_GATE_STATE c = 2) → code.toNat < s.reg .CRG_VFLOOR_V c → Ends (.vfloorRecord c code) s fun t =>
        t.reg .CRG_VFLOOR_V c = code.toNat ∧ (t.regSt c).floorTick = s.time.now ∧ Same [.regs, .pwr] s t
        ∧ SameRegs [.CRG_VFLOOR_V] s t)
    ∧ (s.reg .CRG_VFLOOR_V c ≤ code.toNat → Goes (.vfloorRecord c code) s s)
    ∧ (s.hostEn = true → s.host.inReset = false → Ends (.crgVfloorV c) s fun t => Same [.regs, .pwr, .host] s t
        ∧ t.host = { s.host with out := s.host.out ++ [HostMsg.completion (leBytes 4 (s.reg .CRG_VFLOOR_V c)) false] }
        ∧ t.reg .CRG_VFLOOR_V c = 0x3FF ∧ (t.regSt c).floorTick = 0
        ∧ t.reg64 .CRG_VFLOOR_TICK_LO .CRG_VFLOOR_TICK_HI c = (s.regSt c).floorTick % 2 ^ 64
        ∧ SameRegs [.CRG_VFLOOR_V, .CRG_VFLOOR_TICK_LO, .CRG_VFLOOR_TICK_HI] s t))
  ∧ (∀ (s : State) (temps : List (BitVec 8)), s.isSet .BRK_BRAKED = false → temps.length = 80 →
    Ends (.thermalThrottle temps) s fun t => Same (.pwr :: postParts) s t ∧ SameRegs (.PWR_THROTTLE_CNT :: postRegs) s t
      ∧ ∀ c < 64,
        let mine := c :: (List.range 16).map (64 + ·)
        let th := (s.regSt c).thermal
        (t.regSt c).thermal =
          if ∃ n ∈ mine, s.reg .PWR_THROTTLE_C < (temps.getD n 0).toNat then
            (if th ≤ 600 ∨ s.time.bnd < (s.regSt c).fellAt + ticksOfUs 100 then th else max 600 (th - 100))
          else if ∀ n ∈ mine, (temps.getD n 0).toNat + 5 ≤ s.reg .PWR_THROTTLE_C then
            (if 2000 ≤ th ∨ s.time.bnd < (s.regSt c).roseAt + ticksOfUs 1000 then th else min 2000 (th + 25))
          else th)
  ∧ (∀ (s : State) (watts : Nat), s.isSet .BRK_BRAKED = false → s.pwr.govAt + ticksOfUs 1000 ≤ s.time.bnd →
    Ends (.governor watts) s fun t => Same [.regs, .pwr] s t ∧ SameRegs [.PWR_GOV_MHZ] s t
      ∧ t.pwr = { s.pwr with govAt := s.time.bnd }
      ∧ t.reg .PWR_GOV_MHZ = if s.reg .PWR_LIMIT_W < watts then max 600 (s.reg .PWR_GOV_MHZ - 100)
          else if 100 * watts < 95 * s.reg .PWR_LIMIT_W then min 2000 (s.reg .PWR_GOV_MHZ + 25) else s.reg .PWR_GOV_MHZ)
  ∧ ∀ (s : State) (mv ma : Nat) (clus : List (Nat × Nat)) (temps : List Nat), s.isSet .BRK_BRAKED = false →
    clus.length = 64 → temps.length = 80 → s.pwr.sampleAt + ticksOfUs (s.reg .TLM_PERIOD_US) ≤ s.time.bnd →
    Occurs s 11 0 (.telemetry ⟨mv, ma, clus, temps⟩) →
    Ends (.telemetrySample mv ma clus temps false) s fun t => t.reg .TLM_SEQ = satAdd32 (s.reg .TLM_SEQ) 1
      ∧ t.reg64 .TLM_TIME_LO .TLM_TIME_HI = s.time.now % 2 ^ 64 ∧ t.reg .TLM_VIN_MV = mv % 65536 ∧ t.reg .TLM_VIN_MA = ma % 2 ^ 32
      ∧ (∀ n < 64, t.reg .TLM_CLU_V 0 n = (clus.getD n (0, 0)).1 % 1024 ∧ t.reg .TLM_CLU_F 0 n = s.reg .CRG_F_EFF_MHZ n
          ∧ t.reg .TLM_CLU_MA 0 n = (clus.getD n (0, 0)).2 % 65536)
      ∧ (∀ n < 80, t.reg .TLM_TEMP 0 n = min (temps.getD n 0) 255)
      ∧ Same [.regs, .time, .pwr] s t ∧ t.pwr = { s.pwr with sampleAt := s.time.bnd }

/-- Gates, notices, states, emergencies. -/
def Obligations.GatesStatesAndEmergencies : Prop :=
  (∀ (s : State) (c : Fin 64), s.isSet .BRK_BRAKED = false → s.booted = true → s.isSet .PWR_UV_ACTIVE = false →
    s.isSet .PWR_UV_COLLAPSE = false → s.isSet .PWR_TRIPPED = false → s.usable (deckIndex .CLU c) = true →
    NMap.find? s.deck.draining c = none →
    (s.reg .CRG_GATE_STATE c = 0 ∨ (s.reg .CRG_GATE_STATE c = 3 ∧ (s.regSt c).wakeAt ≠ none)) →
    Ends (.turnOn c) s fun t => t.reg .CRG_GATE_STATE c = 4 ∧ t.clu c = {} ∧ (∀ i < 4, t.core (4 * c + i) = {})
      ∧ (t.regSt c).onAt = s.time.bnd ∧ Same [.cores, .clus, .regs, .pwr] s t ∧ SameRegs [.CRG_GATE_STATE, .CRG_V_SET] s t
      ∧ ∀ d, d / 4 ≠ c.val → t.core d = s.core d)
  ∧ (∀ (s : State) (c : Fin 64), s.reg .CRG_GATE_STATE c = 4 →
    (s.stopped 1 = false → s.clusterInit c = true → (s.regSt c).onAt + 300 < s.time.bnd → Ends (.clusterReady c) s fun t =>
        t.reg .CRG_GATE_STATE c = 1 ∧ t.reg .CRG_F_EFF_MHZ c = s.effective c ∧ t.reg .CRG_V_SET c = s.vCode c (s.effective c)
        ∧ (t.regSt c).wakeAt = none ∧ Same (.pwr :: postParts) s t
        ∧ SameRegs ([.CRG_GATE_STATE, .CRG_F_EFF_MHZ, .CRG_V_SET, .PWR_WAKE_LATE_CNT] ++ postRegs) s t)
    ∧ (s.time.bnd ≤ (s.regSt c).onAt + 300 → Goes (.clusterReady c) s s)
    ∧ ∀ (k : Fin 4) (st : Fin 8) (mv : Nat), Occurs (s.darken c 5) 3 (1 + c) (.gateFault c (k.val + 1) st mv) →
        Ends (.gateFault c k st mv) s fun t => t.reg .CRG_GATE_STATE c = 5 ∧ t.clu c = {} ∧ (∀ i < 4, t.core (4 * c + i) = {})
          ∧ t.usable (deckIndex .CLU c) = false
          ∧ t.reg .PWR_GATE_FAULT_CNT = satAdd32 ((s.darken c 5).reg .PWR_GATE_FAULT_CNT) 1)
  ∧ (∀ (s : State) (c w : Nat) (rest : List (Nat × Nat)), s.pwr.notices = (c, w) :: rest → s.isSet .BRK_BRAKED = false →
    let g := s.reg .CRG_GATE_STATE c
    let lost := s.usable (deckIndex .CLU c) = false ∨ NMap.find? s.deck.draining c ≠ none ∨ g = 0 ∨ g = 5 ∨ g = 6
    Ends .noticeReceive s fun t => Same [.regs, .pwr] s t ∧ t.pwr.notices = rest
      ∧ t.reg .CRG_NOTICE_CNT c = satAdd32 (s.reg .CRG_NOTICE_CNT c) 1
      ∧ (lost → t.reg .CRG_NOTICE_DROP_CNT c = satAdd32 (s.reg .CRG_NOTICE_DROP_CNT c) 1 ∧ t.pwr.regs = s.pwr.regs)
      ∧ (¬lost → t.reg .CRG_NOTICE_PEND c = 1 ∧ (t.regSt c).wait = some (max ((s.regSt c).wait.getD 0) w)
          ∧ (g = 1 → t.reg .CRG_PRERAISE c = max (s.reg .CRG_PRERAISE c) (max ((s.regSt c).wait.getD 0) w + 1)))
      ∧ SameRegs [.CRG_NOTICE_CNT, .CRG_NOTICE_DROP_CNT, .CRG_NOTICE_PEND, .CRG_PRERAISE] s t)
  ∧ (∀ (s : State) (c : Fin 64) (w : Nat), (s.regSt c).wait = some w → s.isSet .BRK_BRAKED = false → s.clocked c = true →
    (s.isSet .PWR_UV_ACTIVE = true → Goes (.noticeAck c) s s)
    ∧ (s.isSet .PWR_UV_ACTIVE = false → w + 1 ≤ s.reg .CRG_PRERAISE c → (s.regSt c).waitAt ≤ s.time.bnd → (∀ x, (s.regSt c).change = some x → x.at' ≤ s.time.bnd) → Ends (.noticeAck c) s fun t =>
        t.reg .CRG_NOTICE_PEND c = 0 ∧ t.reg .CRG_GATE_OPEN c = 1 ∧ (t.regSt c).wait = none
        ∧ (∀ i < 4, t.core (4 * c + i) = { s.core (4 * c + i) with gate := true, mmaAt := s.time.bnd })
        ∧ (∀ d, d / 4 ≠ c.val → t.core d = s.core d) ∧ Same [.regs, .pwr, .cores] s t
        ∧ SameRegs [.CRG_NOTICE_PEND, .CRG_GATE_OPEN] s t))
  ∧ (∀ (s : State) (c : Fin 64), s.isSet .BRK_BRAKED = false → (s.regSt c).entering = false →
    (s.reg .CRG_GATE_STATE c = 1 → s.mayEnter c 400 = false → s.mayEnter c 5 = true → Ends (.stateEntry (.cluster c)) s fun t =>
        t.reg .CRG_GATE_STATE c = 2 ∧ t.reg .CRG_F_EFF_MHZ c = 0 ∧ Same [.regs] s t
        ∧ SameRegs [.CRG_GATE_STATE, .CRG_F_EFF_MHZ, .CRG_GATE_OPEN, .CRG_PRERAISE] s t)
    ∧ (s.reg .CRG_GATE_STATE c = 1 → s.mayEnter c 400 = true → Ends (.stateEntry (.cluster c)) s fun t =>
        (t.regSt c).entering = true ∧ Same [.pwr] s t))
  ∧ (∀ (s : State) (k : Fin 8), s.isSet .BRK_BRAKED = false → s.mayEnter (64 + k) 4000 = true → Ends (.stateEntry (.memory k)) s fun t =>
      NMap.find? t.mem.selfRefresh k = some true ∧ t.mem = { s.mem with selfRefresh := t.mem.selfRefresh } ∧ Same [.mem] s t)
  ∧ (∀ (s : State) (b : Fin 8), s.isSet .BRK_BRAKED = false → b.val ∉ s.pwr.t4 → s.mayEnter (72 + b) 40000 = true →
      (∀ i < 8, s.linkUp (8 * b + i) = true → s.isSet .CPL_LP (8 * b + i) = true ∧ (s.cpl (8 * b + i)).lpExit = none) →
      Ends (.stateEntry (.bank b)) s fun t => t.pwr = { s.pwr with t4 := s.pwr.t4 ++ [b.val] } ∧ Same [.pwr] s t)
  ∧ (∀ (s : State) (c : Fin 64) (l : Nat), s.isSet .BRK_BRAKED = false →
      (s.placementFor c = true ∨ (s.regSt c).wait ≠ none) →
      (s.reg .CRG_GATE_STATE c = 2 → Ends (.wake (.cluster c) l) s fun t => t.reg .CRG_GATE_STATE c = 1
        ∧ t.reg .CRG_F_EFF_MHZ c = (s.regSt c).freq ∧ t.reg .CRG_WAKE_CNT c = satAdd32 (s.reg .CRG_WAKE_CNT c) 1
        ∧ Same postParts s t ∧ (l ≤ 50 → Same [.regs] s t))
      ∧ (s.reg .CRG_GATE_STATE c = 3 → (s.regSt c).wakeAt = none → Ends (.wake (.cluster c) l) s fun t =>
        (t.regSt c).wakeAt = some s.time.bnd ∧ Same [.regs, .pwr] s t)
      ∧ (s.reg .CRG_GATE_STATE c = 1 → (s.regSt c).entering = true → Ends (.wake (.cluster c) l) s fun t =>
        (t.regSt c).entering = false ∧ (t.clu c).leaving = false ∧ Same [.clus, .pwr] s t))
  ∧ (∀ (s : State) (k : Fin 8) (l : Nat), s.isSet .BRK_BRAKED = false → NMap.get false s.mem.selfRefresh k = true →
      (s.home k).inbound ≠ [] → Ends (.wake (.memory k) l) s fun t => NMap.get false t.mem.selfRefresh k = false ∧ Same (.mem :: postParts) s t)
  ∧ (∀ (s : State) (mv : Nat), s.isSet .PWR_UV_ACTIVE = false → mv < 1620 → Occurs s 3 0 (.undervoltage mv) →
      Ends (.uvEmergency mv) s fun t => t.reg .PWR_UV_ACTIVE = 1 ∧ t.reg .PWR_UV_CNT = satAdd32 (s.reg .PWR_UV_CNT) 1
        ∧ (∀ c, (t.core c).gate = false) ∧ (∀ c < 64, t.reg .CRG_GATE_OPEN c = 0 ∧ t.effective c ≤ 600)
        ∧ Same (.time :: .cores :: postParts) s t ∧ ∀ c, (t.core c).slots = (s.core c).slots)
  ∧ (∀ (s : State) (mv : Nat), s.isSet .PWR_UV_ACTIVE = true → s.isSet .BRK_BRAKED = false → 1710 < mv →
      Ends (.uvClear mv) s fun t => t.reg .PWR_UV_ACTIVE = 0 ∧ OnlyPosts [.PWR_UV_ACTIVE, .PWR_UV_CNT] s t)
  ∧ (∀ (s : State) (mv : Nat), s.isSet .PWR_UV_COLLAPSE = false → mv < 1440 →
      Ends (.collapse mv) s fun t => t.reg .PWR_UV_COLLAPSE = 1
        ∧ ∀ c < 64, 1 ≤ s.reg .CRG_GATE_STATE c → s.reg .CRG_GATE_STATE c ≤ 4 → t.reg .CRG_GATE_STATE c = 6)
  ∧ ∀ (s : State) (n : Fin 80) (temp : BitVec 8), s.isSet .PWR_TRIPPED = false →
      (temp.toNat < 115 → Goes (.thermalTrip n temp) s s)
      ∧ (115 ≤ temp.toNat → Ends (.thermalTrip n temp) s fun t => t.reg .PWR_TRIPPED = 1
        ∧ (∀ c < 64, 1 ≤ s.reg .CRG_GATE_STATE c → s.reg .CRG_GATE_STATE c ≤ 4 → t.reg .CRG_GATE_STATE c = 6)
        ∧ ∀ k < 8, NMap.get false t.mem.selfRefresh k = true)

/-! ### Homes, agents and windows -/

/-- What the requests of R331 do at an idle home. -/
def Obligations.HomesServeRequests : Prop :=
  (∀ (s : State) (m : Msg) (k key : Nat), AtHome s m k → isSignalMsg m = false →
    let ls := lsOf m.line
    let o := offsetOfLs k ls
    (s.home k).find ls = none →
    -- reads that grant
    (∀ c ∈ ([(.rds m, .rdS), (.rdx m, .rdX false), (.rdx m, .rdX true)] : List (Instr × MsgKind)), m.kind = c.2 →
      (s.home k).place ls = some key → NMap.find? (s.home k).dir key = none → (∀ i < 4, Sound s (o / 128 * 4 + i)) →
      Ends c.1 s fun t => Answered s m m.agent.tile { answerOf m (.data .e) with data := some (memLine s.mem o) } t
        ∧ t.home k = ({ s.home k with dir := NMap.insert (s.home k).dir key { ls := ls, st := .excl, owner := some m.agent } } : HomeSt).touch key
        ∧ OnlyHome [] k s t)
    -- stale writebacks
    ∧ (∀ c ∈ ([(.wb m, .wb), (.ce m, .ce)] : List (Instr × MsgKind)), m.kind = c.2 →
      Ends c.1 s fun t => Answered s m m.agent.tile (answerOf m .ack) t ∧ t.home k = s.home k ∧ OnlyHome [.regs] k s t
        ∧ t.reg .MEM_STALE_WB_CNT k = satAdd32 (s.reg .MEM_STALE_WB_CNT k) 1
        ∧ ∀ f i n, (f, i, n) ≠ (.MEM_STALE_WB_CNT, k, 0) → t.reg f i n = s.reg f i n)
    -- reads that grant nothing
    ∧ (∀ p, m.kind = .ncRd → m.part = some p → (∀ i < 4, Sound s (o / 128 * 4 + i)) →
      let d := if p.size = 128 then some (memLine s.mem o) else none
      let r := partOf (memLine s.mem o) (p.addr % 128) p.size
      Ends (.ncrd m) s fun t => OnlyHome [] k s t ∧ t.home k = s.home k
        ∧ Answered s m m.agent.tile { answerOf m (.data .copy) with data := d, res := some r } t)
    ∧ (m.kind = .stRd → m.cmode = 0 → (∀ i < 4, Sound s (o / 128 * 4 + i)) →
      Ends (.strd m) s fun t => OnlyHome [] k s t ∧ t.home k = s.home k
        ∧ Answered s m m.agent.tile { answerOf m (.data .staged) with data := some (memLine s.mem o) } t)
    -- writes and atomics
    ∧ (∀ c ∈ ([(.ncwr m, .ncWr), (.stwr m, .stWr)] : List (Instr × MsgKind)), ∀ p bs, m.kind = c.2 → m.cmode = 0 → m.carry = .good →
      m.part = some p → p.op = .store bs → bs ≠ [] → offsetOf p.addr % 32 + bs.length ≤ 32 →
      let g := offsetOf p.addr / 32
      Sound s g → NMap.get .good s.mem.gran g = .good →
      Ends c.1 s fun t => Answered s m m.agent.tile (answerOf m .ack) t ∧ OnlyHome [.mem] k s t ∧ t.home k = s.home k
        ∧ OnlyGrans [g] s t ∧ decodeGran t.mem g = some ⟨.good, overlay (rawBytes s.mem g) (offsetOf p.addr % 32) bs, false⟩)
    ∧ (∀ p op typ x new, m.kind = .ncAtom → m.cmode = 0 → m.part = some p → p.op = .amo op typ x new → 0 < p.size →
      offsetOf p.addr % 32 + p.size ≤ 32 →
      let g := offsetOf p.addr / 32
      let old := ((rawBytes s.mem g).drop (offsetOf p.addr % 32)).take p.size
      Sound s g → NMap.get .good s.mem.gran g = .good →
      Ends (.ncatom m) s fun t => Answered s m m.agent.tile { answerOf m .atomRsp with res := some { bytes := old, gran := .good } } t
        ∧ OnlyHome [.mem] k s t ∧ t.home k = s.home k ∧ OnlyGrans [g] s t
        ∧ decodeGran t.mem g = some ⟨.good, overlay (rawBytes s.mem g) (offsetOf p.addr % 32)
            (leBytes p.size (amoValue op ((Ty.ofCode typ).getD .u32) (leNat old) x new)), false⟩))
  -- a line that another agent owns, and what its owner gives back
  ∧ (∀ (s : State) (m : Msg) (k key : Nat) (a : Agent), AtHome s m k → isSignalMsg m = false →
    let ls := lsOf m.line
    let o := offsetOfLs k ls
    (s.home k).find ls = some (key, { ls := ls, st := .excl, owner := some a }) →
    let due := s.time.bnd + ticksOfUs (s.reg .MEM_SNP_DEADLINE_US k)
    let req : Msg := { m with arrived := s.time.now }
    (m.kind = .rdS → a ≠ m.agent → Ends (.rds m) s fun t =>
      Answered s m a.tile { kind := .snpS, agent := a, home := ⟨none, k⟩, line := s.lineAt k ls } t ∧ OnlyHome [] k s t
      ∧ (t.home k).inbound = [] ∧ (t.home k).find ls = (s.home k).find ls
      ∧ (t.home k).txns = [{ ls := ls, req := req, goal := .request, wait := [a], due := due }])
    ∧ (m.kind = .ce → a = m.agent → Ends (.ce m) s fun t => Answered s m a.tile (answerOf m .ack) t ∧ OnlyHome [] k s t
      ∧ t.home k = { s.home k with dir := NMap.erase (s.home k).dir key })
    ∧ ∀ d, m.kind = .wb → a = m.agent → m.data = some d → d.bytes.length = 128 → s.retiredAt o = false →
      Ends (.wb m) s fun t => Answered s m a.tile (answerOf m .ack) t ∧ OnlyHome [.mem] k s t
        ∧ t.home k = { s.home k with dir := NMap.erase (s.home k).dir key }
        ∧ OnlyGrans ((List.range 4).map (o / 128 * 4 + ·)) s t
        ∧ ∀ i < 4, decodeGran t.mem (o / 128 * 4 + i) = some ⟨d.gran.getD i .good,
            if d.gran.getD i .good = .good then (d.bytes.drop (32 * i)).take 32 else List.replicate 32 0, false⟩)
  -- requests that are turned away
  ∧ ∀ (s : State) (m : Msg) (k : Nat), m.kind = .rdS → isSignalMsg m = false → m.home = ⟨none, k⟩ → k < 8 →
    receivable m s.mesh = true → s.homeReady k = true → (s.home k).inbound = [] → (s.home k).txns = [] →
    (m.agent.tile ≠ none → populatedOffset (offsetOf (128 * m.line)) = false → s.reg .CTX_STATE ≠ 1 →
      Ends (.rds m) s fun t => Answered s m m.agent.tile { answerOf m (.data .copy) with status := .poison } t
        ∧ Same [.mesh, .xmit, .regs] s t ∧ SameRegs [.TILE_UNPOP_REMOTE_CNT] s t
        ∧ t.reg .TILE_UNPOP_REMOTE_CNT = satAdd32 (s.reg .TILE_UNPOP_REMOTE_CNT) 1)
    ∧ (populatedOffset (offsetOf (128 * m.line)) = true → s.isDead m.agent = true →
      Ends (.rds m) s fun t => Answered s m m.agent.tile { answerOf m (.data .copy) with status := .dead } t ∧ Same [.mesh, .xmit] s t)

/-- Signals at a fence's home (R555) and REJOIN (R342). -/
def Obligations.FencesTakeSignals : Prop :=
  (∀ (s : State) (m : Msg) (k : Nat) (p : Part) (op : FenceOp) (err : Bool), AtHome s m k → m.kind = .ncAtom → m.part = some p →
    p.op = .signal op err → (s.home k).find (lsOf m.line) = none →
    (∀ v, op = .set v ∨ op = .add v ∨ op = .init v → v < 2 ^ 64) →
    let o := offsetOf p.addr
    let g := o / 32
    let rec' (t : State) (x : Nat) : FenceRec := fenceOfBytes (((rawBytes t.mem g).drop x).take 16)
    let old := rec' s (o % 32)
    o % 16 = 0 → Sound s g → NMap.get .good s.mem.gran g = .good →
    Ends (.fenceSignal m) s fun t =>
      rec' t (o % 32) = old.apply op err ∧ rec' t (16 - o % 32) = rec' s (16 - o % 32) ∧ NMap.get .good t.mem.gran g = .good
      ∧ OnlyGrans [g] s t ∧ OnlyHome [.mem, .regs, .cp] k s t ∧ t.home k = s.home k
      ∧ t.cp = { s.cp with fenSeen := t.cp.fenSeen, mirDue := t.cp.mirDue }
      ∧ Answered s m m.agent.tile { answerOf m .atomRsp with res := some okRes } t
      ∧ SameRegs [.FEN_OOO_CNT, .FEN_SAT_CNT, .FEN_ERR_CNT] s t
      ∧ (∀ v, op = .set v → t.reg .FEN_OOO_CNT = if old.sat = false ∧ v < old.value then satAdd32 (s.reg .FEN_OOO_CNT) 1 else s.reg .FEN_OOO_CNT)
      ∧ (∀ v, op = .add v → t.reg .FEN_SAT_CNT =
          if old.sat = false ∧ 2 ^ 64 - 1 < old.value + v then satAdd32 (s.reg .FEN_SAT_CNT) 1 else s.reg .FEN_SAT_CNT)
      ∧ t.reg .FEN_ERR_CNT = if err = true ∧ old.err = false then satAdd32 (s.reg .FEN_ERR_CNT) 1 else s.reg .FEN_ERR_CNT)
  ∧ (∀ (r : FenceRec) (v : Nat), r.sat = false →
      (r.value < v → r.apply (.set v) false = { r with value := v })
      ∧ (v < r.value → r.apply (.set v) false = { r with ooo := satAdd32 r.ooo 1 })
      ∧ (r.value + v < 2 ^ 64 → r.apply (.add v) false = { r with value := r.value + v })
      ∧ (2 ^ 64 ≤ r.value + v → r.apply (.add v) false = { r with value := 2 ^ 64 - 1, sat := true })
      ∧ (r.apply (.set v) true).err = true ∧ (r.apply (.add v) true).err = true)
  ∧ ∀ (s : State) (m : Msg), m.kind = .rejoin → m.home.tile = none → receivable m s.mesh = true → s.stopped 2 = false →
    Ends (.rejoin m) s fun t => Answered s m m.agent.tile (answerOf m .ack) t ∧ Same [.mesh, .xmit, .dead] s t
      ∧ (m.agent.tile = none → m.agent.unit < 64 → t.dead = s.dead.filter fun d => d.all || d.agent != m.agent)
      ∧ (m.agent.tile ≠ none → t.dead = s.dead.filter fun d => d.agent.tile != m.agent.tile)

/-- Answers at the requester (R323–R325, R335, R344). -/
def Obligations.AgentsTakeAnswers : Prop :=
  (∀ (s : State) (m : Msg) (c : Nat) (r : Req), m.agent = ⟨none, c⟩ → c < 64 → s.clocked c = true → receivable m s.mesh = true →
    NMap.find? (s.clu c).reqs m.tag = some r → r.quar = false → m.status = .ok → (s.clu c).leaving = false →
    (∀ i < 4, ∀ n < 16, ∀ h, s.hand (4 * c + i) n = some h → h.ops = []) →
    let gone (t : State) (cl : Cluster) : Prop :=
      t.clu c = { cl with reqs := NMap.erase (s.clu c).reqs m.tag } ∧ (∀ d, d ≠ c → t.clu d = s.clu d) ∧ t.mesh = dropFirst m s.mesh
    (∀ g d w, m.kind = .data g → g = .e ∨ g = .s ∨ g = .m → r.kind = .rdS ∨ r.kind = .rdX false ∨ r.kind = .rdX true →
      r.use = .demand ∨ r.use = .prefetch none → m.data = some d → (∀ x ∈ d.gran, x = .good) → wayOf (s.clu c).cc 16 (ccSet r.line) r.line = none →
      (firstWhere 16 fun w => (NMap.find? (s.clu c).cc (ccSet r.line * 16 + w)).isNone) = some w →
      let x : CLine := { line := r.line, st := grantState g, data := d, hold := grantState g != .s, pfUnused := r.use.isPrefetch }
      Ends (.data m) s fun t => Same [.mesh, .clus, .filter] s t
        ∧ gone t { s.clu c with cc := NMap.insert (s.clu c).cc (ccSet r.line * 16 + w) x, cclru := (t.clu c).cclru }
        ∧ (t.filter = if (s.homeOf r.line).tile = none then s.filter else
            NMap.set 0 s.filter (filterIndex r.line) (NMap.get 0 s.filter (filterIndex r.line) + 1)))
    ∧ (∀ key x, m.kind = .grant → (s.clu c).find r.line = some (key, x) → Ends (.grant m) s fun t =>
        gone t { s.clu c with cc := NMap.insert (s.clu c).cc key { x with st := .m, hold := true } } ∧ Same [.mesh, .clus] s t)
    ∧ (m.kind = .ack → m.tag ≠ 4095 → r.kind = .wb ∨ r.kind = .ce → Ends (.ack m) s fun t =>
        gone t { s.clu c with wbuf := (s.clu c).wbuf.filter fun x => x.line != r.line } ∧ Same [.mesh, .clus] s t))
  -- an access that waits
  ∧ (∀ (s : State) (m : Msg) (c : Nat) (r : Req) (w : Waiter) (h : Hand) (o : MemOp) (p : Part), m.agent = ⟨none, c⟩ → c < 64 →
    s.clocked c = true → receivable m s.mesh = true → m.tag ≠ 4095 →
    NMap.find? (s.clu c).reqs m.tag = some r → r.quar = false → m.status = .ok → r.use = .demand → r.waiters = [w] →
    w.core / 4 = c → w.slot < 16 → s.hand w.core w.slot = some h → h.ops = [o] → o.id = w.op → o.parts = [p] → w.part = 0 →
    (∀ i < 4, ∀ n < 16, ∀ h, (4 * c + i, n) ≠ (w.core, w.slot) → s.hand (4 * c + i) n = some h → h.ops = []) →
    ∀ x ∈ ([(.data m, .data .copy, .ncRd, m.res.getD okRes), (.ack m, .ack, .ncWr, okRes), (.ack m, .ack, .stWr, okRes),
        (.atomRsp m, .atomRsp, .ncAtom, m.res.getD okRes)] : List (Instr × MsgKind × MsgKind × PartRes)),
      m.kind = x.2.1 → r.kind = x.2.2.1 → m.res ≠ none ∨ m.kind = .ack → Ends x.1 s fun t =>
        t.hand w.core w.slot = some { h with ops := [{ o with res := NMap.insert o.res 0 x.2.2.2 }] }
        ∧ t.clu c = { s.clu c with reqs := NMap.erase (s.clu c).reqs m.tag } ∧ t.mesh = dropFirst m s.mesh
        ∧ Same [.mesh, .clus, .cores] s t ∧ (∀ d, d ≠ c → t.clu d = s.clu d) ∧ (∀ d, d ≠ w.core → t.core d = s.core d)
        ∧ ∀ n, n ≠ w.slot → t.hand w.core n = s.hand w.core n)
  -- tags that nothing holds, and the CP's own
  ∧ (∀ (s : State) (m : Msg) (c : Nat), m.agent = ⟨none, c⟩ → c < 64 → s.clocked c = true → receivable m s.mesh = true → m.tag ≠ 4095 →
    (NMap.find? (s.clu c).reqs m.tag = none ∨ ∃ r, NMap.find? (s.clu c).reqs m.tag = some r ∧ r.quar = true) →
    ∀ x ∈ ([(.data m, .data .e), (.grant m, .grant), (.ack m, .ack), (.atomRsp m, .atomRsp)] : List (Instr × MsgKind)), m.kind = x.2 →
      Ends x.1 s fun t => t.mesh = dropFirst m s.mesh ∧ Same [.mesh, .regs] s t
        ∧ t.reg .CLU_LATE_RSP_CNT c = satAdd32 (s.reg .CLU_LATE_RSP_CNT c) 1
        ∧ ∀ f i n, (f, i, n) ≠ (.CLU_LATE_RSP_CNT, c, 0) → t.reg f i n = s.reg f i n)
  ∧ ∀ (s : State) (m : Msg) (p : PostReq), m.agent = cpAgent → m.kind = .ack → m.tag ≠ 4095 → receivable m s.mesh = true →
    s.stopped 2 = false → NMap.find? s.posted m.tag = some p → p.unit = 64 → p.quar = false → p.use = .write none →
    Ends (.ack m) s fun t => t.posted = NMap.erase s.posted m.tag ∧ t.mesh = dropFirst m s.mesh ∧ Same [.mesh, .posted] s t

/-- Snoops and their answers (R325, R331, R333, R335, R338). -/
def Obligations.SnoopsAreAnswered : Prop :=
  let answer (m : Msg) (r : SnpReply) (d : Option LineData) : Msg := { answerOf m (.snpRsp r) with data := d, mc := m.mc }
  let l1 (s : State) (core line : Nat) (t : State) : Prop := t.core core = { s.core core with
    l1 := match (s.core core).findL1 line with
      | none => (s.core core).l1
      | some (k, _) => NMap.erase (s.core core).l1 k }
  (∀ (s : State) (m : Msg) (c : Nat), m.agent = ⟨none, c⟩ → c < 64 → m.mc = none → receivable m s.mesh = true → s.clocked c = true →
    (∀ r ∈ (s.clu c).reqs, r.2.line ≠ m.line) →
    let only (cc : NMap CLine) (t : State) : Prop :=
      t.clu c = { s.clu c with cc := cc } ∧ (∀ d, d ≠ c → t.clu d = s.clu d) ∧ Same [.mesh, .xmit, .clus] s t
    let away (key : Nat) (st : CState) (t : State) : Prop :=
      t.clu c = { s.clu c with cc := NMap.erase (s.clu c).cc key } ∧ (∀ d, d ≠ c → t.clu d = s.clu d)
      ∧ (∀ i < 4, l1 s (4 * c + i) m.line t) ∧ (∀ d, d / 4 ≠ c → t.core d = s.core d)
      ∧ t.filter = (s.filterSub m.line st).filter ∧ Same [.mesh, .xmit, .clus, .cores, .filter] s t
    (∀ x ∈ ([(.snps m, .snpS), (.snpx m, .snpX), (.snpnc m, .snpNc), (.inv m, .inv)] : List (Instr × MsgKind)), m.kind = x.2 →
      (s.clu c).snooped m.line = none → (∀ key y, (s.clu c).find m.line = some (key, y) → y.hold = false) →
      Ends x.1 s fun t => Answered s m m.home.tile (answer m .notHeld none) t ∧ Same [.mesh, .xmit] s t)
    ∧ ∀ key y, (s.clu c).find m.line = some (key, y) → y.hold = false →
      (m.kind = .snpS → y.st = .e → Ends (.snps m) s fun t => Answered s m m.home.tile (answer m .clean (some y.data)) t
        ∧ only (NMap.insert (s.clu c).cc key { y with st := .s }) t)
      ∧ (m.kind = .snpS → y.st = .m ∨ y.st = .o → Ends (.snps m) s fun t => Answered s m m.home.tile (answer m .dirty (some y.data)) t
        ∧ only (NMap.insert (s.clu c).cc key { y with st := .o }) t)
      ∧ (m.kind = .snpX → y.st = .e ∨ y.st = .m ∨ y.st = .o → Ends (.snpx m) s fun t =>
        Answered s m m.home.tile (answer m (if y.st = .e then .clean else .dirty) (some y.data)) t ∧ away key y.st t)
      ∧ (m.kind = .snpX → y.st = .s → Ends (.snpx m) s fun t => Answered s m m.home.tile (answer m .ack none) t ∧ away key y.st t)
      ∧ (m.kind = .snpNc → y.st = .e ∨ y.st = .m ∨ y.st = .o → Ends (.snpnc m) s fun t =>
        Answered s m m.home.tile (answer m (if y.st = .e then .clean else .dirty) (some y.data)) t ∧ Same [.mesh, .xmit] s t)
      ∧ (m.kind = .inv → y.st = .s → Ends (.inv m) s fun t => Answered s m m.home.tile (answer m .ack none) t ∧ away key y.st t))
  -- the win hold
  ∧ (∀ (s : State) (c : Fin 64) (m : Msg) (key : Nat) (y : CLine), m.agent = ⟨none, c.val⟩ → m.mc = none → m.kind = .snpS →
    s.clocked c = true → (s.clu c).find m.line = some (key, y) → y.hold = true →
    (receivable m s.mesh = true → (∀ r ∈ (s.clu c).reqs, r.2.line ≠ m.line) → Ends (.snps m) s fun t => t.mesh = dropFirst m s.mesh
      ∧ t.clu c = { s.clu c with cc := NMap.insert (s.clu c).cc key { y with snoops := y.snoops ++ [m] } }
      ∧ (∀ d, d ≠ c.val → t.clu d = s.clu d) ∧ Same [.mesh, .clus, .regs] s t ∧ SameRegs [.CLU_SNP_HELD_CNT] s t
      ∧ t.reg .CLU_SNP_HELD_CNT c = satAdd32 (s.reg .CLU_SNP_HELD_CNT c) 1)
    ∧ ((s.clu c).leaving = false → y.snoops = [m] → y.st = .m → y.line = m.line → (∀ i < 4, ∀ n < 16, ∀ h, s.hand (4 * c + i) n = some h → h.ops = []) →
      Ends (.winHoldEnd c m.line) s fun t => Same [.mesh, .xmit, .clus] s t ∧ (∀ d, d ≠ c.val → t.clu d = s.clu d)
        ∧ (t.clu c).find m.line = some (key, { y with st := .o, hold := false, snoops := [] })
        ∧ t.mesh = s.mesh ++ (if m.home.tile = none then [answer m .dirty (some y.data)] else [])
        ∧ t.xmit = s.xmit ++ (match m.home.tile with
          | none => []
          | some d => [(d, answer m .dirty (some y.data))])))
  -- clusters without power
  ∧ (∀ (s : State) (m : Msg) (c : Nat), m.agent = ⟨none, c⟩ → c < 64 → m.mc = none → receivable m s.mesh = true → s.stopped 2 = false →
    ∀ x ∈ ([(.snps m, .snpS), (.snpx m, .snpX), (.snpnc m, .snpNc), (.inv m, .inv)] : List (Instr × MsgKind)), m.kind = x.2 →
      ∀ y ∈ ([(5, .dark), (6, .dark), (0, .notHeld), (3, .notHeld), (4, .notHeld)] : List (Nat × SnpReply)),
        s.reg .CRG_GATE_STATE c = y.1 →
        Ends x.1 s fun t => Answered s m m.home.tile (answer m y.2 none) t ∧ Same [.mesh, .xmit] s t)
  -- a multicast
  ∧ (∀ (s : State) (m : Msg), m.mc ≠ none → m.agent = ⟨none, 64⟩ → m.kind = .inv → receivable m s.mesh = true → s.stopped 2 = false →
    s.filterInit = false →
    (NMap.get 0 s.filter (filterIndex m.line) = 0 →
      Ends (.mcastSnoop m) s fun t => Answered s m m.home.tile (answer m .notHeld none) t ∧ Same [.mesh, .xmit] s t)
    ∧ (NMap.get 0 s.filter (filterIndex m.line) ≠ 0 → (∀ c < 64, ∀ r ∈ (s.clu c).reqs, r.2.line ≠ m.line) → (∀ c < 64, (s.clu c).wbuf = []) →
      (∀ c < 64, ∀ key y, (s.clu c).find m.line = some (key, y) → y.st = .s ∧ y.hold = false ∧ s.reg .CRG_GATE_STATE c ≠ 2) →
      Ends (.mcastSnoop m) s fun t => Same [.mesh, .xmit, .clus, .cores, .filter] s t
        ∧ (Answered s m m.home.tile
            (answer m (if (List.range 64).any fun c => s.clocked c && ((s.clu c).find m.line).isSome then .ack else .notHeld) none) t)
        ∧ ∀ c < 64, t.clu c = match (s.clu c).find m.line with
          | none => s.clu c
          | some (key, _) => if s.clocked c then { s.clu c with cc := NMap.erase (s.clu c).cc key } else s.clu c))
  -- the home
  ∧ ∀ (s : State) (m : Msg) (k key : Nat) (a : Agent) (t0 : Txn) (d : LineData), m.home = ⟨none, k⟩ → k < 8 → receivable m s.mesh = true →
    s.homeReady k = true → (s.home k).inbound = [] → (s.home k).txns = [t0] → t0.goal = .request → t0.wait = [a] → t0.dirty = false →
    t0.lost = false → t0.req.kind = .rdS → t0.ls = lsOf m.line → a ≠ t0.req.agent → m.agent = a → m.data = some d →
    (s.home k).find t0.ls = some (key, { ls := t0.ls, st := .excl, owner := some a }) →
    ∀ x ∈ ([(.clean, { ls := t0.ls, st := .shared, owner := none, ptrs := [a, t0.req.agent] }),
        (.dirty, { ls := t0.ls, st := .owned, owner := some a, ptrs := [t0.req.agent] })] : List (SnpReply × DirEntry)),
      m.kind = .snpRsp x.1 → Ends (.snpRsp m) s fun t =>
        t.home k = { s.home k with txns := [], dir := NMap.insert (s.home k).dir key x.2 }
        ∧ Answered s m t0.req.agent.tile { answerOf t0.req (.data .s) with data := some d } t
        ∧ Same [.mesh, .xmit, .homes] s t ∧ ∀ j, j ≠ k → t.home j = s.home j

/-! ### Windows, deadlines and the memory controllers -/

/-- The window commit (R290), dead agents (R338–R341), request timeouts (R344), and reset invalidation (R320). -/
def Obligations.WindowsAndDeadlines : Prop :=
  (∀ s : State, s.isSet .BRK_BRAKED = false →
    (s.isSet .TILE_WIN_BUSY = false →
      Ends .tileWinCommit s (Queues ⟨9, deckIndex .TILE 0 * 2 ^ 20 + Field.TILE_WIN_COMMIT.spec.off, .windowCommit⟩ s))
    ∧ (s.isSet .TILE_WIN_BUSY = true → Ends .tileWinCommit s fun t => Same [.regs] s t ∧ SameRegs [Block.TILE.cfgErr] s t
        ∧ t.reg Block.TILE.cfgErr = satAdd32 (s.reg Block.TILE.cfgErr) 1))
  ∧ (∀ s : State, let t := applyAct .windowCommit s
    let differs (f : Field) (n v : Nat) : Prop := NMap.find? s.shadow (regKey f 0 n) = some v ∧ v ≠ s.reg f 0 n
    t.reg .TILE_WIN_BUSY = 1 ∧ OnlyRegs [.TILE_WIN_BUSY] s { t with winEntries := s.winEntries, winNew := s.winNew }
    ∧ (∀ n, n ∈ t.winEntries ↔ n < 256 ∧ ∃ f ∈ winFields, ∃ v, differs f n v)
    ∧ ∀ f ∈ winFields, ∀ n < 256, ∀ v, NMap.find? t.winNew (regKey f 0 n) = some v ↔ differs f n v)
  ∧ (∀ s : State, s.isSet .TILE_WIN_BUSY = true → s.stopped 2 = false → s.winBusy = false →
    let hit (line : Nat) : Bool := s.winHeld (s.normalise (128 * line))
    (∀ c ∈ s.clus, ∀ x ∈ c.2.cc, hit x.2.line = false) →
    Ends .windowDrainDone s fun t =>
      (∀ f ∈ winFields, ∀ n, t.reg f 0 n = if n ∈ s.winEntries then (NMap.find? s.winNew (regKey f 0 n)).getD (s.reg f 0 n) else s.reg f 0 n)
      ∧ t.reg .TILE_WIN_BUSY = 0 ∧ t.reg .TILE_WIN_COMMITS = satAdd32 (s.reg .TILE_WIN_COMMITS) 1
      ∧ SameRegs (.TILE_WIN_BUSY :: .TILE_WIN_COMMITS :: winFields) s t ∧ t.winEntries = [] ∧ t.winNew = []
      ∧ (∀ f ∈ winFields, ∀ n ∈ s.winEntries, NMap.find? s.winNew (regKey f 0 n) ≠ none → NMap.find? t.shadow (regKey f 0 n) = none)
      ∧ (∀ c, t.core c = { s.core c with ic := (s.core c).ic.filter fun x => !hit x.2.line })
      ∧ Same [.regs, .shadow, .cores, .mgc, .winEntries, .winNew] s t)
  -- dead agents
  ∧ (∀ s : State, s.stopped 2 = false → s.dead.length < 1024 → (∀ j < 8, (s.home j).inbound = []) →
    let dies (d : DeadEntry) (t : State) : Prop := t.dead = s.dead ++ [d] ∧ Same [.dead, .homes] s t
      ∧ ∀ j < 8, (t.home j).walks = (if (s.home j).walks = 0 then 1 else 2) ∧ (t.home j).reclaim = (s.home j).reclaim ++ [d]
        ∧ (t.home j).dir = (s.home j).dir
    (∀ (k : Fin 8) (ls : Nat) (a b : Agent) (t0 : Txn), (s.home k).txns = [t0] → (∀ j < 8, j ≠ k.val → (s.home j).txns = []) →
      t0.ls = ls → t0.wait = [a, b] → a ≠ b → a.unit < 64 → t0.due ≤ s.time.bnd → (∀ d ∈ s.dead, d.agent ≠ a) →
      Ends (.snoopDeadline k ls a) s fun t => dies { agent := a, all := false, time := s.time.now } t
        ∧ (t.home k).txns = [{ t0 with wait := [b], lost := t0.lost || (s.home k).ownerOf ls == some a }])
    ∧ ((∀ j < 8, (s.home j).txns = []) →
      (∀ (d : Fin 65536) (e : Nat), s.isDead ⟨some d, 0⟩ = false → s.routeEnt (s.reg .RTE_ACTIVE) d = some e →
        (∀ n < 64, e.testBit n → s.linkUp n = false ∧ (s.cpl n).downAt + 100000 ≤ s.time.bnd) →
        Ends (.routeLossTimeout d) s (dies { agent := ⟨some d, 0⟩, all := true, time := s.time.now }))
      ∧ ∀ (id c : Nat), s.reg .MEM_DEAD_AGENT = 64 * id + c → id < 0xFFFF → c < 64 → s.tileId ≠ some id →
        s.reg .MEM_DEAD_ALL = 0 → (∀ d ∈ s.dead, d.agent ≠ ⟨some id, c⟩) →
        Ends .memDeadDeclare s (dies { agent := ⟨some id, c⟩, all := false, time := s.time.now })))
  ∧ (∀ (s : State) (k : Fin 8) (key : Nat) (e : DirEntry) (a : Agent) (d : DeadEntry), s.stopped 2 = false → (s.home k).walks ≠ 0 →
    NMap.find? s.mem.retire k = none → (s.home k).txns = [] → (s.home k).inbound = [] → (s.home k).losses = [] →
    (s.home k).dir = [(key, e)] → (s.home k).find e.ls = some (key, e) → e.st = .excl → e.owner = some a → s.deadOf k a = some d →
    s.retiredAt (offsetOfLs k e.ls) = false → s.reg .CTX_STATE ≠ 1 →
    Ends (.reclaimWalkDone k) s fun t => (t.home k).dir = [] ∧ (t.home k).walks = (s.home k).walks - 1
      ∧ t.reg .MEM_LOST_LINES_CNT k = satAdd32 (s.reg .MEM_LOST_LINES_CNT k) 1 ∧ SameRegs [.MEM_LOST_LINES_CNT] s t
      ∧ (∀ i < 4, decodeGran t.mem (offsetOfLs k e.ls / 128 * 4 + i) = some ⟨.lost, List.replicate 32 0, false⟩)
      ∧ OnlyGrans ((List.range 4).map (offsetOfLs k e.ls / 128 * 4 + ·)) s t
      ∧ Same [.homes, .mem, .regs] s t ∧ ∀ j, j ≠ k.val → t.home j = s.home j)
  ∧ (∀ (s : State) (k : Fin 8) (r : LossRange) (rest : List LossRange), s.stopped 2 = false → (s.home k).losses = r :: rest →
    (r.found + 100000 ≤ s.time.bnd → Goes (.lossReport k) s
      ((s.postEvent (deckIndex .MEM k) (lossPayload k (r :: rest))).setHome k { s.home k with losses := [] }))
    ∧ (s.time.bnd < r.found + 100000 → rest.length < 3 → Goes (.lossReport k) s s))
  -- requests
  ∧ (∀ (s : State) (c : Fin 64) (tag : Nat) (r : Req), s.clocked c = true → (s.clu c).leaving = false → NMap.find? (s.clu c).reqs tag = some r →
    let due : Bool := decide (r.since + 100 * s.reg .CLU_REQ_TIMEOUT_US c ≤ s.time.bnd)
    due = true →
    ((∀ i < 4, ∀ n < 16, ∀ h, s.hand (4 * c + i) n = some h → h.ops = []) →
      (r.quar = true → Ends (.tagQuarantineEnd c tag) s fun t => t.clu c = { s.clu c with reqs := NMap.erase (s.clu c).reqs tag }
        ∧ (∀ d, d ≠ c.val → t.clu d = s.clu d) ∧ Same [.clus] s t)
      ∧ (r.quar = false → r.kind = .wb ∨ r.kind = .ce → r.use = .demand → r.waiters = [] → Ends (.reqTimeout c tag) s fun t =>
        t.clu c = { s.clu c with reqs := NMap.insert (s.clu c).reqs tag { r with quar := true, since := s.time.bnd },
                                 wbuf := (s.clu c).wbuf.filter fun x => x.line != r.line }
        ∧ (∀ d, d ≠ c.val → t.clu d = s.clu d) ∧ Same [.clus, .regs] s t ∧ OnlyRegsAt [(.CLU_TIMEOUT_CNT, c, 0)] s { t with clus := s.clus }
        ∧ t.reg .CLU_TIMEOUT_CNT c = satAdd32 (s.reg .CLU_TIMEOUT_CNT c) 1))
    ∧ ∀ (w : Waiter) (h : Hand) (o : MemOp) (p : Part), r.quar = false → r.kind = .ncRd → r.use = .demand → r.waiters = [w] →
      w.core / 4 = c → w.slot < 16 → s.hand w.core w.slot = some h → h.ops = [o] → o.id = w.op → o.parts = [p] → w.part = 0 → p.op = .load →
      (∀ i < 4, ∀ n < 16, ∀ h, (4 * c.val + i, n) ≠ (w.core, w.slot) → s.hand (4 * c + i) n = some h → h.ops = []) →
      Ends (.reqTimeout c tag) s fun t =>
        t.hand w.core w.slot = some { h with ops := [{ o with res := NMap.insert o.res 0 (poisonRes p.size) }] }
        ∧ (∃ q, NMap.find? (t.clu c).reqs tag = some q ∧ q.quar = true ∧ q.since = s.time.bnd)
        ∧ t.reg .CLU_TIMEOUT_CNT c = satAdd32 (s.reg .CLU_TIMEOUT_CNT c) 1 ∧ Same [.clus, .cores, .regs] s t)
  -- reset invalidation
  ∧ ∀ s : State, s.booted = true →
    (∀ c : Fin 256, s.invalidates (c.val / 4) = true → (∀ i < 4, ∀ n < 16, ∀ h, s.hand (4 * (c.val / 4) + i) n = some h → h.ops = []) →
      Ends (.cacheInitDone (.l1 c)) s fun t => Same [.cores] s t ∧ t.core c = { s.core c with l1init := false } ∧ ∀ d, d ≠ c.val → t.core d = s.core d)
    ∧ (∀ c : Fin 256, s.invalidates (c.val / 4) = true →
      Ends (.cacheInitDone (.ic c)) s fun t => Same [.cores] s t ∧ t.core c = { s.core c with icinit := false } ∧ ∀ d, d ≠ c.val → t.core d = s.core d)
    ∧ (∀ c : Fin 64, s.invalidates c = true → (∀ i < 4, ∀ n < 16, ∀ h, s.hand (4 * c + i) n = some h → h.ops = []) →
      Ends (.cacheInitDone (.cc c)) s fun t => Same [.clus] s t ∧ t.clu c = { s.clu c with ccinit := false } ∧ ∀ d, d ≠ c.val → t.clu d = s.clu d)
    ∧ (s.stopped 2 = false → ∀ k : Fin 8,
      (Ends (.cacheInitDone (.dir k)) s fun t => Same [.homes] s t ∧ t.home k = { s.home k with dirinit := false } ∧ ∀ j, j ≠ k.val → t.home j = s.home j)
      ∧ (Ends (.cacheInitDone (.lmap k)) s fun t => Same [.homes] s t ∧ t.home k = { s.home k with lmapinit := false } ∧ ∀ j, j ≠ k.val → t.home j = s.home j)
      ∧ Goes (.cacheInitDone .filter) s { s with filterInit := false })

/-- The background work of the controllers (R365–R382), slot operations (R414, R429), packers (R413) and assembly buffers (R425). -/
def Obligations.ControllersWork : Prop :=
  (∀ (s : State) (k : Fin 8) (slow : Bool), s.stopped 1 = false → s.booted = true → s.isSet .MEM_INIT_DONE k = false →
    Ends (.memInitDone k slow) s fun t => t.reg .MEM_INIT_DONE k = 1 ∧ t.reg .MEM_RATE_FALLBACK k = bit slow ∧ Same [.regs, .mem] s t
      ∧ (∀ f i n, (f, i, n) ∉ [(.MEM_INIT_DONE, k.val, 0), (.MEM_RATE_FALLBACK, k.val, 0)] → t.reg f i n = s.reg f i n)
      ∧ t.mem = { s.mem with cells := t.mem.cells, gran := t.mem.gran, err := t.mem.err }
      ∧ ∀ g, decodeGran t.mem g =
          if ctlOf (32 * g) = k.val ∧ s.retiredAt (32 * g) = false then some ⟨.good, List.replicate 32 0, false⟩ else decodeGran s.mem g)
  ∧ (∀ (s : State) (k : Fin 8), s.memRuns k = true →
    let forcedTurn (i : Nat) (forced : Bool) (t : State) : Prop :=
      t.reg .MEM_BG_FORCED_CNT k i = if forced then satAdd32 (s.reg .MEM_BG_FORCED_CNT k i) 1 else s.reg .MEM_BG_FORCED_CNT k i
    let only (fs : List (Field × Nat × Nat)) (t : State) : Prop := ∀ f i n, (f, i, n) ∉ fs → t.reg f i n = s.reg f i n
    (∀ forced, Ends (.refresh k forced) s fun t => forcedTurn 0 forced t ∧ Same [.regs] s t ∧ only [(.MEM_BG_FORCED_CNT, k, 0)] t)
    ∧ (∀ (temp : BitVec 8) (fast forced : Bool), Ends (.stackTempRead k temp fast forced) s fun t =>
        t.reg .MEM_STACK_TEMP k = temp.toNat ∧ t.reg .MEM_REFRESH_FAST k = bit fast ∧ forcedTurn 5 forced t ∧ Same [.regs] s t
        ∧ only [(.MEM_STACK_TEMP, k, 0), (.MEM_REFRESH_FAST, k, 0), (.MEM_BG_FORCED_CNT, k, 5)] t)
    ∧ (∀ (ch : Fin 32) (pc : Fin 2) (forced : Bool), s.isSet .MEM_INIT_DONE k = true → s.isSet .MEM_SCRUB_EN k = true → s.chRetired k ch = false →
      let key := k.val * 64 + ch.val * 2 + pc.val
      let i := NMap.get 0 s.mem.scrub key
      NMap.get 0 s.mem.scrubAt key + s.reg .MEM_SCRUB_HOURS k * 3600 * 10 ^ 8 / 6291456 ≤ s.time.bnd → i + 1 < 6291456 →
      (∀ j < 4, Sound s (offsetOfLs k (scrubLine ch pc i) / 128 * 4 + j)) →
      Ends (.scrubStep k ch pc forced) s fun t => NMap.get 0 t.mem.scrub key = i + 1 ∧ NMap.find? t.mem.scrubAt key = some s.time.bnd
        ∧ forcedTurn 1 forced t ∧ Same [.regs, .mem] s t ∧ only [(.MEM_BG_FORCED_CNT, k, 1)] t
        ∧ t.mem = { s.mem with scrub := t.mem.scrub, scrubAt := t.mem.scrubAt, scrubWrapped := t.mem.scrubWrapped })
    ∧ (∀ (ls : Nat) (forced : Bool), (NMap.find? s.mem.rowDue (rowKey k ls)).isSome = true → s.mem.err = [] → s.reg .CTX_STATE ≠ 1 →
      let cleared := { s.mem with rowDue := NMap.erase s.mem.rowDue (rowKey k ls), rowErr := NMap.erase s.mem.rowErr (rowKey k ls) }
      (Ends (.rowSpare k ls none forced) s fun t => t.mem = cleared ∧ Same [.regs, .mem] s t
        ∧ t.reg .MEM_SPARE_FAIL_CNT k = satAdd32 (s.reg .MEM_SPARE_FAIL_CNT k) 1 ∧ only [(.MEM_SPARE_FAIL_CNT, k, 0)] t)
      ∧ ∀ left, Ends (.rowSpare k ls (some left) forced) s fun t => Same [.regs, .mem] s t
        ∧ t.mem = { cleared with spared := NMap.insert s.mem.spared k (NMap.get [] s.mem.spared k ++ [Config.rowOf k ls]) }
        ∧ t.reg .MEM_ROW_SPARED_CNT k = satAdd32 (s.reg .MEM_ROW_SPARED_CNT k) 1 ∧ forcedTurn 4 forced t
        ∧ only [(.MEM_ROW_SPARED_CNT, k, 0), (.MEM_BG_FORCED_CNT, k, 4)] t)
    ∧ (∀ (ch : Fin 32) (pc : Fin 2) (pin : Fin 128) (early late : Nat), s.chRetired k ch = false → (late + 1024 < early ∨ early + 1024 < late) →
      let key := pinKey k ch pc pin
      Ends (.readTimingAdjust k ch pc pin early late) s fun t => Same [.regs, .mem] s t ∧ only [(.MEM_CAL_ADJ_CNT, k, 0)] t
        ∧ t.reg .MEM_CAL_ADJ_CNT k = satAdd32 (s.reg .MEM_CAL_ADJ_CNT k) 1 ∧ t.mem = { s.mem with phase := t.mem.phase }
        ∧ NMap.get 0 t.mem.phase key = NMap.get 0 s.mem.phase key + (if late < early then 1 else -1)
        ∧ ∀ j, j ≠ key → NMap.get 0 t.mem.phase j = NMap.get 0 s.mem.phase j)
    ∧ ∀ (ch : Fin 32) (pc : Fin 2) (pin : Fin 128) (later ok forced : Bool), s.chRetired k ch = false → s.reg .CTX_STATE ≠ 1 →
      let key := pinKey k ch pc pin
      let run := k.val * 64 + ch.val * 2 + pc.val
      NMap.get 0 s.mem.calRun run < 7 →
      Ends (.writeTraining k ch pc [(pin, later)] ok forced) s fun t => Same [.regs, .mem] s t ∧ forcedTurn 3 forced t
        ∧ t.reg .MEM_CAL_ADJ_CNT k = satAdd32 (s.reg .MEM_CAL_ADJ_CNT k) 1
        ∧ t.reg .MEM_CAL_FAIL_CNT k = (if ok then s.reg .MEM_CAL_FAIL_CNT k else satAdd32 (s.reg .MEM_CAL_FAIL_CNT k) 1)
        ∧ only [(.MEM_CAL_ADJ_CNT, k, 0), (.MEM_CAL_FAIL_CNT, k, 0), (.MEM_BG_FORCED_CNT, k, 3)] t
        ∧ t.mem = { s.mem with wdelay := t.mem.wdelay, calRun := t.mem.calRun }
        ∧ NMap.get 0 t.mem.wdelay key = NMap.get 0 s.mem.wdelay key + (if later then 1 else -1)
        ∧ NMap.get 0 t.mem.calRun run = if ok then 0 else NMap.get 0 s.mem.calRun run + 1)
  -- retirement of a channel
  ∧ (∀ (s : State) (k : Fin 8), s.isSet .BRK_BRAKED = false →
    let ch := s.regS .MEM_CH_RETIRE_SEL k
    (s.isSet .MEM_CH_RETIRE_BUSY k = false → s.chRetired k ch = false →
      Ends (.memChRetireGo k) s (Queues ⟨9, deckIndex .MEM k * 2 ^ 20 + 0x3C, .channelRetire k ch 1⟩ s))
    ∧ ((s.isSet .MEM_CH_RETIRE_BUSY k = true ∨ s.chRetired k ch = true) → Ends (.memChRetireGo k) s fun t => Same [.regs] s t
        ∧ SameRegs [Block.MEM.cfgErr] s t ∧ t.reg Block.MEM.cfgErr k = satAdd32 (s.reg Block.MEM.cfgErr k) 1))
  ∧ (∀ (s : State) (k : Fin 8) (ch cause : Nat), s.isSet .MEM_CH_RETIRE_BUSY k = false → s.chRetired k ch = false →
    let t := applyAct (.channelRetire k ch cause) s
    t.reg .MEM_CH_RETIRE_BUSY k = 1 ∧ SameRegs [.MEM_CH_RETIRE_BUSY] s t ∧ Same [.regs, .mem] s t
    ∧ t.mem = { s.mem with retire := NMap.insert s.mem.retire k (ch, cause, 0) })
  ∧ (∀ (s : State) (k : Fin 8) (ch cause : Nat), NMap.find? s.mem.retire k = some (ch, cause, 0) → s.stopped 2 = false → (s.home k).walks = 0 →
    (s.home k).busyChannel ch = false → (∀ x ∈ (s.home k).dir, channelOf x.2.ls ≠ ch) →
    Ends (.chRetireWalk k) s fun t => Same [.mem] s t ∧ t.mem = { s.mem with retire := NMap.insert s.mem.retire k (ch, cause, 1) })
  ∧ (∀ (s : State) (k : Fin 8) (ch cause : Nat), NMap.find? s.mem.retire k = some (ch, cause, 1) → s.stopped 2 = false → (s.home k).txns = [] →
    (s.home k).inbound = [] → s.reg .CTX_STATE ≠ 1 → s.isSet .CDC_LMAP_EN 0 k = false → s.reg .MEM_CH_RETIRE_MASK k ||| 2 ^ ch ≠ 2 ^ 32 - 1 →
    Ends (.chRetireDone k) s fun t => t.reg .MEM_CH_RETIRE_MASK k = s.reg .MEM_CH_RETIRE_MASK k ||| 2 ^ ch ∧ t.reg .MEM_CH_RETIRE_BUSY k = 0
      ∧ Same [.regs, .mem] s t ∧ SameRegs [.MEM_CH_RETIRE_MASK, .MEM_CH_RETIRE_BUSY] s t
      ∧ t.mem = { s.mem with retire := NMap.erase s.mem.retire k })
  -- table slots, packers and assembly buffers
  ∧ (∀ p ∈ ([(.slotLoad, 1), (.slotArm, 2), (.slotClear, 3), (.slotHistClr, 4)] : List (Instr × Nat)), ∀ s : State,
    s.isSet .BRK_BRAKED = false → s.codec.op = none →
    let e : TickEvt := ⟨9, deckIndex .CDC 0 * 2 ^ 20 + 0x004, .slotOp p.2⟩
    Ends p.1 s fun t => t.reg .CDC_SLOT_RESULT = 4 ∧ SameRegs [.CDC_SLOT_RESULT] s t ∧ Same [.regs, .codec, .time] s t
      ∧ t.codec = { s.codec with op := some p.2 }
      ∧ t.time = { s.time with due := if e ∈ s.time.due then s.time.due else s.time.due ++ [e] })
  ∧ (∀ s : State, let n := s.reg .CDC_SLOT_SEL
    (s.slotState n = 2 → s.slotHold n ≠ 0 → ∀ op ∈ [1, 2, 3], let t := applyAct (.slotOp op) s
      t.reg .CDC_SLOT_RESULT = 1 ∧ t.reg .CDC_HOLD_REFUSE_CNT = satAdd32 (s.reg .CDC_HOLD_REFUSE_CNT) 1
      ∧ Same [.regs, .codec] s t ∧ SameRegs [.CDC_SLOT_RESULT, .CDC_HOLD_REFUSE_CNT] s t ∧ t.codec = { s.codec with op := none })
    ∧ ((s.slotState n ≠ 2 ∨ s.slotHold n = 0) → imageValid s.stage = true → let t := applyAct (.slotOp 1) s
      t.reg .CDC_SLOT_RESULT = 0 ∧ t.slotState n = 2 ∧ t.slotImg n = s.stage))
  ∧ (∀ (s : State) (k : Fin 8) (j : PackJob) (forced : Bool), s.memRuns k = true →
    s.codec.pack = [j] → ctlOf j.block = k.val → s.modeAt (s.normalise (0xFFFF * 2 ^ 48 + j.block)) ≠ 1 → NMap.find? s.cp.asyncs j.id = none →
    Ends (.packerBlock k forced) s fun t => t.codec.pack = [] ∧ t.mem = s.mem
      ∧ NMap.get 0 t.codec.passes j.slot = NMap.get 0 s.codec.passes j.slot - 1)
  ∧ ∀ (s : State) (c : Fin 64) (b : AsmBuf), s.clocked c = true → (s.clu c).asm = [b] →
    (s.time.bnd < b.since + 1000 → Goes (.asmFlushTimeout c b.block) s s)
    ∧ (b.since + 1000 ≤ s.time.bnd → Goes (.asmFlushTimeout c b.block) s (s.flushAsm c b.block))

/-! ### Couplers -/

/-- Training, identification and entry of a link (R440–R463). -/
def Obligations.CouplersTrain : Prop :=
  (∀ (s : State) (n : Fin 64), s.cplLive n = true →
    (s.link n = 0 → (∀ t, (s.cpl n).beaconAt = some t → t + 100000 ≤ s.time.bnd) → Ends (.beacon n) s fun t => Same [.cpls] s t
      ∧ t.cpl n = { s.cpl n with beacons := (s.cpl n).beacons + 1, beaconAt := some s.time.bnd } ∧ OnlyCpl n s t)
    ∧ (s.link n = 0 → LanesWhole s n → Ends (.signalDetect n) s fun t => t.link n = 1 ∧ (t.cpl n).phase = 1 ∧ (t.cpl n).retrain = false
      ∧ (t.cpl n).trainAt = s.time.bnd ∧ (∀ l < 4, t.reg .CPL_TXEQ n l = 0xFA36FC00) ∧ Same [.cpls, .regs] s t
      ∧ SameRegs [.CPL_LINK_STATE, .CPL_TXEQ] s t ∧ OnlyCpl n s t)
    -- frames and phases
    ∧ (∀ (phys : Fin 4) (ctl : List Byte), s.link n = 1 → ctl.length = 16 → s.reg .CPL_LANES_RETIRED n = 0 →
      let lane := (ctl.getD 1 0).toNat % 4
      let st := (ctl.getD 2 0).toNat
      (crcMsb 16 0x1021 0xFFFF (ctl.take 14) ≠ leNat (ctl.drop 14) → Goes (.trainingFrame n phys ctl) s s)
      ∧ (crcMsb 16 0x1021 0xFFFF (ctl.take 14) = leNat (ctl.drop 14) → Ends (.trainingFrame n phys ctl) s fun t =>
          NMap.find? (t.cpl n).laneOf phys = some lane ∧ (t.cpl n).farMax = (ctl.getD 3 0).toNat % 4
          ∧ NMap.find? (t.cpl n).ready lane =
              some (if st.testBit 2 ∧ (ctl.getD 0 0).toNat = (s.cpl n).phase then NMap.get 0 (s.cpl n).ready lane + 1 else 0)
          ∧ t.reg .CPL_TXEQ n lane = (match requestTaps (tapsOf (s.reg .CPL_TXEQ n lane)) ((List.range 4).map fun i => (ctl.getD (4 + i) 0).toNat % 4) with
            | some x => tapsReg x
            | none => s.reg .CPL_TXEQ n lane)
          ∧ Same [.cpls, .regs] s t ∧ OnlyRegsAt [(.CPL_TXEQ, n, lane)] s { t with cpls := s.cpls } ∧ OnlyCpl n s t))
    ∧ (s.link n = 1 → s.trainLate n = false → (s.cpl n).allReady = true →
      ((s.cpl n).phase = 1 ∨ (s.cpl n).phase = 2 → ∀ lanes, Ends (.trainPhaseEnd n lanes) s fun t => Same [.cpls] s t ∧ OnlyCpl n s t
        ∧ t.cpl n = { s.cpl n with phase := (s.cpl n).phase + 1, phaseAt := s.time.bnd, ready := [] })
      ∧ ∀ lanes : List (Nat × Nat), (s.cpl n).phase = 3 → lanes.length = 4 → (∀ x ∈ lanes, 10 ^ 9 ≤ x.1 ∧ x.2 * 100000 ≤ x.1) →
        s.reg .CPL_LANES_RETIRED n = 0 → s.reg .CPL_MAX_WIDTH n = 0 → (s.cpl n).farMax = 0 → (s.cpl n).farQual = 15 →
        1 ≤ s.reg .CPL_LANE_RETIRE_LIMIT n → Ends (.trainPhaseEnd n lanes) s fun t => Same [.cpls] s t ∧ OnlyCpl n s t
          ∧ (t.cpl n).width = 4 ∧ (t.cpl n).qual = 15 ∧ (t.cpl n).phase = 4)
    ∧ (s.link n = 1 → s.trainLate n = true → Ends (.trainTimeout n) s (AttemptFailed n s))
    -- codeword lock
    ∧ (∀ nonce : BitVec 128, s.link n = 1 → (s.cpl n).phase = 4 → s.trainLate n = false → s.reg .CPL_LP n = 0 →
      Ends (.codewordLock n nonce) s fun t => t.link n = 2 ∧ t.reg .CPL_LOCK n = 1 ∧ (t.cpl n).nonce = leBytes 16 nonce.toNat
        ∧ (t.cpl n).acked = false ∧ (t.cpl n).far = none ∧ (t.cpl n).sentAt = s.time.bnd ∧ (t.cpl n).sentValid = s.tileId.isSome
        ∧ (t.cpl n).wire = (s.cpl n).wire ++ [flitBytes (linkFlit {} false none)]
        ∧ (t.cpl n).rol.queue = [⟨6, false, packetFlits { fk := 2, vc := 3, op := 0x82, dlen := (t.identifyPayload n).length } (t.identifyPayload n)⟩]
        ∧ Same [.cpls, .regs] s t ∧ SameRegs [.CPL_LOCK, .CPL_LINK_STATE] s t ∧ OnlyCpl n s t)
    ∧ (∀ nonce : BitVec 128, s.reg .CPL_LP n = 1 → (s.cpl n).lpExit ≠ none → (s.cpl n).rol.queue = [] →
      Ends (.codewordLock n nonce) s fun t => t.reg .CPL_LP n = 0 ∧ t.cpl n = { s.cpl n with lpExit := none }
        ∧ Same [.cpls, .regs] s t ∧ OnlyRegsAt [(.CPL_LP, n, 0)] s { t with cpls := s.cpls } ∧ OnlyCpl n s t))
  -- IDENTIFY
  ∧ (∀ (s : State) (n : Fin 64) (b f : List Byte), s.link n = 2 → (s.cpl n).rol.granted = false →
    (Takes s n 0x82 b f → f.length = 64 → field f 0 1 = 1 → s.reg .CPL_SEAL_EN n = 0 → (field f 1 1).testBit 1 = false → (s.cpl n).far = none →
      (s.cpl n).acked = false → s.tileId ≠ some (field f 2 2) →
      let ack : TxPkt := ⟨6, false, [⟨true, ctlBody 0x84 [(8, (f.drop 16).take 16)]⟩]⟩
      Ends (.identify n) s fun t => Same [.cpls, .regs] s t ∧ SameRegs [.CPL_CAPS] s t ∧ OnlyCpl n s t
        ∧ t.reg .CPL_CAPS n = (field f 8 4 &&& 0xFF) % 256
        ∧ t.cpl n = { s.cpl n with ctl := [], far := some f, heardAt := s.time.bnd,
                                   rol := { (s.cpl n).rol with queue := (s.cpl n).rol.queue ++ [ack] } })
    ∧ (∀ far id, Takes s n 0x84 b f → (b.drop 8).take 16 = padTo 16 (s.cpl n).nonce → (s.cpl n).far = some far → s.tileId = some id →
      (field far 1 1).testBit 0 = true → (field far 1 1).testBit 1 = false → s.reg .CPL_SEAL_EN n = 0 → field far 2 2 ≠ id →
      (s.cpl n).sentValid = true → (s.cpl n).retrain = false → Ends (.identifyAck n) s fun t => t.link n = 3 ∧ (t.cpl n).acked = true
        ∧ (t.cpl n).started = 0 ∧ (t.cpl n).ended = 0 ∧ Same [.cpls, .regs] s t ∧ OnlyRegsAt [(.CPL_LINK_STATE, n, 0)] s { t with cpls := s.cpls }
        ∧ OnlyCpl n s t)
    ∧ (∀ far entry, Takes s n 0x83 b f → (s.cpl n).far = some far →
      s.seesRecord (0xFFFF * 2 ^ 48 + (s.reg64 .SEC_SEAL_LIST_BASE_LO .SEC_SEAL_LIST_BASE_HI + 48 * field far 2 2) % 2 ^ 48) 48 entry = true →
      let good : Prop := f.length = 193 ∧ (∃ e, entry = some e ∧ (e.any (· != 0)) = true ∧ sha384 (f.take 97) = e)
        ∧ ecdsaVerify (f.take 97) (sha384 (far ++ padTo 16 (s.cpl n).nonce)) ((f.drop 97).take 96) = true
      (good → Ends (.identifySeal n entry) s fun t => (t.cpl n).sealed = true ∧ OnlyCpl n s t ∧ Same linkParts s t)
      ∧ (¬good → Ends (.identifySeal n entry) s fun t => LinkLeft n 6 s t ∧ t.reg .CPL_DOWN_CAUSE n = 3
          ∧ t.reg .SEC_SEAL_FAIL_CNT = satAdd32 (s.reg .SEC_SEAL_FAIL_CNT) 1 ∧ ⟨6, 8, .security (.sealFail n)⟩ ∈ t.time.due ∧ Same linkParts s t)))
  ∧ (∀ (s : State) (n : Fin 64), s.banksRun = true →
    (s.link n = 2 → (s.cpl n).resume = false → (s.cpl n).sentAt + 100000 ≤ s.time.bnd → (s.cpl n).rol.granted = false → s.reg .CPL_SEAL_EN n = 0 →
      (s.cpl n).far = none → Ends (.identifyResend n) s fun t => (t.cpl n).sentAt = s.time.bnd ∧ (t.cpl n).sentValid = s.tileId.isSome
        ∧ (t.cpl n).rol.queue = (s.cpl n).rol.queue
          ++ [⟨6, false, packetFlits { fk := 2, vc := 3, op := 0x82, dlen := (s.identifyPayload n).length } (s.identifyPayload n)⟩]
        ∧ Same [.cpls] s t ∧ OnlyCpl n s t)
    ∧ (∀ far, s.link n = 2 → (s.cpl n).resume = false → s.tileId ≠ none → (s.cpl n).far = some far → (field far 1 1).testBit 0 = true →
      (s.cpl n).heardAt + 1000000 ≤ s.time.bnd → Ends (.identifyTimeout n) s (AttemptFailed n s))
    ∧ (s.link n = 3 → (s.cpl n).since + 100000 < s.time.bnd → (s.cpl n).ended < 16 → Ends (.timeTimeout n) s (AttemptFailed n s))
    ∧ (s.link n = 6 → (s.reg .CPL_DOWN_CAUSE n = 5 ∨ (s.cpl n).gone = true) → (s.cpl n).since < s.time.bnd →
      Ends (.downExit n) s fun t => LinkLeft n 0 s t ∧ Same [.cpls, .time, .regs] s t ∧ SameRegs linkRegs s t)
    ∧ (s.reg .CPL_LP n = 0 → s.reg .CPL_LOCK n = 1 → LanesWhole s n →
      (s.linkUp n = true → Ends (.codewordLockLoss n) s fun t => Retrains n s t ∧ t.reg .CPL_LOCK_LOSS_CNT n = satAdd32 (s.reg .CPL_LOCK_LOSS_CNT n) 1)
      ∧ (s.link n = 2 ∨ s.link n = 3 → Ends (.codewordLockLoss n) s fun t =>
          (t.link n = 0 ∨ t.link n = 6) ∧ t.reg .CPL_LOCK n = 0 ∧ (t.cpl n).failRun = (s.cpl n).failRun + 1
          ∧ t.reg .CPL_LOCK_LOSS_CNT n = satAdd32 (s.reg .CPL_LOCK_LOSS_CNT n) 1 ∧ Same linkParts s t ∧ OnlyCpl n s t)))
  -- entry
  ∧ (∀ (s : State) (n : Fin 64), s.cplLive n = true → s.link n = 3 → 16 ≤ (s.cpl n).ended → (s.cpl n).since < s.time.bnd →
    Applies (.linkUp n) s 9 (deckIndex .CPL n * 2 ^ 20) (.linkUp n) (applyLinkUp n))
  ∧ ∀ (s : State) (n : Nat) (f : List Byte), (s.cpl n).far = some f → (s.cpl n).held = none → (s.cpl n).rol.queue = [] →
    let t := applyLinkUp n s
    t.link n = (if (s.cpl n).width = 4 then 4 else 5) ∧ t.reg .CPL_WIDTH n = (s.cpl n).width
    ∧ t.reg .CPL_NEIGH n = 2 ^ 31 + 65536 * (field f 4 1 % 64) + field f 2 2
    ∧ t.reg .CPL_LANES_GOOD n = field f 7 1 % 16 + 16 * ((s.cpl n).qual % 16) ∧ (t.cpl n).failRun = 0 ∧ (t.cpl n).rol = (s.cpl n).rol
    ∧ Same (.cpls :: postParts) s t ∧ OnlyCpl n s t
    ∧ SameRegs ([.CPL_LINK_STATE, .CPL_WIDTH, .CPL_NEIGH, .CPL_LANES_GOOD, .CPL_LONG] ++ postRegs) s t

/-- Rollipor and the upkeep of a link (R453, R461–R473, R475–R499). -/
def Obligations.CouplersCarryFlits : Prop :=
  let only (n : Nat) (f : CplSt → CplSt) (s t : State) : Prop := t.cpl n = f (s.cpl n) ∧ OnlyCpl n s t ∧ Same [.cpls] s t
  -- sending
  (∀ (s : State) (n : Nat) (p : TxPkt), (s.cpl n).rol.queue = [] →
    let t := s.queuePkt n p
    let r := (s.cpl n).rol
    (s.canLeave n p = false → only n (fun c => { c with rol := { r with queue := [p] } }) s t)
    ∧ (s.canLeave n p = true → (t.cpl n).wire = (s.cpl n).wire ++ p.flits.map flitBytes ∧ (t.cpl n).rol.queue = []
      ∧ (t.cpl n).rol.unack = r.unack ++ p.flits.zipIdx.map (fun x => ((r.txSeq + x.2) % 4096, x.1))
      ∧ (t.cpl n).rol.txSeq = (r.txSeq + p.flits.length) % 4096
      ∧ (p.sub ≠ 7 → NMap.get 0 (t.cpl n).rol.credit p.sub = NMap.get 0 r.credit p.sub - p.flits.length)
      ∧ (p.sub ≠ 7 → p.tagged = true → NMap.get 0 (t.cpl n).rol.credit 7 = NMap.get 0 r.credit 7 - 1)
      ∧ OnlyCpl n s t ∧ Same [.cpls, .mgc] s t))
  -- receiving
  ∧ (∀ (s : State) (n : Fin 64) (bs : List Byte), s.banksRun = true → s.reg .CPL_LOCK n = 1 → 2 ≤ s.link n → s.link n ≤ 5 →
    (classifyFlit true bs = none → (s.cpl n).rol.disc = false → Ends (.flitReceive n false true [] bs) s fun t =>
      t.reg .CPL_CRC_ERR_CNT n = satAdd32 (s.reg .CPL_CRC_ERR_CNT n) 1 ∧ (t.cpl n).rol.disc = true
      ∧ (t.cpl n).wire = (s.cpl n).wire ++ [flitBytes (linkFlit { (s.cpl n).rol with disc := true, skip := 0 } true none)]
      ∧ OnlyCpl n s t ∧ Same [.cpls, .regs] s t ∧ OnlyRegsAt [(.CPL_CRC_ERR_CNT, n, 0)] s { t with cpls := s.cpls })
    ∧ (∀ b, classifyFlit true bs = some ⟨true, b⟩ → flitKind b = 0 → Goes (.flitReceive n false true [] bs) s s)
    ∧ (∀ f, classifyFlit true bs = some f → ¬(flitKind f.body = 2 ∧ field f.body 1 1 = 0x81) → (s.cpl n).rol.disc = true →
      ¬(f.lead = true ∧ flitKind f.body = 0) → ¬(f.lead = true ∧ flitKind f.body = 2 ∧ field f.body 1 1 = 0x80) →
      Goes (.flitReceive n false true [] bs) s s)
    ∧ ∀ b, classifyFlit true bs = some ⟨true, b⟩ → flitKind b = 2 → 0x84 ≤ field b 1 1 → field b 1 1 ≤ 0x8D → leadOk b = true →
      (s.cpl n).rol.disc = false → (s.cpl n).rol.skip = 0 → (s.cpl n).rol.open' = [] →
      Ends (.flitReceive n false true [] bs) s (only n (fun c => { c with
        ctl := c.ctl ++ [(b, [])], rol := { c.rol with rxSeq := (c.rol.rxSeq + 1) % 4096, accepted := true, arrived := c.rol.arrived + 1, busyAt := s.time.bnd, audited := false, ret := NMap.set 0 c.rol.ret (subOf 3 (hdrOf b).esc) ((NMap.get 0 c.rol.ret (subOf 3 (hdrOf b).esc) + 1) % 65536) } }) s))
  -- LINK
  ∧ (∀ (s : State) (n : Fin 64) (b d : List Byte), Takes s n 0x80 b d → (s.cpl n).rol.queue = [] → (s.cpl n).lpGoing = false →
    (field b 4 2 = 0x8000 → (s.cpl n).rol.granted = false → Ends (.link n) s fun t => (t.cpl n).rol.granted = true ∧ (t.cpl n).ctl = []
      ∧ (∀ i < 7, NMap.get 0 (t.cpl n).rol.credit i = field b (10 + 2 * i) 2) ∧ NMap.get 0 (t.cpl n).rol.credit 7 = field b 24 2 % 4096
      ∧ (t.cpl n).rol.unack = (s.cpl n).rol.unack ∧ OnlyCpl n s t ∧ Same [.cpls] s t)
    ∧ ∀ q before mid after, field b 4 2 = 0x1000 + q → q < 4096 → (s.cpl n).rol.unack = before ++ (q, mid) :: after →
      (∀ x ∈ before, x.1 ≠ q) → Ends (.link n) s fun t => (t.cpl n).rol.unack = after ∧ (t.cpl n).rol.heard = true
        ∧ (t.cpl n).rol.replay = none ∧ (t.cpl n).rol.failRun = 0 ∧ (t.cpl n).ctl = [] ∧ OnlyCpl n s t ∧ Same [.cpls] s t)
  ∧ (∀ (s : State) (n : Fin 64), s.banksRun = true → 2 ≤ s.link n → s.link n ≤ 5 → s.reg .CPL_LP n = 0 →
    let r := (s.cpl n).rol
    (1 ≤ r.arrived ∨ r.linkAt + 1000 ≤ s.time.bnd → Ends (.linkSend n) s
      (only n (fun c => { c with wire := c.wire ++ [flitBytes (linkFlit r false none)], rol := { r with arrived := 0, linkAt := s.time.bnd } }) s))
    ∧ (∀ q f rest, r.unack = (q, f) :: rest → r.ackAt + ticksOfNs (s.reg .CPL_REPLAY_TO_NS n) ≤ s.time.bnd → r.replay = none ∧ r.failRun = 0 →
      Ends (.replayTimeout n) s fun t => t.reg .CPL_REPLAY_CNT n = satAdd32 (s.reg .CPL_REPLAY_CNT n) 1
        ∧ (t.cpl n).rol.replay = some q ∧ (t.cpl n).rol.unack = r.unack ∧ (t.cpl n).rol.ackAt = s.time.bnd
        ∧ (∃ l : Flit, (t.cpl n).wire = (s.cpl n).wire ++ flitBytes l :: r.unack.map fun x => flitBytes x.2)
        ∧ OnlyCpl n s t ∧ Same [.cpls, .regs] s t ∧ OnlyRegsAt [(.CPL_REPLAY_CNT, n, 0)] s { t with cpls := s.cpls })
    ∧ (s.linkUp n = true → r.granted = true → r.audited = false → r.unack = [] → r.queue = [] → r.busyAt + 309 ≤ s.time.bnd →
      Ends (.couplerAudit n) s fun t => t.cpl n = { s.cpl n with rol := { r with audited := true } } ∧ OnlyCpl n s t ∧ Same [.cpls, .regs] s t
        ∧ OnlyRegsAt [(.CPL_AUDIT_ERR_CNT, n, 0)] s { t with cpls := s.cpls }
        ∧ t.reg .CPL_AUDIT_ERR_CNT n = if (List.range 8).all fun i => NMap.get 0 r.credit i == NMap.get 0 r.grant i then s.reg .CPL_AUDIT_ERR_CNT n
            else satAdd32 (s.reg .CPL_AUDIT_ERR_CNT n) 1))
  -- low power
  ∧ (∀ (s : State) (n : Fin 64) (b d : List Byte),
    (Takes s n 0x8B b d → Goes (.lpReq n) s ((((taken s n).sendCtl n 0x8C [(4, leBytes 1 (bit (s.linkUp n && s.cplIdle n)))])).onCpl n fun c =>
      { c with lpGoing := s.linkUp n && s.cplIdle n }))
    ∧ (Takes s n 0x8C b d → (s.cpl n).lpAsked ≠ none → s.linkUp n = true →
      ((field b 4 1).testBit 0 = true → Ends (.lpAck n) s fun t => t.reg .CPL_LP n = 1 ∧ (t.cpl n).lpAsked = none
        ∧ (t.cpl n).wire = (s.cpl n).wire ++ [flitBytes (linkFlit (s.cpl n).rol false none)] ∧ OnlyCpl n s t ∧ Same [.cpls, .regs] s t)
      ∧ ((field b 4 1).testBit 0 = false → Ends (.lpAck n) s
          (only n (fun c => { c with ctl := [], lpAsked := none, lpRefused := s.time.bnd + 1000 }) s)))
    ∧ (∀ beacon, s.banksRun = true → s.reg .CPL_LP n = 1 → (s.cpl n).lpExit = none → (beacon = true ∨ (s.cpl n).rol.queue ≠ []) →
      Ends (.lpExit n beacon) s fun t => t.cpl n = { s.cpl n with lpExit := some s.time.bnd, beacons := (s.cpl n).beacons + 1 }
        ∧ t.pwr = { s.pwr with t4 := s.pwr.t4.filter (· != n.val / 8) } ∧ OnlyCpl n s t ∧ Same [.cpls, .pwr] s t)
    ∧ (s.banksRun = true → s.linkUp n = true → LanesWhole s n →
      (∀ x, (s.cpl n).lpExit = some x → x + 100000 < s.time.bnd → Ends (.lpExitTimeout n) s (Retrains n s))
      ∧ Ends (.cplRetrain n) s (Retrains n s)
      ∧ ∀ (lane : Fin 4) (counts : List Nat), (s.cpl n).qual.testBit lane = true → counts.length = 8 →
        (∀ x ∈ counts, s.reg .CPL_LANE_SER_LIMIT n < x) → Ends (.laneSerLimit n lane counts) s (Retrains n s))
    ∧ (s.banksRun = true → s.link n = 6 → (s.cpl n).gone = false → Ends (.cplRestart n) s fun t => LinkLeft n 0 s t ∧ (t.cpl n).failRun = 0)
    ∧ (s.banksRun = true → s.regS .CPL_LANE_RETIRE_SEL n ∉ (s.cpl n).retireDue → Ends (.cplLaneRetireGo n) s
      (only n (fun c => { c with retireDue := c.retireDue ++ [s.regS .CPL_LANE_RETIRE_SEL n] }) s)))
  -- equaliser updates
  ∧ (∀ (s : State) (n : Fin 64) (b d : List Byte),
    (∀ (lane : Fin 4) (codes : List (Fin 4)), s.banksRun = true → s.linkUp n = true → s.reg .CPL_TXEQ_EN n = 1 → (s.cpl n).qual.testBit lane = true →
      NMap.find? (s.cpl n).eqOut lane = none →
      let tick := s.time.now + s.reg .CPL_EQ_LEAD n
      let seq := (s.cpl n).eqSeq
      ∀ forced, let y := if forced then s.count .BANK_BG_FORCED_CNT (n.val / 8) else s
      Goes (.eqUpdSend n lane codes forced) s
        ((y.onCpl n fun c => { c with eqSeq := (c.eqSeq + 1) % 256, eqOut := NMap.insert c.eqOut lane ⟨seq, tick, 0⟩ }).sendCtl n 0x88
          [(4, leBytes 1 lane), (5, (codes.take 4).map fun x => BitVec.ofNat 8 x), (12, leBytes 8 tick), (20, leBytes 1 seq)]))
    ∧ (Takes s n 0x88 b d → s.linkUp n = true → s.reg .CPL_TXEQ_EN n = 1 →
      let lane := field b 4 1 % 4
      let new := requestTaps (tapsOf (s.reg .CPL_TXEQ n lane)) ((List.range 4).map fun i => field b (5 + i) 1 % 4)
      let x := taken s n
      (new = none → Goes (.eqUpd n) s (x.sendCtl n 0x8A [(4, leBytes 1 lane), (5, leBytes 1 1), (20, leBytes 1 (field b 20 1))]))
      ∧ ∀ taps, new = some taps →
        (field b 12 8 ≤ s.time.now → Goes (.eqUpd n) s (x.sendCtl n 0x8A [(4, leBytes 1 lane), (5, leBytes 1 2), (20, leBytes 1 (field b 20 1))]))
        ∧ (s.time.now < field b 12 8 → Goes (.eqUpd n) s
            ((x.onCpl n fun c => { c with eqIn := NMap.insert c.eqIn lane ⟨field b 20 1, field b 12 8, tapsReg taps⟩ }).sendCtl n 0x89
              [(4, leBytes 1 lane), (12, leBytes 8 (field b 12 8)), (20, leBytes 1 (field b 20 1))])))
    ∧ (∀ u, NMap.find? (s.cpl n).eqOut (field b 4 1 % 4) = some u → u.seq = field b 20 1 →
      (Takes s n 0x89 b d → Ends (.eqAck n) s fun t => NMap.find? (t.cpl n).freeze (field b 4 1 % 4) = some (field b 12 8)
        ∧ (t.cpl n).ctl = [] ∧ OnlyCpl n s t ∧ Same [.cpls] s t)
      ∧ (Takes s n 0x8A b d → Ends (.eqNak n) s fun t => NMap.find? (t.cpl n).eqOut (field b 4 1 % 4) = none
        ∧ t.reg .CPL_EQ_NAK_CNT n = satAdd32 (s.reg .CPL_EQ_NAK_CNT n) 1 ∧ OnlyCpl n s t ∧ Same [.cpls, .regs] s t))
    ∧ ∀ (lane : Fin 4) (u : EqUpd), NMap.find? (s.cpl n).eqIn lane = some u → s.linkUp n = true → u.tick ≤ s.time.now →
      Applies (.eqApply n lane) s 9 (deckIndex .CPL n * 2 ^ 20 + (0x60 + 4 * lane.val)) (.eqApply n lane) (applyEq n lane)
      ∧ ((applyEq n lane s).reg .CPL_TXEQ n lane = u.taps ∧ (applyEq n lane s).reg .CPL_EQ_UPD_CNT n = satAdd32 (s.reg .CPL_EQ_UPD_CNT n) 1
        ∧ NMap.find? ((applyEq n lane s).cpl n).eqIn lane = none ∧ Same [.cpls, .regs] s (applyEq n lane s)))
  -- banks
  ∧ ∀ (s : State) (k : Fin 8), s.banksRun = true →
    (Ends (.bankPllLock k) s fun t => t.reg .BANK_PLL_LOCK k = 1 ∧ OnlyRegsAt [(.BANK_PLL_LOCK, k, 0)] s t)
    ∧ Ends (.bankPllUnlock k) s fun t => t.reg .BANK_PLL_LOCK k = 0 ∧ (∀ i < 8, t.isSet .CPL_LOCK (8 * k + i) = false)
      ∧ (∀ j, j / 8 ≠ k.val → t.cpl j = s.cpl j ∧ t.link j = s.link j) ∧ Same (.deck :: linkParts) s t

/-! ### Routes, time and ticks -/

/-- Routing (R508–R513) and generations (R516–R522). -/
def Obligations.PacketsAreRouted : Prop :=
  -- the choice
  (∀ (s : State) (h : Hdr) (e : Nat), s.routeEnt h.gen h.dst = some e →
    (∀ n < 64, e.testBit 65 = false → e.testBit n = true → s.cplUsable n = true → (∀ j < n, e.testBit j = true → s.cplUsable j = false) →
      s.routeOf h = .out n)
    ∧ ((∀ n < 64, e.testBit n = true → s.cplUsable n = false) → s.routeOf h = .wait)
    ∧ ∀ n, s.routeOf h = .out n → n < 64 ∧ e.testBit n = true ∧ s.cplUsable n = true)
  ∧ (∀ (s : State) (h : Hdr), s.routeEnt h.gen h.dst = none → s.routeOf h = .none)
  ∧ (∀ (s : State) (n : Nat) (f : Flit) (t : List Flit), let h := hdrOf f.body
    (h.comp % 4 = 0 ∨ (s.reg .CPL_CAPS n).testBit 3 = true) →
    s.outVia n (f :: t) = s.queuePkt n ⟨subOf h.vc (h.esc || s.isSet .CPL_DATELINE n), h.vc == 0,
      ⟨true, { h with hops := h.hops - 1, esc := h.esc || s.isSet .CPL_DATELINE n, mc := h.mc && (s.reg .CPL_CAPS n).testBit 2 }.bytes ++ f.body.drop 28⟩ :: t⟩)
  -- a message of this tile
  ∧ (∀ (s : State) (d : Nat) (m : Msg) (rest : List (Nat × Msg)) (h : Hdr) (data : List Byte), s.stopped 2 = false → s.xmit = (d, m) :: rest →
    s.rte.flight = [] → s.rte.split = [] → s.rte.stale = none → s.packetsOf d m = [(h, data)] →
    let x : State := { s with xmit := rest, rte := { s.rte with flight := if isRequest m.kind then [(m.agent.unit, m.tag, m.line)] else [] } }
    let fs := packetFlits h data
    let hh := hdrOf ((fs.headD ⟨true, []⟩).body)
    (∀ n, s.routeOf hh = .out n → Goes (.packetForward none) s (x.outVia n fs))
    ∧ (s.routeOf hh = .wait → s.rte.wait.length < 256 → Goes (.packetForward none) s
        { x with rte := { x.rte with wait := s.rte.wait ++ [(fs, some m, s.time.bnd)] } })
    ∧ (s.routeOf hh = .none → m.kind = .ncRd → Ends (.packetForward none) s fun t => t.reg .RTE_NOROUTE_CNT = satAdd32 (s.reg .RTE_NOROUTE_CNT) 1
        ∧ SameRegs [.RTE_NOROUTE_CNT] s t ∧ t.xmit = rest ++ (match m.agent.tile with
          | none => []
          | some a => [(a, { answerOf m (.data .copy) with status := .noRoute })])
        ∧ t.mesh = s.mesh ++ (if m.agent.tile = none then [{ answerOf m (.data .copy) with status := .noRoute }] else [])
        ∧ Same [.regs, .xmit, .mesh, .rte] s t))
  -- a packet that passes
  ∧ (∀ (s : State) (n : Fin 64) (f : Flit) (t : List Flit) (rest : List (List Flit)), s.stopped 2 = false → (s.cpl n).transit = (f :: t) :: rest →
    s.rte.stale = none →
    let h := hdrOf f.body
    let x := (s.setCpl n { s.cpl n with transit := rest }).giveCredit n h (t.length + 1)
    (h.hops = 0 → Goes (.packetForward (some n)) s (x.count .RTE_HOP_DROP_CNT))
    ∧ ∀ m, h.hops ≠ 0 → s.routeOf h = .out m → Goes (.packetForward (some n)) s (x.outVia m (f :: t)))
  ∧ (∀ (s : State) (f : Flit) (t : List Flit) (m : Option Msg) (a : Nat), s.stopped 2 = false → s.rte.stale = none → s.rte.wait = [(f :: t, m, a)] →
    let x : State := { s with rte := { s.rte with wait := [] } }
    (∀ n, s.routeOf (hdrOf f.body) = .out n → Goes .routeWaitRelease s (x.outVia n (f :: t)))
    ∧ (a + 100000 ≤ s.time.bnd → m = none → Goes .routeWaitTimeout s (x.count .RTE_NOROUTE_CNT)))
  -- generations
  ∧ (∀ s : State, s.stopped 2 = false →
    let gen := 1 - s.reg .RTE_ACTIVE
    let ok := (s.reg .RTE_LOADED).testBit gen && !s.isSet .RTE_DRAINING
    (ok = true → Ends .rteSwGo s fun t => t.reg .RTE_SW_SEQ = (s.reg .RTE_SW_SEQ + 1) % 2 ^ 32 ∧ t.reg .RTE_ARMED = 1
      ∧ t.reg64 .RTE_SW_TICK_LO .RTE_SW_TICK_HI = (s.time.now + s.reg .RTE_SW_LEAD) % 2 ^ 64 ∧ t.rte = { s.rte with swGen := gen, swAt := s.time.bnd, stale := none }
      ∧ Same [.regs, .rte, .cpls, .mgc] s t ∧ SameRegs [.RTE_SW_SEQ, .RTE_ARMED, .RTE_SW_TICK_LO, .RTE_SW_TICK_HI] s t)
    ∧ (ok = false → Ends .rteSwGo s fun t => OnlyRegs [Block.RTE.cfgErr] s t ∧ t.reg Block.RTE.cfgErr = satAdd32 (s.reg Block.RTE.cfgErr) 1)
    ∧ (s.isSet .RTE_DRAINING = true → s.rte.drainEnd ≤ s.time.bnd → Ends .routeDrainEnd s fun t => t.reg .RTE_DRAINING = 0
      ∧ SameRegs [.RTE_DRAINING] s t ∧ t.rte = { s.rte with stale := some gen } ∧ Same [.regs, .rte] s t)
    ∧ (s.isSet .RTE_FILL_BUSY = true → Ends .rteFillDone s fun t => t.reg .RTE_FILL_BUSY = 0 ∧ SameRegs [.RTE_FILL_BUSY] s t ∧ Same [.regs, .rte] s t
      ∧ ∀ k, NMap.get 0 t.rte.ent k = if s.rte.fill.testBit (k / 65536) then 0 else NMap.get 0 s.rte.ent k)
    ∧ (s.isSet .RTE_FILL_BUSY = false → ∀ g : Fin 2,
      (s.genLive g = false → Ends (.rteFill (BitVec.ofNat 2 (2 ^ g.val))) s fun t => t.reg .RTE_FILL_BUSY = 1 ∧ t.rte = { s.rte with fill := 2 ^ g.val }
        ∧ SameRegs [.RTE_FILL_BUSY] s t ∧ Same [.regs, .rte] s t)
      ∧ (s.genLive g = true → ∀ (id : Fin 65536) (w : Fin 4) (v : Word),
        (Ends (.rteFill (BitVec.ofNat 2 (2 ^ g.val))) s fun t => OnlyRegs [Block.RTE.cfgErr] s t ∧ t.reg Block.RTE.cfgErr = satAdd32 (s.reg Block.RTE.cfgErr) 1)
        ∧ Ends (.rteEnt g id w v) s fun t => OnlyRegs [Block.RTE.cfgErr] s t ∧ t.reg Block.RTE.cfgErr = satAdd32 (s.reg Block.RTE.cfgErr) 1)
      ∧ (s.genLive g = false → ∀ (id : Fin 65536) (w : Fin 4) (v : Word), id.val < 0xFFFE → Ends (.rteEnt g id w v) s fun t => Same [.rte] s t
        ∧ t.rte = { s.rte with ent := t.rte.ent }
        ∧ (∀ k, k ≠ g.val * 65536 + id.val → NMap.get 0 t.rte.ent k = NMap.get 0 s.rte.ent k)
        ∧ NMap.get 0 t.rte.ent (g.val * 65536 + id.val) =
            putBits (NMap.get 0 s.rte.ent (g.val * 65536 + id.val)) (32 * w.val + 31) (32 * w.val) v.toNat))
    ∧ ∀ v : BitVec 2, Ends (.rteLoaded v) s fun t => ∃ new, NMap.find? t.shadow (regKey .RTE_LOADED 0 0) = some new
        ∧ (∀ g < 2, new.testBit g = if s.genLive g then (s.reg .RTE_LOADED).testBit g else v.toNat.testBit g)
        ∧ t.reg Block.RTE.cfgErr = (if new = v.toNat then s.reg Block.RTE.cfgErr else satAdd32 (s.reg Block.RTE.cfgErr) 1)
        ∧ Same [.regs, .shadow] s t ∧ SameRegs [Block.RTE.cfgErr] s t)
  ∧ (∀ (s : State) (n : Fin 64) (b d : List Byte), Takes s n 0x8D b d →
    let gen := field b 4 1 % 2
    let age := (field b 16 4 + 2 ^ 32 - s.reg .RTE_SW_SEQ) % 2 ^ 32
    (age = 0 ∨ 2 ^ 31 ≤ age → Goes (.routeSw n) s (taken s n))
    ∧ (age ≠ 0 → age < 2 ^ 31 →
      (gen ≠ s.reg .RTE_ACTIVE → (s.reg .RTE_LOADED).testBit gen = true → Ends (.routeSw n) s fun t => t.reg .RTE_ARMED = 1
        ∧ t.reg .RTE_SW_SEQ = field b 16 4 ∧ t.rte = { s.rte with swGen := gen, swAt := s.time.bnd, stale := none }
        ∧ t.reg .RTE_SW_LATE_CNT = (if field b 8 8 ≤ s.time.now then satAdd32 (s.reg .RTE_SW_LATE_CNT) 1 else s.reg .RTE_SW_LATE_CNT)
        ∧ Same [.regs, .rte, .cpls, .mgc] s t)
      ∧ (gen = s.reg .RTE_ACTIVE ∨ (s.reg .RTE_LOADED).testBit gen = false → Ends (.routeSw n) s fun t =>
        t.reg .RTE_SW_REFUSED_CNT = satAdd32 (s.reg .RTE_SW_REFUSED_CNT) 1 ∧ t.rte = s.rte ∧ Same (.cpls :: postParts) s t)))
  ∧ (∀ s : State, s.isSet .RTE_ARMED = true → s.rte.swAt < s.time.bnd → s.reg64 .RTE_SW_TICK_LO .RTE_SW_TICK_HI ≤ s.time.now →
    Applies .routeSwitch s 9 (deckIndex .RTE 0 * 2 ^ 20) .routeSwitch applyRouteSwitch)
  ∧ ∀ s : State, let t := applyRouteSwitch s
    t.reg .RTE_ACTIVE = s.rte.swGen ∧ t.reg .RTE_DRAINING = 1 ∧ t.reg .RTE_ARMED = 0 ∧ SameRegs [.RTE_ACTIVE, .RTE_DRAINING, .RTE_ARMED] s t
    ∧ Same [.regs, .rte] s t ∧ t.rte = { s.rte with drainEnd := s.time.bnd + 100 * s.reg .RTE_DRAIN_US }

/-- Ticks, alignment and replay (R99–R124, R458). -/
def Obligations.TimeAndTicks : Prop :=
  -- the boundary
  (∀ (s : State) (mf : BitVec 16), s.inReset = false → s.reg .BRK_BRAKED = 0 → s.time.ready = [] → s.time.due = [] →
    Ends (.tickBoundary mf []) s fun t => t.time = s.time.next ∧ t.time.now = (if s.time.restart then 0 else s.time.now + 1)
      ∧ t.time.bnd = s.time.bnd + 1 ∧ t.time.cur = {} ∧ (s.padsTaken = false → t.pin = { s.pin with cap := mf.toNat })
      ∧ (s.padsTaken = true → t.pin = s.pin) ∧ t.cp = { s.cp with watch := t.cp.watch }
      ∧ t.pwr = { s.pwr with part := t.pwr.part, idle := t.pwr.idle } ∧ Same [.time, .pin, .cp, .regs, .pwr] s t
      ∧ SameRegs [.PWR_RES_T_LO, .PWR_RES_T_HI] s t)
  ∧ (∀ (s : State) (mf : BitVec 16), s.inReset = false → s.reg .BRK_BRAKED = 0 → s.time.ready = [] →
    s.time.due = [⟨9, deckIndex .RTE 0 * 2 ^ 20, .routeSwitch⟩] →
    Ends (.tickBoundary mf []) s fun t => t.reg .RTE_ACTIVE = s.rte.swGen ∧ t.reg .RTE_DRAINING = 1 ∧ t.time.due = []
      ∧ t.time.bnd = s.time.bnd + 1 ∧ t.time.cur.cls = 9 ∧ t.mem = s.mem ∧ t.cores = s.cores)
  ∧ (∀ l : List TickEvt, (inTrumpOrder l).Pairwise (fun a b => a.cls < b.cls ∨ (a.cls = b.cls ∧ a.src ≤ b.src)) ∧ (inTrumpOrder l).Perm l)
  -- the parent
  ∧ (∀ (s : State) (p : Nat × Offer), s.bestParent = some p → p ∈ s.time.offers ∧ s.isSet .TIK_ALIGN_EN = true
    ∧ (s.isSet .TIK_ROOT = false → ∀ x ∈ s.time.offers, p.2.depth < x.2.depth ∨ (p.2.depth = x.2.depth ∧
        (p.2.root < x.2.root ∨ (p.2.root = x.2.root ∧ p.1 ≤ x.1)))))
  ∧ (∀ (s : State) (n : Fin 64) (b d : List Byte), s.linkUp n = true →
    (Takes s n 0x85 b d → s.time.offers = [] → s.reg .TIK_ALIGN_EN = 1 → s.reg .TIK_ROOT = 0 → Ends (.timeAnn n) s fun t =>
      t.time.parent = some n.val ∧ t.time.hadParent = true ∧ t.time.offers = [(n.val, ⟨field b 4 2, field b 6 1⟩)]
      ∧ t.reg .TIK_JOINED = 1 ∧ t.reg .TIK_PARENT = n ∧ t.reg .TIK_DEPTH = (field b 6 1 + 1) % 256 ∧ t.reg .TIK_ROOT_ID = field b 4 2
      ∧ t.reg .TIK_IS_ROOT = 0 ∧ t.reg .TIK_HOLDOVER = 0 ∧ t.reg .TIK_ROOT_VALID = 1 ∧ Same [.cpls, .time, .regs] s t)
    ∧ (s.banksRun = true → s.hasRoot = true → (s.cpl n).annAt = none → Goes (.timeAnnSend n) s
      ((s.sendCtl n 0x85 [(4, leBytes 2 (s.reg .TIK_ROOT_ID)), (6, leBytes 1 (s.reg .TIK_DEPTH))]).onCpl n fun c => { c with annAt := some s.time.bnd }))
    -- measurement
    ∧ (∀ frac : Fin 256, s.banksRun = true → s.time.parent = some n.val → s.time.measured = none → Ends (.timeMeasure frac) s fun t =>
      t.time = { s.time with t1 := some (256 * s.time.now + frac), measured := some s.time.bnd }
      ∧ { t with time := s.time } = s.sendTimeReq n (256 * s.time.now + frac) ∧ (t.cpl n).t1 = some (256 * s.time.now + frac)
      ∧ (t.cpl n).seq = ((s.cpl n).seq + 1) % 65536))
  ∧ (∀ (s : State) (n : Fin 64) (b d : List Byte),
    (∀ t2 t3 : Fin 256, Takes s n 0x86 b d → t2 ≤ t3 → Goes (.timeReq n t2 t3) s ((taken s n).sendCtl n 0x87
      [(4, (b.drop 4).take 2), (8, (b.drop 8).take 9), (17, leBytes 1 (t2.val % 256) ++ leBytes 8 s.time.now), (26, leBytes 1 (t3.val % 256) ++ leBytes 8 s.time.now)]))
    ∧ (∀ frac : Fin 256, s.banksRun = true → s.link n = 3 → (s.cpl n).started < 16 → (s.cpl n).since + 100 * (s.cpl n).started ≤ s.time.bnd →
      Goes (.couplerTimeExchange n frac) s ((s.sendTimeReq n (256 * s.time.now + frac)).onCpl n fun c => { c with started := c.started + 1 }))
    ∧ ∀ t4 : Fin 256, Takes s n 0x87 b d → (s.cpl n).t1 ≠ none → field b 4 2 = (s.cpl n).seq →
      let now := 256 * s.time.now + t4.val
      let delay : Int := (((now : Int) - ts72Of b 8) - ((ts72Of b 26 : Int) - ts72Of b 17)) / 2
      let least := min ((s.cpl n).least.getD delay.toNat) delay.toNat
      let off : Int := (ts72Of b 17 : Int) + delay - now
      (s.link n = 3 → Ends (.timeRsp n t4) s fun t => (t.cpl n).ended = (s.cpl n).ended + 1 ∧ (t.cpl n).least = some least ∧ (t.cpl n).t1 = none
        ∧ (15 ≤ (s.cpl n).ended → t.reg .CPL_PATH_DELAY n = least % 2 ^ 32 ∧ t.reg .CPL_LONG n = bit (decide (2048 < 10 * least)))
        ∧ ((s.cpl n).ended < 15 → Same [.cpls] s t) ∧ Same [.cpls, .regs] s t ∧ OnlyCpl n s t)
      ∧ (s.linkUp n = true → s.time.parent = some n.val → s.time.t1 ≠ none → Ends (.timeRsp n t4) s fun t =>
        t.reg .TIK_OFFSET = (BitVec.ofInt 32 off).toNat ∧ Same [.cpls, .regs, .time] s t ∧ SameRegs [.TIK_OFFSET] s t
        ∧ (off.natAbs < 256 → t.time = { s.time with t1 := none, slew := off, step := none })
        ∧ (256 ≤ off.natAbs → t.time = { s.time with t1 := none, step := some (off.tdiv 256, s.time.bnd), slew := off.tmod 256 })))
  ∧ (∀ (s : State) (d : Int) (at' : Nat), s.time.step = some (d, at') → s.ticking = true → at' < s.time.bnd →
    Ends .timeStep s fun t => t.time = { s.time with now := ((s.time.now : Int) + d).toNat, step := none }
      ∧ t.reg .TIK_STEP_CNT = satAdd32 (s.reg .TIK_STEP_CNT) 1
      ∧ (∀ core slot h, s.hand core slot = some h →
          t.hand core slot = some (if h.sleepEnd = 0 then h else { h with sleepEnd := ((h.sleepEnd : Int) + d).toNat }))
      ∧ (∀ core slot, s.hand core slot = none → t.hand core slot = none) ∧ Same (.time :: .cores :: .cp :: postParts) s t)
  -- replay
  ∧ (∀ s : State, NMap.find? s.shadow (regKey .TIK_REPLAY 0 0) = some 1 → s.isSet .TIK_REPLAY = false →
    Applies .replayStart s 9 (deckIndex .TIK 0 * 2 ^ 20 + 8) .replayStart applyReplayStart)
  ∧ (∀ s : State, let t := applyReplayStart s
    t.reg .TIK_REPLAY = 1 ∧ t.reg .TIK_RPL_END = s.reg .TIK_JNL_PTR ∧ Same [.regs, .shadow, .time] s t
    ∧ (s.reg .TIK_JNL_WRAPS = 0 → t.reg .TIK_RPL_PTR = 0 ∧ t.time.replayLeft = s.reg .TIK_JNL_PTR)
    ∧ (s.reg .TIK_JNL_WRAPS ≠ 0 → t.reg .TIK_RPL_PTR = s.reg .TIK_JNL_PTR ∧ t.time.replayLeft = 2 ^ s.reg .TIK_JNL_LOG2))
  ∧ (∀ (s : State) (rec : Option (List Byte)), s.isSet .TIK_REPLAY = true → s.time.replayLeft ≠ 0 → s.ticking = true →
    let p := s.reg .TIK_RPL_PTR
    let a := s.time.replayBase + 16 * p
    s.seesRecord (0xFFFF * 2 ^ 48 + a % 2 ^ 48) 16 rec = true →
    let next : State := { s.setReg .TIK_RPL_PTR ((p + 1) % s.time.replaySize) with time := { s.time with replayLeft := s.time.replayLeft - 1 } }
    (rec = none → Goes (.replayApply rec) s next)
    ∧ ∀ b, rec = some b →
      ((field b 9 1).testBit 0 = false → Goes (.replayApply rec) s next)
      ∧ ((field b 9 1).testBit 0 = true → field b 8 1 = 8 → field b 10 2 = 0 →
        (s.time.now < field b 0 8 → Goes (.replayApply rec) s s)
        ∧ (field b 0 8 ≤ s.time.now → s.time.replayLast < s.time.bnd → s.cpReached = true →
          let x := ({ next with time := { next.time with replayLast := s.time.bnd } } : State).localWrite (a + 9) [BitVec.ofNat 8 (field b 9 1 ||| 4)]
          let e := x.reg .CTX_EPOCH
          Goes (.replayApply rec) s (x.tickEvent 8 0 (.doorbell (field b 12 4) e) (applyDoorbell (field b 12 4) e)))))
  ∧ (∀ s : State, s.isSet .TIK_REPLAY = true → s.time.replayLeft = 0 → s.time.replayLast < s.time.bnd →
    Applies .replayEnd s 9 (deckIndex .TIK 0 * 2 ^ 20 + 8) .replayEnd applyReplayEnd)
  ∧ ∀ s : State, (applyReplayEnd s).reg .TIK_REPLAY = 0 ∧ OnlyRegs [.TIK_REPLAY] s (applyReplayEnd s)

/-! ### The host and the command processor -/

/-- The host interface (R525–R567) and the ring of descriptors (R537–R544, R603, R604). -/
def Obligations.HostAndRings : Prop :=
  -- BAR2
  (∀ (s : State) (x n : Nat) (bs : List Byte) (ep : Bool) (op : AmoOp) (w : Bool) (c new : Nat),
    s.hostEn = true → s.host.inReset = false →
    let a := s.barAddr x
    let width := if w then 8 else 4
    let h := s.homeOf (lineOf a)
    let msg (kind : MsgKind) (carry : GState) (size : Nat) (o : PartOp) : Msg :=
      { kind := kind, agent := barAgent, home := h, line := lineOf a, tag := s.freeBar * 128, carry := carry,
        part := some { thread := 0, addr := a, size := size, op := o } }
    let sent (write : Bool) (m : Msg) (t : State) : Prop :=
      t.host = { s.host with bar := NMap.insert s.host.bar s.freeBar { write := write, total := 1 } } ∧ Same [.host, .mesh, .xmit] s t
      ∧ t.mesh = s.mesh ++ (if h.tile = none then [m] else []) ∧ t.xmit = s.xmit ++ (h.tile.toList.map fun d => (d, m))
    let failed (out : List HostMsg) (t : State) : Prop :=
      t.reg .HIF_BAR2_ERR_CNT = satAdd32 (s.reg .HIF_BAR2_ERR_CNT) 1 ∧ SameRegs [.HIF_BAR2_ERR_CNT] s t ∧ Same [.host, .regs] s t
      ∧ t.host = { s.host with out := s.host.out ++ out }
    (s.isSet .BRK_BRAKED = true → n ≤ 4096 →
      Goes (.bar2Read x n) s { s with host := { s.host with out := s.host.out ++ [.completion (List.replicate n 0xFF) false] } }
      ∧ Goes (.bar2Write x bs ep) s s)
    ∧ (s.isSet .BRK_BRAKED = false → 0 < n → x % 64 + n ≤ 64 → bs.length = n →
      (s.populated a = true → Ends (.bar2Read x n) s (sent false (msg .ncRd .good n .load))
        ∧ Ends (.bar2Write x bs ep) s (sent true (msg .ncWr (if ep then .poison else .good) n (.store bs))))
      ∧ (s.populated a = false → Ends (.bar2Read x n) s (failed [.completion (List.replicate n 0) true])
        ∧ Ends (.bar2Write x bs ep) s (failed [])))
    ∧ (s.isSet .BRK_BRAKED = false → op ∈ ([.add, .xchg, .cas] : List AmoOp) → x % width = 0 → s.populated a = true →
      Ends (.bar2Atomic x op w c new) s (sent false (msg .ncAtom .good width (.amo op (if w then 3 else 0) c new)))))
  -- what the host answers, and what it leaves unanswered
  ∧ (∀ (s : State) (tag : Nat) (since : Nat) (bs : List Byte), s.stopped 1 = false → s.stopped 2 = false → s.host.inReset = false →
    let host := { s.host with reqs := NMap.erase s.host.reqs tag }
    (NMap.find? s.host.reqs tag = some { use := .cp .ack, since := since } →
      Goes (.hostCompletion tag (some bs) false) s { s with host := host, cp := { s.cp with got := s.cp.got ++ [(.ack, some (leNat bs))] } }
      ∧ (s.time.bnd < since + ticksOfUs (s.reg .HIF_CPL_TO_US) → Goes (.hostCplTimeout tag) s s)
      ∧ (since + ticksOfUs (s.reg .HIF_CPL_TO_US) ≤ s.time.bnd → s.hostEn = true → Ends (.hostCplTimeout tag) s fun t =>
        t.reg .HIF_CPL_TO_CNT = satAdd32 (s.reg .HIF_CPL_TO_CNT) 1 ∧ t.reg .CTX_DB_ERR_CNT = satAdd32 (s.reg .CTX_DB_ERR_CNT) 1
        ∧ t.cp = s.cp ∧ NMap.find? t.host.reqs tag = none ∧ OnlyPosts [.HIF_CPL_TO_CNT, .CTX_DB_ERR_CNT] s t))
    ∧ (NMap.find? s.host.reqs tag = some { use := .cp .doorbell, since := since } →
      Goes (.hostCompletion tag (some bs) false) s { s with host := host, cp := { s.cp with got := s.cp.got ++ [(.doorbell, some (leNat bs))], nextPoll := s.time.bnd + ticksOfNs s.effPollNs } })
    ∧ (NMap.find? s.host.reqs tag = none → Goes (.hostCompletion tag (some bs) false) s s
      ∧ Ends (.hostCompletion tag (some bs) true) s fun t => t.reg .HIF_EP_RX_CNT = satAdd32 (s.reg .HIF_EP_RX_CNT) 1 ∧ OnlyRegs [.HIF_EP_RX_CNT] s t)
    ∧ ∀ p, NMap.find? s.posted tag = some p → p.use = .write none →
      let d := p.since + ticksOfUs (s.reg .CPR_REQ_TIMEOUT_US)
      (s.time.bnd < d → Goes (.cpReqTimeout tag) s s)
      ∧ (d ≤ s.time.bnd → p.quar = true → Goes (.cpReqTimeout tag) s { s with posted := NMap.erase s.posted tag })
      ∧ (d ≤ s.time.bnd → p.quar = false → Goes (.cpReqTimeout tag) s
        { s with posted := NMap.insert (NMap.erase s.posted tag) tag { p with quar := true, since := s.time.bnd } }))
  ∧ (∀ (s : State) (gts width : Nat), s.hostEn = true → s.host.inReset = false →
    (gts ∈ [2, 5, 8, 16, 32, 64] → width ∈ [1, 2, 4, 8, 16] →
      Goes (.hostLinkChange gts width) s { s with host := { s.host with linkGts := gts, linkWidth := width } })
    ∧ (gts ∉ [2, 5, 8, 16, 32, 64] ∨ width ∉ [1, 2, 4, 8, 16] → Goes (.hostLinkChange gts width) s s))
  -- the context
  ∧ (∀ s : State, s.isSet .BRK_BRAKED = false →
    Ends .ctxCreate s (Queues ⟨9, deckIndex .CTX 0 * 2 ^ 20 + 4, .ctxCreate⟩ s) ∧ Ends .fenInitGo s (Queues ⟨9, deckIndex .FEN 0 * 2 ^ 20 + 0x20, .fenceInit⟩ s)
    ∧ (s.reg .CTX_STATE = 0 → Goes .ctxReset s s) ∧ (s.reg .CTX_STATE ≠ 0 → Applies .ctxReset s 1 2 (.reset .context 0) (applyReset .context 0))
    ∧ (s.hostEn = true → s.host.inReset = false → Applies .functionLevelReset s 1 2 (.reset .context 0) (applyReset .context 0)
      ∧ Applies .d3hotEntry s 1 2 (.reset .context 0) (applyReset .context 0)))
  ∧ (let awake (s t : State) : Prop := t.reg .PWR_WAKE_TOL_NS = 4000 ∧ t.mem = { s.mem with selfRefresh := t.mem.selfRefresh }
      ∧ t.pwr = { s.pwr with t4 := t.pwr.t4 } ∧ ∀ n < 8, NMap.get false t.mem.selfRefresh n = false ∧ n ∉ t.pwr.t4
    (∀ s : State, let t := s.ctxCreate
    let fb := s.reg64 .CTX_FENCE_BASE_LO .CTX_FENCE_BASE_HI % 2 ^ 48
    let code := if s.reg .CTX_STATE = 2 then 5 else if s.reg .CTX_STATE ≠ 0 then 4
      else if s.host.lastEpoch = some (s.reg .CTX_EPOCH) then 6
      else if s.reg .CTX_RING_LOG2 < 8 ∨ 16 < s.reg .CTX_RING_LOG2 then 1
      else if s.reg .CTX_EVT_LOG2 < 8 ∨ 16 < s.reg .CTX_EVT_LOG2 then 2
      else if fb % 65536 ≠ 0 ∨ 8 * stackBytes < fb + 65536 ∨ fb / stackBytes ≠ (fb + 65535) / stackBytes then 3 else 0
    t.reg .CTX_RESULT = code ∧ (code ≠ 0 → OnlyRegs [.CTX_RESULT] s t)
    ∧ (code = 0 → s.isSet .CTX_FENCE_KEEP = true → t.reg .CTX_STATE = 1 ∧ (∀ f ∈ [Field.CTX_RING_HEAD, .CTX_RING_TAIL, .CTX_EVT_TAIL, .CTX_EVT_ACK], t.reg f = 0)
      ∧ t.host = { s.host with lastEpoch := some (s.reg .CTX_EPOCH), dropped := 0, posted := false, lastMsi := none }
      ∧ t.cp.nextPoll = s.time.bnd + 1 ∧ t.cp.headWritten = none ∧ Same [.regs, .host, .cp, .mem, .pwr, .cpls] s t
      ∧ awake s t ∧ SameRegs [.PWR_WAKE_TOL_NS, .CTX_RESULT, .CTX_STATE, .CTX_RING_HEAD, .CTX_RING_TAIL, .CTX_EVT_TAIL, .CTX_EVT_ACK, .CPR_NEXT_TASK_LO, .CPR_NEXT_TASK_HI] s t))
  ∧ (∀ (s : State) (cause : Nat), s.isSet .BRK_BRAKED = false → let t := applyReset .context cause s
    t.reg .CTX_STATE = 2 ∧ t.reg .TIK_REPLAY = 0 ∧ (∀ n < 256, t.reg .TILE_WIN_VALID 0 n = 0) ∧ (∀ n < 64, t.reg .FEN_MIR_EN 0 n = 0)
    ∧ SameRegs (.CTX_STATE :: .PWR_WAKE_TOL_NS :: contextFields) s t ∧ awake s t ∧ t.tasks = [] ∧ t.cp = { nextList := s.cp.nextList, nextAsync := s.cp.nextAsync } ∧ t.codec = {}
    ∧ (∀ core slot h, s.hand core slot = some h → t.hand core slot = some h.dropped ∧ h.dropped.removed = true)
    ∧ t.host = { s.host with posted := false, msixPending := [] }
    ∧ t.time = { s.time with replayLeft := 0, cur := { s.time.cur with cls := 1, src := 2, reset := some .context } }
    ∧ Same [.regs, .shadow, .cores, .clus, .tasks, .winEntries, .winNew, .time, .cp, .codec, .host, .mem, .pwr, .cpls] s t))
  ∧ (∀ s : State, s.reg .CTX_STATE = 2 → s.stopped 1 = false → handsWhere s (fun _ _ _ => true) = [] → (∀ p ∈ s.posted, p.2.unit ≠ 64 ∨ p.2.quar = true) →
    Ends .contextResetDone s fun t => t.reg .CTX_STATE = 0 ∧ OnlyRegs [.CTX_STATE] s t)
  -- the doorbell and acknowledgement words
  ∧ (∀ (s : State) (word epoch : Nat), s.active = true → let t := applyDoorbell word epoch s
    let ahead (x : Nat) : Nat := (x + 2 ^ 32 - s.reg .CTX_RING_HEAD) % 2 ^ 32
    (epoch ≠ s.reg .CTX_EPOCH → t.reg .CTX_DB_STALE_CNT = satAdd32 (s.reg .CTX_DB_STALE_CNT) 1 ∧ OnlyRegs [.CTX_DB_STALE_CNT] s t)
    ∧ (epoch = s.reg .CTX_EPOCH → 2 ^ s.reg .CTX_RING_LOG2 < ahead word →
      t.reg .CTX_DB_BAD_CNT = satAdd32 (s.reg .CTX_DB_BAD_CNT) 1 ∧ OnlyPosts [.CTX_DB_BAD_CNT] s t)
    ∧ (epoch = s.reg .CTX_EPOCH → ahead word ≤ 2 ^ s.reg .CTX_RING_LOG2 →
      (ahead word ≤ ahead (s.reg .CTX_RING_TAIL) → t = s)
      ∧ (ahead (s.reg .CTX_RING_TAIL) < ahead word → t.reg .CTX_RING_TAIL = word ∧ SameRegs [.CTX_RING_TAIL] s t ∧ Same [.regs, .mgc] s t)))
  ∧ (∀ (s : State) (word epoch : Nat), s.active = true → let t := applyAck word epoch s
    let past (x : Nat) : Nat := (x + 2 ^ 32 - s.reg .CTX_EVT_ACK) % 2 ^ 32
    (epoch ≠ s.reg .CTX_EPOCH → t = s)
    ∧ (epoch = s.reg .CTX_EPOCH → past word ≤ past (s.reg .CTX_EVT_TAIL) → t.reg .CTX_EVT_ACK = word ∧ OnlyRegs [.CTX_EVT_ACK] s t)
    ∧ (epoch = s.reg .CTX_EPOCH → past (s.reg .CTX_EVT_TAIL) < past word → t = s.ringError 3 word ∧ OnlyPosts [] s t))
  ∧ (∀ s : State, s.active = true → s.stopped 1 = false →
    let a := s.reg64 .CTX_DB_ADDR_LO .CTX_DB_ADDR_HI
    (∀ tag, s.cpReading .doorbell = false → s.cp.nextPoll ≤ s.time.bnd → s.reg .CTX_EVT_TAIL = s.reg .CTX_EVT_ACK → s.hostEn = true → tileOf a = 0xFFFE →
      firstWhere 768 (fun t => (NMap.find? s.host.reqs t).isNone) = some tag → Ends .doorbellPoll s fun t =>
        t.host = { s.host with reqs := NMap.insert s.host.reqs tag { use := .cp .doorbell, since := s.time.bnd }, out := s.host.out ++ [.read tag (a % 2 ^ 48) 8] }
        ∧ Same [.host, .mgc] s t)
    ∧ (s.time.bnd < s.cp.nextPoll → Goes .doorbellPoll s s)
    ∧ (∀ v, s.cp.got = [(.doorbell, some v)] → let s0 : State := { s with cp := { s.cp with got := [] } }
      (s.isSet .TIK_REPLAY = true → Goes .doorbellObserve s s0)
      ∧ (s.isSet .TIK_REPLAY = false → Occurs s 8 0 (.doorbell (v % 2 ^ 32) (v / 2 ^ 32)) →
        ∃ x, Met s0 8 0 x ∧ Goes .doorbellObserve s (applyDoorbell (v % 2 ^ 32) (v / 2 ^ 32) x)))
    ∧ (∀ v, s.cp.got = [(.ack, some v)] → Occurs s 8 1 (.ackWord (v % 2 ^ 32) (v / 2 ^ 32)) →
        ∃ x, Met { s with cp := { s.cp with got := [] } } 8 1 x ∧ Goes .ackObserve s (applyAck (v % 2 ^ 32) (v / 2 ^ 32) x))
    ∧ (∀ n : Fin 4096, s.cp.fenSeen.contains n.val = true →
        Applies (.fenceObserve n) s 8 (2 + n) (.fenceSeen n (s.fenceRead (s.fenceOffset n)).1.value) (observeFence n)))
  -- descriptors
  ∧ (∀ (s : State) (l : List Byte), s.active = true → s.stopped 1 = false → s.cp.next = none → s.reg .CTX_RING_HEAD ≠ s.reg .CTX_RING_TAIL →
    let head := s.reg .CTX_RING_HEAD
    let a := s.reg64 .CTX_RING_BASE_LO .CTX_RING_BASE_HI + 64 * (head % 2 ^ s.reg .CTX_RING_LOG2)
    let bad (cause : Nat) (t : State) : Prop := t.reg .CTX_RING_HEAD = (head + 1) % 2 ^ 32 ∧ t.cp = s.cp
      ∧ t.reg .CTX_DESC_ERR_CNT = satAdd32 (s.reg .CTX_DESC_ERR_CNT) 1 ∧ OnlyPosts [.CTX_RING_HEAD, .CTX_DESC_ERR_CNT] s t
      ∧ t = ((s.setReg .CTX_RING_HEAD ((head + 1) % 2 ^ 32)).count .CTX_DESC_ERR_CNT).ringError cause head
    ((∃ i < 8, s.sees (a + 8 * i) 8 none = true) → Ends (.descFetch none) s (bad 4))
    ∧ (l.length = 64 → (∀ i < 8, s.sees (a + 8 * i) 8 (some (leNat ((l.drop (8 * i)).take 8))) = true) →
      (descBad head l = true → Ends (.descFetch (some l)) s (bad 2))
      ∧ (descBad head l = false → Ends (.descFetch (some l)) s fun t => t.reg .CTX_RING_HEAD = (head + 1) % 2 ^ 32
        ∧ t.cp = { s.cp with next := some (descOf head l) } ∧ SameRegs [.CTX_RING_HEAD] s t ∧ Same [.regs, .cp] s t)))
  ∧ (∀ (s : State) (d : Desc), s.active = true → s.stopped 1 = false → s.cp.next = some d →
    let begun : State := { s with cp := { s.cp with next := none, armed := none, descs := s.cp.descs ++ [d], burst := 0, nextList := s.cp.nextList + 1,
                                                    cur := some { list := s.cp.nextList, frames := [{ base := d.addr, len := d.len, pc := d.addr }] },
                                                    lists := NMap.insert s.cp.lists s.cp.nextList { desc := some d.num } } }
    let waits := d.flags.testBit 0 = true ∧ ∃ x ∈ s.cp.descs, x.status = none
    (d.kind = 0 → (¬ waits → Goes .descNop s { s with cp := { s.cp with next := none, armed := none, descs := s.cp.descs ++ [{ d with status := some 0 }] } })
      ∧ (waits → Goes .descNop s s))
    ∧ (d.kind = 1 → s.cp.cur = none → s.kittyDue = false → (¬ waits → Goes .descList s begun) ∧ (waits → Goes .descList s s))
    ∧ (d.kind = 2 → s.cp.cur = none → s.kittyDue = false → Goes .descExchange s begun)
    ∧ (∀ c, d.kind = 2 → s.cp.cur = some c → s.fromKitty c.list = false →
      (s.cp.armed = none → Goes .descExchange s { s with cp := { s.cp with armed := some s.time.bnd } })
      ∧ (∀ t, s.cp.armed = some t → t < s.time.bnd → s.answered c.hold = true →
        Applies .exchangeCommit s 9 (deckIndex .CPR 0 * 2 ^ 20) .exchange applyExchange)
      ∧ (∀ r, NMap.find? s.cp.lists c.list = some r → c.list ≠ s.cp.nextList → let t := applyExchange s
        t.cp.cur = begun.cp.cur ∧ NMap.find? t.cp.lists c.list = some { r with status := 3, ended := true } ∧ t.cp.descs = s.cp.descs ++ [d]
        ∧ NMap.find? t.cp.lists s.cp.nextList = some { desc := some d.num } ∧ t.cp.next = none ∧ t.cp.armed = none
        ∧ t.reg .CPR_EXCH_CNT = satAdd32 (s.reg .CPR_EXCH_CNT) 1 ∧ SameRegs [.CPR_EXCH_CNT] s t ∧ Same [.regs, .cp] s t)))
  ∧ (∀ (s : State) (id : Nat) (r : ListRun), s.stopped 1 = false → NMap.find? s.cp.lists id = some r →
    (r.ended = false ∨ s.listBusy id = true → Goes (.listComplete id) s s)
    ∧ (r.ended = true → s.listBusy id = false →
      (∀ n, r.desc = some n → Goes (.listComplete id) s { s with cp := { s.cp with lists := NMap.erase s.cp.lists id, descs := s.cp.descs.map fun (d : Desc) => if d.num = n then { d with status := some r.status } else d } })
      ∧ (r.desc = none → let s0 : State := { s with cp := { s.cp with lists := NMap.erase s.cp.lists id } }
        (r.tail.fence = 0xFFFF → Goes (.listComplete id) s s0)
        ∧ (r.tail.fence ≠ 0xFFFF → Goes (.listComplete id) s
          (s0.sendSignal r.tail.fence (if r.tail.add then .add r.tail.value else .set r.tail.value) (decide (r.status ≠ 0 ∧ r.status ≠ 3)))))))
  ∧ (∀ (s : State) (d : Desc) (rest : List Desc) (st : Nat), s.active = true → s.stopped 1 = false → s.cp.descs = d :: rest →
    let gone (t : State) : Prop := t.cp = { s.cp with descs := rest } ∧ OnlyPosts [] { s with cp := { s.cp with descs := rest } } t
      ∧ (d.flags.testBit 2 = false → d.flags.testBit 3 = false → Same [.cp] s t)
    (d.status = none → Goes .descComplete s s)
    ∧ (d.status = some st → d.signalled = none → d.fence = 0xFFFF → Ends .descComplete s gone)
    ∧ (d.status = some st → d.signalled = none → d.fence ≠ 0xFFFF →
      let x := s.sendSignal d.fence (if d.flags.testBit 1 then .add d.value else .set d.value) (decide (st ≠ 0 ∧ st ≠ 3))
      Goes .descComplete s { x with cp := { x.cp with descs := { d with signalled := some (newPosts s x) } :: rest } })
    ∧ (∀ tags, d.status = some st → d.signalled = some tags →
      (s.answered tags = false ∨ s.mirrorOwes d.fence = true → Goes .descComplete s s)
      ∧ (s.answered tags = true → s.mirrorOwes d.fence = false → Ends .descComplete s gone)))
  -- events, messages, the head and the mirrors
  ∧ (∀ (s : State) (source : Nat) (pay : List Byte), s.reg .CTX_STATE = 1 → s.isSet .BRK_BRAKED = false → let t := s.postEvent source pay
    let e := s.reg .CTX_EVT_TAIL
    let m := 2 ^ s.reg .CTX_EVT_LOG2
    let a := s.reg64 .CTX_EVT_BASE_LO .CTX_EVT_BASE_HI + 64 * (e % m)
    let r := leBytes 4 e ++ [BitVec.ofNat 8 (if e / m % 2 = 0 then 1 else 0), 0] ++ leBytes 2 source ++ leBytes 4 s.host.dropped ++ leBytes 4 0 ++ pay
    ((e + 2 ^ 32 - s.reg .CTX_EVT_ACK) % 2 ^ 32 = m → t.reg .CTX_EVT_LOST_CNT = satAdd32 (s.reg .CTX_EVT_LOST_CNT) 1 ∧ SameRegs [.CTX_EVT_LOST_CNT] s t
      ∧ t.host = { s.host with dropped := satAdd32 s.host.dropped 1 } ∧ Same [.regs, .host] s t)
    ∧ ((e + 2 ^ 32 - s.reg .CTX_EVT_ACK) % 2 ^ 32 ≠ m → t.reg .CTX_EVT_TAIL = (e + 1) % 2 ^ 32 ∧ t.host.dropped = 0 ∧ t.host.posted = true ∧ OnlyPosts [] s t
      ∧ (s.hostEn = true → tileOf a = 0xFFFE → a % 64 = 0 → pay.length = 48 →
        t.host = { s.host with dropped := 0, posted := true, out := s.host.out ++ [.write (a % 2 ^ 48 + 8) (r.drop 8) false, .write (a % 2 ^ 48) (r.take 8) false] }
        ∧ SameRegs [.CTX_EVT_TAIL] s t ∧ Same [.regs, .host, .mgc] s t)))
  ∧ (∀ s : State, s.active = true → s.isSet .BRK_BRAKED = false → s.isSet .CTX_EVT_MSI_EN = true → s.host.posted = true → s.hostEn = true →
    let due := match s.host.lastMsi with
      | some t => t + 100 * s.reg .CTX_EVT_HOLDOFF_US
      | none => 0
    (s.time.bnd < due → Goes .evtMsi s s)
    ∧ (due ≤ s.time.bnd → Ends .evtMsi s fun t => t.host.posted = false ∧ t.host.lastMsi = some s.time.bnd ∧ Same [.host] s t
      ∧ (∀ x y, NMap.find? s.host.msixTable (s.reg .CTX_EVT_MSI_VEC) = some (x, y, false) → t.host.out = s.host.out ++ [.msi (s.reg .CTX_EVT_MSI_VEC)])
      ∧ (NMap.find? s.host.msixTable (s.reg .CTX_EVT_MSI_VEC) = none → t.host.out = s.host.out ∧ s.reg .CTX_EVT_MSI_VEC ∈ t.host.msixPending)))
  ∧ (∀ s : State, s.active = true → s.stopped 1 = false → s.isSet .CTX_HEADWB_EN = true →
    let head := s.reg .CTX_RING_HEAD
    let a := s.reg64 .CTX_HEADWB_ADDR_LO .CTX_HEADWB_ADDR_HI
    (s.cp.headWritten = some head ∨ s.time.bnd < s.cp.headAt → Goes .headWriteback s s)
    ∧ (s.cp.headWritten ≠ some head → s.cp.headAt ≤ s.time.bnd → s.hostEn = true → tileOf a = 0xFFFE → Goes .headWriteback s
      { s with host := { s.host with out := s.host.out ++ [.write (a % 2 ^ 48) (leBytes 8 (head + s.reg .CTX_EPOCH * 2 ^ 32)) false] },
               cp := { s.cp with headWritten := some head, headAt := s.time.bnd + (max 100 (min (s.reg .CTX_DB_POLL_NS) (s.reg .PWR_WAKE_TOL_NS / 2)) + 9) / 10 } }))
  ∧ (∀ (s : State) (m : Fin 64), s.active = true → s.stopped 1 = false → s.isSet .FEN_MIR_EN 0 m = true →
    let o := s.fenceOffset (s.reg .FEN_MIR_FENCE 0 m)
    let w := HostMsg.write (s.reg64 .FEN_MIR_ADDR_LO .FEN_MIR_ADDR_HI 0 m) (fenceOfBytes (((rawBytes s.mem (o / 32)).drop (o % 32)).take 16)).bytes false
    let v := s.reg .FEN_MIR_VEC 0 m
    (s.cp.mirDue.contains m.val = false ∨ NMap.find? s.cp.mirLast m = some s.time.bnd → Goes (.mirrorWrite m) s s)
    ∧ (s.cp.mirDue.contains m.val = true → NMap.find? s.cp.mirLast m ≠ some s.time.bnd → s.hostEn = true →
      Sound s (o / 32) → s.retiredAt o = false → NMap.get .good s.mem.gran (o / 32) = .good → Ends (.mirrorWrite m) s fun t => Same [.host, .cp] s t
        ∧ t.cp = { s.cp with mirDue := s.cp.mirDue.filter (· != m.val), mirLast := NMap.insert s.cp.mirLast m s.time.bnd }
        ∧ (s.isSet .FEN_MIR_MSI 0 m = false → t.host = { s.host with out := s.host.out ++ [w] })
        ∧ (∀ x y, s.isSet .FEN_MIR_MSI 0 m = true → NMap.find? s.host.msixTable v = some (x, y, false) → t.host = { s.host with out := s.host.out ++ [w, .msi v] })))

/-- The synchronous commands (R579–R586, R600–R602, R605, R606). -/
def Obligations.CommandsRun : Prop :=
  (∀ (s : State) (c : CmdCtx) (ws : List (Option Nat)),
    let x := reached s c
    let go (pc : Nat) (loops : List LoopEnt) : List Frame := { c.frame with pc := pc, loops := loops } :: c.rest
    (AtCmd s 0x01 ws c → Ends (.cpNop ws) s (Counted c (c.goto c.next) x))
    ∧ (AtCmd s 0x02 ws c → s.listBusy c.cur.list = true ∨ (c.arg.testBit 0 = true ∧ ∃ t ∈ s.tasks, t.2.origin = 1) → Goes (.cpBarrier ws) s x)
    ∧ (AtCmd s 0x02 ws c → s.listBusy c.cur.list = false → c.arg.testBit 0 = false ∨ (∀ t ∈ s.tasks, t.2.origin ≠ 1) →
      Ends (.cpBarrier ws) s (Counted c (c.goto c.next) x))
    -- IF, ELSE and ENDIF
    ∧ (∀ v t, AtCmd s 0x40 ws c → (9 < c.arg % 16 → Ends (.cpIf ws v t) s (Aborted c 2 x))
      ∧ (c.arg % 16 ≤ 9 → s.sees (c.w 1) (if c.arg.testBit 4 then 8 else 4) v = true →
        let cond := cpCondition (c.arg % 16) (c.arg.testBit 4) (c.w 2) (c.w 3) v
        let y := if v = none then x.listError c.cur.list else x
        (cond = true → Ends (.cpIf ws v t) s (Counted c (c.goto c.next) x))
        ∧ (cond = false → ∀ a w, t = some w → TargetAt s c a w →
          (cmdOp w = 0x41 → Ends (.cpIf ws v t) s (Counted c (c.goto (a + 8)) y))
          ∧ (cmdOp w = 0x42 → Ends (.cpIf ws v t) s (Counted c (c.goto a) y))
          ∧ (cmdOp w ≠ 0x41 → cmdOp w ≠ 0x42 → Ends (.cpIf ws v t) s (Aborted c 3 y)))))
    ∧ (∀ a w, AtCmd s 0x41 ws c → TargetAt s c a w →
      (cmdOp w = 0x42 → Ends (.cpElse ws (some w)) s (Counted c (c.goto a) x)) ∧ (cmdOp w ≠ 0x42 → Ends (.cpElse ws (some w)) s (Aborted c 3 x)))
    ∧ (AtCmd s 0x42 ws c → Ends (.cpEndif ws) s (Counted c (c.goto c.next) x))
    -- loops
    ∧ (∀ t, AtCmd s 0x43 ws c → c.w 1 ≠ 0 → (8 ≤ c.frame.loops.length → Ends (.cpLoop ws t) s (Aborted c 4 x))
      ∧ (c.frame.loops.length < 8 → Ends (.cpLoop ws t) s (Counted c (go c.next ({ start := c.next, count := some (c.w 1) } :: c.frame.loops)) x)))
    ∧ (∀ a w, AtCmd s 0x43 ws c → c.w 1 = 0 → TargetAt s c a w →
      (cmdOp w = 0x45 → Ends (.cpLoop ws (some w)) s (Counted c (c.goto (a + 8)) x)) ∧ (cmdOp w ≠ 0x45 → Ends (.cpLoop ws (some w)) s (Aborted c 3 x)))
    ∧ (∀ v t, AtCmd s 0x44 ws c → c.arg % 16 ≤ 9 → s.sees (c.w 1) (if c.arg.testBit 4 then 8 else 4) v = true →
      let cond := cpCondition (c.arg % 16) (c.arg.testBit 4) (c.w 2) (c.w 3) v
      let y := if v = none then x.listError c.cur.list else x
      let again := ∃ e l, c.frame.loops = e :: l ∧ e.back = true ∧ e.start = c.frame.pc
      (cond = true → ¬ again → (8 ≤ c.frame.loops.length → Ends (.cpLoopWhile ws v t) s (Aborted c 4 x))
        ∧ (c.frame.loops.length < 8 → Ends (.cpLoopWhile ws v t) s (Counted c (go c.next ({ start := c.frame.pc, count := none } :: c.frame.loops)) x)))
      ∧ (∀ e l, cond = true → c.frame.loops = e :: l → e.back = true → e.start = c.frame.pc →
        Ends (.cpLoopWhile ws v t) s (Counted c (go c.next ({ e with back := false } :: l)) x))
      ∧ (∀ a w, cond = false → t = some w → TargetAt s c a w → cmdOp w = 0x45 →
        (again → Ends (.cpLoopWhile ws v t) s (Counted c (go (a + 8) c.frame.loops.tail) y))
        ∧ (¬ again → Ends (.cpLoopWhile ws v t) s (Counted c (go (a + 8) c.frame.loops) y))))
    ∧ (AtCmd s 0x45 ws c → (c.frame.loops = [] → Ends (.cpEndloop ws) s (Aborted c 3 x))
      ∧ ∀ e l, c.frame.loops = e :: l →
        (e.count = some (e.done + 1) → Ends (.cpEndloop ws) s (Counted c (go c.next l) x))
        ∧ (e.count ≠ some (e.done + 1) → Ends (.cpEndloop ws) s (Counted c (go e.start ({ e with done := e.done + 1, back := e.count.isNone } :: l)) x)))
    -- frames
    ∧ (AtCmd s 0x46 ws c → let bad := c.w 1 = 0 ∨ c.w 1 % 8 ≠ 0 ∨ c.w 2 = 0 ∨ c.w 2 % 8 ≠ 0
      (bad → Ends (.cpCall ws) s (Aborted c 2 x)) ∧ (¬ bad → 7 ≤ c.rest.length → Ends (.cpCall ws) s (Aborted c 4 x))
      ∧ (¬ bad → c.rest.length < 7 → Ends (.cpCall ws) s (Counted c ({ base := c.w 1, len := c.w 2, pc := c.w 1 } :: { c.frame with pc := c.next } :: c.rest) x)))
    ∧ (AtCmd s 0x47 ws c → Ends (.cpReturn ws) s (Counted c c.rest x))
    -- values and signals
    ∧ (AtCmd s 0x22 ws c → Ends (.cpWriteValue ws) s (GoesOnAfter c x (x.fabricWrite cpAgent (c.w 1) (leBytes (if c.arg.testBit 0 then 8 else 4) (c.w 2)))))
    ∧ (AtCmd s 0x30 ws c → Ends (.cpSignal ws) s (GoesOnAfter c x (x.sendSignal (c.arg % 4096) (.set (c.w 1)) (c.arg.testBit 16))))
    ∧ (AtCmd s 0x31 ws c → Ends (.cpSignalAdd ws) s (GoesOnAfter c x (x.sendSignal (c.arg % 4096) (.add (c.w 1)) (c.arg.testBit 16))))
    ∧ (∀ v, AtCmd s 0x48 ws c →
      let n := 2 ^ (c.arg % 4)
      let dst := if c.arg.testBit 5 then c.w 1 else (c.frame.pc + c.w 1) % 2 ^ 64
      let src := c.arg / 4 % 4
      let val (y : Nat) : Prop := (src = 0 ∧ y = c.w 2) ∨ (src = 1 ∧ v = some y ∧ s.sees (c.w 2) n v = true)
        ∨ (src = 2 ∧ y = (c.frame.loops.head?.map (·.done)).getD 0) ∨ (src = 3 ∧ y = s.time.now)
      (dst % n ≠ 0 → Ends (.cpPatch ws v) s (Aborted c 2 x))
      ∧ (∀ y, dst % n = 0 → val y →
        (c.arg.testBit 4 = false → Ends (.cpPatch ws v) s (GoesOnAfter c x (x.fabricWrite cpAgent dst (leBytes n y))))
        ∧ (c.arg.testBit 4 = true → Ends (.cpPatch ws v) s (GoesOnAfter c x (x.cpAdd dst n (y % 2 ^ (8 * n))))))
      ∧ (dst % n = 0 → src = 1 → v = none → s.sees (c.w 2) n none = true →
        (c.arg.testBit 4 = false → Ends (.cpPatch ws v) s (GoesOnAfter c x (x.fabricWrite cpAgent dst (List.replicate n 0) .poison)))
        ∧ (c.arg.testBit 4 = true → Ends (.cpPatch ws v) s (GoesOnAfter c x { x.cpAdd dst n (Config.freeValue s.free 0 % 2 ^ (8 * n)) with free := s.free + 1 }))))
    -- waits
    ∧ (AtCmd s 0x32 ws c →
      let idx := c.arg % 4096
      let deadline := if c.w 2 = 0 then none else some (s.time.now + c.w 2)
      let fires := (NMap.get {} s.cp.watch idx : Watcher).fires
      let base := if c.arg.testBit 19 then fires else 0
      let waits (w : CpWait) : State := { x with cp := { x.cp with cur := some { c.cur with wait := some w } } }
      (c.arg / 2 ^ 17 % 4 = 3 → Ends (.cpWait ws) s (Aborted c 2 x))
      ∧ (c.arg / 2 ^ 17 % 4 ≠ 3 → c.arg.testBit 16 = true →
        (16 ≤ idx → Ends (.cpWait ws) s (Aborted c 7 x))
        ∧ (idx < 16 → base + c.w 1 ≤ fires → Ends (.cpWait ws) s (Counted c (c.goto c.next) x))
        ∧ (idx < 16 → fires < base + c.w 1 → Goes (.cpWait ws) s (waits (.watcher idx (base + c.w 1) deadline))))
      ∧ (c.arg / 2 ^ 17 % 4 ≠ 3 → c.arg.testBit 16 = false →
        let o := s.fenceOffset idx
        Sound s (o / 32) → s.retiredAt o = false → NMap.get .good s.mem.gran (o / 32) = .good →
        let r := fenceOfBytes (((rawBytes s.mem (o / 32)).drop (o % 32)).take 16)
        let target := (if c.arg.testBit 19 then r.value else 0) + c.w 1
        (target ≤ r.value ∨ r.sat = true → r.err = false ∨ c.arg / 2 ^ 17 % 4 = 0 → Ends (.cpWait ws) s (Counted c (c.goto c.next) x))
        ∧ (target ≤ r.value ∨ r.sat = true → r.err = true → c.arg / 2 ^ 17 % 4 = 1 → Ends (.cpWait ws) s (Counted c (c.goto c.next) (x.listError c.cur.list)))
        ∧ (target ≤ r.value ∨ r.sat = true → r.err = true → c.arg / 2 ^ 17 % 4 = 2 → Ends (.cpWait ws) s (ListEnds c.cur.list 1 x))
        ∧ (r.value < target → r.sat = false → Goes (.cpWait ws) s (waits (.fence idx target (c.arg / 2 ^ 17 % 4) deadline)))))
    ∧ (AtCmd s 0x49 ws c → let until' := if c.arg.testBit 0 then c.w 1 else s.time.now + c.w 1
      (until' ≤ s.time.now → Ends (.cpTimerWait ws) s (Counted c (c.goto c.next) x))
      ∧ (s.time.now < until' → Goes (.cpTimerWait ws) s { x with cp := { x.cp with cur := some { c.cur with wait := some (.timer until' (c.arg.testBit 0)) } } }))
    -- watchers, notices and the wake tolerance
    ∧ (AtCmd s 0x50 ws c →
      let id := c.arg % 16
      let kind := c.arg / 16 % 4
      let set (w : Watcher) : State := { x with cp := { x.cp with watch := NMap.set {} x.cp.watch id w } }
      let old := s.watcher id
      kind ≠ 3 → c.w 4 < 4096 ∨ c.w 4 = 0xFFFF →
      (c.arg.testBit 6 = true → (old.armed = false ∨ old.kind ≠ kind → Ends (.cpWatch ws) s (Aborted c 7 x))
        ∧ (old.armed = true → old.kind = kind → Ends (.cpWatch ws) s (Counted c (c.goto c.next) (set { old with fence := c.w 4, evt := c.arg.testBit 14 }))))
      ∧ (c.arg.testBit 6 = false → kind = 0 →
        (c.w 1 = 0 → Ends (.cpWatch ws) s (Aborted c 2 x))
        ∧ (c.w 1 ≠ 0 → ∃ w : Watcher, w.armed = true ∧ w.kind = 0 ∧ w.periodic = c.arg.testBit 13 ∧ w.evt = c.arg.testBit 14 ∧ w.period = c.w 1
          ∧ w.next = s.time.now + c.w 1 ∧ w.fence = c.w 4 ∧ w.fires = 0 ∧ Ends (.cpWatch ws) s (Counted c (c.goto c.next) (set w)))))
    ∧ (AtCmd s 0x51 ws c → let id := c.arg % 16
      Ends (.cpUnwatch ws) s (Counted c (c.goto c.next) { x with cp := { x.cp with watch := NMap.set {} x.cp.watch id { s.watcher id with armed := false } } }))
    ∧ (AtCmd s 0x70 ws c → Ends (.cpNotice ws) s (Counted c (c.goto c.next) (foldState (fun s n => s.sendNotice n (c.arg % 4)) (numsWhere 64 (c.w 1).testBit) x)))
    ∧ (AtCmd s 0x71 ws c → Ends (.cpSetWakeTolerance ws) s fun t => ∃ y, Queues ⟨9, deckIndex .CPR 0 * 2 ^ 20, .wakeTolerance (min (c.w 1) 0xFFFFFFFF)⟩ x y
      ∧ Counted c (c.goto c.next) y t))
  -- bad commands, and a BARRIER flag
  ∧ (∀ (s : State) (c : CmdCtx) (w0 : Nat) (more : List (Option Nat)), s.atCommand = some (c.cur, c.frame, c.rest) → c.cur.w0 = none →
    s.sees c.frame.pc 8 (some w0) = true → c.op = cmdOp w0 →
    let room := c.frame.base + c.frame.len - c.frame.pc
    (cmdShape (cmdOp w0) = none → badWord0 w0 room = some 1 ∧ Ends (.cpNop (some w0 :: more)) s (Aborted c 1 (reached s c)))
    ∧ (cmdOp w0 = 0x42 → w0 / 512 % 128 = 0 → cmdArg w0 = 0 → cmdWords w0 = 1 → room < 8 →
      Ends (.cpEndif (some w0 :: more)) s (Aborted c 8 (reached s c)))
    ∧ (cmdOp w0 = 0x42 → cmdWords w0 ≠ 1 → Ends (.cpEndif (some w0 :: more)) s (Aborted c 2 (reached s c)))
    ∧ (cmdOp w0 = 0x42 → badWord0 w0 room = none → cmdBarrier w0 = true → s.listBusy c.cur.list = true →
      Goes (.cpEndif (some w0 :: more)) s { reached s c with cp := { s.cp with cur := some { c.cur with w0 := some w0 } } }))
  -- what ends a wait
  ∧ (∀ (s : State) (c : Cur) (f : Frame) (rest : List Frame) (n target e : Nat) (d : Option Nat), CpRuns s → s.cp.cur = some c → c.frames = f :: rest →
    let ctx (w : CpWait) (op : Nat) (k : Nat) : CmdCtx := { op := op, arg := 0, words := List.replicate k 0, cur := { c with wait := some w }, frame := f, rest := rest }
    (∀ w, w = .fence n target e d ∨ w = .watcher n target d → c.wait = some w → (∀ t, d = some t → s.time.now < t) → Goes .waitTimeout s s)
    ∧ (∀ w t, w = .fence n target e d ∨ w = .watcher n target d → c.wait = some w → d = some t → t ≤ s.time.now → Ends .waitTimeout s fun t =>
      ListEnds c.list 4 s t ∧ t.reg .CPR_WAIT_TO_CNT = satAdd32 (s.reg .CPR_WAIT_TO_CNT) 1 ∧ t.reg .CPR_CMD_ERR_CNT = satAdd32 (s.reg .CPR_CMD_ERR_CNT) 1
      ∧ Same (.cp :: postParts) s t ∧ SameRegs ([.CPR_WAIT_TO_CNT, .CPR_CMD_ERR_CNT] ++ postRegs) s t)
    ∧ (∀ t abs, c.wait = some (.timer t abs) → (s.time.now < t → Goes .timerWaitEnd s s)
      ∧ (t ≤ s.time.now → Ends .timerWaitEnd s (Counted (ctx (.timer t abs) 0x49 1) ({ f with pc := f.pc + 16 } :: rest) s)))
    ∧ (∀ r : FenceRec, c.wait = some (.fence n target e d) → r.err = false →
      (target ≤ r.value ∨ r.sat = true → Counted (ctx (.fence n target e d) 0x32 2) ({ f with pc := f.pc + 24 } :: rest) s (s.testFence n r))
      ∧ (r.value < target → r.sat = false → s.testFence n r = s)))
  -- watchers
  ∧ (∀ (s : State) (n : Fin 16), CpRuns s → s.isSet .TIK_REPLAY = false →
    let w := s.watcher n
    let set (w : Watcher) : State := { s with cp := { s.cp with watch := NMap.set {} s.cp.watch n w } }
    let fires (c : Instr) (y : State) (kind level : Nat) : Prop := Occurs s 10 n (.watchFire n kind level) → ∃ x, Met y 10 n x ∧ Goes c s (fireWatch n x)
    (w.armed = true → w.kind = 0 → w.next ≤ s.time.now →
      fires (.watchTimerFire n) (set (if w.periodic then { w with next := w.next + w.period } else { w with armed := false })) 0 0)
    ∧ (w.armed = true → w.kind = 0 → s.time.now < w.next → Goes (.watchTimerFire n) s s)
    ∧ (w.armed = true → w.kind = 1 → w.next ≠ 0 → fires (.watchEdgeFire n) (set { w with next := w.next - 1 }) 1 (bit w.last))
    ∧ (w.armed = true → w.kind = 2 → s.cp.got = [] → s.cpReading (.watch n) = false → w.readAt ≤ s.time.bnd →
      Goes (.watchMemoryRead n) s (s.cpRead (.watch n) w.addr (if w.size8 then 8 else 4)))
    ∧ (∀ v, w.armed = true → w.kind = 2 → s.cp.got = [(.watch n, v)] →
      let now := cpCondition w.cmp w.size8 w.value w.mask v
      let y : State := { s with cp := { s.cp with got := [], watch := NMap.set {} s.cp.watch n { w with last := now, readAt := s.time.bnd + ticksOfNs s.effPollNs } } }
      (now = false ∨ w.last = true → Goes (.watchMemoryRead n) s y) ∧ (now = true → w.last = false → fires (.watchMemoryRead n) y 2 1)))
  ∧ ∀ (s : State) (n : Nat), let w := s.watcher n
    s.cp.cur = none →
    (w.fence = 0xFFFF → w.evt = false → fireWatch n s = { s with cp := { s.cp with watch := NMap.set {} s.cp.watch n { w with fires := w.fires + 1 } } })
    ∧ (w.fence ≠ 0xFFFF → w.evt = false →
      fireWatch n s = ({ s with cp := { s.cp with watch := NMap.set {} s.cp.watch n { w with fires := w.fires + 1 } } } : State).sendSignal w.fence (.add 1) false)

/-- The asynchronous commands (R571–R573, R588–R590), the codec engine (R410–R424) and the kitty (R595–R598). -/
def Obligations.AsyncAndKitty : Prop :=
  (∀ (s : State) (c : CmdCtx) (ws : List (Option Nat)) (data : Marked) (tail : Tail),
    let x := reached s c
    let id := s.cp.nextAsync
    let go := c.goto c.next
    -- tasks
    (∀ v, (AtCmd s 0x10 ws c ∧ v = c.w 3 % 2 ^ 32) ∨ (AtCmd s 0x11 ws c ∧ c.w 6 % 4 = 0 ∧ c.w 3 % 2 ^ 32 = 0 ∧ s.sees (c.w 6) 4 (some v) = true ∧ v < 2 ^ 32) →
      let cmd := if c.op = 0x10 then (.cpLaunch ws : Instr) else .cpLaunchIndirect ws (some v)
      let first := if c.op = 0x10 then 5 else 6
      let t : Task :=
        { id := s.reg64 .CPR_NEXT_TASK_LO .CPR_NEXT_TASK_HI, threads := v, vregs := 16 * (c.w 3 / 2 ^ 32 % 16 + 1), opg := c.w 3 / 2 ^ 36 % 32,
          apg := c.w 3 / 2 ^ 41 % 32, pc := c.w 1, mask := c.w 2, nweight := c.arg / 512 % 4, tail := tail, origin := 0, list := some c.cur.list,
          params := ((c.words.drop first).flatMap (leBytes 8)).take (c.arg % 512),
          cmd := some { op := c.op, addr := c.frame.pc, origin := bit (s.fromKitty c.cur.list), dseq := s.dseqOf c.cur.list } }
      let bad := 2 ^ 46 ≤ c.w 3 ∨ 16 < t.opg ∨ 16 < t.apg ∨ c.w 1 % 8 ≠ 0
      (c.cur.w0 ≠ none → 64 ≤ s.tasks.length → Goes cmd s x)
      ∧ (s.tasks.length < 64 → parseTail (c.w 4) (c.w 5) = none → Ends cmd s (Aborted c 2 x))
      ∧ (s.tasks.length < 64 → parseTail (c.w 4) (c.w 5) = some tail →
        (bad → Ends cmd s (Aborted c 2 x)) ∧ (¬ bad → Ends cmd s (Counted c go (issuedTask x t)))))
    -- COPY and FILL
    ∧ (∀ v : Nat, (AtCmd s 0x20 ws c ∧ v = c.w 3 ∧ data.length = v ∧ s.seesBytes (c.w 1) data = true)
        ∨ (AtCmd s 0x21 ws c ∧ v = c.w 2 ∧ data = (List.range v).map fun i => ((leBytes 8 (c.w 3)).getD (i % 8) 0, GState.good)) →
      let cmd := if c.op = 0x20 then (.cpCopy ws data : Instr) else .cpFill ws
      let dst := if c.op = 0x20 then c.w 2 else c.w 1
      let a := asyncOf s c false tail
      (c.cur.w0 ≠ none → s.engineFull false = true → Goes cmd s x)
      ∧ (s.engineFull false = false → parseTail (c.w 4) (c.w 5) = some tail → v < 2 ^ 40 → (∀ b, s.modeAt b ≠ 1) →
        (v = 0 → Ends cmd s (Counted c go (issuedAsync x a)))
        ∧ (0 < v → dst % 32 + v ≤ 32 → (∀ d ∈ data, d.2 = .good) →
          (s.populated (s.normalise dst) = true → Ends cmd s (Counted c go ((issuedAsync x a).writePiece cpAgent dst (data.map (·.1)) .good (some id))))
          ∧ (s.populated (s.normalise dst) = false → Ends cmd s (Counted c go (issuedAsync x { a with status := 4 }))))
        ∧ (0 < v → dst % 32 + v ≤ 32 → (∀ d ∈ data, d.2 = .poison) → s.populated (s.normalise dst) = true →
          Ends cmd s (Counted c go ((issuedAsync x { a with status := 4 }).writePiece cpAgent dst (data.map (·.1)) .poison (some id))))))
    -- SURVEY, SEAL and ENCODE
    ∧ (AtCmd s 0x60 ws c → s.engineFull true = false → parseTail (c.w 4) (c.w 5) = some tail → c.w 3 < 2 ^ 32 →
      let a := asyncOf s c true tail
      let zb := c.arg / 256 % 256
      (c.w 1 % 2048 ≠ 0 ∨ c.w 2 % 2048 ≠ 0 → Ends (.cpSurvey ws data) s (Counted c go (issuedAsync x { a with status := 5 })))
      ∧ (c.w 1 % 2048 = 0 → c.w 2 % 2048 = 0 → data.length = c.w 2 → s.seesBytes (c.w 1) data = true → (∀ b, s.modeAt b ≠ 1) → (∀ d ∈ data, d.2 = .good) →
        let y := issuedAsync x { a with busy := true, slot := c.arg % 256 }
        let job : CodecJob := { slot := c.arg % 256, survey := true, format := c.arg / 2 ^ 16 % 8, zero := zb, tableId := c.w 3,
                                hist := (surveyBlocks (BitVec.ofNat 8 zb) (data.length + 1) data []).1 }
        Ends (.cpSurvey ws data) s fun t => ∃ z, Queues ⟨9, deckIndex .CDC 0 * 2 ^ 20 + 4, .codecOp id⟩ { y with codec := { y.codec with jobs := NMap.insert y.codec.jobs id job } } z
          ∧ Counted c go z t))
    ∧ (AtCmd s 0x62 ws c → s.engineFull true = false → parseTail (c.w 3) (c.w 4) = some tail →
      let y := issuedAsync x { asyncOf s c true tail with busy := true, slot := c.arg % 256 }
      let job : CodecJob := { slot := c.arg % 256, survey := false, build := c.arg.testBit 8, addr := c.w 1, len := c.w 2 }
      Ends (.cpSeal ws) s fun t => ∃ z, Queues ⟨9, deckIndex .CDC 0 * 2 ^ 20 + 4, .codecOp id⟩ { y with codec := { y.codec with jobs := NMap.insert y.codec.jobs id job } } z
        ∧ Counted c go z t)
    ∧ (AtCmd s 0x61 ws c → s.engineFull true = false → parseTail (c.w 4) (c.w 5) = some tail →
      (0 < c.w 3 → s.modeAt (s.normalise (c.w 2)) = 0 ∨ c.w 2 % 2048 ≠ 0 ∨ c.w 3 < 2048 → Ends (.cpEncode ws data) s (Counted c go (issuedAsync x { asyncOf s c true tail with status := 5 })))
      ∧ (c.w 3 = 2048 → s.modeAt (s.normalise (c.w 2)) = 1 → c.w 2 % 2048 = 0 → data.length = 2048 → s.seesBytes (c.w 1) data = true → (∀ d ∈ data, d.2 = .good) →
        s.populated (s.normalise (c.w 2)) = true → Ends (.cpEncode ws data) s (Counted c go
          (((issuedAsync x (asyncOf s c true tail)).readUnits (c.w 1) 2048).writeBlock codecAgent id (s.normalise (c.w 2)) data)))))
  -- the commit of SURVEY and SEAL
  ∧ (∀ (s : State) (id : Nat) (j : CodecJob) (a : AsyncCmd), NMap.find? s.codec.jobs id = some j → NMap.find? s.cp.asyncs id = some a → a.status = 0 →
    let t := applyCodecOp id s
    let refused (st : Nat) : Prop := t.reg .CDC_HOLD_REFUSE_CNT = satAdd32 (s.reg .CDC_HOLD_REFUSE_CNT) 1 ∧ SameRegs [.CDC_HOLD_REFUSE_CNT] s t ∧ Same [.regs, .codec, .cp] s t
      ∧ t.codec = { s.codec with jobs := NMap.erase s.codec.jobs id } ∧ NMap.find? t.cp.asyncs id = some { a with status := st, busy := false }
    (j.survey = true → s.slotState j.slot = 2 → s.slotHold j.slot ≠ 0 → refused 6)
    ∧ (j.survey = true → s.slotState j.slot ≠ 2 ∨ s.slotHold j.slot = 0 → t.slotState j.slot = 2 ∧ SameRegs [.CDC_SLOT_STATE] s t ∧ Same [.regs, .codec, .cp] s t
      ∧ t.slotImg j.slot = buildImage j.format (BitVec.ofNat 8 j.zero) j.tableId (fun sym => NMap.get 0 j.hist sym)
      ∧ NMap.find? t.cp.asyncs id = some { a with busy := false })
    ∧ (j.survey = false → s.slotState j.slot ≠ (if j.build then 1 else 2) → refused 7))
  -- completion
  ∧ (∀ (s : State) (id : Nat) (a : AsyncCmd), s.stopped 1 = false → NMap.find? s.cp.asyncs id = some a →
    let s0 : State := { s with cp := { s.cp with asyncs := NMap.erase s.cp.asyncs id } }
    (a.busy = true ∨ (∃ p ∈ s.posted, p.2.use = .write (some id) ∧ p.2.quar = false) → Goes (.asyncComplete id) s s)
    ∧ (a.busy = false → (∀ p ∈ s.posted, p.2.use = .write (some id) → p.2.quar = true) →
      (a.status = 0 → a.tail.fence = 0xFFFF → Goes (.asyncComplete id) s s0)
      ∧ (a.status = 0 → a.tail.fence ≠ 0xFFFF → Goes (.asyncComplete id) s (s0.sendSignal a.tail.fence (if a.tail.add then .add a.tail.value else .set a.tail.value) false))
      ∧ (∀ r, a.status ≠ 0 → a.tail.fence = 0xFFFF → NMap.find? s.cp.lists a.list = some r → Ends (.asyncComplete id) s fun t =>
        NMap.find? t.cp.lists a.list = some { r with status := if r.status = 0 then 1 else r.status } ∧ t.cp.asyncs = s0.cp.asyncs
        ∧ t.reg .CPR_CMD_ERR_CNT = satAdd32 (s.reg .CPR_CMD_ERR_CNT) 1 ∧ Same (.cp :: postParts) s t ∧ SameRegs (.CPR_CMD_ERR_CNT :: postRegs) s t)))
  -- the kitty
  ∧ (∀ (s : State) (n core slot op part : Nat) (h : Hand) (o : MemOp) (r : PartRes), s.stopped 1 = false → s.cp.kitty[n]? = some (.reserved core slot op part) →
    s.hand core slot = some h → h.ops.find? (fun o => o.id == op) = some o →
    (NMap.find? o.res part = none → Goes (.kittyRecordReady n) s s)
    ∧ (NMap.find? o.res part = some r → Goes (.kittyRecordReady n) s
      { s with cp := { s.cp with kitty := s.cp.kitty.set n (.ready (if r.gran = .good then some r.bytes else none)) } }))
  ∧ (∀ (s : State) (b : List Byte), AtKitty s b →
    let r := kittyFields b
    let t : Tail := { fence := r.fence, value := r.value, add := r.flags.testBit 0, evt := r.flags.testBit 1 }
    (r.rtype = 2 → (r.fence = 0xFFFF → Goes .kittySignal s (applied s))
      ∧ (r.fence ≠ 0xFFFF → Goes .kittySignal s ((applied s).sendSignal r.fence (.set r.value) (r.flags.testBit 2))))
    ∧ (r.rtype = 3 → r.fence ≠ 0xFFFF → Goes .kittySignalAdd s ((applied s).sendSignal r.fence (.add r.value) (r.flags.testBit 2)))
    ∧ (r.rtype ≠ 3 → Goes .kittySignalAdd s s)
    ∧ (r.rtype = 4 → Ends .kittyList s fun t' => t'.cp.cur = some { list := s.cp.nextList, frames := [{ base := r.pc, len := r.threads, pc := r.pc }] }
      ∧ NMap.find? t'.cp.lists s.cp.nextList = some { desc := none, tail := t } ∧ t'.cp.kitty = s.cp.kitty.drop 1 ∧ t'.cp.nextList = s.cp.nextList + 1
      ∧ t'.reg .KIT_APPLIED_CNT = satAdd32 (s.reg .KIT_APPLIED_CNT) 1 ∧ SameRegs [.KIT_APPLIED_CNT] s t' ∧ Same [.regs, .cp] s t')
    ∧ (∀ ps : List Nat, r.rtype = 1 → ps.length = (r.plen + 7) / 8 → (∀ k < ps.length, s.sees (r.param + 8 * k) 8 (some (ps.getD k 0)) = true) →
      Goes (.kittyLaunch (ps.map some)) s (issuedTask (applied s)
        { id := s.reg64 .CPR_NEXT_TASK_LO .CPR_NEXT_TASK_HI, threads := r.threads, vregs := 16 * (r.res % 16 + 1), opg := r.res / 16 % 32, apg := r.res / 512 % 32,
          pc := r.pc, mask := r.mask, nweight := r.res / 2 ^ 14 % 4, params := (ps.flatMap (leBytes 8)).take r.plen, tail := t, origin := 1 })))
  ∧ ∀ (s : State) (x : Option (List Byte)), CpRuns s → s.kittyDue = true → s.kittyHead = some x → headBad x = true →
    ∀ c ∈ [Instr.kittySignal, .kittySignalAdd, .kittyList, .kittyLaunch []], Ends c s fun t => t.cp = (popped s).cp
      ∧ t.reg .KIT_BAD_CNT = satAdd32 (s.reg .KIT_BAD_CNT) 1 ∧ Same (.cp :: postParts) s t ∧ SameRegs (.KIT_BAD_CNT :: postRegs) s t

/-! ### Security, pins and management -/

/-- The mailbox and what follows from it (R686–R711). -/
def Obligations.MailboxAndTokens : Prop :=
  (∀ (s : State) (p : Path), s.isSet .BRK_BRAKED = false → s.inReset = false →
    (s.isSet .MGC_RESTARTING = true → ∀ n c, MailboxRow p n c → Answers c s 6)
    ∧ (s.isSet .MGC_RESTARTING = false → s.sec.recovery = true → ∀ n c, MailboxRow p n c → n ≠ 8 → n ≠ 9 → Answers c s 4))
  -- the token exchange
  ∧ (∀ (s : State) (p : Path), MbxRuns s →
    let m := s.mbx 0 2
    let purpose := field m 0 1
    let level := field m 1 1
    (s.isSet .SEC_TOKEN_LOCK = true → Answers (.getChallenge p) s 5 ∧ Answers (.submitToken p) s 5)
    ∧ (s.isSet .SEC_TOKEN_LOCK = false → s.reg .SEC_MBX_LEN ≠ 2 ∨ purpose = 0 ∨ 5 < purpose ∨ (purpose = 1 ∧ (level = 0 ∨ 3 < level)) ∨ (purpose ≠ 1 ∧ level ≠ 0) →
      Answers (.getChallenge p) s 1)
    ∧ (s.isSet .SEC_TOKEN_LOCK = false → s.reg .SEC_MBX_LEN = 2 → 1 ≤ purpose → purpose ≤ 5 →
      (if purpose = 1 then 1 ≤ level ∧ level ≤ 3 else level = 0) →
      let n := if s.lifecycle = 0 then s.sec.issued else s.sec.issued + 1
      Ends (.getChallenge p) s fun t => ∃ nonce : List Byte, nonce.length = 32 ∧
        let c := [0x42, 0x43, 0x48, 0x4C] ++ leBytes 1 purpose ++ leBytes 1 level ++ leBytes 1 s.lifecycle ++ leBytes 1 s.sec.fuses.owners.length
          ++ leBytes 8 Config.serial ++ nonce ++ leBytes 4 (s.reg .MGC_FW_VERSION) ++ leBytes 4 0 ++ leBytes 8 n
        t.mbx 0 64 = c ∧ t.sec = { s.sec with challenge := some (c, s.time.bnd), issued := n } ∧ t.reg .SEC_MBX_RESULT = 0
        ∧ Same [.regs, .free, .sec] s t ∧ SameRegs [.SEC_MBX, .SEC_MBX_RESULT] s t))
  ∧ (∀ (s : State) (t : List Byte) (want : Option Nat), s.tokenCheck t want = 0 →
    t.length = 260 ∧ field t 6 1 ≤ 1 ∧ (∀ w, want = some w → field t 4 1 = w) ∧ ∃ c at', s.sec.challenge = some (c, at')
      ∧ (t.drop 0x10).take 48 = sha384 c ∧ s.time.bnd ≤ at' + 6000000000 ∧ field t 4 1 = field c 4 1 ∧ field t 5 1 = field c 5 1
      ∧ (field t 6 1 = 0 → s.sec.fuses.owners.getLast? = some (sha384 ((t.drop 0x40).take 97)))
      ∧ (field t 6 1 = 1 → sha384 ((t.drop 0x40).take 97) = Config.dbgRoot)
      ∧ ecdsaVerify ((t.drop 0x40).take 97) (sha384 (t.take 0xA4)) ((t.drop 0xA4).take 96) = true
      ∧ s.tokenAllowed (field t 4 1) (field t 5 1) (field t 6 1 == 1) = true)
  ∧ (∀ (s : State) (p : Path), MbxRuns s → s.isSet .SEC_TOKEN_LOCK = false →
    let t := s.mbx 0 (s.reg .SEC_MBX_LEN)
    let used : State := { s with sec := { s.sec with challenge := none } }
    let r := s.tokenCheck t none
    (r ≠ 0 → SecuredIf (.submitToken p) s (fun y => y.sec = { s.sec with challenge := none, rejected := s.sec.rejected + 1 }
      ∧ y.reg .SEC_TOKEN_FAIL_CNT = satAdd32 (s.reg .SEC_TOKEN_FAIL_CNT) 1 ∧ y.reg .SEC_MBX_RESULT = r
      ∧ y.reg .SEC_TOKEN_LOCK = (if 16 ≤ s.sec.rejected + 1 then 1 else s.reg .SEC_TOKEN_LOCK)
      ∧ Same [.regs, .sec] s y ∧ SameRegs [.SEC_TOKEN_FAIL_CNT, .SEC_MBX_RESULT, .SEC_TOKEN_LOCK] s y) (.rejected p r))
    ∧ (r = 0 → field t 4 1 = 1 → Secured (.submitToken p) s (used.mbxResult 0) (.grant (field t 6 1 == 1) (field t 5 1) (field t 8 4) p))
    ∧ (r = 0 → field t 4 1 ≠ 1 → Goes (.submitToken p) s (used.mbxResult 0)))
  ∧ (∀ (s : State) (p : Path) (vendor : Bool), MbxRuns s →
    let inForce := (if vendor then s.sec.vendor else s.sec.owner) ≠ none
    (s.reg .SEC_MBX_LEN = 1 → field (s.mbx 0 1) 0 1 = bit vendor →
      (inForce → Secured (.relinquish p) s (s.mbxResult 0) (.relinquish vendor p)) ∧ (¬ inForce → s.lifecycle ≠ 0 → Answers (.relinquish p) s 0))
    ∧ (s.reg .SEC_MBX_LEN ≠ 1 → Answers (.relinquish p) s 1)
    ∧ (∀ t, (if vendor then s.sec.vendor else s.sec.owner) = some t → t.secs ≠ 0 →
      (s.time.bnd < t.since + t.secs * 100000000 → Goes (.tokenExpire vendor) s s)
      ∧ (t.since + t.secs * 100000000 ≤ s.time.bnd → Applies (.tokenExpire vendor) s 6 3 (.security (.expired vendor)) (applySecurity (.expired vendor)))))
  -- what a security event does
  ∧ (∀ (s : State) (p : Path), (∀ v l d, (applySecurity (.grant v l d p) s).sec =
      if v then { s.sec with vendor := some { level := l, secs := d, since := s.time.bnd } } else { s.sec with owner := some { level := l, secs := d, since := s.time.bnd } })
    ∧ (∀ v, (applySecurity (.expired v) s).sec = if v then { s.sec with vendor := none } else { s.sec with owner := none })
    ∧ (∀ target, let t := applySecurity (.lifecycle target p) s
      t.sec.owner = none ∧ t.sec.vendor = none ∧ t.sec.resetDue = some s.time.bnd
      ∧ (s.sec.fuses.provisioned = false → t.sec.fuses = { s.sec.fuses with provisioned := true } ∧ t.sec.clearRecord = true)
      ∧ (s.sec.fuses.provisioned = true → t.sec.clearRecord = s.sec.clearRecord
        ∧ t.sec.fuses = if target = 3 then { s.sec.fuses with secretGone := true, retired := true } else { s.sec.fuses with toggles := s.sec.fuses.toggles + 1 }))
    ∧ (∀ k, (applySecurity (.sealFail k) s).sec = s.sec) ∧ (applySecurity (.activated p) s).reg .MGC_RESTARTING = 1)
  -- lifecycle and owner keys
  ∧ (∀ (s : State) (p : Path), MbxRuns s →
    let n := s.reg .SEC_MBX_LEN
    let t := s.mbx 0 n
    let used : State := { s with sec := { s.sec with challenge := none } }
    (n = 0 → s.lifecycle ≠ 2 → Answers (.lcRequest p) s 4) ∧ (n = 0 → s.lifecycle = 2 → 32 ≤ s.sec.fuses.toggles → Answers (.lcRequest p) s 9)
    ∧ (n = 0 → s.lifecycle = 2 → s.sec.fuses.toggles < 32 → Secured (.lcRequest p) s (s.mbxResult 0) (.lifecycle 1 p))
    ∧ (n ≠ 0 → field t 4 1 ∉ [2, 3, 5] → Answers (.lcRequest p) s 1)
    ∧ (n ≠ 0 → s.tokenCheck t none = 0 → field t 4 1 = 2 →
      (s.sec.fuses.toggles < 32 → Secured (.lcRequest p) s (used.mbxResult 0) (.lifecycle 2 p)) ∧ (32 ≤ s.sec.fuses.toggles → Goes (.lcRequest p) s (used.mbxResult 9)))
    ∧ (n ≠ 0 → s.tokenCheck t none = 0 → field t 4 1 = 3 → Secured (.lcRequest p) s (used.mbxResult 0) (.lifecycle 3 p))
    ∧ (n ≠ 0 → s.tokenCheck t none = 0 → field t 4 1 = 5 → Secured (.lcRequest p) s (used.mbxResult 0) (.lifecycle 1 p))
    ∧ (n = 97 → s.lifecycle ≠ 1 ∨ s.sec.fuses.owners ≠ [] → Answers (.ownerSet p) s 4) ∧ (n ≠ 97 → Answers (.ownerSet p) s 1)
    ∧ (n = 97 → s.lifecycle = 1 → s.sec.fuses.owners = [] → Secured (.ownerSet p) s
      (({ s with sec := { s.sec with fuses := { s.sec.fuses with owners := [sha384 (s.mbx 0 97)] } } } : State).mbxResult 0) (.ownerKey p))
    ∧ (n ≠ 357 → Answers (.ownerRotate p) s 1)
    ∧ (n = 357 → s.tokenCheck (s.mbx 97 260) (some 4) = 0 →
      (s.sec.fuses.owners.length < 4 → Secured (.ownerRotate p) s
        (({ s with sec := { s.sec with challenge := none, fuses := { s.sec.fuses with owners := s.sec.fuses.owners ++ [sha384 (s.mbx 0 97)] } } } : State).mbxResult 0) (.ownerKey p))
      ∧ (4 ≤ s.sec.fuses.owners.length → Goes (.ownerRotate p) s (used.mbxResult 9))))
  ∧ (∀ (s : State) (t : Nat), s.sec.resetDue = some t →
    (s.time.bnd ≤ t → Goes .lcReset s s) ∧ (t < s.time.bnd → Applies .lcReset s 1 1 (.reset .warm 6) (applyReset .warm 6)))
  -- attestation and firmware
  ∧ (∀ (s : State) (p : Path), MbxRuns s →
    let n := s.reg .SEC_MBX_LEN
    let idle := 1 - s.reg .MGC_FW_SLOT
    let staged0 : State := { s with sec := { s.sec with staged := 0 } }
    (n ≠ 32 → Answers (.attest p) s 1) ∧ (n = 32 → s.sec.fuses.secretGone = true → Answers (.attest p) s 4)
    ∧ (n = 32 → s.sec.fuses.secretGone = false → Ends (.attest p) s fun t => t.mbx 0 128 = (s.report (s.mbx 0 32)).take 128 ∧ t.reg .SEC_MBX_RESULT = 0
      ∧ OnlyRegs [.SEC_MBX, .SEC_MBX_RESULT] s t)
    ∧ (n = 0 ∨ 1024 < n ∨ slotBytes < s.sec.staged + n → Answers (.fwStage p) s 1)
    ∧ (0 < n → n ≤ 1024 → s.sec.staged + n ≤ slotBytes → Ends (.fwStage p) s fun t => t.reg .SEC_MBX_RESULT = 0 ∧ t.sec.staged = s.sec.staged + n
      ∧ t.sec = { s.sec with flash := t.sec.flash, staged := s.sec.staged + n } ∧ Same [.regs, .sec] s t ∧ SameRegs [.SEC_MBX_RESULT] s t
      ∧ ((t.slotImage idle).drop s.sec.staged).take n = s.mbx 0 n ∧ (∀ k < s.sec.staged, (t.slotImage idle).getD k 0 = (s.slotImage idle).getD k 0)
      ∧ ∀ k, k ≠ idle → t.slotImage k = s.slotImage k)
    ∧ (imageSound (s.slotImage idle) = false → Secured (.fwActivate p) s (staged0.mbxResult 7) (.badImage p 7))
    ∧ (imageSound (s.slotImage idle) = true → imageSvn (s.slotImage idle) < s.sec.fuses.svn → Secured (.fwActivate p) s (staged0.mbxResult 8) (.badImage p 8))
    ∧ (imageSound (s.slotImage idle) = true → s.sec.fuses.svn ≤ imageSvn (s.slotImage idle) → Ends (.fwActivate p) s fun t => t.reg .SEC_MBX_RESULT = 0
      ∧ t.sec = { s.sec with staged := 0, trial := some idle, restartDue := some (s.time.bnd, p) } ∧ Same [.regs, .sec] s t ∧ SameRegs [.SEC_MBX_RESULT] s t)
    ∧ (s.sec.trial = some (s.reg .MGC_FW_SLOT) → Ends (.fwAccept p) s fun t => t.reg .SEC_MBX_RESULT = 0 ∧ t.reg .MGC_FW_TRIAL = 0
      ∧ t.sec = { s.sec with trial := none, fuses := { s.sec.fuses with svn := max s.sec.fuses.svn (imageSvn (s.slotImage (s.reg .MGC_FW_SLOT))) } }
      ∧ Same [.regs, .sec] s t ∧ SameRegs [.SEC_MBX_RESULT, .MGC_FW_TRIAL] s t)
    ∧ (s.sec.trial ≠ some (s.reg .MGC_FW_SLOT) → Answers (.fwAccept p) s 0)
    ∧ (∀ t q, s.sec.restartDue = some (t, q) → (s.time.bnd ≤ t → Goes .mgcRestart s s)
      ∧ (t < s.time.bnd → Secured .mgcRestart s { s with sec := { s.sec with restartDue := none } } (.activated q))))
  ∧ ∀ s : State, s.isSet .MGC_RESTARTING = true → s.stopped 2 = false → s.sec.recovery = false →
    let n := s.sec.trial.getD (s.reg .MGC_FW_SLOT)
    Ends .mgcRestartDone s fun t => t.reg .MGC_RESTARTING = 0 ∧ t.reg .MGC_FW_VERSION = field (s.slotImage n) 8 4 ∧ t.reg .MGC_FW_SLOT = n
      ∧ t.reg .MGC_FW_TRIAL = bit (decide (s.sec.trial = some n)) ∧ t.reg .MGC_BOOT_CNT = satAdd32 (s.reg .MGC_BOOT_CNT) 1
      ∧ t.sec = { s.sec with staging := List.replicate 128 0, staged := 0 }
      ∧ (s.isSet .DECK_READY = false → Same [.regs, .sec] s t ∧ SameRegs [.MGC_RESTARTING, .MGC_FW_VERSION, .MGC_FW_SLOT, .MGC_FW_TRIAL, .MGC_BOOT_CNT] s t)
      ∧ (s.isSet .DECK_READY = true → s.isSet .DECK_UPDATING = false → s.deckGen < 2 ^ 64 - 1 → t.deckGen = s.deckGen + 1 ∧ t.reg .DECK_UPDATING = 0)

/-- Pins, resets, the management target and the test port (R716–R749). -/
def Obligations.PinsAndManagement : Prop :=
  -- resets
  (∀ s : State, s.isSet .BRK_BRAKED = false → Applies .pinResetCold s 1 0 (.reset .cold 4) (applyReset .cold 4)
    ∧ Applies .pinResetWarm s 1 1 (.reset .warm 4) (applyReset .warm 4) ∧ Applies .pinResetContext s 1 2 (.reset .context 4) (applyReset .context 4))
  ∧ (∀ s : State,
    (s.pin.resetLow = true → Goes .resetNLow s s) ∧ (s.pin.pwrLow = true → Goes .pwrgdLow s s)
    ∧ (s.pin.resetLow = false → s.pin.pwrLow = true → Goes .resetNLow s { s with pin := { s.pin with resetLow := true } })
    ∧ (s.pin.resetLow = true → s.pin.pwrLow = false → Goes .pwrgdLow s { s with pin := { s.pin with pwrLow := true } })
    ∧ (s.inReset = false → Applies .resetNLow s 1 0 (.reset .cold 1) (applyReset .cold 1) ∧ Applies .pwrgdLow s 1 0 (.reset .cold 2) (applyReset .cold 2)
      ∧ (s.stopped 4 = true → Goes .resetNLow s (applyReset .cold 1 s) ∧ Goes .pwrgdLow s (applyReset .cold 2 s)))
    ∧ (applyReset .cold 1 s).pin.resetLow = true ∧ (applyReset .cold 2 s).pin.pwrLow = true ∧ (applyReset .cold 1 s).time.restart = true)
  ∧ (∀ (s : State) (mf : BitVec 4),
    let straps (t : State) : Prop := t.reg .PIN_STRAP_ADDR = mf.toNat % 4 ∧ t.reg .PIN_STRAP_HOST_EN = mf.toNat / 4 % 2 ∧ t.reg .PIN_STRAP_PERST_CTX = mf.toNat / 8 % 2
      ∧ t.reg .PIN_PERST_POLICY = mf.toNat / 8 % 2 ∧ t.inReset = false ∧ t.time.restart = true ∧ t.sec.recovery = s.bootSlot.isNone ∧ t.mem = s.mem ∧ t.cores = s.cores
    (s.pin.resetLow = true → s.pin.pwrLow = false → Ends (.resetNRelease mf) s straps)
    ∧ (s.pin.resetLow = false → s.pin.pwrLow = true → Ends (.pwrgdRelease mf) s straps)
    ∧ (s.pin.resetLow = true → s.pin.pwrLow = true → Goes (.resetNRelease mf) s { s with pin := { s.pin with resetLow := false } }
      ∧ Goes (.pwrgdRelease mf) s { s with pin := { s.pin with pwrLow := false } })
    ∧ (s.pin.resetLow = false → Goes (.resetNRelease mf) s s) ∧ (s.pin.pwrLow = false → Goes (.pwrgdRelease mf) s s))
  ∧ (∀ (s : State) (cause : Nat), let t := applyReset .warm cause s
    t.reg .PIN_RESET_CAUSE = cause ∧ t.reg .CTX_STATE = 0 ∧ t.reg .BRK_BRAKED = 0 ∧ t.reg .MGC_TILE_ID_VALID = 0 ∧ t.reg .DECK_READY = 0
    ∧ t.time.now = s.time.now ∧ t.time.bnd = s.time.bnd ∧ (∀ f ∈ [Field.PIN_STRAP_ADDR, .PIN_STRAP_HOST_EN, .PIN_STRAP_PERST_CTX], t.reg f = s.reg f)
    ∧ t.cores = [] ∧ t.clus = [] ∧ t.homes = [] ∧ t.mesh = [] ∧ t.xmit = [] ∧ t.posted = [] ∧ t.tasks = [] ∧ t.cp = {} ∧ t.codec = {}
    ∧ t.sec.owner = none ∧ t.sec.vendor = none ∧ t.sec.fuses = s.sec.fuses ∧ t.sec.flash = s.sec.flash ∧ t.sec.board = s.sec.board
    ∧ t.rte = { ent := s.rte.ent } ∧ t.pending = s.pending ∧ t.free = s.free)
  ∧ (∀ s : State,
    let held : State := { s with host := { s.host with inReset := true } }
    Goes .perstNRelease s { s with host := { s.host with inReset := false } }
    ∧ (s.hostEn = false → Goes .perstNLow s s)
    ∧ (s.hostEn = true → s.host.inReset = false → s.padsTaken = false →
      (s.reg .PIN_PERST_POLICY = 0 → Occurs s 1 1 (.reset .warm 3) → ∃ x, Met held 1 1 x ∧ Goes .perstNLow s (applyReset .warm 3 x))
      ∧ (s.reg .PIN_PERST_POLICY = 1 → Occurs s 1 2 (.reset .context 3) → ∃ x, Met held 1 2 x ∧ Goes .perstNLow s (applyReset .context 3 x))))
  -- pins and the tile ID
  ∧ (∀ s : State, s.stopped 4 = false → (s.waiting .PIN 0 = [] → Goes .pinFuncCommit s s)
    ∧ (s.waiting .PIN 0 ≠ [] → ∃ src, Ends .pinFuncCommit s (Queues ⟨9, src, .pinFunc⟩ s)))
  ∧ (∀ s : State, let t := applyPinFunc s
    ∀ x ∈ s.waiting .PIN 0, t.reg x.1 x.2.1 x.2.2 = s.regS x.1 x.2.1 x.2.2 ∧ NMap.find? t.shadow (regKey x.1 x.2.1 x.2.2) = none
      ∧ (x.1 = .PIN_FUNC → s.regS .PIN_FUNC 0 x.2.2 ≠ s.reg .PIN_FUNC 0 x.2.2 → NMap.find? t.pin.settle x.2.2 = some s.time.bnd))
  ∧ (∀ (s : State) (n : Fin 16) (c : Nat), NMap.find? s.pin.settle n = some c → s.stopped 4 = false →
    (s.time.bnd < c + 1 + s.reg .PIN_SETTLE → Goes (.pinSettleEnd n) s s)
    ∧ (c + 1 + s.reg .PIN_SETTLE ≤ s.time.bnd → Ends (.pinSettleEnd n) s fun t => Same [.pin, .cp] s t
      ∧ t.pin = { s.pin with settle := NMap.erase s.pin.settle n, keep := NMap.erase s.pin.keep n } ∧ t.cp = { s.cp with watch := t.cp.watch }
      ∧ ∀ k w, NMap.find? s.cp.watch k = some w → NMap.find? t.cp.watch k =
          some (if w.armed = true ∧ w.kind = 1 ∧ w.pin = n.val then { w with last := s.pin.cap.testBit n } else w)))
  ∧ (∀ (s : State) (v : Word), s.isSet .BRK_BRAKED = false → s.inReset = false →
    (v.toNat / 65536 % 32768 ≠ 0 → exec (.mgcTileId v) s = .fault .notDefined)
    ∧ (v.toNat / 65536 % 32768 = 0 → s.tileIdOk v = false → Ends (.mgcTileId v) s fun t => t.reg .MGC_CFG_ERR = satAdd32 (s.reg .MGC_CFG_ERR) 1 ∧ OnlyRegs [.MGC_CFG_ERR] s t)
    ∧ (v.toNat / 65536 % 32768 = 0 → s.tileIdOk v = true → Ends (.mgcTileId v) s fun t => NMap.find? t.shadow (regKey .MGC_TILE_ID 0 0) = some (v.toNat % 65536)
      ∧ NMap.find? t.shadow (regKey .MGC_TILE_ID_VALID 0 0) = some (v.toNat / 2 ^ 31) ∧ Same [.shadow, .time] s t
      ∧ ⟨9, deckIndex .MGC 0 * 2 ^ 20 + 0x10, .tileId⟩ ∈ t.time.due)
    ∧ (applyTileId s).reg .MGC_TILE_ID = s.regS .MGC_TILE_ID ∧ (applyTileId s).reg .MGC_TILE_ID_VALID = s.regS .MGC_TILE_ID_VALID)
  -- the I²C target
  ∧ (∀ s : State, s.inReset = false → s.isSet .BRK_BRAKED = false → s.padsTaken = false → ∀ n c,
    (I2cRow false n c → Goes c s (responds ((received s).count .PIN_I2C_PEC_ERR_CNT) 4 []))
    ∧ (I2cRow true n c → n ≠ 1 → s.isSet .MGC_RESTARTING = true → Goes c s (refusedWith s 1))
    ∧ (I2cRow true n c → n ∉ [1, 8, 9, 10] → s.isSet .MGC_RESTARTING = false → s.sec.recovery = true → Goes c s (refusedWith s 6)))
  ∧ (∀ (s : State) (off n : Nat) (bs : List Byte), I2cUp s →
    Goes (.status true) s (served s (leBytes 1 s.lifecycle ++ leBytes 1 s.level ++ leBytes 1 s.statusFlags ++ leBytes 1 (s.reg .PIN_RESET_CAUSE)
      ++ leBytes 2 (s.reg .MGC_SVC_STATUS) ++ leBytes 2 0 ++ leBytes 4 s.idWord ++ leBytes 4 (s.reg .MGC_FW_VERSION)))
    ∧ (0 < n → n ≤ 240 → Goes (.deckRead true off n) s (served s (s.deckRead off n))) ∧ (240 < n → Goes (.deckRead true off n) s (refusedWith s 3))
    ∧ (0 < n → n ≤ 240 → off + n ≤ 1024 → Goes (.mbxRead true off n) s (served s (s.mbx off n)))
    ∧ (0 < n → n ≤ 128 → off + n ≤ 128 → Goes (.boardRead true off n) s (served s (((s.sec.board.getD (List.replicate 128 0)).drop off).take n)))
    ∧ (s.level < 1 → Goes (.tlmRead true off n) s (refusedWith s 5) ∧ Goes (.jnlRead true off n []) s (refusedWith s 5))
    ∧ (1 ≤ s.level → 0 < n → n ≤ 240 → Ends (.tlmRead true off n) s fun t => ∃ data, t = served s data ∧ data.length = n)
    ∧ (∀ recs : List (List Byte), 1 ≤ s.level → 0 < n → n ≤ 15 → recs.length = n → off + n ≤ 2 ^ s.reg .TIK_JNL_LOG2 →
      (∀ k < n, s.seesRecord (0xFFFF * 2 ^ 48 + (s.reg64 .TIK_JNL_BASE_LO .TIK_JNL_BASE_HI + 16 * (off + k)) % 2 ^ 48) 16 (some (recs.getD k [])) = true) →
      Goes (.jnlRead true off n (recs.map some)) s (served s recs.flatten))
    ∧ (bs.length ≤ 236 → off + bs.length ≤ 1024 → Ends (.mbxWrite true off bs) s fun t => t.mbx off bs.length = bs ∧ t.pin.resp = some (0, [])
      ∧ t.reg .PIN_I2C_CMD_CNT = satAdd32 (s.reg .PIN_I2C_CMD_CNT) 1 ∧ Same [.regs, .pin] s t ∧ SameRegs [.SEC_MBX, .PIN_I2C_CMD_CNT] s t)
    ∧ (s.boardOpen = false → Goes (.boardWrite true off bs) s (refusedWith s 5) ∧ Goes (.boardCommit true) s (refusedWith s 5))
    ∧ (s.boardOpen = true → off + bs.length ≤ 128 → Goes (.boardWrite true off bs) s { served s [] with sec := { s.sec with staging := overlay s.sec.staging off bs } })
    ∧ (s.boardOpen = true → (boardOk s.sec.staging = true → Goes (.boardCommit true) s
        { served s [] with sec := { s.sec with board := some s.sec.staging, staging := List.replicate 128 0 } })
      ∧ (boardOk s.sec.staging = false → Goes (.boardCommit true) s
        { responds ((received s).count .PIN_I2C_CMD_CNT) 7 [] with sec := { s.sec with staging := List.replicate 128 0 } }))
    ∧ (∀ (id : BitVec 16) (cl : Fin 64) (all : Bool), Goes (.retireAgent true id cl all) s
        (responds (((received s).declareAgent 0 id.toNat cl all).count .PIN_I2C_CMD_CNT) 0 []))
    ∧ (∀ (cmd : BitVec 8) (c : Instr) (z : State), n ≤ 1024 → MailboxRow .i2c cmd.toNat c → Goes c ((received s).setReg .SEC_MBX_LEN n) z →
      Goes (.mbxRun true cmd n) s (responds (z.count .PIN_I2C_CMD_CNT) 0 (leBytes 1 (z.reg .SEC_MBX_RESULT))))
    ∧ (n ≤ 1024 → Goes (.mbxRun true 0 n) s (refusedWith s 7)))
  ∧ (∀ (s : State) (b : Block) (inst off : Nat) (v : Word), I2cUp s → inst < b.instances → let bytes := (leBytes 4 v.toNat).map some
    (off % 4 ≠ 0 → Goes (.regRead true (.block b inst off)) s (refusedWith s 7))
    ∧ (off % 4 = 0 → b ≠ .DBG → b ≠ .CRG → Goes (.regRead true (.block b inst off)) s (served s (leBytes 4 (s.readWord b inst off))))
    ∧ (off % 4 = 0 → b ∉ [.HIF, .RTE] → roWrite b off = false → reservedOk (b.at' off) v.toNat = false → exec (.regWrite true (.block b inst off) v) s = .fault .notDefined)
    ∧ (∀ x y, s.writeBar .i2c (.block b inst off) bytes = some x → (received s).writeBar .i2c (.block b inst off) bytes = some y →
      Goes (.regWrite true (.block b inst off) v) s (responds (y.count .PIN_I2C_CMD_CNT) 0 [])))
  ∧ (∀ (s : State) (id : BitVec 16) (valid : Bool), I2cUp s → let v : Word := BitVec.ofNat 32 (id.toNat + bit valid * 2 ^ 31)
    (s.tileIdOk v = true → Ends (.setTileId true id valid) s fun t => t.pin.resp = some (0, []) ∧ NMap.find? t.shadow (regKey .MGC_TILE_ID 0 0) = some id.toNat
      ∧ NMap.find? t.shadow (regKey .MGC_TILE_ID_VALID 0 0) = some (bit valid) ∧ Same [.regs, .shadow, .time, .pin] s t ∧ SameRegs [.PIN_I2C_CMD_CNT] s t)
    ∧ (s.tileIdOk v = false → Ends (.setTileId true id valid) s fun t => t.pin.resp = some (7, []) ∧ t.reg .MGC_CFG_ERR = satAdd32 (s.reg .MGC_CFG_ERR) 1
      ∧ Same [.regs, .pin] s t ∧ SameRegs [.MGC_CFG_ERR, .PIN_I2C_CMD_CNT] s t))
  ∧ (∀ s : State, I2cUp s → let y := (received s).count .PIN_I2C_CMD_CNT
    (Occurs s 1 0 (.reset .cold 5) → ∃ x, Met y 1 0 x ∧ Goes (.reset true 1) s (applyReset .cold 5 x))
    ∧ (Occurs s 1 1 (.reset .warm 5) → ∃ x, Met y 1 1 x ∧ Goes (.reset true 2) s (applyReset .warm 5 x))
    ∧ (Occurs s 1 2 (.reset .context 5) → ∃ x, Met (responds y 0 []) 1 2 x ∧ Goes (.reset true 3) s (applyReset .context 5 x))
    ∧ Goes (.reset true 0) s (refusedWith s 7))
  ∧ (∀ (s : State) (addr : BitVec 7) (txn : Nat) (code : Byte) (bs data : List Byte), I2cUp s →
    (s.pmbOn = false → Goes (.pmbXfer true addr txn code bs) s (refusedWith s 6))
    ∧ (s.pmbOn = true → txn ≤ 5 → bs.length = pmbWrites txn → s.pin.pmb = none → Ends (.pmbXfer true addr txn code bs) s fun t => Same [.regs, .pin] s t
      ∧ SameRegs [.PIN_I2C_CMD_CNT] s t ∧ t.pin = { s.pin with resp := none, pmb := some { addr := addr.toNat, txn := txn, code := code.toNat, data := bs, since := s.time.bnd } })
    ∧ (∀ p, s.pin.pmb = some p → p.asked = true →
      Goes (.pmbDone false data) s { s with pin := { s.pin with pmb := none, resp := some (7, []) } }
      ∧ (s.pmbOn = true → pmbReads p.txn data.length = true → s.time.bnd ≤ p.since + 2500000 →
        Goes (.pmbDone true data) s { s with pin := { s.pin with pmb := none, resp := some (0, data) } })))
  -- the test port
  ∧ (∀ (s : State) (pads v : BitVec 32) (at' : Bar0) (w : Bool) (d : Word) (a : DWord),
    Goes .tapReset s (selected s .idcode) ∧ Goes .bypass s (selected s .bypass) ∧ Goes .clamp s (selected s .clamp) ∧ Goes .highz s (selected s .highz)
    ∧ Ends .idcode s (fun t => t.pin = { (selected s .idcode).pin with tapData := 0xB * 2 ^ 28 + s.reg .HIF_IDS_DEVICE % 65536 * 4096 + Config.manufacturer % 2048 * 2 + 1 }
      ∧ Same [.pin] s t)
    ∧ (∀ c ∈ ([(.extest pads v, .extest), (.samplePreload pads v, .samplePreload)] : List (Instr × TapIr)), Ends c.1 s fun t =>
      t.pin = { (selected s c.2).pin with bsr := pads.toNat, bsrOut := v.toNat } ∧ Same [.pin] s t)
    ∧ (s.isSet .BRK_BRAKED = false → Goes .obs s (selected s .obs (decide (s.level < 1))) ∧ Goes .tapMbx s (selected s .mbx)
      ∧ Goes .tapDbgAcc s (selected s .dbgAcc (decide (s.level < 2))) ∧ Goes .tapScan s (selected s .scan (decide (s.level < 3))))
    ∧ (s.isSet .BRK_BRAKED = true → Goes .obs s (selected s .obs true) ∧ Goes .tapMbx s (selected s .mbx true) ∧ Goes .tapDbgAcc s (selected s .dbgAcc true))
    ∧ (s.inReset = false → barOffset at' % 4 = 0 → s.pin.ir ∈ [.obs, .mbx, .dbgAcc] → s.tapAllowed s.pin.ir = false ∨ tapReaches s.pin.ir at' w = false →
      Goes (.tapAccess at' w d) s { s with pin := { s.pin with tapDone := false, tapDenied := true } })
    ∧ (∀ b inst off, s.inReset = false → s.isSet .BRK_BRAKED = false → inst < b.instances → off % 4 = 0 →
      (s.pin.ir = .obs → 1 ≤ s.level → b ≠ .DBG → b ≠ .CRG → Goes (.tapAccess (.block b inst off) false d) s
        { s with pin := { s.pin with tapData := s.readWord b inst off, tapDone := true, tapDenied := false } })
      ∧ (∀ t, s.pin.ir = .mbx → b = .SEC → s.writeBar .tap (.block b inst off) ((leBytes 4 d.toNat).map some) = some t →
        Goes (.tapAccess (.block b inst off) true d) s { t with pin := { t.pin with tapData := d.toNat, tapDone := true, tapDenied := false } }))
    ∧ (s.tapAllowed .roAddr = false → Goes (.roAddr a) s (selected s .roAddr true))
    ∧ (s.tapAllowed .roAddr = true → a.getLsbD 63 = false → Goes (.roAddr a) s
      { selected s .roAddr with brk := { s.brk with roAddr := a.toNat / 8 % 2 ^ 58 * 8 } })
    ∧ (s.tapAllowed .roAddr = true → a.getLsbD 63 = true → s.isSet .BRK_BRAKED = true → Ends (.roAddr a) s fun t => t.reg .BRK_RO_MEM = bit (a.getLsbD 62)
      ∧ t.brk = { s.brk with roAddr := a.toNat / 8 % 2 ^ 58 * 8, layout := some (a.getLsbD 62) } ∧ t.pin.ir = .roAddr ∧ t.pin.tapDenied = false
      ∧ Same [.regs, .brk, .pin] s t ∧ SameRegs [.BRK_RO_MEM, .BRK_RO_LEN_LO, .BRK_RO_LEN_HI] s t)
    ∧ (s.tapAllowed .roData = true → Goes .roData s { s with brk := { s.brk with roAddr := s.brk.roAddr + 8 }, pin := { (selected s .roData).pin with tapData := leNat (s.readOut s.brk.roAddr 8) } })
    ∧ (s.tapAllowed .roData = false → s.isSet .BRK_BRAKED = true → Goes .roData s { s with pin := { (selected s .roData true).pin with tapData := 0 } }))
end

