-- ==== Sys2Proof/Laws/State.lean ====
section
/-!
SUPPORT. The fields of the state after each plain update: what an update does not name stays as it was.
-/
namespace Sys2Proof.Machine
variable (s : State)

@[simp] theorem State.setReg_pending (f : Field) (v i n : Nat) : (s.setReg f v i n).pending = s.pending := (rfl)
@[simp] theorem State.setReg_free (f : Field) (v i n : Nat) : (s.setReg f v i n).free = s.free := (rfl)
@[simp] theorem State.setReg_shadow (f : Field) (v i n : Nat) : (s.setReg f v i n).shadow = s.shadow := (rfl)
@[simp] theorem State.setReg_time (f : Field) (v i n : Nat) : (s.setReg f v i n).time = s.time := (rfl)
@[simp] theorem State.setReg_mem (f : Field) (v i n : Nat) : (s.setReg f v i n).mem = s.mem := (rfl)
@[simp] theorem State.setReg_cores (f : Field) (v i n : Nat) : (s.setReg f v i n).cores = s.cores := (rfl)
@[simp] theorem State.setReg_clus (f : Field) (v i n : Nat) : (s.setReg f v i n).clus = s.clus := (rfl)
@[simp] theorem State.setReg_homes (f : Field) (v i n : Nat) : (s.setReg f v i n).homes = s.homes := (rfl)
@[simp] theorem State.setReg_mesh (f : Field) (v i n : Nat) : (s.setReg f v i n).mesh = s.mesh := (rfl)
@[simp] theorem State.setReg_xmit (f : Field) (v i n : Nat) : (s.setReg f v i n).xmit = s.xmit := (rfl)
@[simp] theorem State.setReg_dead (f : Field) (v i n : Nat) : (s.setReg f v i n).dead = s.dead := (rfl)
@[simp] theorem State.setReg_filter (f : Field) (v i n : Nat) : (s.setReg f v i n).filter = s.filter := (rfl)
@[simp] theorem State.setReg_filterInit (f : Field) (v i n : Nat) : (s.setReg f v i n).filterInit = s.filterInit := (rfl)
@[simp] theorem State.setReg_winEntries (f : Field) (v i n : Nat) : (s.setReg f v i n).winEntries = s.winEntries := (rfl)
@[simp] theorem State.setReg_winNew (f : Field) (v i n : Nat) : (s.setReg f v i n).winNew = s.winNew := (rfl)
@[simp] theorem State.setReg_posted (f : Field) (v i n : Nat) : (s.setReg f v i n).posted = s.posted := (rfl)
@[simp] theorem State.setReg_rejoin (f : Field) (v i n : Nat) : (s.setReg f v i n).rejoin = s.rejoin := (rfl)
@[simp] theorem State.setReg_rte (f : Field) (v i n : Nat) : (s.setReg f v i n).rte = s.rte := (rfl)
@[simp] theorem State.setReg_cpls (f : Field) (v i n : Nat) : (s.setReg f v i n).cpls = s.cpls := (rfl)
@[simp] theorem State.setReg_host (f : Field) (v i n : Nat) : (s.setReg f v i n).host = s.host := (rfl)
@[simp] theorem State.setReg_tasks (f : Field) (v i n : Nat) : (s.setReg f v i n).tasks = s.tasks := (rfl)
@[simp] theorem State.setReg_cp (f : Field) (v i n : Nat) : (s.setReg f v i n).cp = s.cp := (rfl)
@[simp] theorem State.setReg_brk (f : Field) (v i n : Nat) : (s.setReg f v i n).brk = s.brk := (rfl)
@[simp] theorem State.setReg_pwr (f : Field) (v i n : Nat) : (s.setReg f v i n).pwr = s.pwr := (rfl)
@[simp] theorem State.setReg_mgc (f : Field) (v i n : Nat) : (s.setReg f v i n).mgc = s.mgc := (rfl)
@[simp] theorem State.setReg_codec (f : Field) (v i n : Nat) : (s.setReg f v i n).codec = s.codec := (rfl)
@[simp] theorem State.setReg_sec (f : Field) (v i n : Nat) : (s.setReg f v i n).sec = s.sec := (rfl)
@[simp] theorem State.setReg_deck (f : Field) (v i n : Nat) : (s.setReg f v i n).deck = s.deck := (rfl)
@[simp] theorem State.setReg_pin (f : Field) (v i n : Nat) : (s.setReg f v i n).pin = s.pin := (rfl)

@[simp] theorem State.setReg64_pending (l h : Field) (v i n : Nat) : (s.setReg64 l h v i n).pending = s.pending := (rfl)
@[simp] theorem State.setReg64_free (l h : Field) (v i n : Nat) : (s.setReg64 l h v i n).free = s.free := (rfl)
@[simp] theorem State.setReg64_shadow (l h : Field) (v i n : Nat) : (s.setReg64 l h v i n).shadow = s.shadow := (rfl)
@[simp] theorem State.setReg64_time (l h : Field) (v i n : Nat) : (s.setReg64 l h v i n).time = s.time := (rfl)
@[simp] theorem State.setReg64_mem (l h : Field) (v i n : Nat) : (s.setReg64 l h v i n).mem = s.mem := (rfl)
@[simp] theorem State.setReg64_cores (l h : Field) (v i n : Nat) : (s.setReg64 l h v i n).cores = s.cores := (rfl)
@[simp] theorem State.setReg64_clus (l h : Field) (v i n : Nat) : (s.setReg64 l h v i n).clus = s.clus := (rfl)
@[simp] theorem State.setReg64_homes (l h : Field) (v i n : Nat) : (s.setReg64 l h v i n).homes = s.homes := (rfl)
@[simp] theorem State.setReg64_mesh (l h : Field) (v i n : Nat) : (s.setReg64 l h v i n).mesh = s.mesh := (rfl)
@[simp] theorem State.setReg64_xmit (l h : Field) (v i n : Nat) : (s.setReg64 l h v i n).xmit = s.xmit := (rfl)
@[simp] theorem State.setReg64_dead (l h : Field) (v i n : Nat) : (s.setReg64 l h v i n).dead = s.dead := (rfl)
@[simp] theorem State.setReg64_filter (l h : Field) (v i n : Nat) : (s.setReg64 l h v i n).filter = s.filter := (rfl)
@[simp] theorem State.setReg64_filterInit (l h : Field) (v i n : Nat) : (s.setReg64 l h v i n).filterInit = s.filterInit := (rfl)
@[simp] theorem State.setReg64_winEntries (l h : Field) (v i n : Nat) : (s.setReg64 l h v i n).winEntries = s.winEntries := (rfl)
@[simp] theorem State.setReg64_winNew (l h : Field) (v i n : Nat) : (s.setReg64 l h v i n).winNew = s.winNew := (rfl)
@[simp] theorem State.setReg64_posted (l h : Field) (v i n : Nat) : (s.setReg64 l h v i n).posted = s.posted := (rfl)
@[simp] theorem State.setReg64_rejoin (l h : Field) (v i n : Nat) : (s.setReg64 l h v i n).rejoin = s.rejoin := (rfl)
@[simp] theorem State.setReg64_rte (l h : Field) (v i n : Nat) : (s.setReg64 l h v i n).rte = s.rte := (rfl)
@[simp] theorem State.setReg64_cpls (l h : Field) (v i n : Nat) : (s.setReg64 l h v i n).cpls = s.cpls := (rfl)
@[simp] theorem State.setReg64_host (l h : Field) (v i n : Nat) : (s.setReg64 l h v i n).host = s.host := (rfl)
@[simp] theorem State.setReg64_tasks (l h : Field) (v i n : Nat) : (s.setReg64 l h v i n).tasks = s.tasks := (rfl)
@[simp] theorem State.setReg64_cp (l h : Field) (v i n : Nat) : (s.setReg64 l h v i n).cp = s.cp := (rfl)
@[simp] theorem State.setReg64_brk (l h : Field) (v i n : Nat) : (s.setReg64 l h v i n).brk = s.brk := (rfl)
@[simp] theorem State.setReg64_pwr (l h : Field) (v i n : Nat) : (s.setReg64 l h v i n).pwr = s.pwr := (rfl)
@[simp] theorem State.setReg64_mgc (l h : Field) (v i n : Nat) : (s.setReg64 l h v i n).mgc = s.mgc := (rfl)
@[simp] theorem State.setReg64_codec (l h : Field) (v i n : Nat) : (s.setReg64 l h v i n).codec = s.codec := (rfl)
@[simp] theorem State.setReg64_sec (l h : Field) (v i n : Nat) : (s.setReg64 l h v i n).sec = s.sec := (rfl)
@[simp] theorem State.setReg64_deck (l h : Field) (v i n : Nat) : (s.setReg64 l h v i n).deck = s.deck := (rfl)
@[simp] theorem State.setReg64_pin (l h : Field) (v i n : Nat) : (s.setReg64 l h v i n).pin = s.pin := (rfl)

@[simp] theorem State.count_pending (f : Field) (i n k : Nat) : (s.count f i n k).pending = s.pending := (rfl)
@[simp] theorem State.count_free (f : Field) (i n k : Nat) : (s.count f i n k).free = s.free := (rfl)
@[simp] theorem State.count_shadow (f : Field) (i n k : Nat) : (s.count f i n k).shadow = s.shadow := (rfl)
@[simp] theorem State.count_time (f : Field) (i n k : Nat) : (s.count f i n k).time = s.time := (rfl)
@[simp] theorem State.count_mem (f : Field) (i n k : Nat) : (s.count f i n k).mem = s.mem := (rfl)
@[simp] theorem State.count_cores (f : Field) (i n k : Nat) : (s.count f i n k).cores = s.cores := (rfl)
@[simp] theorem State.count_clus (f : Field) (i n k : Nat) : (s.count f i n k).clus = s.clus := (rfl)
@[simp] theorem State.count_homes (f : Field) (i n k : Nat) : (s.count f i n k).homes = s.homes := (rfl)
@[simp] theorem State.count_mesh (f : Field) (i n k : Nat) : (s.count f i n k).mesh = s.mesh := (rfl)
@[simp] theorem State.count_xmit (f : Field) (i n k : Nat) : (s.count f i n k).xmit = s.xmit := (rfl)
@[simp] theorem State.count_dead (f : Field) (i n k : Nat) : (s.count f i n k).dead = s.dead := (rfl)
@[simp] theorem State.count_filter (f : Field) (i n k : Nat) : (s.count f i n k).filter = s.filter := (rfl)
@[simp] theorem State.count_filterInit (f : Field) (i n k : Nat) : (s.count f i n k).filterInit = s.filterInit := (rfl)
@[simp] theorem State.count_winEntries (f : Field) (i n k : Nat) : (s.count f i n k).winEntries = s.winEntries := (rfl)
@[simp] theorem State.count_winNew (f : Field) (i n k : Nat) : (s.count f i n k).winNew = s.winNew := (rfl)
@[simp] theorem State.count_posted (f : Field) (i n k : Nat) : (s.count f i n k).posted = s.posted := (rfl)
@[simp] theorem State.count_rejoin (f : Field) (i n k : Nat) : (s.count f i n k).rejoin = s.rejoin := (rfl)
@[simp] theorem State.count_rte (f : Field) (i n k : Nat) : (s.count f i n k).rte = s.rte := (rfl)
@[simp] theorem State.count_cpls (f : Field) (i n k : Nat) : (s.count f i n k).cpls = s.cpls := (rfl)
@[simp] theorem State.count_host (f : Field) (i n k : Nat) : (s.count f i n k).host = s.host := (rfl)
@[simp] theorem State.count_tasks (f : Field) (i n k : Nat) : (s.count f i n k).tasks = s.tasks := (rfl)
@[simp] theorem State.count_cp (f : Field) (i n k : Nat) : (s.count f i n k).cp = s.cp := (rfl)
@[simp] theorem State.count_brk (f : Field) (i n k : Nat) : (s.count f i n k).brk = s.brk := (rfl)
@[simp] theorem State.count_pwr (f : Field) (i n k : Nat) : (s.count f i n k).pwr = s.pwr := (rfl)
@[simp] theorem State.count_mgc (f : Field) (i n k : Nat) : (s.count f i n k).mgc = s.mgc := (rfl)
@[simp] theorem State.count_codec (f : Field) (i n k : Nat) : (s.count f i n k).codec = s.codec := (rfl)
@[simp] theorem State.count_sec (f : Field) (i n k : Nat) : (s.count f i n k).sec = s.sec := (rfl)
@[simp] theorem State.count_deck (f : Field) (i n k : Nat) : (s.count f i n k).deck = s.deck := (rfl)
@[simp] theorem State.count_pin (f : Field) (i n k : Nat) : (s.count f i n k).pin = s.pin := (rfl)

@[simp] theorem State.cfgErr_pending (b : Block) (i : Nat) : (s.cfgErr b i).pending = s.pending := (rfl)
@[simp] theorem State.cfgErr_free (b : Block) (i : Nat) : (s.cfgErr b i).free = s.free := (rfl)
@[simp] theorem State.cfgErr_shadow (b : Block) (i : Nat) : (s.cfgErr b i).shadow = s.shadow := (rfl)
@[simp] theorem State.cfgErr_time (b : Block) (i : Nat) : (s.cfgErr b i).time = s.time := (rfl)
@[simp] theorem State.cfgErr_mem (b : Block) (i : Nat) : (s.cfgErr b i).mem = s.mem := (rfl)
@[simp] theorem State.cfgErr_cores (b : Block) (i : Nat) : (s.cfgErr b i).cores = s.cores := (rfl)
@[simp] theorem State.cfgErr_clus (b : Block) (i : Nat) : (s.cfgErr b i).clus = s.clus := (rfl)
@[simp] theorem State.cfgErr_homes (b : Block) (i : Nat) : (s.cfgErr b i).homes = s.homes := (rfl)
@[simp] theorem State.cfgErr_mesh (b : Block) (i : Nat) : (s.cfgErr b i).mesh = s.mesh := (rfl)
@[simp] theorem State.cfgErr_xmit (b : Block) (i : Nat) : (s.cfgErr b i).xmit = s.xmit := (rfl)
@[simp] theorem State.cfgErr_dead (b : Block) (i : Nat) : (s.cfgErr b i).dead = s.dead := (rfl)
@[simp] theorem State.cfgErr_filter (b : Block) (i : Nat) : (s.cfgErr b i).filter = s.filter := (rfl)
@[simp] theorem State.cfgErr_filterInit (b : Block) (i : Nat) : (s.cfgErr b i).filterInit = s.filterInit := (rfl)
@[simp] theorem State.cfgErr_winEntries (b : Block) (i : Nat) : (s.cfgErr b i).winEntries = s.winEntries := (rfl)
@[simp] theorem State.cfgErr_winNew (b : Block) (i : Nat) : (s.cfgErr b i).winNew = s.winNew := (rfl)
@[simp] theorem State.cfgErr_posted (b : Block) (i : Nat) : (s.cfgErr b i).posted = s.posted := (rfl)
@[simp] theorem State.cfgErr_rejoin (b : Block) (i : Nat) : (s.cfgErr b i).rejoin = s.rejoin := (rfl)
@[simp] theorem State.cfgErr_rte (b : Block) (i : Nat) : (s.cfgErr b i).rte = s.rte := (rfl)
@[simp] theorem State.cfgErr_cpls (b : Block) (i : Nat) : (s.cfgErr b i).cpls = s.cpls := (rfl)
@[simp] theorem State.cfgErr_host (b : Block) (i : Nat) : (s.cfgErr b i).host = s.host := (rfl)
@[simp] theorem State.cfgErr_tasks (b : Block) (i : Nat) : (s.cfgErr b i).tasks = s.tasks := (rfl)
@[simp] theorem State.cfgErr_cp (b : Block) (i : Nat) : (s.cfgErr b i).cp = s.cp := (rfl)
@[simp] theorem State.cfgErr_brk (b : Block) (i : Nat) : (s.cfgErr b i).brk = s.brk := (rfl)
@[simp] theorem State.cfgErr_pwr (b : Block) (i : Nat) : (s.cfgErr b i).pwr = s.pwr := (rfl)
@[simp] theorem State.cfgErr_mgc (b : Block) (i : Nat) : (s.cfgErr b i).mgc = s.mgc := (rfl)
@[simp] theorem State.cfgErr_codec (b : Block) (i : Nat) : (s.cfgErr b i).codec = s.codec := (rfl)
@[simp] theorem State.cfgErr_sec (b : Block) (i : Nat) : (s.cfgErr b i).sec = s.sec := (rfl)
@[simp] theorem State.cfgErr_deck (b : Block) (i : Nat) : (s.cfgErr b i).deck = s.deck := (rfl)
@[simp] theorem State.cfgErr_pin (b : Block) (i : Nat) : (s.cfgErr b i).pin = s.pin := (rfl)

@[simp] theorem State.setShadow_pending (f : Field) (v i n : Nat) : (s.setShadow f v i n).pending = s.pending := (rfl)
@[simp] theorem State.setShadow_free (f : Field) (v i n : Nat) : (s.setShadow f v i n).free = s.free := (rfl)
@[simp] theorem State.setShadow_regs (f : Field) (v i n : Nat) : (s.setShadow f v i n).regs = s.regs := (rfl)
@[simp] theorem State.setShadow_time (f : Field) (v i n : Nat) : (s.setShadow f v i n).time = s.time := (rfl)
@[simp] theorem State.setShadow_mem (f : Field) (v i n : Nat) : (s.setShadow f v i n).mem = s.mem := (rfl)
@[simp] theorem State.setShadow_cores (f : Field) (v i n : Nat) : (s.setShadow f v i n).cores = s.cores := (rfl)
@[simp] theorem State.setShadow_clus (f : Field) (v i n : Nat) : (s.setShadow f v i n).clus = s.clus := (rfl)
@[simp] theorem State.setShadow_homes (f : Field) (v i n : Nat) : (s.setShadow f v i n).homes = s.homes := (rfl)
@[simp] theorem State.setShadow_mesh (f : Field) (v i n : Nat) : (s.setShadow f v i n).mesh = s.mesh := (rfl)
@[simp] theorem State.setShadow_xmit (f : Field) (v i n : Nat) : (s.setShadow f v i n).xmit = s.xmit := (rfl)
@[simp] theorem State.setShadow_dead (f : Field) (v i n : Nat) : (s.setShadow f v i n).dead = s.dead := (rfl)
@[simp] theorem State.setShadow_filter (f : Field) (v i n : Nat) : (s.setShadow f v i n).filter = s.filter := (rfl)
@[simp] theorem State.setShadow_filterInit (f : Field) (v i n : Nat) : (s.setShadow f v i n).filterInit = s.filterInit := (rfl)
@[simp] theorem State.setShadow_winEntries (f : Field) (v i n : Nat) : (s.setShadow f v i n).winEntries = s.winEntries := (rfl)
@[simp] theorem State.setShadow_winNew (f : Field) (v i n : Nat) : (s.setShadow f v i n).winNew = s.winNew := (rfl)
@[simp] theorem State.setShadow_posted (f : Field) (v i n : Nat) : (s.setShadow f v i n).posted = s.posted := (rfl)
@[simp] theorem State.setShadow_rejoin (f : Field) (v i n : Nat) : (s.setShadow f v i n).rejoin = s.rejoin := (rfl)
@[simp] theorem State.setShadow_rte (f : Field) (v i n : Nat) : (s.setShadow f v i n).rte = s.rte := (rfl)
@[simp] theorem State.setShadow_cpls (f : Field) (v i n : Nat) : (s.setShadow f v i n).cpls = s.cpls := (rfl)
@[simp] theorem State.setShadow_host (f : Field) (v i n : Nat) : (s.setShadow f v i n).host = s.host := (rfl)
@[simp] theorem State.setShadow_tasks (f : Field) (v i n : Nat) : (s.setShadow f v i n).tasks = s.tasks := (rfl)
@[simp] theorem State.setShadow_cp (f : Field) (v i n : Nat) : (s.setShadow f v i n).cp = s.cp := (rfl)
@[simp] theorem State.setShadow_brk (f : Field) (v i n : Nat) : (s.setShadow f v i n).brk = s.brk := (rfl)
@[simp] theorem State.setShadow_pwr (f : Field) (v i n : Nat) : (s.setShadow f v i n).pwr = s.pwr := (rfl)
@[simp] theorem State.setShadow_mgc (f : Field) (v i n : Nat) : (s.setShadow f v i n).mgc = s.mgc := (rfl)
@[simp] theorem State.setShadow_codec (f : Field) (v i n : Nat) : (s.setShadow f v i n).codec = s.codec := (rfl)
@[simp] theorem State.setShadow_sec (f : Field) (v i n : Nat) : (s.setShadow f v i n).sec = s.sec := (rfl)
@[simp] theorem State.setShadow_deck (f : Field) (v i n : Nat) : (s.setShadow f v i n).deck = s.deck := (rfl)
@[simp] theorem State.setShadow_pin (f : Field) (v i n : Nat) : (s.setShadow f v i n).pin = s.pin := (rfl)

@[simp] theorem State.dropShadows_pending (l : List (Field × Nat × Nat)) : (s.dropShadows l).pending = s.pending := (rfl)
@[simp] theorem State.dropShadows_free (l : List (Field × Nat × Nat)) : (s.dropShadows l).free = s.free := (rfl)
@[simp] theorem State.dropShadows_regs (l : List (Field × Nat × Nat)) : (s.dropShadows l).regs = s.regs := (rfl)
@[simp] theorem State.dropShadows_time (l : List (Field × Nat × Nat)) : (s.dropShadows l).time = s.time := (rfl)
@[simp] theorem State.dropShadows_mem (l : List (Field × Nat × Nat)) : (s.dropShadows l).mem = s.mem := (rfl)
@[simp] theorem State.dropShadows_cores (l : List (Field × Nat × Nat)) : (s.dropShadows l).cores = s.cores := (rfl)
@[simp] theorem State.dropShadows_clus (l : List (Field × Nat × Nat)) : (s.dropShadows l).clus = s.clus := (rfl)
@[simp] theorem State.dropShadows_homes (l : List (Field × Nat × Nat)) : (s.dropShadows l).homes = s.homes := (rfl)
@[simp] theorem State.dropShadows_mesh (l : List (Field × Nat × Nat)) : (s.dropShadows l).mesh = s.mesh := (rfl)
@[simp] theorem State.dropShadows_xmit (l : List (Field × Nat × Nat)) : (s.dropShadows l).xmit = s.xmit := (rfl)
@[simp] theorem State.dropShadows_dead (l : List (Field × Nat × Nat)) : (s.dropShadows l).dead = s.dead := (rfl)
@[simp] theorem State.dropShadows_filter (l : List (Field × Nat × Nat)) : (s.dropShadows l).filter = s.filter := (rfl)
@[simp] theorem State.dropShadows_filterInit (l : List (Field × Nat × Nat)) : (s.dropShadows l).filterInit = s.filterInit := (rfl)
@[simp] theorem State.dropShadows_winEntries (l : List (Field × Nat × Nat)) : (s.dropShadows l).winEntries = s.winEntries := (rfl)
@[simp] theorem State.dropShadows_winNew (l : List (Field × Nat × Nat)) : (s.dropShadows l).winNew = s.winNew := (rfl)
@[simp] theorem State.dropShadows_posted (l : List (Field × Nat × Nat)) : (s.dropShadows l).posted = s.posted := (rfl)
@[simp] theorem State.dropShadows_rejoin (l : List (Field × Nat × Nat)) : (s.dropShadows l).rejoin = s.rejoin := (rfl)
@[simp] theorem State.dropShadows_rte (l : List (Field × Nat × Nat)) : (s.dropShadows l).rte = s.rte := (rfl)
@[simp] theorem State.dropShadows_cpls (l : List (Field × Nat × Nat)) : (s.dropShadows l).cpls = s.cpls := (rfl)
@[simp] theorem State.dropShadows_host (l : List (Field × Nat × Nat)) : (s.dropShadows l).host = s.host := (rfl)
@[simp] theorem State.dropShadows_tasks (l : List (Field × Nat × Nat)) : (s.dropShadows l).tasks = s.tasks := (rfl)
@[simp] theorem State.dropShadows_cp (l : List (Field × Nat × Nat)) : (s.dropShadows l).cp = s.cp := (rfl)
@[simp] theorem State.dropShadows_brk (l : List (Field × Nat × Nat)) : (s.dropShadows l).brk = s.brk := (rfl)
@[simp] theorem State.dropShadows_pwr (l : List (Field × Nat × Nat)) : (s.dropShadows l).pwr = s.pwr := (rfl)
@[simp] theorem State.dropShadows_mgc (l : List (Field × Nat × Nat)) : (s.dropShadows l).mgc = s.mgc := (rfl)
@[simp] theorem State.dropShadows_codec (l : List (Field × Nat × Nat)) : (s.dropShadows l).codec = s.codec := (rfl)
@[simp] theorem State.dropShadows_sec (l : List (Field × Nat × Nat)) : (s.dropShadows l).sec = s.sec := (rfl)
@[simp] theorem State.dropShadows_deck (l : List (Field × Nat × Nat)) : (s.dropShadows l).deck = s.deck := (rfl)
@[simp] theorem State.dropShadows_pin (l : List (Field × Nat × Nat)) : (s.dropShadows l).pin = s.pin := (rfl)

@[simp] theorem State.setCore_pending (c : Nat) (v : Core) : (s.setCore c v).pending = s.pending := (rfl)
@[simp] theorem State.setCore_free (c : Nat) (v : Core) : (s.setCore c v).free = s.free := (rfl)
@[simp] theorem State.setCore_regs (c : Nat) (v : Core) : (s.setCore c v).regs = s.regs := (rfl)
@[simp] theorem State.setCore_shadow (c : Nat) (v : Core) : (s.setCore c v).shadow = s.shadow := (rfl)
@[simp] theorem State.setCore_time (c : Nat) (v : Core) : (s.setCore c v).time = s.time := (rfl)
@[simp] theorem State.setCore_mem (c : Nat) (v : Core) : (s.setCore c v).mem = s.mem := (rfl)
@[simp] theorem State.setCore_clus (c : Nat) (v : Core) : (s.setCore c v).clus = s.clus := (rfl)
@[simp] theorem State.setCore_homes (c : Nat) (v : Core) : (s.setCore c v).homes = s.homes := (rfl)
@[simp] theorem State.setCore_mesh (c : Nat) (v : Core) : (s.setCore c v).mesh = s.mesh := (rfl)
@[simp] theorem State.setCore_xmit (c : Nat) (v : Core) : (s.setCore c v).xmit = s.xmit := (rfl)
@[simp] theorem State.setCore_dead (c : Nat) (v : Core) : (s.setCore c v).dead = s.dead := (rfl)
@[simp] theorem State.setCore_filter (c : Nat) (v : Core) : (s.setCore c v).filter = s.filter := (rfl)
@[simp] theorem State.setCore_filterInit (c : Nat) (v : Core) : (s.setCore c v).filterInit = s.filterInit := (rfl)
@[simp] theorem State.setCore_winEntries (c : Nat) (v : Core) : (s.setCore c v).winEntries = s.winEntries := (rfl)
@[simp] theorem State.setCore_winNew (c : Nat) (v : Core) : (s.setCore c v).winNew = s.winNew := (rfl)
@[simp] theorem State.setCore_posted (c : Nat) (v : Core) : (s.setCore c v).posted = s.posted := (rfl)
@[simp] theorem State.setCore_rejoin (c : Nat) (v : Core) : (s.setCore c v).rejoin = s.rejoin := (rfl)
@[simp] theorem State.setCore_rte (c : Nat) (v : Core) : (s.setCore c v).rte = s.rte := (rfl)
@[simp] theorem State.setCore_cpls (c : Nat) (v : Core) : (s.setCore c v).cpls = s.cpls := (rfl)
@[simp] theorem State.setCore_host (c : Nat) (v : Core) : (s.setCore c v).host = s.host := (rfl)
@[simp] theorem State.setCore_tasks (c : Nat) (v : Core) : (s.setCore c v).tasks = s.tasks := (rfl)
@[simp] theorem State.setCore_cp (c : Nat) (v : Core) : (s.setCore c v).cp = s.cp := (rfl)
@[simp] theorem State.setCore_brk (c : Nat) (v : Core) : (s.setCore c v).brk = s.brk := (rfl)
@[simp] theorem State.setCore_pwr (c : Nat) (v : Core) : (s.setCore c v).pwr = s.pwr := (rfl)
@[simp] theorem State.setCore_mgc (c : Nat) (v : Core) : (s.setCore c v).mgc = s.mgc := (rfl)
@[simp] theorem State.setCore_codec (c : Nat) (v : Core) : (s.setCore c v).codec = s.codec := (rfl)
@[simp] theorem State.setCore_sec (c : Nat) (v : Core) : (s.setCore c v).sec = s.sec := (rfl)
@[simp] theorem State.setCore_deck (c : Nat) (v : Core) : (s.setCore c v).deck = s.deck := (rfl)
@[simp] theorem State.setCore_pin (c : Nat) (v : Core) : (s.setCore c v).pin = s.pin := (rfl)

@[simp] theorem State.setClu_pending (c : Nat) (v : Cluster) : (s.setClu c v).pending = s.pending := (rfl)
@[simp] theorem State.setClu_free (c : Nat) (v : Cluster) : (s.setClu c v).free = s.free := (rfl)
@[simp] theorem State.setClu_regs (c : Nat) (v : Cluster) : (s.setClu c v).regs = s.regs := (rfl)
@[simp] theorem State.setClu_shadow (c : Nat) (v : Cluster) : (s.setClu c v).shadow = s.shadow := (rfl)
@[simp] theorem State.setClu_time (c : Nat) (v : Cluster) : (s.setClu c v).time = s.time := (rfl)
@[simp] theorem State.setClu_mem (c : Nat) (v : Cluster) : (s.setClu c v).mem = s.mem := (rfl)
@[simp] theorem State.setClu_cores (c : Nat) (v : Cluster) : (s.setClu c v).cores = s.cores := (rfl)
@[simp] theorem State.setClu_homes (c : Nat) (v : Cluster) : (s.setClu c v).homes = s.homes := (rfl)
@[simp] theorem State.setClu_mesh (c : Nat) (v : Cluster) : (s.setClu c v).mesh = s.mesh := (rfl)
@[simp] theorem State.setClu_xmit (c : Nat) (v : Cluster) : (s.setClu c v).xmit = s.xmit := (rfl)
@[simp] theorem State.setClu_dead (c : Nat) (v : Cluster) : (s.setClu c v).dead = s.dead := (rfl)
@[simp] theorem State.setClu_filter (c : Nat) (v : Cluster) : (s.setClu c v).filter = s.filter := (rfl)
@[simp] theorem State.setClu_filterInit (c : Nat) (v : Cluster) : (s.setClu c v).filterInit = s.filterInit := (rfl)
@[simp] theorem State.setClu_winEntries (c : Nat) (v : Cluster) : (s.setClu c v).winEntries = s.winEntries := (rfl)
@[simp] theorem State.setClu_winNew (c : Nat) (v : Cluster) : (s.setClu c v).winNew = s.winNew := (rfl)
@[simp] theorem State.setClu_posted (c : Nat) (v : Cluster) : (s.setClu c v).posted = s.posted := (rfl)
@[simp] theorem State.setClu_rejoin (c : Nat) (v : Cluster) : (s.setClu c v).rejoin = s.rejoin := (rfl)
@[simp] theorem State.setClu_rte (c : Nat) (v : Cluster) : (s.setClu c v).rte = s.rte := (rfl)
@[simp] theorem State.setClu_cpls (c : Nat) (v : Cluster) : (s.setClu c v).cpls = s.cpls := (rfl)
@[simp] theorem State.setClu_host (c : Nat) (v : Cluster) : (s.setClu c v).host = s.host := (rfl)
@[simp] theorem State.setClu_tasks (c : Nat) (v : Cluster) : (s.setClu c v).tasks = s.tasks := (rfl)
@[simp] theorem State.setClu_cp (c : Nat) (v : Cluster) : (s.setClu c v).cp = s.cp := (rfl)
@[simp] theorem State.setClu_brk (c : Nat) (v : Cluster) : (s.setClu c v).brk = s.brk := (rfl)
@[simp] theorem State.setClu_pwr (c : Nat) (v : Cluster) : (s.setClu c v).pwr = s.pwr := (rfl)
@[simp] theorem State.setClu_mgc (c : Nat) (v : Cluster) : (s.setClu c v).mgc = s.mgc := (rfl)
@[simp] theorem State.setClu_codec (c : Nat) (v : Cluster) : (s.setClu c v).codec = s.codec := (rfl)
@[simp] theorem State.setClu_sec (c : Nat) (v : Cluster) : (s.setClu c v).sec = s.sec := (rfl)
@[simp] theorem State.setClu_deck (c : Nat) (v : Cluster) : (s.setClu c v).deck = s.deck := (rfl)
@[simp] theorem State.setClu_pin (c : Nat) (v : Cluster) : (s.setClu c v).pin = s.pin := (rfl)

@[simp] theorem State.setHome_pending (k : Nat) (v : HomeSt) : (s.setHome k v).pending = s.pending := (rfl)
@[simp] theorem State.setHome_free (k : Nat) (v : HomeSt) : (s.setHome k v).free = s.free := (rfl)
@[simp] theorem State.setHome_regs (k : Nat) (v : HomeSt) : (s.setHome k v).regs = s.regs := (rfl)
@[simp] theorem State.setHome_shadow (k : Nat) (v : HomeSt) : (s.setHome k v).shadow = s.shadow := (rfl)
@[simp] theorem State.setHome_time (k : Nat) (v : HomeSt) : (s.setHome k v).time = s.time := (rfl)
@[simp] theorem State.setHome_mem (k : Nat) (v : HomeSt) : (s.setHome k v).mem = s.mem := (rfl)
@[simp] theorem State.setHome_cores (k : Nat) (v : HomeSt) : (s.setHome k v).cores = s.cores := (rfl)
@[simp] theorem State.setHome_clus (k : Nat) (v : HomeSt) : (s.setHome k v).clus = s.clus := (rfl)
@[simp] theorem State.setHome_mesh (k : Nat) (v : HomeSt) : (s.setHome k v).mesh = s.mesh := (rfl)
@[simp] theorem State.setHome_xmit (k : Nat) (v : HomeSt) : (s.setHome k v).xmit = s.xmit := (rfl)
@[simp] theorem State.setHome_dead (k : Nat) (v : HomeSt) : (s.setHome k v).dead = s.dead := (rfl)
@[simp] theorem State.setHome_filter (k : Nat) (v : HomeSt) : (s.setHome k v).filter = s.filter := (rfl)
@[simp] theorem State.setHome_filterInit (k : Nat) (v : HomeSt) : (s.setHome k v).filterInit = s.filterInit := (rfl)
@[simp] theorem State.setHome_winEntries (k : Nat) (v : HomeSt) : (s.setHome k v).winEntries = s.winEntries := (rfl)
@[simp] theorem State.setHome_winNew (k : Nat) (v : HomeSt) : (s.setHome k v).winNew = s.winNew := (rfl)
@[simp] theorem State.setHome_posted (k : Nat) (v : HomeSt) : (s.setHome k v).posted = s.posted := (rfl)
@[simp] theorem State.setHome_rejoin (k : Nat) (v : HomeSt) : (s.setHome k v).rejoin = s.rejoin := (rfl)
@[simp] theorem State.setHome_rte (k : Nat) (v : HomeSt) : (s.setHome k v).rte = s.rte := (rfl)
@[simp] theorem State.setHome_cpls (k : Nat) (v : HomeSt) : (s.setHome k v).cpls = s.cpls := (rfl)
@[simp] theorem State.setHome_host (k : Nat) (v : HomeSt) : (s.setHome k v).host = s.host := (rfl)
@[simp] theorem State.setHome_tasks (k : Nat) (v : HomeSt) : (s.setHome k v).tasks = s.tasks := (rfl)
@[simp] theorem State.setHome_cp (k : Nat) (v : HomeSt) : (s.setHome k v).cp = s.cp := (rfl)
@[simp] theorem State.setHome_brk (k : Nat) (v : HomeSt) : (s.setHome k v).brk = s.brk := (rfl)
@[simp] theorem State.setHome_pwr (k : Nat) (v : HomeSt) : (s.setHome k v).pwr = s.pwr := (rfl)
@[simp] theorem State.setHome_mgc (k : Nat) (v : HomeSt) : (s.setHome k v).mgc = s.mgc := (rfl)
@[simp] theorem State.setHome_codec (k : Nat) (v : HomeSt) : (s.setHome k v).codec = s.codec := (rfl)
@[simp] theorem State.setHome_sec (k : Nat) (v : HomeSt) : (s.setHome k v).sec = s.sec := (rfl)
@[simp] theorem State.setHome_deck (k : Nat) (v : HomeSt) : (s.setHome k v).deck = s.deck := (rfl)
@[simp] theorem State.setHome_pin (k : Nat) (v : HomeSt) : (s.setHome k v).pin = s.pin := (rfl)

@[simp] theorem State.setHand_pending (c n : Nat) (h : Hand) : (s.setHand c n h).pending = s.pending := (rfl)
@[simp] theorem State.setHand_free (c n : Nat) (h : Hand) : (s.setHand c n h).free = s.free := (rfl)
@[simp] theorem State.setHand_regs (c n : Nat) (h : Hand) : (s.setHand c n h).regs = s.regs := (rfl)
@[simp] theorem State.setHand_shadow (c n : Nat) (h : Hand) : (s.setHand c n h).shadow = s.shadow := (rfl)
@[simp] theorem State.setHand_time (c n : Nat) (h : Hand) : (s.setHand c n h).time = s.time := (rfl)
@[simp] theorem State.setHand_mem (c n : Nat) (h : Hand) : (s.setHand c n h).mem = s.mem := (rfl)
@[simp] theorem State.setHand_clus (c n : Nat) (h : Hand) : (s.setHand c n h).clus = s.clus := (rfl)
@[simp] theorem State.setHand_homes (c n : Nat) (h : Hand) : (s.setHand c n h).homes = s.homes := (rfl)
@[simp] theorem State.setHand_mesh (c n : Nat) (h : Hand) : (s.setHand c n h).mesh = s.mesh := (rfl)
@[simp] theorem State.setHand_xmit (c n : Nat) (h : Hand) : (s.setHand c n h).xmit = s.xmit := (rfl)
@[simp] theorem State.setHand_dead (c n : Nat) (h : Hand) : (s.setHand c n h).dead = s.dead := (rfl)
@[simp] theorem State.setHand_filter (c n : Nat) (h : Hand) : (s.setHand c n h).filter = s.filter := (rfl)
@[simp] theorem State.setHand_filterInit (c n : Nat) (h : Hand) : (s.setHand c n h).filterInit = s.filterInit := (rfl)
@[simp] theorem State.setHand_winEntries (c n : Nat) (h : Hand) : (s.setHand c n h).winEntries = s.winEntries := (rfl)
@[simp] theorem State.setHand_winNew (c n : Nat) (h : Hand) : (s.setHand c n h).winNew = s.winNew := (rfl)
@[simp] theorem State.setHand_posted (c n : Nat) (h : Hand) : (s.setHand c n h).posted = s.posted := (rfl)
@[simp] theorem State.setHand_rejoin (c n : Nat) (h : Hand) : (s.setHand c n h).rejoin = s.rejoin := (rfl)
@[simp] theorem State.setHand_rte (c n : Nat) (h : Hand) : (s.setHand c n h).rte = s.rte := (rfl)
@[simp] theorem State.setHand_cpls (c n : Nat) (h : Hand) : (s.setHand c n h).cpls = s.cpls := (rfl)
@[simp] theorem State.setHand_host (c n : Nat) (h : Hand) : (s.setHand c n h).host = s.host := (rfl)
@[simp] theorem State.setHand_tasks (c n : Nat) (h : Hand) : (s.setHand c n h).tasks = s.tasks := (rfl)
@[simp] theorem State.setHand_cp (c n : Nat) (h : Hand) : (s.setHand c n h).cp = s.cp := (rfl)
@[simp] theorem State.setHand_brk (c n : Nat) (h : Hand) : (s.setHand c n h).brk = s.brk := (rfl)
@[simp] theorem State.setHand_pwr (c n : Nat) (h : Hand) : (s.setHand c n h).pwr = s.pwr := (rfl)
@[simp] theorem State.setHand_mgc (c n : Nat) (h : Hand) : (s.setHand c n h).mgc = s.mgc := (rfl)
@[simp] theorem State.setHand_codec (c n : Nat) (h : Hand) : (s.setHand c n h).codec = s.codec := (rfl)
@[simp] theorem State.setHand_sec (c n : Nat) (h : Hand) : (s.setHand c n h).sec = s.sec := (rfl)
@[simp] theorem State.setHand_deck (c n : Nat) (h : Hand) : (s.setHand c n h).deck = s.deck := (rfl)
@[simp] theorem State.setHand_pin (c n : Nat) (h : Hand) : (s.setHand c n h).pin = s.pin := (rfl)

@[simp] theorem State.dropHand_pending (c n : Nat) : (s.dropHand c n).pending = s.pending := (rfl)
@[simp] theorem State.dropHand_free (c n : Nat) : (s.dropHand c n).free = s.free := (rfl)
@[simp] theorem State.dropHand_regs (c n : Nat) : (s.dropHand c n).regs = s.regs := (rfl)
@[simp] theorem State.dropHand_shadow (c n : Nat) : (s.dropHand c n).shadow = s.shadow := (rfl)
@[simp] theorem State.dropHand_time (c n : Nat) : (s.dropHand c n).time = s.time := (rfl)
@[simp] theorem State.dropHand_mem (c n : Nat) : (s.dropHand c n).mem = s.mem := (rfl)
@[simp] theorem State.dropHand_clus (c n : Nat) : (s.dropHand c n).clus = s.clus := (rfl)
@[simp] theorem State.dropHand_homes (c n : Nat) : (s.dropHand c n).homes = s.homes := (rfl)
@[simp] theorem State.dropHand_mesh (c n : Nat) : (s.dropHand c n).mesh = s.mesh := (rfl)
@[simp] theorem State.dropHand_xmit (c n : Nat) : (s.dropHand c n).xmit = s.xmit := (rfl)
@[simp] theorem State.dropHand_dead (c n : Nat) : (s.dropHand c n).dead = s.dead := (rfl)
@[simp] theorem State.dropHand_filter (c n : Nat) : (s.dropHand c n).filter = s.filter := (rfl)
@[simp] theorem State.dropHand_filterInit (c n : Nat) : (s.dropHand c n).filterInit = s.filterInit := (rfl)
@[simp] theorem State.dropHand_winEntries (c n : Nat) : (s.dropHand c n).winEntries = s.winEntries := (rfl)
@[simp] theorem State.dropHand_winNew (c n : Nat) : (s.dropHand c n).winNew = s.winNew := (rfl)
@[simp] theorem State.dropHand_posted (c n : Nat) : (s.dropHand c n).posted = s.posted := (rfl)
@[simp] theorem State.dropHand_rejoin (c n : Nat) : (s.dropHand c n).rejoin = s.rejoin := (rfl)
@[simp] theorem State.dropHand_rte (c n : Nat) : (s.dropHand c n).rte = s.rte := (rfl)
@[simp] theorem State.dropHand_cpls (c n : Nat) : (s.dropHand c n).cpls = s.cpls := (rfl)
@[simp] theorem State.dropHand_host (c n : Nat) : (s.dropHand c n).host = s.host := (rfl)
@[simp] theorem State.dropHand_tasks (c n : Nat) : (s.dropHand c n).tasks = s.tasks := (rfl)
@[simp] theorem State.dropHand_cp (c n : Nat) : (s.dropHand c n).cp = s.cp := (rfl)
@[simp] theorem State.dropHand_brk (c n : Nat) : (s.dropHand c n).brk = s.brk := (rfl)
@[simp] theorem State.dropHand_pwr (c n : Nat) : (s.dropHand c n).pwr = s.pwr := (rfl)
@[simp] theorem State.dropHand_mgc (c n : Nat) : (s.dropHand c n).mgc = s.mgc := (rfl)
@[simp] theorem State.dropHand_codec (c n : Nat) : (s.dropHand c n).codec = s.codec := (rfl)
@[simp] theorem State.dropHand_sec (c n : Nat) : (s.dropHand c n).sec = s.sec := (rfl)
@[simp] theorem State.dropHand_deck (c n : Nat) : (s.dropHand c n).deck = s.deck := (rfl)
@[simp] theorem State.dropHand_pin (c n : Nat) : (s.dropHand c n).pin = s.pin := (rfl)

@[simp] theorem State.takeMsg_pending (m : Msg) : (s.takeMsg m).pending = s.pending := (rfl)
@[simp] theorem State.takeMsg_free (m : Msg) : (s.takeMsg m).free = s.free := (rfl)
@[simp] theorem State.takeMsg_regs (m : Msg) : (s.takeMsg m).regs = s.regs := (rfl)
@[simp] theorem State.takeMsg_shadow (m : Msg) : (s.takeMsg m).shadow = s.shadow := (rfl)
@[simp] theorem State.takeMsg_time (m : Msg) : (s.takeMsg m).time = s.time := (rfl)
@[simp] theorem State.takeMsg_mem (m : Msg) : (s.takeMsg m).mem = s.mem := (rfl)
@[simp] theorem State.takeMsg_cores (m : Msg) : (s.takeMsg m).cores = s.cores := (rfl)
@[simp] theorem State.takeMsg_clus (m : Msg) : (s.takeMsg m).clus = s.clus := (rfl)
@[simp] theorem State.takeMsg_homes (m : Msg) : (s.takeMsg m).homes = s.homes := (rfl)
@[simp] theorem State.takeMsg_xmit (m : Msg) : (s.takeMsg m).xmit = s.xmit := (rfl)
@[simp] theorem State.takeMsg_dead (m : Msg) : (s.takeMsg m).dead = s.dead := (rfl)
@[simp] theorem State.takeMsg_filter (m : Msg) : (s.takeMsg m).filter = s.filter := (rfl)
@[simp] theorem State.takeMsg_filterInit (m : Msg) : (s.takeMsg m).filterInit = s.filterInit := (rfl)
@[simp] theorem State.takeMsg_winEntries (m : Msg) : (s.takeMsg m).winEntries = s.winEntries := (rfl)
@[simp] theorem State.takeMsg_winNew (m : Msg) : (s.takeMsg m).winNew = s.winNew := (rfl)
@[simp] theorem State.takeMsg_posted (m : Msg) : (s.takeMsg m).posted = s.posted := (rfl)
@[simp] theorem State.takeMsg_rejoin (m : Msg) : (s.takeMsg m).rejoin = s.rejoin := (rfl)
@[simp] theorem State.takeMsg_rte (m : Msg) : (s.takeMsg m).rte = s.rte := (rfl)
@[simp] theorem State.takeMsg_cpls (m : Msg) : (s.takeMsg m).cpls = s.cpls := (rfl)
@[simp] theorem State.takeMsg_host (m : Msg) : (s.takeMsg m).host = s.host := (rfl)
@[simp] theorem State.takeMsg_tasks (m : Msg) : (s.takeMsg m).tasks = s.tasks := (rfl)
@[simp] theorem State.takeMsg_cp (m : Msg) : (s.takeMsg m).cp = s.cp := (rfl)
@[simp] theorem State.takeMsg_brk (m : Msg) : (s.takeMsg m).brk = s.brk := (rfl)
@[simp] theorem State.takeMsg_pwr (m : Msg) : (s.takeMsg m).pwr = s.pwr := (rfl)
@[simp] theorem State.takeMsg_mgc (m : Msg) : (s.takeMsg m).mgc = s.mgc := (rfl)
@[simp] theorem State.takeMsg_codec (m : Msg) : (s.takeMsg m).codec = s.codec := (rfl)
@[simp] theorem State.takeMsg_sec (m : Msg) : (s.takeMsg m).sec = s.sec := (rfl)
@[simp] theorem State.takeMsg_deck (m : Msg) : (s.takeMsg m).deck = s.deck := (rfl)
@[simp] theorem State.takeMsg_pin (m : Msg) : (s.takeMsg m).pin = s.pin := (rfl)

@[simp] theorem State.atOnce_pending (e : TickEvt) : (s.atOnce e).pending = s.pending := (rfl)
@[simp] theorem State.atOnce_free (e : TickEvt) : (s.atOnce e).free = s.free := (rfl)
@[simp] theorem State.atOnce_regs (e : TickEvt) : (s.atOnce e).regs = s.regs := (rfl)
@[simp] theorem State.atOnce_shadow (e : TickEvt) : (s.atOnce e).shadow = s.shadow := (rfl)
@[simp] theorem State.atOnce_mem (e : TickEvt) : (s.atOnce e).mem = s.mem := (rfl)
@[simp] theorem State.atOnce_cores (e : TickEvt) : (s.atOnce e).cores = s.cores := (rfl)
@[simp] theorem State.atOnce_clus (e : TickEvt) : (s.atOnce e).clus = s.clus := (rfl)
@[simp] theorem State.atOnce_homes (e : TickEvt) : (s.atOnce e).homes = s.homes := (rfl)
@[simp] theorem State.atOnce_mesh (e : TickEvt) : (s.atOnce e).mesh = s.mesh := (rfl)
@[simp] theorem State.atOnce_xmit (e : TickEvt) : (s.atOnce e).xmit = s.xmit := (rfl)
@[simp] theorem State.atOnce_dead (e : TickEvt) : (s.atOnce e).dead = s.dead := (rfl)
@[simp] theorem State.atOnce_filter (e : TickEvt) : (s.atOnce e).filter = s.filter := (rfl)
@[simp] theorem State.atOnce_filterInit (e : TickEvt) : (s.atOnce e).filterInit = s.filterInit := (rfl)
@[simp] theorem State.atOnce_winEntries (e : TickEvt) : (s.atOnce e).winEntries = s.winEntries := (rfl)
@[simp] theorem State.atOnce_winNew (e : TickEvt) : (s.atOnce e).winNew = s.winNew := (rfl)
@[simp] theorem State.atOnce_posted (e : TickEvt) : (s.atOnce e).posted = s.posted := (rfl)
@[simp] theorem State.atOnce_rejoin (e : TickEvt) : (s.atOnce e).rejoin = s.rejoin := (rfl)
@[simp] theorem State.atOnce_rte (e : TickEvt) : (s.atOnce e).rte = s.rte := (rfl)
@[simp] theorem State.atOnce_cpls (e : TickEvt) : (s.atOnce e).cpls = s.cpls := (rfl)
@[simp] theorem State.atOnce_host (e : TickEvt) : (s.atOnce e).host = s.host := (rfl)
@[simp] theorem State.atOnce_tasks (e : TickEvt) : (s.atOnce e).tasks = s.tasks := (rfl)
@[simp] theorem State.atOnce_cp (e : TickEvt) : (s.atOnce e).cp = s.cp := (rfl)
@[simp] theorem State.atOnce_brk (e : TickEvt) : (s.atOnce e).brk = s.brk := (rfl)
@[simp] theorem State.atOnce_pwr (e : TickEvt) : (s.atOnce e).pwr = s.pwr := (rfl)
@[simp] theorem State.atOnce_mgc (e : TickEvt) : (s.atOnce e).mgc = s.mgc := (rfl)
@[simp] theorem State.atOnce_codec (e : TickEvt) : (s.atOnce e).codec = s.codec := (rfl)
@[simp] theorem State.atOnce_sec (e : TickEvt) : (s.atOnce e).sec = s.sec := (rfl)
@[simp] theorem State.atOnce_deck (e : TickEvt) : (s.atOnce e).deck = s.deck := (rfl)
@[simp] theorem State.atOnce_pin (e : TickEvt) : (s.atOnce e).pin = s.pin := (rfl)

@[simp] theorem State.later_pending (c n : Nat) (a : TickAct) : (s.later c n a).pending = s.pending := by unfold State.later; split <;> rfl
@[simp] theorem State.later_free (c n : Nat) (a : TickAct) : (s.later c n a).free = s.free := by unfold State.later; split <;> rfl
@[simp] theorem State.later_regs (c n : Nat) (a : TickAct) : (s.later c n a).regs = s.regs := by unfold State.later; split <;> rfl
@[simp] theorem State.later_shadow (c n : Nat) (a : TickAct) : (s.later c n a).shadow = s.shadow := by unfold State.later; split <;> rfl
@[simp] theorem State.later_mem (c n : Nat) (a : TickAct) : (s.later c n a).mem = s.mem := by unfold State.later; split <;> rfl
@[simp] theorem State.later_cores (c n : Nat) (a : TickAct) : (s.later c n a).cores = s.cores := by unfold State.later; split <;> rfl
@[simp] theorem State.later_clus (c n : Nat) (a : TickAct) : (s.later c n a).clus = s.clus := by unfold State.later; split <;> rfl
@[simp] theorem State.later_homes (c n : Nat) (a : TickAct) : (s.later c n a).homes = s.homes := by unfold State.later; split <;> rfl
@[simp] theorem State.later_mesh (c n : Nat) (a : TickAct) : (s.later c n a).mesh = s.mesh := by unfold State.later; split <;> rfl
@[simp] theorem State.later_xmit (c n : Nat) (a : TickAct) : (s.later c n a).xmit = s.xmit := by unfold State.later; split <;> rfl
@[simp] theorem State.later_dead (c n : Nat) (a : TickAct) : (s.later c n a).dead = s.dead := by unfold State.later; split <;> rfl
@[simp] theorem State.later_filter (c n : Nat) (a : TickAct) : (s.later c n a).filter = s.filter := by unfold State.later; split <;> rfl
@[simp] theorem State.later_filterInit (c n : Nat) (a : TickAct) : (s.later c n a).filterInit = s.filterInit := by unfold State.later; split <;> rfl
@[simp] theorem State.later_winEntries (c n : Nat) (a : TickAct) : (s.later c n a).winEntries = s.winEntries := by unfold State.later; split <;> rfl
@[simp] theorem State.later_winNew (c n : Nat) (a : TickAct) : (s.later c n a).winNew = s.winNew := by unfold State.later; split <;> rfl
@[simp] theorem State.later_posted (c n : Nat) (a : TickAct) : (s.later c n a).posted = s.posted := by unfold State.later; split <;> rfl
@[simp] theorem State.later_rejoin (c n : Nat) (a : TickAct) : (s.later c n a).rejoin = s.rejoin := by unfold State.later; split <;> rfl
@[simp] theorem State.later_rte (c n : Nat) (a : TickAct) : (s.later c n a).rte = s.rte := by unfold State.later; split <;> rfl
@[simp] theorem State.later_cpls (c n : Nat) (a : TickAct) : (s.later c n a).cpls = s.cpls := by unfold State.later; split <;> rfl
@[simp] theorem State.later_host (c n : Nat) (a : TickAct) : (s.later c n a).host = s.host := by unfold State.later; split <;> rfl
@[simp] theorem State.later_tasks (c n : Nat) (a : TickAct) : (s.later c n a).tasks = s.tasks := by unfold State.later; split <;> rfl
@[simp] theorem State.later_cp (c n : Nat) (a : TickAct) : (s.later c n a).cp = s.cp := by unfold State.later; split <;> rfl
@[simp] theorem State.later_brk (c n : Nat) (a : TickAct) : (s.later c n a).brk = s.brk := by unfold State.later; split <;> rfl
@[simp] theorem State.later_pwr (c n : Nat) (a : TickAct) : (s.later c n a).pwr = s.pwr := by unfold State.later; split <;> rfl
@[simp] theorem State.later_mgc (c n : Nat) (a : TickAct) : (s.later c n a).mgc = s.mgc := by unfold State.later; split <;> rfl
@[simp] theorem State.later_codec (c n : Nat) (a : TickAct) : (s.later c n a).codec = s.codec := by unfold State.later; split <;> rfl
@[simp] theorem State.later_sec (c n : Nat) (a : TickAct) : (s.later c n a).sec = s.sec := by unfold State.later; split <;> rfl
@[simp] theorem State.later_deck (c n : Nat) (a : TickAct) : (s.later c n a).deck = s.deck := by unfold State.later; split <;> rfl
@[simp] theorem State.later_pin (c n : Nat) (a : TickAct) : (s.later c n a).pin = s.pin := by unfold State.later; split <;> rfl

@[simp] theorem State.sendTo_pending (t : Option Nat) (m : Msg) : (s.sendTo t m).pending = s.pending := by cases t <;> rfl
@[simp] theorem State.sendTo_free (t : Option Nat) (m : Msg) : (s.sendTo t m).free = s.free := by cases t <;> rfl
@[simp] theorem State.sendTo_regs (t : Option Nat) (m : Msg) : (s.sendTo t m).regs = s.regs := by cases t <;> rfl
@[simp] theorem State.sendTo_shadow (t : Option Nat) (m : Msg) : (s.sendTo t m).shadow = s.shadow := by cases t <;> rfl
@[simp] theorem State.sendTo_time (t : Option Nat) (m : Msg) : (s.sendTo t m).time = s.time := by cases t <;> rfl
@[simp] theorem State.sendTo_mem (t : Option Nat) (m : Msg) : (s.sendTo t m).mem = s.mem := by cases t <;> rfl
@[simp] theorem State.sendTo_cores (t : Option Nat) (m : Msg) : (s.sendTo t m).cores = s.cores := by cases t <;> rfl
@[simp] theorem State.sendTo_clus (t : Option Nat) (m : Msg) : (s.sendTo t m).clus = s.clus := by cases t <;> rfl
@[simp] theorem State.sendTo_homes (t : Option Nat) (m : Msg) : (s.sendTo t m).homes = s.homes := by cases t <;> rfl
@[simp] theorem State.sendTo_dead (t : Option Nat) (m : Msg) : (s.sendTo t m).dead = s.dead := by cases t <;> rfl
@[simp] theorem State.sendTo_filter (t : Option Nat) (m : Msg) : (s.sendTo t m).filter = s.filter := by cases t <;> rfl
@[simp] theorem State.sendTo_filterInit (t : Option Nat) (m : Msg) : (s.sendTo t m).filterInit = s.filterInit := by cases t <;> rfl
@[simp] theorem State.sendTo_winEntries (t : Option Nat) (m : Msg) : (s.sendTo t m).winEntries = s.winEntries := by cases t <;> rfl
@[simp] theorem State.sendTo_winNew (t : Option Nat) (m : Msg) : (s.sendTo t m).winNew = s.winNew := by cases t <;> rfl
@[simp] theorem State.sendTo_posted (t : Option Nat) (m : Msg) : (s.sendTo t m).posted = s.posted := by cases t <;> rfl
@[simp] theorem State.sendTo_rejoin (t : Option Nat) (m : Msg) : (s.sendTo t m).rejoin = s.rejoin := by cases t <;> rfl
@[simp] theorem State.sendTo_rte (t : Option Nat) (m : Msg) : (s.sendTo t m).rte = s.rte := by cases t <;> rfl
@[simp] theorem State.sendTo_cpls (t : Option Nat) (m : Msg) : (s.sendTo t m).cpls = s.cpls := by cases t <;> rfl
@[simp] theorem State.sendTo_host (t : Option Nat) (m : Msg) : (s.sendTo t m).host = s.host := by cases t <;> rfl
@[simp] theorem State.sendTo_tasks (t : Option Nat) (m : Msg) : (s.sendTo t m).tasks = s.tasks := by cases t <;> rfl
@[simp] theorem State.sendTo_cp (t : Option Nat) (m : Msg) : (s.sendTo t m).cp = s.cp := by cases t <;> rfl
@[simp] theorem State.sendTo_brk (t : Option Nat) (m : Msg) : (s.sendTo t m).brk = s.brk := by cases t <;> rfl
@[simp] theorem State.sendTo_pwr (t : Option Nat) (m : Msg) : (s.sendTo t m).pwr = s.pwr := by cases t <;> rfl
@[simp] theorem State.sendTo_mgc (t : Option Nat) (m : Msg) : (s.sendTo t m).mgc = s.mgc := by cases t <;> rfl
@[simp] theorem State.sendTo_codec (t : Option Nat) (m : Msg) : (s.sendTo t m).codec = s.codec := by cases t <;> rfl
@[simp] theorem State.sendTo_sec (t : Option Nat) (m : Msg) : (s.sendTo t m).sec = s.sec := by cases t <;> rfl
@[simp] theorem State.sendTo_deck (t : Option Nat) (m : Msg) : (s.sendTo t m).deck = s.deck := by cases t <;> rfl
@[simp] theorem State.sendTo_pin (t : Option Nat) (m : Msg) : (s.sendTo t m).pin = s.pin := by cases t <;> rfl

@[simp] theorem State.hold_pending (e : TickEvt) : (s.hold e).pending = s.pending := by unfold State.hold; dsimp only; split <;> rfl
@[simp] theorem State.hold_free (e : TickEvt) : (s.hold e).free = s.free := by unfold State.hold; dsimp only; split <;> rfl
@[simp] theorem State.hold_regs (e : TickEvt) : (s.hold e).regs = s.regs := by unfold State.hold; dsimp only; split <;> rfl
@[simp] theorem State.hold_shadow (e : TickEvt) : (s.hold e).shadow = s.shadow := by unfold State.hold; dsimp only; split <;> rfl
@[simp] theorem State.hold_time (e : TickEvt) : (s.hold e).time = s.time := by unfold State.hold; dsimp only; split <;> rfl
@[simp] theorem State.hold_mem (e : TickEvt) : (s.hold e).mem = s.mem := by unfold State.hold; dsimp only; split <;> rfl
@[simp] theorem State.hold_cores (e : TickEvt) : (s.hold e).cores = s.cores := by unfold State.hold; dsimp only; split <;> rfl
@[simp] theorem State.hold_clus (e : TickEvt) : (s.hold e).clus = s.clus := by unfold State.hold; dsimp only; split <;> rfl
@[simp] theorem State.hold_homes (e : TickEvt) : (s.hold e).homes = s.homes := by unfold State.hold; dsimp only; split <;> rfl
@[simp] theorem State.hold_mesh (e : TickEvt) : (s.hold e).mesh = s.mesh := by unfold State.hold; dsimp only; split <;> rfl
@[simp] theorem State.hold_xmit (e : TickEvt) : (s.hold e).xmit = s.xmit := by unfold State.hold; dsimp only; split <;> rfl
@[simp] theorem State.hold_dead (e : TickEvt) : (s.hold e).dead = s.dead := by unfold State.hold; dsimp only; split <;> rfl
@[simp] theorem State.hold_filter (e : TickEvt) : (s.hold e).filter = s.filter := by unfold State.hold; dsimp only; split <;> rfl
@[simp] theorem State.hold_filterInit (e : TickEvt) : (s.hold e).filterInit = s.filterInit := by unfold State.hold; dsimp only; split <;> rfl
@[simp] theorem State.hold_winEntries (e : TickEvt) : (s.hold e).winEntries = s.winEntries := by unfold State.hold; dsimp only; split <;> rfl
@[simp] theorem State.hold_winNew (e : TickEvt) : (s.hold e).winNew = s.winNew := by unfold State.hold; dsimp only; split <;> rfl
@[simp] theorem State.hold_posted (e : TickEvt) : (s.hold e).posted = s.posted := by unfold State.hold; dsimp only; split <;> rfl
@[simp] theorem State.hold_rejoin (e : TickEvt) : (s.hold e).rejoin = s.rejoin := by unfold State.hold; dsimp only; split <;> rfl
@[simp] theorem State.hold_rte (e : TickEvt) : (s.hold e).rte = s.rte := by unfold State.hold; dsimp only; split <;> rfl
@[simp] theorem State.hold_cpls (e : TickEvt) : (s.hold e).cpls = s.cpls := by unfold State.hold; dsimp only; split <;> rfl
@[simp] theorem State.hold_host (e : TickEvt) : (s.hold e).host = s.host := by unfold State.hold; dsimp only; split <;> rfl
@[simp] theorem State.hold_tasks (e : TickEvt) : (s.hold e).tasks = s.tasks := by unfold State.hold; dsimp only; split <;> rfl
@[simp] theorem State.hold_cp (e : TickEvt) : (s.hold e).cp = s.cp := by unfold State.hold; dsimp only; split <;> rfl
@[simp] theorem State.hold_pwr (e : TickEvt) : (s.hold e).pwr = s.pwr := by unfold State.hold; dsimp only; split <;> rfl
@[simp] theorem State.hold_mgc (e : TickEvt) : (s.hold e).mgc = s.mgc := by unfold State.hold; dsimp only; split <;> rfl
@[simp] theorem State.hold_codec (e : TickEvt) : (s.hold e).codec = s.codec := by unfold State.hold; dsimp only; split <;> rfl
@[simp] theorem State.hold_sec (e : TickEvt) : (s.hold e).sec = s.sec := by unfold State.hold; dsimp only; split <;> rfl
@[simp] theorem State.hold_deck (e : TickEvt) : (s.hold e).deck = s.deck := by unfold State.hold; dsimp only; split <;> rfl
@[simp] theorem State.hold_pin (e : TickEvt) : (s.hold e).pin = s.pin := by unfold State.hold; dsimp only; split <;> rfl
@[simp] theorem State.issue_pending (b i n : Nat) : (s.issue b i n).pending = s.pending := by unfold State.issue; dsimp only; split <;> rfl
@[simp] theorem State.issue_free (b i n : Nat) : (s.issue b i n).free = s.free := by unfold State.issue; dsimp only; split <;> rfl
@[simp] theorem State.issue_regs (b i n : Nat) : (s.issue b i n).regs = s.regs := by unfold State.issue; dsimp only; split <;> rfl
@[simp] theorem State.issue_shadow (b i n : Nat) : (s.issue b i n).shadow = s.shadow := by unfold State.issue; dsimp only; split <;> rfl
@[simp] theorem State.issue_time (b i n : Nat) : (s.issue b i n).time = s.time := by unfold State.issue; dsimp only; split <;> rfl
@[simp] theorem State.issue_mem (b i n : Nat) : (s.issue b i n).mem = s.mem := by unfold State.issue; dsimp only; split <;> rfl
@[simp] theorem State.issue_cores (b i n : Nat) : (s.issue b i n).cores = s.cores := by unfold State.issue; dsimp only; split <;> rfl
@[simp] theorem State.issue_clus (b i n : Nat) : (s.issue b i n).clus = s.clus := by unfold State.issue; dsimp only; split <;> rfl
@[simp] theorem State.issue_homes (b i n : Nat) : (s.issue b i n).homes = s.homes := by unfold State.issue; dsimp only; split <;> rfl
@[simp] theorem State.issue_mesh (b i n : Nat) : (s.issue b i n).mesh = s.mesh := by unfold State.issue; dsimp only; split <;> rfl
@[simp] theorem State.issue_xmit (b i n : Nat) : (s.issue b i n).xmit = s.xmit := by unfold State.issue; dsimp only; split <;> rfl
@[simp] theorem State.issue_dead (b i n : Nat) : (s.issue b i n).dead = s.dead := by unfold State.issue; dsimp only; split <;> rfl
@[simp] theorem State.issue_filter (b i n : Nat) : (s.issue b i n).filter = s.filter := by unfold State.issue; dsimp only; split <;> rfl
@[simp] theorem State.issue_filterInit (b i n : Nat) : (s.issue b i n).filterInit = s.filterInit := by unfold State.issue; dsimp only; split <;> rfl
@[simp] theorem State.issue_winEntries (b i n : Nat) : (s.issue b i n).winEntries = s.winEntries := by unfold State.issue; dsimp only; split <;> rfl
@[simp] theorem State.issue_winNew (b i n : Nat) : (s.issue b i n).winNew = s.winNew := by unfold State.issue; dsimp only; split <;> rfl
@[simp] theorem State.issue_posted (b i n : Nat) : (s.issue b i n).posted = s.posted := by unfold State.issue; dsimp only; split <;> rfl
@[simp] theorem State.issue_rejoin (b i n : Nat) : (s.issue b i n).rejoin = s.rejoin := by unfold State.issue; dsimp only; split <;> rfl
@[simp] theorem State.issue_rte (b i n : Nat) : (s.issue b i n).rte = s.rte := by unfold State.issue; dsimp only; split <;> rfl
@[simp] theorem State.issue_cpls (b i n : Nat) : (s.issue b i n).cpls = s.cpls := by unfold State.issue; dsimp only; split <;> rfl
@[simp] theorem State.issue_host (b i n : Nat) : (s.issue b i n).host = s.host := by unfold State.issue; dsimp only; split <;> rfl
@[simp] theorem State.issue_tasks (b i n : Nat) : (s.issue b i n).tasks = s.tasks := by unfold State.issue; dsimp only; split <;> rfl
@[simp] theorem State.issue_cp (b i n : Nat) : (s.issue b i n).cp = s.cp := by unfold State.issue; dsimp only; split <;> rfl
@[simp] theorem State.issue_brk (b i n : Nat) : (s.issue b i n).brk = s.brk := by unfold State.issue; dsimp only; split <;> rfl
@[simp] theorem State.issue_pwr (b i n : Nat) : (s.issue b i n).pwr = s.pwr := by unfold State.issue; dsimp only; split <;> rfl
@[simp] theorem State.issue_codec (b i n : Nat) : (s.issue b i n).codec = s.codec := by unfold State.issue; dsimp only; split <;> rfl
@[simp] theorem State.issue_sec (b i n : Nat) : (s.issue b i n).sec = s.sec := by unfold State.issue; dsimp only; split <;> rfl
@[simp] theorem State.issue_deck (b i n : Nat) : (s.issue b i n).deck = s.deck := by unfold State.issue; dsimp only; split <;> rfl
@[simp] theorem State.issue_pin (b i n : Nat) : (s.issue b i n).pin = s.pin := by unfold State.issue; dsimp only; split <;> rfl

end Sys2Proof.Machine
end

