-- ==== Sys2Proof/Laws/Table.lean ====
section
/-!
SUPPORT. What the sparse tables do: reading after writing, for every table whatever its order, and the canonical form that
every write keeps.
-/
namespace Sys2Proof.NMap
variable {α : Type}

@[simp] theorem find?_nil (k : Nat) : find? ([] : NMap α) k = none := rfl

@[simp] theorem find?_insert_self (m : NMap α) (k : Nat) (v : α) : find? (insert m k v) k = some v := by
  induction m with
  | nil => simp [insert, find?]
  | cons p t ih =>
    obtain ⟨j, w⟩ := p
    simp only [insert]
    split
    · simp [find?]
    · split
      · simp [find?]
      · rename_i h1 h2
        simp only [find?]
        rw [if_neg (fun h => h2 h.symm)]
        exact ih

theorem find?_insert_ne (m : NMap α) {k j : Nat} (v : α) (h : j ≠ k) : find? (insert m k v) j = find? m j := by
  induction m with
  | nil => simp [insert, find?, Ne.symm h]
  | cons p t ih =>
    obtain ⟨i, w⟩ := p
    simp only [insert]
    split
    · simp [find?, Ne.symm h]
    · split
      · rename_i h1 h2
        subst h2
        simp [find?, Ne.symm h]
      · simp only [find?]
        split
        · rfl
        · exact ih

theorem find?_insert (m : NMap α) (k j : Nat) (v : α) :
    find? (insert m k v) j = if j = k then some v else find? m j := by
  split
  · rename_i h; subst h; simp
  · rename_i h; exact find?_insert_ne m v h

@[simp] theorem find?_erase_self (m : NMap α) (k : Nat) : find? (erase m k) k = none := by
  induction m with
  | nil => rfl
  | cons p t ih =>
    obtain ⟨i, w⟩ := p
    simp only [erase]
    split
    · exact ih
    · rename_i h
      simp only [find?]
      rw [if_neg h]
      exact ih

theorem find?_erase_ne (m : NMap α) {k j : Nat} (h : j ≠ k) : find? (erase m k) j = find? m j := by
  induction m with
  | nil => rfl
  | cons p t ih =>
    obtain ⟨i, w⟩ := p
    simp only [erase]
    split
    · rename_i hi
      subst hi
      simp only [find?]
      rw [if_neg (Ne.symm h)]
      exact ih
    · simp only [find?]
      split
      · rfl
      · exact ih

theorem get_set [DecidableEq α] (d : α) (m : NMap α) (k j : Nat) (v : α) :
    get d (set d m k v) j = if j = k then v else get d m j := by
  unfold get set
  by_cases hv : v = d
  · subst hv
    by_cases hj : j = k
    · subst hj; simp
    · simp [hj, find?_erase_ne m hj]
  · by_cases hj : j = k
    · subst hj; simp [hv]
    · simp [hv, hj, find?_insert_ne m v hj]

@[simp] theorem get_set_self [DecidableEq α] (d : α) (m : NMap α) (k : Nat) (v : α) : get d (set d m k v) k = v := by
  simp [get_set]

theorem get_set_ne [DecidableEq α] (d : α) (m : NMap α) {k j : Nat} (v : α) (h : j ≠ k) :
    get d (set d m k v) j = get d m j := by
  simp [get_set, h]

/-! ### The canonical form -/

/-- Every key of a table is above `k`. -/
def Above (k : Nat) (m : NMap α) : Prop := ∀ p ∈ m, k < p.1

theorem sorted_cons (j : Nat) (w : α) (t : NMap α) : sorted ((j, w) :: t) = true ↔ Above j t ∧ sorted t = true := by
  induction t generalizing j w with
  | nil => simp [sorted, Above]
  | cons p t ih =>
    obtain ⟨i, x⟩ := p
    simp only [sorted, Bool.and_eq_true, decide_eq_true_eq]
    constructor
    · rintro ⟨h, hs⟩
      refine ⟨?_, hs⟩
      intro p hp
      rcases List.mem_cons.1 hp with rfl | hp
      · exact h
      · exact Nat.lt_trans h (((ih i x).1 hs).1 p hp)
    · rintro ⟨h, hs⟩
      exact ⟨h (i, x) (by simp), hs⟩

theorem above_insert {a k : Nat} {m : NMap α} (v : α) (hk : a < k) (hm : Above a m) : Above a (insert m k v) := by
  induction m with
  | nil => intro p hp; simp [insert] at hp; subst hp; exact hk
  | cons q t ih =>
    obtain ⟨j, w⟩ := q
    have hj : a < j := hm (j, w) (by simp)
    have ht : Above a t := fun p hp => hm p (by simp [hp])
    intro p hp
    simp only [insert] at hp
    split at hp
    · rcases List.mem_cons.1 hp with rfl | hp
      · exact hk
      · exact hm p hp
    · split at hp
      · rcases List.mem_cons.1 hp with rfl | hp
        · exact hk
        · exact ht p hp
      · rcases List.mem_cons.1 hp with rfl | hp
        · exact hj
        · exact ih ht p hp

theorem above_erase {a : Nat} {m : NMap α} (k : Nat) (hm : Above a m) : Above a (erase m k) := by
  induction m with
  | nil => exact hm
  | cons q t ih =>
    obtain ⟨j, w⟩ := q
    have ht : Above a t := fun p hp => hm p (by simp [hp])
    simp only [erase]
    split
    · exact ih ht
    · intro p hp
      rcases List.mem_cons.1 hp with rfl | hp
      · exact hm (j, w) (by simp)
      · exact ih ht p hp

theorem sorted_insert {m : NMap α} (k : Nat) (v : α) (h : sorted m = true) : sorted (insert m k v) = true := by
  induction m with
  | nil => rfl
  | cons q t ih =>
    obtain ⟨j, w⟩ := q
    obtain ⟨ha, hs⟩ := (sorted_cons j w t).1 h
    simp only [insert]
    split
    · rename_i hkj
      refine (sorted_cons _ _ _).2 ⟨?_, h⟩
      intro p hp
      rcases List.mem_cons.1 hp with rfl | hp
      · exact hkj
      · exact Nat.lt_trans hkj (ha p hp)
    · split
      · rename_i _ hkj
        subst hkj
        exact (sorted_cons _ _ _).2 ⟨ha, hs⟩
      · rename_i h1 h2
        exact (sorted_cons _ _ _).2 ⟨above_insert v (by omega) ha, ih hs⟩

theorem sorted_erase {m : NMap α} (k : Nat) (h : sorted m = true) : sorted (erase m k) = true := by
  induction m with
  | nil => rfl
  | cons q t ih =>
    obtain ⟨j, w⟩ := q
    obtain ⟨ha, hs⟩ := (sorted_cons j w t).1 h
    simp only [erase]
    split
    · exact ih hs
    · exact (sorted_cons _ _ _).2 ⟨above_erase k ha, ih hs⟩

theorem mem_insert {m : NMap α} {k : Nat} {v : α} {p : Nat × α} (h : p ∈ insert m k v) : p = (k, v) ∨ p ∈ m := by
  induction m with
  | nil => simpa [insert] using h
  | cons q t ih =>
    obtain ⟨j, w⟩ := q
    simp only [insert] at h
    split at h
    · simpa using h
    · split at h
      · rcases List.mem_cons.1 h with h | h
        · exact .inl h
        · exact .inr (by simp [h])
      · rcases List.mem_cons.1 h with h | h
        · exact .inr (by simp [h])
        · rcases ih h with h | h
          · exact .inl h
          · exact .inr (by simp [h])

theorem mem_erase {m : NMap α} {k : Nat} {p : Nat × α} (h : p ∈ erase m k) : p ∈ m := by
  induction m with
  | nil => exact h
  | cons q t ih =>
    obtain ⟨j, w⟩ := q
    simp only [erase] at h
    split at h
    · simp [ih h]
    · rcases List.mem_cons.1 h with h | h
      · simp [h]
      · simp [ih h]

/-- A write keeps the canonical form. -/
theorem canonical_set [DecidableEq α] {d : α} {m : NMap α} (k : Nat) (v : α) (h : canonical d m = true) :
    canonical d (set d m k v) = true := by
  simp only [canonical, Bool.and_eq_true, List.all_eq_true, decide_eq_true_eq] at h ⊢
  obtain ⟨hs, ha⟩ := h
  unfold set
  split
  · exact ⟨sorted_erase k hs, fun p hp => ha p (mem_erase hp)⟩
  · rename_i hv
    refine ⟨sorted_insert k v hs, fun p hp => ?_⟩
    rcases mem_insert hp with rfl | hp
    · exact hv
    · exact ha p hp

@[simp] theorem canonical_nil [DecidableEq α] (d : α) : canonical d ([] : NMap α) = true := rfl

end Sys2Proof.NMap
end

