-- ==== Sys2Proof/Laws/Registers.lean ====
section
/-!
SUPPORT. Registers, cores and hands after they are written: what was written is read, and everything else stays.
-/
namespace Sys2Proof.Machine

theorem Field.ctorIdx_inj {f g : Field} (h : f.ctorIdx = g.ctorIdx) : f = g := by
  rw [← Field.ofNat_ctorIdx f, h, Field.ofNat_ctorIdx g]

theorem regKey_inj {f g : Field} {i j n m : Nat} : regKey f i n = regKey g j m ↔ f = g ∧ i = j ∧ n = m := by
  unfold regKey
  rw [Nat.pair_eq_pair, Nat.pair_eq_pair]
  constructor
  · rintro ⟨h, h'⟩; exact ⟨Field.ctorIdx_inj h, h'⟩
  · rintro ⟨rfl, h⟩; exact ⟨rfl, h⟩

/-- A register after one is written. -/
theorem State.reg_setReg (s : State) (f g : Field) (v i j n m : Nat) :
    (s.setReg f v i n).reg g j m = if g = f ∧ j = i ∧ m = n then v else s.reg g j m := by
  unfold State.reg State.setReg
  by_cases h : g = f ∧ j = i ∧ m = n
  · obtain ⟨rfl, rfl, rfl⟩ := h
    simp
  · rw [if_neg h]
    have hk : regKey g j m ≠ regKey f i n := fun e => h (regKey_inj.1 e)
    simp only [NMap.get]
    unfold NMap.set
    split
    · rw [NMap.find?_erase_ne _ hk]
    · rw [NMap.find?_insert_ne _ _ hk]

@[simp] theorem State.reg_setReg_self (s : State) (f : Field) (v i n : Nat) : (s.setReg f v i n).reg f i n = v := by
  simp [State.reg_setReg]

theorem State.reg_setReg_ne (s : State) {f g : Field} (v i j n m : Nat) (h : g ≠ f) :
    (s.setReg f v i n).reg g j m = s.reg g j m := by
  simp [State.reg_setReg, h]

/-- A register after a pair of 32-bit registers is written. -/
theorem State.reg_setReg64 (s : State) (l h g : Field) (v i j n m : Nat) :
    (s.setReg64 l h v i n).reg g j m =
      if g = h ∧ j = i ∧ m = n then v / 2 ^ 32 % 2 ^ 32
      else if g = l ∧ j = i ∧ m = n then (v % 2 ^ 32) >>> l.spec.lo else s.reg g j m := by
  unfold State.setReg64
  rw [State.reg_setReg, State.reg_setReg]

/-- A counter after it counts: one more, and never above 32 bits of ones. -/
theorem State.reg_count (s : State) (f g : Field) (i j n m k : Nat) :
    (s.count f i n k).reg g j m = if g = f ∧ j = i ∧ m = n then satAdd32 (s.reg f i n) k else s.reg g j m := by
  unfold State.count
  rw [State.reg_setReg]

/-- Registers depend on the register table alone. -/
theorem State.reg_congr {s t : State} (h : t.regs = s.regs) (f : Field) (i n : Nat) : t.reg f i n = s.reg f i n := by
  simp [State.reg, h]

theorem State.core_congr {s t : State} (h : t.cores = s.cores) (c : Nat) : t.core c = s.core c := by
  simp [State.core, h]

/-- A core after one is written. -/
theorem State.core_setCore (s : State) (c d : Nat) (v : Core) : (s.setCore c v).core d = if d = c then v else s.core d := by
  simp [State.core, State.setCore, NMap.get_set]

@[simp] theorem State.core_setCore_self (s : State) (c : Nat) (v : Core) : (s.setCore c v).core c = v := by
  simp [State.core_setCore]

theorem State.clu_setClu (s : State) (c d : Nat) (v : Cluster) : (s.setClu c v).clu d = if d = c then v else s.clu d := by
  simp [State.clu, State.setClu, NMap.get_set]

theorem State.home_setHome (s : State) (c d : Nat) (v : HomeSt) : (s.setHome c v).home d = if d = c then v else s.home d := by
  simp [State.home, State.setHome, NMap.get_set]

/-- A hand after one is written. -/
theorem State.hand_setHand (s : State) (c d n m : Nat) (h : Hand) :
    (s.setHand c n h).hand d m = if d = c ∧ m = n then some h else s.hand d m := by
  unfold State.hand State.setHand
  rw [State.core_setCore]
  by_cases hd : d = c
  · subst hd
    simp [NMap.find?_insert]
  · simp [hd]

@[simp] theorem State.hand_setHand_self (s : State) (c n : Nat) (h : Hand) : (s.setHand c n h).hand c n = some h := by
  simp [State.hand_setHand]

/-- A slot after a hand has left one. -/
theorem State.hand_dropHand (s : State) (c d n m : Nat) :
    (s.dropHand c n).hand d m = if d = c ∧ m = n then none else s.hand d m := by
  unfold State.hand State.dropHand
  rw [State.core_setCore]
  by_cases hd : d = c
  · subst hd
    by_cases hm : m = n
    · subst hm; simp
    · simp [hm, NMap.find?_erase_ne _ hm]
  · simp [hd]

/-- The state after reset has every register at its reset value. -/
@[simp] theorem State.reg_reset (f : Field) (i n : Nat) : State.reset.reg f i n = resetValue f n := rfl

end Sys2Proof.Machine
end

