-- ==== Sys2Proof/Laws/Issue.lean ====
section
/-!
SUPPORT. Issuing an instruction: what it comes to where nothing holds the hand, and what counting an issue changes.
-/
namespace Sys2Proof.Machine
open Sys2Proof.Safety

/-- Counting issues writes their counts alone. -/
theorem issueCounts_same (s : State) (i : Issue) : Same [.regs] s (issueCounts s i) := by
  unfold issueCounts
  dsimp only
  split <;> simp [Same]

theorem issueCounts_regs (s : State) (i : Issue) : SameRegs issueFields s (issueCounts s i) := by
  intro f j n hf
  simp only [issueFields, List.mem_cons, List.not_mem_nil, or_false, not_or] at hf
  unfold issueCounts
  dsimp only
  split <;> simp only [State.reg_setReg64, hf, false_and, if_false]

@[simp] theorem countIssue_time (s : State) (i : Issue) (u : ExecUnit) : (countIssue s i u).time = s.time := by
  have h := issueCounts_same s i
  simp only [Same, List.mem_cons, List.not_mem_nil, or_false, reduceCtorEq, false_or] at h
  simp [countIssue, h]

theorem core_issueCounts (s : State) (i : Issue) (d : Nat) : (issueCounts s i).core d = s.core d := by
  have h := issueCounts_same s i
  simp only [Same, List.mem_cons, List.not_mem_nil, or_false, reduceCtorEq, false_or] at h
  exact State.core_congr h.2.2.2.2.2.2.1 d

theorem core_countIssue (s : State) (i : Issue) (u : ExecUnit) (d : Nat) :
    (countIssue s i u).core d = if d = i.core.val then (s.core i.core).chosen i u else s.core d := by
  rw [countIssue, State.core_setCore, core_issueCounts]

/-- Counting an issue touches its own core alone. -/
theorem onlyHand_countIssue (s : State) (i : Issue) (u : ExecUnit) : OnlyHand i s (countIssue s i u) := by
  have hc := issueCounts_same s i
  simp only [Same, List.mem_cons, List.not_mem_nil, or_false, reduceCtorEq, false_or] at hc
  refine ⟨?_, ?_, ?_, ?_⟩
  · simp [Same, countIssue, hc]
  · intro f j n hf
    rw [← issueCounts_regs s i f j n hf]
    exact State.reg_congr (by simp [countIssue]) f j n
  · intro d hd
    simp [hd, core_countIssue]
  · intro n hn
    unfold State.hand
    rw [core_countIssue, if_pos rfl]
    unfold Core.chosen
    split <;> rfl

/-- Writing into the core of the issue keeps to it, where the other slots stay. -/
theorem OnlyHand.setCore {i : Issue} {s t : State} (h : OnlyHand i s t) {co : Core}
    (hs : ∀ n, n ≠ i.slot.val → NMap.find? co.slots n = s.hand i.core n) : OnlyHand i s (t.setCore i.core co) := by
  obtain ⟨h1, h2, h3, h4⟩ := h
  refine ⟨?_, ?_, ?_, ?_⟩
  · simp only [Same, List.mem_cons, List.not_mem_nil, or_false, reduceCtorEq, false_or] at h1
    simp [Same, h1]
  · intro f j n hf
    rw [← h2 f j n hf]
    exact State.reg_congr (State.setCore_regs _ _ _) f j n
  · intro d hd
    rw [State.core_setCore, if_neg hd]
    exact h3 d hd
  · intro n hn
    unfold State.hand
    rw [State.core_setCore_self]
    exact hs n hn

/-- Writing the hand of the issue keeps to it. -/
theorem OnlyHand.setHand {i : Issue} {s t : State} (h : OnlyHand i s t) (hh : Hand) :
    OnlyHand i s (t.setHand i.core i.slot hh) := by
  refine OnlyHand.setCore h (co := { t.core i.core with slots := NMap.insert (t.core i.core).slots i.slot hh }) ?_
  intro n hn
  rw [NMap.find?_insert_ne _ _ hn]
  exact h.2.2.2 n hn

/-- An instruction that nothing holds has its effect, on a hand whose program counter already names the next one. -/
theorem issue_of {s : State} {i : Issue} {ins : Insn} {sp : IssueSpec} {h : Hand}
    (hc : CanIssue s i sp.opc sp.unit ins h sp.names) (hl : sp.legal h = true) (hm : sp.matrix h = false)
    (hr : sp.ready s (s.core i.core) h = true) (ha : sp.access s (s.core i.core) h = none) :
    issue s i ins sp = sp.body ((countIssue s i sp.unit).setHand i.core i.slot (h.issued s.coreTime ins))
      ((countIssue s i sp.unit).core i.core) (h.issued s.coreTime ins) := by
  obtain ⟨hi, hb, hp, hw⟩ := hc
  unfold issue
  rw [hi]
  have hb' : ¬ (breakMask s i.core i.slot h ≠ 0 ∧ h.skipBp = false) := by
    rintro ⟨h1, h2⟩
    rcases hb with hb | hb
    · exact h1 hb
    · simp [hb] at h2
  simp only [hb', hp, hl, hm, hw, hr, ha, if_false, Bool.not_true, Bool.false_eq_true, Bool.or_self, State.coreTime,
    countIssue_time]

/-- An instruction whose fields break a rule of its opcode raises the illegal-instruction fault. -/
theorem issue_illegal {s : State} {i : Issue} {ins : Insn} {sp : IssueSpec} {h : Hand}
    (hc : CanIssue s i sp.opc sp.unit ins h sp.names) (hl : sp.legal h = false) :
    issue s i ins sp = raiseFault s i.core i.slot h (faultAt s h sp.opc ins 1 0xFF 0) := by
  obtain ⟨hi, hb, hp, hw⟩ := hc
  unfold issue
  rw [hi]
  have hb' : ¬ (breakMask s i.core i.slot h ≠ 0 ∧ h.skipBp = false) := by
    rintro ⟨h1, h2⟩
    rcases hb with hb | hb
    · exact h1 hb
    · simp [hb] at h2
  simp only [hb', hp, hl, if_false, Bool.not_false, if_true]

end Sys2Proof.Machine
end

