-- ==== Sys2Proof/Laws/Memory.lean ====
section
/-!
SUPPORT. Memory after it is written: what a granule reads as, what every operation of the shared parts leaves alone, and the
canonical form that every memory operation keeps.
-/
namespace Sys2Proof.Machine

theorem foldState_keeps {σ α : Type} {p : σ → Prop} (f : σ → α → σ) (l : List α) (s : σ) (h : p s)
    (hf : ∀ s a, p s → p (f s a)) : p (foldState f l s) := by
  induction l generalizing s with
  | nil => exact h
  | cons a t ih => exact ih _ (hf _ _ h)

theorem foldState_proj {σ α β : Type} (g : σ → β) (f : σ → α → σ) (l : List α) (s : σ)
    (hf : ∀ s a, g (f s a) = g s) : g (foldState f l s) = g s := by
  induction l generalizing s with
  | nil => rfl
  | cons a t ih => exact (ih _).trans (hf _ _)

/-! ### Messages and events leave memory alone -/

@[simp] theorem State.sendPost_mem (s : State) (u : PostUse) (m : Msg) : (s.sendPost u m).mem = s.mem := by
  unfold State.sendPost
  dsimp only
  split <;> simp

@[simp] theorem State.hostWrite_mem (s : State) (a : Nat) (bs : List Byte) (c : GState) :
    (s.hostWrite a bs c).mem = s.mem := by
  unfold State.hostWrite
  split
  · simp
  · rfl

@[simp] theorem State.writePiece_mem (s : State) (w : Agent) (a : Nat) (bs : List Byte) (c : GState) (n : Option Nat) :
    (s.writePiece w a bs c n).mem = s.mem := by
  unfold State.writePiece
  dsimp only
  split <;> simp

@[simp] theorem State.fabricWrite_mem (s : State) (w : Agent) (a : Nat) (bs : List Byte) (c : GState) (n : Option Nat) :
    (s.fabricWrite w a bs c n).mem = s.mem := by
  unfold State.fabricWrite
  exact foldState_proj State.mem _ _ _ fun s p => by simp

@[simp] theorem State.postEvent_mem (s : State) (n : Nat) (p : List Byte) : (s.postEvent n p).mem = s.mem := by
  unfold State.postEvent
  by_cases h : s.reg .CTX_STATE ≠ 1 ∨ s.isSet .BRK_BRAKED
  · rw [if_pos h]
  · rw [if_neg h]
    simp only [apply_ite State.mem, State.issue_mem, State.count_mem, State.setReg_mem, State.fabricWrite_mem, ite_self]

/-! ### What a granule reads as -/

theorem rawByte_fold (bs : List Byte) (g : Nat) : ∀ (l : List Nat) (c : NMap Byte) (j : Nat),
    NMap.get 0 (foldState (fun c i => NMap.set 0 c (32 * g + i) (bs.getD i 0)) l c) j =
      if j < 32 * g then NMap.get 0 c j else if j - 32 * g ∈ l then bs.getD (j - 32 * g) 0 else NMap.get 0 c j := by
  intro l
  induction l with
  | nil => intro c j; simp [foldState]
  | cons i t ih =>
    intro c j
    simp only [foldState]
    rw [ih, NMap.get_set]
    by_cases h1 : j < 32 * g
    · have h2 : j ≠ 32 * g + i := by omega
      simp [h1, h2]
    · by_cases h2 : j = 32 * g + i
      · subst h2
        simp
      · have h3 : j - 32 * g ≠ i := by omega
        simp [h1, h2, h3]

/-- A granule that has been written reads back as it was written. -/
theorem decodeGran_putGran (s : State) (g : Nat) (st : GState) (bs : List Byte) :
    decodeGran (s.putGran g st bs).mem g =
      some ⟨st, (List.range 32).map fun i => if st = .good then bs.getD i 0 else 0, false⟩ := by
  unfold State.putGran decodeGran
  simp only [NMap.get, NMap.find?_erase_self, Option.getD_none, if_true]
  have h1 : (NMap.find? (NMap.set GState.good s.mem.gran g st) g).getD .good = st := NMap.get_set_self _ _ _ _
  rw [h1]
  congr 2
  unfold rawBytes
  refine List.map_congr_left fun i hi => ?_
  simp only [List.mem_range] at hi
  rw [rawByte_fold]
  have h2 : ¬ 32 * g + i < 32 * g := by omega
  have h3 : 32 * g + i - 32 * g = i := by omega
  simp only [h2, h3, if_false, List.mem_range, hi, if_true]
  by_cases h : st = .good
  · simp [h]
  · simp only [h, if_false]
    rw [List.getD_eq_getElem?_getD, List.getElem?_replicate]
    simp [hi]

/-! ### The canonical form -/

theorem NMap.canonical_erase {α : Type} [DecidableEq α] {d : α} {m : NMap α} (k : Nat) (h : NMap.canonical d m = true) :
    NMap.canonical d (NMap.erase m k) = true := by
  unfold NMap.canonical at *
  simp only [Bool.and_eq_true, List.all_eq_true] at *
  exact ⟨NMap.sorted_erase k h.1, fun p hp => h.2 p (NMap.mem_erase hp)⟩

theorem NMap.sorted_filter {α : Type} (m : NMap α) (p : Nat × α → Bool) (h : NMap.sorted m = true) :
    NMap.sorted (m.filter p) = true := by
  induction m with
  | nil => rfl
  | cons q t ih =>
    obtain ⟨j, w⟩ := q
    obtain ⟨ha, hs⟩ := (NMap.sorted_cons j w t).1 h
    simp only [List.filter_cons]
    split
    · exact (NMap.sorted_cons _ _ _).2 ⟨fun x hx => ha x (List.mem_of_mem_filter hx), ih hs⟩
    · exact ih hs

theorem NMap.canonical_filter {α : Type} [DecidableEq α] {d : α} {m : NMap α} (p : Nat × α → Bool)
    (h : NMap.canonical d m = true) : NMap.canonical d (m.filter p) = true := by
  unfold NMap.canonical at *
  simp only [Bool.and_eq_true, List.all_eq_true] at *
  exact ⟨NMap.sorted_filter m p h.1, fun x hx => h.2 x (List.mem_of_mem_filter hx)⟩

theorem MemSt.wf_iff (m : MemSt) : m.wf = true ↔
    NMap.canonical 0 m.cells = true ∧ NMap.canonical .good m.gran = true ∧ NMap.canonical [] m.err = true := by
  simp [MemSt.wf, and_assoc]

/-- The reset memory is in canonical form. -/
theorem State.reset_memory : State.reset.mem.cells = [] ∧ State.reset.mem.gran = [] ∧ State.reset.mem.err = [] :=
  ⟨rfl, rfl, rfl⟩

theorem State.putGran_wf (s : State) (g : Nat) (st : GState) (bs : List Byte) (h : s.mem.wf = true) :
    (s.putGran g st bs).mem.wf = true := by
  rw [MemSt.wf_iff] at *
  refine ⟨?_, NMap.canonical_set _ _ h.2.1, NMap.canonical_erase _ h.2.2⟩
  exact foldState_keeps (p := fun c => NMap.canonical 0 c = true) _ _ _ h.1 fun c i hc => NMap.canonical_set _ _ hc

/-- The parts of memory that its canonical form is about. -/
def MemSt.data (m : MemSt) : NMap Byte × NMap GState × NMap (List (Nat × BitVec 16)) := (m.cells, m.gran, m.err)

theorem MemSt.wf_of_data {m n : MemSt} (h : n.data = m.data) (hm : m.wf = true) : n.wf = true := by
  simp only [MemSt.data, Prod.mk.injEq] at h
  rw [MemSt.wf_iff] at *
  rw [h.1, h.2.1, h.2.2]
  exact hm

theorem State.rowNeeds_data (s : State) (k ls : Nat) : (s.rowNeeds k ls).mem.data = s.mem.data := by
  unfold State.rowNeeds
  by_cases h : (NMap.find? s.mem.rowDue (rowKey k ls)).isSome = true
  · rw [if_pos h]
  · rw [if_neg h]
    rfl

theorem State.postUe_data (s : State) (g : Nat) (c : MemSrc) : (s.postUe g c).mem.data = s.mem.data := by
  unfold State.postUe
  simp only [apply_ite State.mem, apply_ite MemSt.data, State.postEvent_mem]
  simp only [MemSt.data, ite_self]

theorem State.countCe_data (s : State) (g : Nat) : (s.countCe g).mem.data = s.mem.data := by
  unfold State.countCe
  simp only [apply_ite State.mem, apply_ite MemSt.data, State.rowNeeds_data]
  simp only [MemSt.data, State.count_mem, ite_self]

theorem State.countUe_data (s : State) (g : Nat) (c : MemSrc) : (s.countUe g c).mem.data = s.mem.data := by
  unfold State.countUe
  simp only [State.postUe_data, State.rowNeeds_data, apply_ite State.mem, apply_ite MemSt.data, State.later_mem]
  simp only [MemSt.data, State.count_mem, ite_self]

theorem State.countCe_wf (s : State) (g : Nat) (h : s.mem.wf = true) : (s.countCe g).mem.wf = true :=
  MemSt.wf_of_data (s.countCe_data g) h

theorem State.countUe_wf (s : State) (g : Nat) (c : MemSrc) (h : s.mem.wf = true) : (s.countUe g c).mem.wf = true :=
  MemSt.wf_of_data (s.countUe_data g c) h

theorem State.count_wf (s : State) (f : Field) (i n k : Nat) (h : s.mem.wf = true) : (s.count f i n k).mem.wf = true := by
  simpa using h

/-- What a read of a granule leaves, by what decoding finds. -/
theorem State.readGran_state (s : State) (g : Nat) (c : MemSrc) : (s.readGran g c).2 =
    match decodeGran s.mem g with
    | none => (s.putGran g .poison []).countUe g c
    | some r => if r.fixed then (s.putGran g r.st r.bytes).countCe g else s := by
  unfold State.readGran
  cases decodeGran s.mem g with
  | none => simp only
  | some r => simp only [apply_ite Prod.snd]

theorem State.readGran_wf (s : State) (g : Nat) (c : MemSrc) (h : s.mem.wf = true) : (s.readGran g c).2.mem.wf = true := by
  rw [State.readGran_state]
  cases decodeGran s.mem g with
  | none => exact State.countUe_wf _ _ _ (State.putGran_wf _ _ _ _ h)
  | some r =>
    dsimp only
    by_cases hf : r.fixed = true
    · rw [if_pos hf]
      exact State.countCe_wf _ _ (State.putGran_wf _ _ _ _ h)
    · rw [if_neg hf]
      exact h

theorem State.readLine_wf (s : State) (o : Nat) (c : MemSrc) (h : s.mem.wf = true) : (s.readLine o c).2.mem.wf = true := by
  unfold State.readLine
  dsimp only
  split
  · exact State.count_wf _ _ _ _ _ h
  · exact State.readGran_wf _ _ _ (State.readGran_wf _ _ _ (State.readGran_wf _ _ _ (State.readGran_wf _ _ _ h)))

theorem State.readBytes_wf (s : State) (o n : Nat) (h : s.mem.wf = true) : (s.readBytes o n).2.mem.wf = true :=
  State.readLine_wf s o .demand h

theorem State.writeLine_wf (s : State) (o : Nat) (d : LineData) (h : s.mem.wf = true) : (s.writeLine o d).mem.wf = true := by
  unfold State.writeLine
  split
  · exact State.count_wf _ _ _ _ _ h
  · exact foldState_keeps (p := fun (s : State) => s.mem.wf = true) _ _ _ h fun s i hs => State.putGran_wf _ _ _ _ hs

theorem State.writeGran_wf (s : State) (o : Nat) (bs : List Byte) (c : GState) (h : s.mem.wf = true) :
    (s.writeGran o bs c).mem.wf = true := by
  unfold State.writeGran
  by_cases h1 : bs.length = 32
  · simp only [if_pos h1]
    exact State.putGran_wf _ _ _ _ h
  · simp only [if_neg h1]
    by_cases h2 : c ≠ .good
    · simp only [if_pos h2, State.count_mem]
      exact State.putGran_wf _ _ _ _ h
    · simp only [if_neg h2]
      cases decodeGran s.mem (o / 32) with
      | none =>
        simp only [State.count_mem]
        exact State.countUe_wf _ _ _ (State.putGran_wf _ _ _ _ h)
      | some r =>
        simp only
        have hx : (if r.fixed = true then s.countCe (o / 32) else s).mem.wf = true := by
          by_cases hf : r.fixed = true
          · rw [if_pos hf]
            exact State.countCe_wf _ _ h
          · rw [if_neg hf]
            exact h
        generalize (if r.fixed = true then s.countCe (o / 32) else s) = x at hx
        by_cases hs : r.st = .good
        · simp only [if_pos hs]
          refine State.putGran_wf _ _ _ _ ?_
          rw [apply_ite State.mem, State.count_mem, ite_self]
          exact hx
        · simp only [if_neg hs, State.count_mem]
          by_cases hf : r.fixed = true
          · simp only [if_pos hf]
            exact State.putGran_wf _ _ _ _ hx
          · simp only [if_neg hf]
            exact hx

theorem State.writeBytes_wf (s : State) (o : Nat) (bs : List Byte) (c : GState) (h : s.mem.wf = true) :
    (s.writeBytes o bs c).mem.wf = true := by
  unfold State.writeBytes
  split
  · exact State.count_wf _ _ _ _ _ h
  · exact foldState_keeps (p := fun (s : State) => s.mem.wf = true) _ _ _ h fun s p hs => State.writeGran_wf _ _ _ _ hs

theorem State.memAmo_wf (s : State) (o : Nat) (p : Part) (h : s.mem.wf = true) : (s.memAmo o p).2.mem.wf = true := by
  unfold State.memAmo
  by_cases hr : s.retiredAt o = true
  · rw [if_pos hr]
    simp only [State.count_mem]
    exact h
  · rw [if_neg hr]
    cases p.op with
    | amo op typ c new =>
      have hg := s.readGran_wf (o / 32) .demand h
      generalize s.readGran (o / 32) .demand = g at hg
      by_cases hs : g.1.st = .good
      · simp only [if_pos hs]
        exact State.writeGran_wf _ _ _ _ hg
      · simp only [if_neg hs, State.count_mem]
        exact hg
    | load => simpa only using h
    | store d => simpa only using h
    | signal op err => simpa only using h

end Sys2Proof.Machine
end

