-- ==== Sys2Proof/Laws/Vector.lean ====
section
/-!
SUPPORT. Vector, uniform and predicate registers after they are written.
-/
namespace Sys2Proof.Machine

theorem Core.setV_slots (co : Core) (h : Hand) (r : Nat) (f : Nat → Option Word) : (co.setV h r f).slots = co.slots := (rfl)

/-- A physical register after a vector register is written: the lanes given a value take it, the others stay. -/
theorem Core.vrf_setV (co : Core) (h : Hand) (r p : Nat) (f : Nat → Option Word) :
    NMap.get zeroLanes (co.setV h r f).vrf p =
      if p = h.phys r then (List.range 64).map fun i => (f i).getD ((NMap.get zeroLanes co.vrf p).getD i 0)
      else NMap.get zeroLanes co.vrf p := by
  unfold Core.setV
  dsimp only
  rw [NMap.get_set]
  split
  · rename_i hp; subst hp; rfl
  · rfl

/-- A lane of a vector register after one is written. -/
theorem Core.v_setV (co : Core) (h : Hand) (r q i : Nat) (f : Nat → Option Word) (hi : i < 64) :
    (co.setV h r f).v h q i = if h.phys q = h.phys r then (f i).getD (co.v h q i) else co.v h q i := by
  unfold Core.v
  rw [Core.vrf_setV]
  split
  · simp [List.getD, hi]
  · rfl

/-- The two registers of an even pair stand on different physical registers. -/
theorem Hand.phys_pair (h : Hand) {r : Nat} (hr : r % 2 = 0) : h.phys (r + 1) ≠ h.phys r := by
  unfold Hand.phys
  have h1 : (r + 1) / 16 = r / 16 := by omega
  have h2 : (r + 1) % 16 = r % 16 + 1 := by omega
  rw [h1, h2]
  omega

theorem Core.setVTy_slots (co : Core) (h : Hand) (t : Ty) (r : Nat) (f : Nat → Option Nat) :
    (co.setVTy h t r f).slots = co.slots := by
  unfold Core.setVTy
  dsimp only
  split
  · rw [Core.setV_slots, Core.setV_slots]
  · rw [Core.setV_slots]

/-- A value of a type after one is written to the same register or pair. -/
theorem Core.vTy_setVTy (co : Core) (h : Hand) (t : Ty) (r k : Nat) (f : Nat → Option Nat) (hk : k < 64)
    (hr : t.wide = true → r % 2 = 0) :
    (co.setVTy h t r f).vTy h t r k = match f k with
      | some v => v % 2 ^ t.width
      | none => co.vTy h t r k := by
  unfold Core.setVTy Core.vTy
  dsimp only
  by_cases hw : t.wide = true
  · have hp := h.phys_pair (hr hw)
    simp only [hw, if_true, Core.v_setV _ _ _ _ _ _ hk, hp, Ne.symm hp, if_false]
    cases hf : f k with
    | none => simp
    | some v =>
      simp only [Option.map_some, Option.getD_some, BitVec.toNat_ofNat, Ty.width, hw, if_true]
      omega
  · simp only [hw, Bool.false_eq_true, if_false, Core.v_setV _ _ _ _ _ _ hk, if_true]
    cases hf : f k with
    | none => simp
    | some v => simp [Ty.width, hw]

/-- Every physical register but those of the destination stays. -/
theorem Core.vrf_setVTy (co : Core) (h : Hand) (t : Ty) (r p : Nat) (f : Nat → Option Nat) (h1 : p ≠ h.phys r)
    (h2 : t.wide = true → p ≠ h.phys (r + 1)) :
    NMap.get zeroLanes (co.setVTy h t r f).vrf p = NMap.get zeroLanes co.vrf p := by
  unfold Core.setVTy
  dsimp only
  split
  · rename_i hw
    rw [Core.vrf_setV, if_neg (h2 hw), Core.vrf_setV, if_neg h1]
  · rw [Core.vrf_setV, if_neg h1]

/-- A uniform register after one is written; u0 stays zero. -/
theorem Hand.u_setU (h : Hand) (n m : Nat) (v : DWord) :
    (h.setU n v).u m = if m = n ∧ n ≠ 0 then v else h.u m := by
  unfold Hand.setU
  split
  · rename_i hn; simp [hn]
  · rename_i hn
    unfold Hand.u
    by_cases hm : m = 0
    · subst hm; simp [Ne.symm hn]
    · simp only [hm, if_false, NMap.get_set, hn, ne_eq, not_false_eq_true, and_true]

theorem natOfBits_succ (n : Nat) (f : Nat → Bool) : natOfBits (n + 1) f = natOfBits n f + if f n then 2 ^ n else 0 := by
  unfold natOfBits
  rw [List.range_succ, List.foldl_append]
  rfl

theorem natOfBits_lt (n : Nat) (f : Nat → Bool) : natOfBits n f < 2 ^ n := by
  induction n with
  | zero => simp [natOfBits]
  | succ n ih =>
    rw [natOfBits_succ, Nat.pow_succ]
    split <;> omega

/-- Bit `k` of the number made of bits `f`. -/
theorem testBit_natOfBits (n k : Nat) (f : Nat → Bool) : (natOfBits n f).testBit k = (decide (k < n) && f k) := by
  induction n with
  | zero => simp [natOfBits]
  | succ n ih =>
    rw [natOfBits_succ]
    have hlt := natOfBits_lt n f
    by_cases hf : f n = true
    · simp only [hf, if_true]
      rw [Nat.add_comm]
      rcases Nat.lt_trichotomy k n with hk | hk | hk
      · rw [Nat.testBit_two_pow_add_gt hk, ih]
        simp [hk, Nat.lt_succ_of_lt hk]
      · subst hk
        rw [Nat.testBit_two_pow_add_eq, Nat.testBit_lt_two_pow hlt]
        simp [hf]
      · rw [Nat.testBit_lt_two_pow]
        · have h2 : ¬ k < n + 1 := by omega
          simp [h2]
        · have : 2 ^ n + natOfBits n f < 2 ^ (n + 1) := by rw [Nat.pow_succ]; omega
          exact Nat.lt_of_lt_of_le this (Nat.pow_le_pow_right (by decide) hk)
    · simp only [hf, Bool.false_eq_true, if_false, Nat.add_zero, ih]
      rcases Nat.lt_trichotomy k n with hk | hk | hk
      · simp [hk, Nat.lt_succ_of_lt hk]
      · subst hk; simp [hf]
      · have h1 : ¬ k < n := by omega
        have h2 : ¬ k < n + 1 := by omega
        simp [h1, h2]

/-- Bit `k` of a mask over the 64 threads. -/
theorem getLsbD_maskOf (f : Nat → Bool) (k : Nat) : (maskOf f).getLsbD k = (decide (k < 64) && f k) := by
  unfold maskOf
  rw [BitVec.getLsbD_ofNat, testBit_natOfBits]
  cases decide (k < 64) <;> simp

/-- A predicate register after one is written; p0 stays all ones. -/
theorem Hand.p_setPRaw (h : Hand) (n m : Nat) (v : DWord) :
    (h.setPRaw n v).p m = if m = n ∧ n ≠ 0 then v else h.p m := by
  unfold Hand.setPRaw
  split
  · rename_i hn; simp [hn]
  · rename_i hn
    unfold Hand.p
    by_cases hm : m = 0
    · subst hm; simp [Ne.symm hn]
    · simp only [hm, if_false, NMap.get_set, hn, ne_eq, not_false_eq_true, and_true]

/-- A predicate register after an instruction writes one (R148). -/
theorem Hand.p_setP (h : Hand) (n m k : Nat) (who f : Nat → Bool) (hk : k < 64) :
    ((h.setP n who f).p m).getLsbD k =
      if m = n ∧ n ≠ 0 then h.live.getLsbD k && (if who k then f k else (h.p n).getLsbD k) else (h.p m).getLsbD k := by
  unfold Hand.setP
  rw [Hand.p_setPRaw]
  split
  · rw [getLsbD_maskOf]; simp [hk]
  · rfl

end Sys2Proof.Machine
end

