-- ==== Sys2Proof/Tests/Slice0.lean ====
section
/-!
SUPPORT. Tests of the model, and for each statement with hypotheses a state and operands that meet them.
-/
namespace Sys2Proof.Tests
open Sys2Proof Sys2Proof.Machine Sys2Proof.Safety

set_option Elab.async false

/-! ### Messages for the tests -/

/-- A message of this tile: its kind, the unit it is from or for, at home 0, line 0 of this tile's memory. -/
def aMsg (k : MsgKind) (unit : Nat) : Msg := { kind := k, agent := ⟨none, unit⟩, home := ⟨none, 0⟩, line := 0xFFFF * 2 ^ 48 / 128 }

/-- 128 bytes of zeros, GOOD. -/
def zeroLine : LineData := { bytes := List.replicate 128 0, gran := List.replicate 4 .good }

/-- A tile at whose home 0, ready, messages arrive. -/
def homeState (l : List Msg) : State :=
  { State.reset.setReg .MEM_INIT_DONE 1 with homes := [(0, { dirinit := false, lmapinit := false })], mesh := l }

/-! ### States for the tests -/

/-- A hand with 64 vector registers and two pages of each kind, at address 0 with an instruction there. -/
def handAt (opc : Nat) (ins : Insn) : Hand :=
  { task := 1, vregs := 64, vblk := [0, 1, 2, 3], osbPages := [0, 1], accPages := [0, 1], pc := 0, live := BitVec.allOnes 64,
    fetchBuf := [(0, { bytes := leBytes 8 (wordOfInsn (BitVec.ofNat 8 opc) ins).toNat ++ leBytes 8 ins.w1.toNat ++ List.replicate 112 0,
                       gran := List.replicate 4 .good })] }

/-- Slot 0 of core 0. -/
def at0 : Issue := { core := 0, slot := 0 }

/-- The same as a hand's name. -/
def hand0 : HandId := { core := 0, slot := 0 }

/-- A tile whose cluster 0 is clocked and whose only hand is `h`, in slot 0 of core 0. -/
def oneHand (h : Hand) : State := { State.reset.setReg .CRG_GATE_STATE 1 with cores := [(0, { slots := [(0, h)] })] }

/-- An instruction that is legal in most rows: registers 4, 8, 12 and 16 as far as its rule has operands. -/
def insnOf (r : OpRule) : Insn :=
  { dst := 4, sra := if r.a = .no then 0 else 8, srb := if r.b = .no then 0 else 12, src := if r.c = .no then 0 else 16,
    typ := BitVec.ofNat 4 (r.types.headD 0) }

/-- What a command answers, where it goes on. -/
def after (c : Instr) (s : State) (p : State → Bool) : Bool := match exec c s with
  | .next t => p t
  | _ => false

/-! ### Instruction words and results -/

/-- An ill-formed frame: a second word without LNG. -/
theorem test_wf_refuses_w1 : (Insn.wf { w1 := 1 }) = false ∧ (Insn.wf { lng := true, w1 := 1 }) = true := by decide

/-- No word of the opcode table spells a command, and withFetchWord changes nothing. -/
theorem test_no_table_word : decodeTableWord 64 0x0200102000508000 = none ∧ State.reset.withFetchWord 64 5 = State.reset := by
  exact ⟨rfl, rfl⟩

theorem wit_InstructionWordsRoundTrip : (Insn.wf {}) = true ∧ (Insn.wf { dst := 255, lng := true, w1 := 7 }) = true := by decide

theorem wit_memory_form : State.reset.mem.wf = true ∧ step State.reset = .next State.reset := ⟨by decide, rfl⟩

theorem wit_StepRunsFrontCommand : (let s : State := { State.reset with pending := [.tapReset] }; s.pending = .tapReset :: [])
    ∧ State.reset.pending = [] := ⟨rfl, rfl⟩

theorem wit_IntegerResultsWrap : ∀ t ∈ [Ty.u32, .s32, .u64, .s64], t.isInt = true ∧ 2 ^ t.width - 1 < 2 ^ t.width
    ∧ (0 : Nat) < 2 ^ t.width := by decide +kernel

/-- R174, R175 by hand: 0x7FFFFFFF + 1 wraps, and with SAT stays; a division by zero; a long shift. -/
theorem test_integer_corners : (aluAdd .s32 {} 0x7FFFFFFF 1).1 = 0x80000000 ∧ (aluAdd .s32 { fn := 1 } 0x7FFFFFFF 1).1 = 0x7FFFFFFF
    ∧ aluDiv .u32 {} 7 0 = (0xFFFFFFFF, flDivZero) ∧ aluShl .u32 1 32 = 0 ∧ aluShr .s32 0x80000000 40 = 0xFFFFFFFF
    ∧ aluPopc .u32 0xF0F = 8 ∧ aluClz .u32 1 = 31 := by decide +kernel

/-- IEEE 754 by hand: 1.5 + 2.25 = 3.75, 1 / 3 rounded to nearest even is inexact, and 0 / 0 is invalid. -/
theorem test_float_results : aluAdd .f32 {} 0x3FC00000 0x40100000 = (0x40700000, 0)
    ∧ aluDiv .f32 {} 0x3F800000 0x40400000 = (0x3EAAAAAB, flInexact)
    ∧ (aluDiv .f32 {} 0 0).2 = flInvalid := by decide +kernel

theorem wit_CompareCodes : (8 ≤ (8 : BitVec 11).toNat % 16) ∧
    (let ins : Insn := { dst := 1, sra := 8, srb := 12, fn := 8 }
     let h := handAt 0x60 ins
     CanIssue (oneHand h) at0 0x60 .vector ins h (vecNamesOf { types := tyAll, d := .pred, a := .opn, b := .opn, c := .no, fnMask := 7 } ins 1
       (fp ins) (fp ins) 1 [ins.dst.toNat % 8])) ∧
    (let ins : Insn := { dst := 1, sra := 8, srb := 12, fn := 15 }
     let h := handAt 0x4D ins
     CanIssue (oneHand h) at0 0x4D .uniform ins h (vecNamesOf (uniRule 2 7) ins 1 1 1 1 [])) := by
  unfold CanIssue; decide +kernel

/-! ### Instructions of a hand -/

/-- An instruction for a row of the vector ALU. -/
def vecInsn (r : VecRow) : Insn :=
  let i := insnOf (r.rule {})
  if 0xB1 ≤ r.opc then { i with srb := 0, src := 3, imb := true } else { i with typ := if r.opc = 0x17 then 2 else i.typ }

theorem wit_VectorArithmetic : ∀ r ∈ vecRows ++ moveRows,
    let ins := vecInsn r
    let h := handAt r.opc ins
    CanIssue (oneHand h) at0 r.opc .vector ins h (vecNamesOf (r.rule ins) ins (r.nd ins) (r.na ins) (r.nb ins) (r.nc ins) (r.preds ins))
      ∧ ruleOk (r.rule ins) h.vregs (r.nd ins) (r.na ins) (r.nb ins) (r.nc ins) ins = true ∧ r.legal ins = true := by
  unfold CanIssue; decide +kernel

/-- An instruction for a row that writes a uniform register. -/
def uniInsn (opc : Nat) : Insn :=
  if opc = 0xB5 then { dst := 4, sra := 8, src := 3, imb := true }
  else if opc ∈ [0x65, 0x66, 0x67] then { dst := 4, sra := 3 }
  else if opc ∈ [0xC8, 0xC9] then { dst := 4 }
  else { dst := 4, sra := 8, srb := if opc ∈ [0x40, 0x4A] then 0 else 12, src := if opc = 0x4E then 16 else 0 }

theorem wit_UniformInstructions : ∀ r ∈ uniRows,
    let ins := uniInsn r.opc
    let h := handAt r.opc ins
    CanIssue (oneHand h) at0 r.opc r.unit ins h (r.names ins) ∧ r.legal h ins = true ∧ r.ready h = true := by
  unfold CanIssue; decide +kernel

/-- An instruction for a row that writes a predicate register. -/
def predInsn (opc : Nat) : Insn :=
  if opc = 0x60 then { dst := 1, sra := 8, srb := 12, fn := 2 }
  else if opc ∈ [0x61, 0x62, 0x63] then { dst := 1, sra := 2, srb := 3, fn := 1 }
  else { dst := 1, sra := 2 }

theorem wit_PredicateInstructions : ∀ r ∈ predRows,
    let ins := predInsn r.opc
    let h := handAt r.opc ins
    CanIssue (oneHand h) at0 r.opc .vector ins h (r.names ins) ∧ r.legal h ins = true := by
  unfold CanIssue; decide +kernel

theorem wit_ScanGivesPrefixes : ∀ ins ∈ [({ dst := 4, sra := 8 } : Insn), { dst := 4, sra := 8, fn := 8 }, { dst := 4, sra := 8, typ := 1, fn := 1 }],
    (let h := handAt 0xB6 ins; Clear (oneHand h) at0 ins (scanSpec at0 ins) h)
    ∧ (ins.fn ≠ 8 → let h := handAt 0xB7 ins; Clear (oneHand h) at0 ins (redSpec at0 ins) h) := by
  unfold Clear CanIssue; decide +kernel

/-- add.u32 v4, v8, 5 with v8 zero gives 5 in every lane and moves the program counter by 8. -/
theorem test_add_immediate :
    let ins : Insn := { dst := 4, sra := 8, src := 5, imb := true }
    after (.add at0 ins) (oneHand (handAt 0x02 ins)) (fun t => match t.hand 0 0 with
      | some h => h.pc == 8 && (t.core 0).v h 4 63 == 5 && (t.core 0).v h 5 0 == 0
      | none => false) = true := by decide +kernel

/-- A predicate selects the threads that write: p1 has bit 2 alone. -/
theorem test_predicated_lane :
    let ins : Insn := { prd := 1, dst := 4 }
    let h := (handAt 0x21 ins).setPRaw 1 4
    after (.lane at0 ins) (oneHand h) (fun t => (t.core 0).v h 4 2 == 2 && (t.core 0).v h 4 3 == 0) = true := by decide +kernel

/-- An inclusive scan of the lane numbers: thread 3 gets 0 + 1 + 2 + 3. -/
theorem test_scan_sums :
    let ins : Insn := { dst := 4, sra := 8 }
    let h := handAt 0xB6 ins
    let s : State := { oneHand h with cores := [(0, ((oneHand h).core 0).setV h 8 fun k => some (BitVec.ofNat 32 k))] }
    after (.scan at0 ins) s (fun t => (t.core 0).v h 4 3 == 6 && (t.core 0).v h 4 63 == 2016) = true := by decide +kernel

/-- What a control instruction needs to be clear to issue. -/
theorem wit_ControlTransfers :
    (∀ ins ∈ [({ src := 2 } : Insn), { fn := 2, src := 2 }, { fn := 4, dst := 3, src := 2 }, { lng := true, w1 := 64 }, { fn := 8, sra := 5 }],
      (let h := handAt 0x70 ins; Clear (oneHand h) at0 ins (braSpec at0 ins) h))
    ∧ (∀ ins ∈ [({ dst := 3, src := 2 } : Insn), { dst := 3, lng := true, w1 := 64 }],
      (let h := handAt 0x71 ins; Clear (oneHand h) at0 ins (loopInsnSpec at0 ins) h ∧ h.u 3 ≠ 1)
      ∧ (let h := (handAt 0x71 ins).setU 3 1; Clear (oneHand h) at0 ins (loopInsnSpec at0 ins) h ∧ h.u 3 = 1)
      ∧ (let h := handAt 0x72 ins; Clear (oneHand h) at0 ins (callInsnSpec at0 ins) h))
    ∧ (let h := handAt 0x73 { sra := 5 }; Clear (oneHand h) at0 { sra := 5 } (retSpec at0 { sra := 5 }) h) := by
  unfold Clear CanIssue; decide +kernel

/-- Transfers to a target that is not a multiple of 8, and words that no control instruction takes. -/
theorem wit_ControlTransfers_faults :
    (let ins : Insn := { lng := true, w1 := 4 }
     (let h := handAt 0x70 ins; CanIssue (oneHand h) at0 0x70 .uniform ins h (braSpec at0 ins).names ∧ (braSpec at0 ins).legal h = true
        ∧ (TargetOf h ins).toNat % 8 ≠ 0)
     ∧ (let h := handAt 0x71 ins; CanIssue (oneHand h) at0 0x71 .uniform ins h (loopInsnSpec at0 ins).names
        ∧ (loopInsnSpec at0 ins).legal h = true ∧ h.u 0 ≠ 1)
     ∧ (let h := handAt 0x72 ins; CanIssue (oneHand h) at0 0x72 .uniform ins h (callInsnSpec at0 ins).names
        ∧ (callInsnSpec at0 ins).legal h = true))
    ∧ (∀ p ∈ controlSpecs at0 { prd := 2 }, let h := handAt p.2.opc { prd := 2 }
        CanIssue (oneHand h) at0 p.2.opc .uniform { prd := 2 } h p.2.names)
    ∧ (∀ p ∈ (controlSpecs at0 { fn := 8, src := 1 }).take 3, let h := handAt p.2.opc { fn := 8, src := 1 }
        CanIssue (oneHand h) at0 p.2.opc .uniform { fn := 8, src := 1 } h p.2.names) := by
  unfold CanIssue; decide +kernel

theorem wit_ControlOfHands : ∀ p ∈ (controlSpecs at0 {}).drop 4, let h := handAt p.2.opc {}
    Clear (oneHand h) at0 {} p.2 h := by
  unfold Clear CanIssue; decide +kernel

/-- sleep.ticks of 5 in u3, and with 0. -/
theorem wit_ControlOfHands_sleep : let ins : Insn := { srb := 3 }
    let h := (handAt 0x78 ins).setU 3 5
    Clear (oneHand h) at0 ins (sleepTicksSpec at0 ins) h ∧ sleepCount h ins = 5 := by
  unfold Clear CanIssue; decide +kernel

theorem wit_IllegalInstructions :
    (let h := handAt 0 {}; opcodeAssigned 0 = false ∧ CanIssue (oneHand h) at0 0 .uniform {} h {})
    ∧ (let h := handAt 0xFF {}; opcodeAssigned 0xFF = false ∧ CanIssue (oneHand h) at0 0xFF .uniform {} h {})
    ∧ (∀ r ∈ vecRows ++ moveRows, let ins : Insn := { typ := 15 }
        let h := handAt r.opc ins
        CanIssue (oneHand h) at0 r.opc .vector ins h (vecNamesOf (r.rule ins) ins (r.nd ins) (r.na ins) (r.nb ins) (r.nc ins) (r.preds ins))
          ∧ (ruleOk (r.rule ins) h.vregs (r.nd ins) (r.na ins) (r.nb ins) (r.nc ins) ins && r.legal ins) = false)
    ∧ (∀ r ∈ uniRows, let h := handAt r.opc { typ := 15 }
        CanIssue (oneHand h) at0 r.opc r.unit { typ := 15 } h (r.names { typ := 15 }) ∧ r.legal h { typ := 15 } = false)
    ∧ (∀ r ∈ predRows, let h := handAt r.opc { typ := 15 }
        CanIssue (oneHand h) at0 r.opc .vector { typ := 15 } h (r.names { typ := 15 }) ∧ r.legal h { typ := 15 } = false)
    ∧ (∀ r ∈ memRows, let h := handAt r.opc { typ := 15 }
        CanIssue (oneHand h) at0 r.opc .memory { typ := 15 } h (r.names { typ := 15 }) ∧ r.legal h { typ := 15 } = false)
    ∧ ∀ p ∈ controlSpecs at0 { typ := 15 } ++ matrixSpecs at0 { typ := 15 } ++ [(.scan at0 { typ := 15 }, scanSpec at0 { typ := 15 }),
          (.red at0 { typ := 15 }, redSpec at0 { typ := 15 }), (.fence at0 { typ := 15 }, fenceSpec at0 { typ := 15 }),
          (.invInsn at0 { typ := 15 }, invInsnSpec at0 { typ := 15 }), (.enq at0 { typ := 15 }, enqSpec at0 { typ := 15 }),
          (.fsig at0 { typ := 15 }, fsigSpec at0 { typ := 15 })],
        let h := handAt p.2.opc { typ := 15 }
        CanIssue (oneHand h) at0 p.2.opc p.2.unit { typ := 15 } h p.2.names ∧ p.2.legal h = false := by
  unfold CanIssue; decide +kernel

/-! ### Waits, memory and task instructions -/

theorem wit_WaitsEnd : ∀ st ∈ [HandSt.waiting .branch, .waiting .yield, .sleeping], let h : Hand := { handAt 0 {} with st := st, sleepEnd := 0 }
    (oneHand h).clocked (hand0.core.val / 4) = true ∧ (oneHand h).hand hand0.core hand0.slot = some h ∧ h.sleepEnd ≤ (oneHand h).time.now := by
  decide +kernel

/-- A sleep that has not ended: its tick is one ahead. -/
theorem wit_WaitsEnd_goes_on : let h : Hand := { handAt 0 {} with st := .sleeping, sleepEnd := 1 }
    (oneHand h).hand hand0.core hand0.slot = some h ∧ (oneHand h).time.now < h.sleepEnd := by decide +kernel

/-- An instruction for a row of the memory unit: base u8 and offset v12, or the immediate 64 for the whole hand. -/
def memInsn (opc : Nat) : Insn :=
  if opc ∈ [0x82, 0x83] then { dst := 4, sra := 8, src := 64, imb := true, fn := 2 }
  else if opc ∈ [0x80, 0x81] then { dst := 4, sra := 8, ua := true, imb := true, src := 64, fn := 2 }
  else { dst := 4, sra := 8, ua := true, src := 16 }

/-- A hand whose threads k access 4 bytes at 64 × k of this tile: base u8, offsets in v12. -/
def memHand (opc : Nat) (ins : Insn) (base : DWord) : Hand := (handAt opc ins).setU 8 base

theorem wit_MemoryInstructionsIssue : ∀ r ∈ memRows,
    let ins := memInsn r.opc
    let h := memHand r.opc ins 0xFFFF000000000000
    let s := oneHand h
    CanIssue s at0 r.opc .memory ins h (r.names ins) ∧ r.legal h ins = true
      ∧ accessFault s (r.size ins) (r.accs (s.core 0) h ins) = none ∧ mayAccess h = true
      ∧ released s 0 h (scopeOf ins) = true ∧ (r.accs (s.core 0) h ins).any (fun p => s.winHeld (s.normalise p.2)) = false
      ∧ (r.accs (s.core 0) h ins).isEmpty = false := by
  unfold CanIssue; decide +kernel

/-- With no live thread there is no access. -/
theorem wit_MemoryInstructionsIssue_none : ∀ r ∈ memRows,
    let ins := memInsn r.opc
    let h := { memHand r.opc ins 0 with live := 0 }
    let s := oneHand h
    CanIssue s at0 r.opc .memory ins h (r.names ins) ∧ r.legal h ins = true
      ∧ accessFault s (r.size ins) (r.accs (s.core 0) h ins) = none ∧ mayAccess h = true
      ∧ released s 0 h (scopeOf ins) = true ∧ r.accs (s.core 0) h ins = [] := by
  unfold CanIssue; decide +kernel

/-- Bases that make every access misaligned, or unpopulated: just past the eight stacks. -/
theorem wit_AccessChecks : ∀ r ∈ memRows, ∀ x ∈ [((0xFFFF000000000001 : DWord), 2), (0xFFFF006000000000, 3)],
    let ins := memInsn r.opc
    let h := memHand r.opc ins x.1
    let s := oneHand h
    CanIssue s at0 r.opc .memory ins h (r.names ins) ∧ r.legal h ins = true ∧ mayAccess h = true
      ∧ released s 0 h (scopeOf ins) = true ∧ (r.accs (s.core 0) h ins).any (fun p => s.winHeld (s.normalise p.2)) = false
      ∧ (accessFault s (r.size ins) (r.accs (s.core 0) h ins)).map (·.1) = some x.2 := by
  unfold CanIssue; decide +kernel

/-- fence with acquire and release at tile scope, inv over all lines, and inv with RANGE and ICACHE. -/
theorem wit_FencesAndInvalidations :
    (let ins : Insn := { fn := 3 * 64 + 3 * 8 }
     let h := handAt 0x84 ins
     Clear (oneHand h) at0 ins (fenceSpec at0 ins) h ∧ isAcquire ins = true ∧ someEnabled h ins = true)
    ∧ (∀ ins ∈ [({ fn := 16 } : Insn), { fn := 0x618, sra := 5, srb := 6 }], let h := handAt 0x85 ins
       Clear (oneHand h) at0 ins (invInsnSpec at0 ins) h ∧ someEnabled h ins = true ∧ 2 ≤ scopeOf ins) := by
  unfold Clear CanIssue; decide +kernel

/-- The premises about caches: the empty ones, and one with a line in its set. -/
theorem wit_caches : CacheOk [] 8 l1Set ∧ CacheOk [(8, { line := 65, st := .v, data := { bytes := [], gran := [] } })] 8 l1Set
    ∧ L1Agrees State.reset 0 := by
  refine ⟨⟨by decide, fun k x h => by simp [NMap.find?] at h⟩, ⟨by decide, ?_⟩, fun k x h => by simp [State.reset, State.core, NMap.get] at h⟩
  intro k x h
  simp only [NMap.find?] at h
  split at h
  · rename_i hk
    cases h; subst hk
    refine ⟨by decide, fun j y hj _ => ?_⟩
    simp only [NMap.find?] at hj
    split at hj
    · rename_i e; exact e.symm
    · cases hj
  · cases h

/-- A load, an atomic and a uniform load, every access of which has been answered. -/
theorem wit_AccessesComplete : ∀ opc ∈ [0x80, 0x81, 0x82, 0x88, 0xC1],
    let o : MemOp := { id := 3, opc := opc, insn := { dst := 4, fn := 2 }, pc := 0, w0 := 0, parts := [{ thread := 0, addr := 64, size := 4, op := .load }],
                       res := [(0, { bytes := [1, 2, 3, 4], gran := .good })] }
    let h : Hand := { handAt 0 {} with ops := [o], nextOp := 4 }
    let s := oneHand h
    s.clocked 0 = true ∧ s.hand hand0.core hand0.slot = some h ∧ h.removed = false ∧ h.ops.find? (fun o => o.id == 3) = some o
      ∧ (o.opc < 0xA0 ∨ 0xA4 < o.opc) ∧ enqOwes s 0 0 3 = false ∧ o.answered = true
      ∧ o.insn.dst.toNat % (if o.opc = 0x80 then sizeRegs (o.insn.fn.toNat % 8) else footprint o.insn.typ.toNat) = 0 := by decide +kernel

/-- The answer of a load reaches the lane of its thread, little-endian. -/
theorem test_load_completes :
    let o : MemOp := { id := 3, opc := 0x80, insn := { dst := 4, fn := 2 }, pc := 0, w0 := 0,
                       parts := [{ thread := 7, addr := 64, size := 4, op := .load }], res := [(0, { bytes := [1, 2, 3, 4], gran := .good })] }
    after (.memAccessComplete hand0 3) (oneHand { handAt 0 {} with ops := [o], nextOp := 4 }) (fun t => match t.hand 0 0 with
      | some h => h.ops == [] && (t.core 0).v h 4 7 == 0x04030201 && (t.core 0).v h 4 6 == 0 && h.flags == 0
      | none => false) = true := by decide +kernel

theorem wit_PoisonTrapAndFetch :
    (let f : FaultRec := { kind := 6, pc := 0, resume := 0 }
     let h : Hand := { handAt 0 {} with poison := some f }
     (oneHand h).clocked 0 = true ∧ (oneHand h).hand 0 0 = some h ∧ h.canIssue = true) := by decide +kernel

/-- A fetching hand whose cluster cache holds the first line of local memory. -/
def fetchState (pc : DWord) : State :=
  let h : Hand := { handAt 0x7A {} with pc := pc, st := .waiting .fetch }
  let l : CLine := { line := lineOf (0xFFFF * 2 ^ 48), st := .s, data := { bytes := List.replicate 128 0, gran := List.replicate 4 .good } }
  { oneHand h with cores := [(0, { slots := [(0, h)], icinit := false })], clus := [(0, { cc := [(0, l)], ccinit := false })] }

/-- All words there; an unpopulated address; a line of the cluster cache. -/
theorem wit_PoisonTrapAndFetch_fetch : ∀ n ∈ [(0 : Nat), 0xFFFF006000000000, 0xFFFF000000000000],
    let pc := BitVec.ofNat 64 n
    let s := fetchState pc
    let h : Hand := { handAt 0x7A {} with pc := pc, st := .waiting .fetch }
    let a := s.normalise pc.toNat
    (s.clocked 0 = true ∧ (s.core 0).icinit = false ∧ (s.clu 0).ccinit = false ∧ s.hand 0 0 = some h ∧ h.canIssue = true)
      ∧ fetchNeed s (s.core 0) h = (if n = 0 then none else some pc)
      ∧ s.populated a = decide (n ≠ 0xFFFF006000000000)
      ∧ (n = 0xFFFF000000000000 → fetching s 0 0 (lineOf a) = false ∧ s.winHeld a = false
          ∧ s.memTy (128 * lineOf a) = .coherent ∧ ((s.clu 0).find (lineOf a)).isSome = true) := by
  decide +kernel

theorem wit_TaskInstructionsIssue :
    (let ins : Insn := { dst := 1, sra := 8, ua := true, src := 64, imb := true }
     let h := memHand 0xC0 ins 0xFFFF000000000000
     Clear (oneHand h) at0 ins (enqSpec at0 ins) h)
    ∧ (∀ n ∈ [2 ^ 64 - 1, 0], let ins : Insn := { sra := 8, ua := true, srb := 12 }
       let h := { memHand 0xC1 ins 4095 with live := BitVec.ofNat 64 n }
       Clear (oneHand h) at0 ins (fsigSpec at0 ins) h ∧ (numsWhere 64 (h.enabled ins)).isEmpty = decide (n = 0))
    ∧ (let ins : Insn := { sra := 8, ua := true, srb := 12 }
       let h := memHand 0xC1 ins 4096
       let s := oneHand h
       CanIssue s at0 0xC1 .memory ins h (fsigSpec at0 ins).names ∧ (fsigSpec at0 ins).legal h = true
       ∧ (fsigSpec at0 ins).ready s (s.core 0) h = true ∧ h.enabled ins 63 = true ∧ 4096 ≤ fsigFence (s.core 0) h ins 63) := by
  unfold Clear CanIssue; decide +kernel

/-! ### The matrix engine -/

/-- mx.ld of both forms, mma, mx.st of both forms, mx.clr and both modes of mx.cvt. -/
theorem wit_MatrixInstructionsIssue : ∀ x ∈ [(0, ({ dst := 0, sra := 8, src := 128, imb := true } : Insn)), (0, { dst := 0, sra := 8, fn := 8 }),
      (0, { dst := 0, sra := 8, src := 0, imb := true, fn := 37 }), (1, { dst := 0, sra := 0, srb := 1 }), (2, { dst := 0, sra := 8, src := 256, imb := true }),
      (3, { dst := 0 }), (4, { dst := 32, sra := 16 }), (4, { dst := 0, sra := 0, fn := 0x400 })],
    ∀ p ∈ ((matrixSpecs at0 x.2).drop x.1).take 1, let h := memHand p.2.opc x.2 0xFFFF000000000000
    Clear (oneHand h) at0 x.2 p.2 h ∧ (p.2.opc = 0xA0 → x.2.fn.getLsbD 5 = true → x.2.fn.getLsbD 3 = false → strideOf h x.2 = 0) := by
  unfold Clear CanIssue; decide +kernel

/-- Pages and tiles that the hand does not hold, and a scale load with a stride of 64. -/
theorem wit_MatrixInstructionsIssue_stops :
    (∀ x ∈ [(0, ({ dst := 2, sra := 8, src := 128, imb := true } : Insn)), (1, { dst := 0, sra := 0, srb := 2 }), (2, { dst := 1, sra := 8, src := 256, imb := true }),
      (3, { dst := 1 }), (4, { dst := 2, sra := 1, fn := 0x400 })],
      ∀ p ∈ ((matrixSpecs at0 x.2).drop x.1).take 1, let h := memHand p.2.opc x.2 0xFFFF000000000000
      CanIssue (oneHand h) at0 p.2.opc p.2.unit x.2 h p.2.names ∧ p.2.legal h = true ∧ p.2.matrix h = true)
    ∧ (let ins : Insn := { dst := 0, sra := 8, src := 64, imb := true, fn := 37 }
       let h := memHand 0xA0 ins 0xFFFF000000000000
       Clear (oneHand h) at0 ins (mxLdSpec at0 ins) h ∧ ins.fn.getLsbD 5 = true ∧ ins.fn.getLsbD 3 = false ∧ strideOf h ins ≠ 0) := by
  unfold Clear CanIssue; decide +kernel

/-- A tile whose hand has one matrix instruction, at the head of the compute queue. -/
def mxState (o : MemOp) (gate : Bool) : State :=
  let h : Hand := { handAt 0 {} with ops := [o], nextOp := 1 }
  { oneHand h with cores := [(0, { slots := [(0, h)], cq := if o.opc = 0xA0 ∨ o.opc = 0xA2 then [] else [(0, 0)],
                                   lsq := if o.opc = 0xA0 ∨ o.opc = 0xA2 then [(0, 0)] else [], gate := gate })] }

/-- An `mma`, an `mx.clr` and the rest, not answered or answered. -/
def mxOp (opc : Nat) : MemOp := { id := 0, opc := opc, insn := { dst := 0, sra := 0, srb := 1, fn := if opc = 0xA0 ∨ opc = 0xA2 then 8 else 0 }, pc := 0, w0 := 0, parts := [], started := opc == 0xA1 }

theorem wit_GateHoldsMma :
    (∀ gate ∈ [true, false], let o := { mxOp 0xA1 with started := false }
      let s := mxState o gate
      s.clocked 0 = true ∧ (s.core 0).cq = [(0, 0)] ∧ (s.hand 0 0).map (fun h => h.ops.find? fun o => o.id == 0) = some (some o) ∧ (s.core 0).gate = gate
      ∧ s.isSet .CRG_NOTICE_PEND 0 = false ∧ s.pwr.notices = [])
    ∧ (let s := (mxState (mxOp 0xA1) false).setReg .CRG_NOTICE_PEND 1; s.isSet .CRG_NOTICE_PEND 0 = true)
    ∧ (∀ opc ∈ [0xA3, 0xA4], let s := mxState (mxOp opc) false
      s.clocked 0 = true ∧ (s.hand 0 0).map (fun h => h.ops.find? fun o => o.id == 0) = some (some (mxOp opc)) ∧ (s.core 0).cq.head? = some (0, 0))
    ∧ (let s : State := { mxState (mxOp 0xA1) true with time := { bnd := 1000000 } }
       (s.core 0).gate = true ∧ s.clocked 0 = true ∧ (s.core 0).mmaAt + shutTicks s 0 ≤ s.time.bnd) := by decide +kernel

theorem wit_MatrixInstructionsComplete : ∀ opc ∈ [0xA0, 0xA1, 0xA2, 0xA3, 0xA4],
    let o := mxOp opc
    let s := mxState o true
    ∃ h, s.hand 0 0 = some h ∧ s.clocked 0 = true ∧ h.removed = false ∧ h.ops.find? (fun o => o.id == 0) = some o ∧ mxDone (s.core 0) 0 h o = true
      ∧ h.accPages.Nodup ∧ h.osbPages.Nodup := by
  intro opc h; fin_cases h <;> exact ⟨_, rfl, by decide +kernel⟩

/-- A tile after mx.clr is zero; one word of its accumulator held 5 before. -/
theorem test_mx_clr : let s := mxState (mxOp 0xA3) false
    let s' : State := { s with cores := s.cores.map fun x => (x.1, { x.2 with acc := [(0, 5)] }) }
    after (.matrixInsnComplete hand0 0) s' (fun t => (t.core 0).acc == [] && (t.core 0).cq == []) = true := by decide +kernel

/-- R224 by hand: 16 products of 127 × 127 added to 2^31 − 1 clamp with the overflow flag. -/
theorem test_int_mma_clamps : let one : Array Byte := Array.replicate 8192 127
    mmaElement 4 4 one one #[] #[] 0 0 0x7FFFFFFF = (0x7FFFFFFF, flOverflow) := by decide +kernel

/-! ### Placement, release and completion of tasks -/

/-- A task of 70 threads with 16 vector registers, on cluster 0. -/
def aTask : Task := { id := 5, threads := 70, vregs := 16, opg := 1, apg := 1, pc := 64, mask := 1, nweight := 0, params := [7], tail := {}, origin := 0 }

/-- A tile with an ACTIVE context, cluster 0 clocked, and that task issued. -/
def taskState (t : Task) : State := { (State.reset.setReg .CRG_GATE_STATE 1).setReg .CTX_STATE 1 with tasks := [(5, t)] }

/-- A hand of 70 threads' first 64; a task that weighs 3 before its notice; and one no cluster of which is usable. -/
theorem wit_HandsArePlaced : ∀ t ∈ [aTask, { aTask with placed := 1, cursor := some 0 }, { aTask with nweight := 3 }, { aTask with nweight := 3, noticed := [(0, 0)] }],
    let s : State := { taskState t with time := { bnd := 100 } }
    s.active = true ∧ s.stopped 1 = false ∧ s.placing = some t ∧ s.task t.id = some t ∧ t.held = false ∧ candidates s t = [0]
      ∧ (circular [0] (t.cursor.getD 0)).find? (fun c => s.clocked c && !s.drains c && (coreFor s c t).isSome) = some 0
      ∧ coreFor s 0 t = some 0 ∧ (t.noticed ≠ [] → (NMap.find? t.noticed 0).any (fun a => decide (a + noticeTicks s 0 ≤ s.time.bnd)) = true) := by
  decide +kernel

theorem wit_HandsArePlaced_none : let t : Task := { aTask with mask := 0 }
    let s := taskState t
    s.active = true ∧ s.stopped 1 = false ∧ s.placing = some t ∧ s.task t.id = some t ∧ t.held = false ∧ candidates s t = [] := by
  decide +kernel

/-- R142, R146 by hand: the second hand of 70 threads has 6 live threads and u1 = 1, u2 = 2, u8 = 7. -/
theorem test_place : after .handPlace (taskState { aTask with placed := 1 }) (fun t => match t.hand 0 0 with
    | some h => h.live == 63 && h.u 1 == 1 && h.u 2 == 2 && h.u 3 == 5 && h.u 8 == 7 && h.vblk == [0] && h.pc == 64
    | none => false) = true := by decide +kernel

theorem wit_ReleasedStorageIsZeroed : let h := handAt 0 {}
    let o : MemOp := { id := 0, opc := 0x80, insn := {}, pc := 0, w0 := 0, parts := [] }
    (let g := { h with removed := true }; (oneHand g).clocked (hand0.core.val / 4) = true ∧ (oneHand g).hand hand0.core hand0.slot = some g ∧ g.ops = [])
    ∧ (let g := { h with st := .releasing }; (oneHand g).clocked 0 = true ∧ (oneHand g).hand 0 0 = some g ∧ g.st = .releasing ∧ g.ops = [])
    ∧ (let g := { h with st := .releasing, ops := [o] }; (oneHand g).hand 0 0 = some g ∧ g.ops ≠ [])
    ∧ (let s := oneHand h
       let z : State := { s with cores := [(0, { vb := [(1, .zeroing)], ob := [(1, .zeroing)], ab := [(1, .zeroing)] })] }
       z.clocked 0 = true ∧ NMap.get .free (z.core 0).vb 1 = .zeroing ∧ NMap.get .free (z.core 0).ob 1 = .zeroing
         ∧ NMap.get .free (z.core 0).ab 1 = .zeroing ∧ NMap.get .free (z.core 0).vb 0 ≠ .zeroing ∧ NMap.get .free (z.core 0).ob 0 ≠ .zeroing
         ∧ NMap.get .free (z.core 0).ab 0 ≠ .zeroing) := by decide +kernel

theorem wit_TasksComplete :
    (∀ t ∈ [aTask, { aTask with placed := 1 }], (taskState t).stopped 1 = false ∧ (taskState t).task 5 = some t
      ∧ t.aborted = false ∧ t.noCluster = false ∧ t.placed < t.hands)
    ∧ (let t := { aTask with placed := 2 }
       let s := taskState t
       s.task 5 = some t ∧ t.hands ≤ t.placed ∧ handsWhere s (fun _ _ h => h.task == 5) = [] ∧ s.stagedDone = true
       ∧ t.tail.fence = 0xFFFF ∧ t.tail.evt = false ∧ t.faulted = false ∧ t.dark = false ∧ t.noCluster = false
       ∧ (let u : State := { s with clus := [(0, { asm := [{ block := 0, bytes := [(0, 1)], since := 0 }] })] }
          u.stagedDone = false ∧ handsWhere u (fun _ _ h => h.task == 5) = []))
    ∧ (let h := { handAt 0 {} with task := 5 }
       handsWhere (oneHand h) (fun _ _ h => h.task == 5) ≠ []) := by decide +kernel

/-! ### Debugging and the brake -/

/-- A tile with a debug level of 0, 2 or 3: open for debugging as it leaves the factory, or lowered, or by a token. -/
def leveled (s : State) (n : Nat) : State := { s with sec := { s.sec with lowered := true, owner := if n = 0 then none else some { level := n, secs := 0, since := 0 } } }

theorem wit_DebugRequestsQueue : (∀ n ∈ [0, 2, 3], (leveled State.reset n).level = n) ∧ State.reset.isSet .BRK_BRAKED = false
    ∧ State.reset.isSet .DBG_PENDING = false ∧ (State.reset.setReg .DBG_PENDING 1).isSet .DBG_PENDING = true
    ∧ (State.reset.setReg .BRK_BRAKED 1).isSet .BRK_BRAKED = true := by decide +kernel

theorem wit_DebugCommandsAct : State.reset.hand 0 0 = none ∧ ∀ h ∈ [handAt 0 {}, { handAt 0 {} with st := .debug, sleepEnd := 7 }, { handAt 0 {} with st := .faulted }],
    (oneHand h).hand 0 0 = some h ∧ h.removed = false ∧ h.stop = none
      ∧ (h.st = .ready ∨ (h.st = .debug ∧ (oneHand h).coreTime < h.sleepEnd) ∨ (h.st = .faulted ∧ h.sleepEnd ≤ (oneHand h).coreTime)) := by
  decide +kernel

theorem wit_HandsEnterDebug : ∀ pol ∈ [true, false], ∀ ops ∈ [([] : List MemOp), [{ id := 0, opc := 0x80, insn := {}, pc := 0, w0 := 0, parts := [] }]],
    ∀ trap ∈ [0, 1], let f : FaultRec := { kind := 0x10, pc := 0, resume := 0, policy := pol }
    let h := { handAt 0 {} with stop := some (.debug f), ops := ops }
    let s := (oneHand h).setReg .CTX_FP_TRAP trap
    s.clocked (hand0.core.val / 4) = true ∧ s.hand hand0.core hand0.slot = some h ∧ h.removed = false ∧ s.reg .CTX_FP_TRAP = trap := by decide +kernel

/-- A uniform register, the PC, an OSB doubleword, the sleep tick; and indexes out of range, spaces that are read-only or absent. -/
theorem wit_HandsEnterDebug_acc : ∀ x ∈ [(1, 63, true), (3, 0, true), (7, 2047, true), (9, 0, true), (1, 64, false), (2, 8, false), (3, 1, false),
      (5, 0, false), (6, 0, false), (0, 64, false), (7, 2048, false), (10, 0, false)],
    let h := { handAt 0 {} with st := .debug }
    let s := ((leveled (oneHand h) 2).setReg .DBG_SPACE x.1).setReg .DBG_INDEX x.2.1
    s.isSet .BRK_BRAKED = false ∧ 2 ≤ s.level ∧ s.hand (s.reg .DBG_CORE) (s.reg .DBG_SLOT) = some h ∧ h.ops = [] ∧ h.osbPages.length = 2 ∧ h.vregs = 64
      ∧ s.reg .DBG_SPACE = x.1 ∧ s.reg .DBG_INDEX = x.2.1 := by decide +kernel

theorem wit_BrakeIsApplied : let s := State.reset
    let b : List Byte := [0, 0x81]
    let f : State := { s with cpls := [(3, { ctl := [(b, [])] })] }
    s.ticking = true ∧ s.padsTaken = false ∧ s.isSet .BRK_BRAKED = false ∧ s.inOrder 2 0 = true
    ∧ (let u : State := { s with time := { cur := { cls := 3 } } }; u.ticking = true ∧ u.inOrder 2 0 = false)
    ∧ (f.takeCtl 3 0x81).isSome = true ∧ f.isSet .BRK_RX_EN = true
    ∧ (let u : State := { s with time := { ready := [⟨2, 1, .brake 1 none⟩] } }; u.time.cur.reset = none ∧ u.isSet .BRK_BRAKED = false)
    ∧ (let u : State := { s with time := { cur := { brake := true } } }; u.time.cur.brake = true ∧ u.time.cur.reset = none)
    ∧ (let u : State := { s.setReg .BRK_BRAKED 1 with time := { bnd := 9 } }; u.isSet .BRK_BRAKED = true ∧ NMap.find? u.brk.rows 2 = none ∧ u.brk.bnd + 3 ≤ u.time.bnd) := by
  decide +kernel

/-- R265, R275: a brake applied at tick 7 from source 1 is recorded, and the output is low. -/
theorem test_brake : let s : State := { State.reset with time := { now := 7, bnd := 7, ready := [⟨2, 1, .brake 1 none⟩] } }
    after .brakeApply s (fun t => t.reg .BRK_BRAKED == 1 && t.reg .BRK_TIME_LO == 7 && t.reg .BRK_SOURCES == 2 && t.brk.outLow && t.brk.bnd == 7) = true := by
  decide +kernel

/-! ### Registers, the Deck and the ledger -/

/-- The selectors of debug accesses, a class S register with reserved bits, and one that is read-only. -/
theorem wit_RegisterWrites : let s := State.reset.setReg .PIN_STRAP_HOST_EN 1
    s.hostEn = true ∧ s.host.inReset = false ∧ s.booted = true ∧ s.isSet .BRK_BRAKED = false ∧ (s.setReg .BRK_BRAKED 1).isSet .BRK_BRAKED = true
    ∧ (∀ x ∈ [((.DBG : Block), 24, 0x401), (.CRG, 0, 1000), (.CRG, 12, 0)], 0 < x.1.instances ∧ x.2.1 % 4 = 0 ∧ (x.1.at' x.2.1).isEmpty = false
      ∧ (∀ f ∈ x.1.at' x.2.1, StoresOnly s f.1) ∧ reservedOk (x.1.at' x.2.1) x.2.2 = true)
    ∧ reservedOk ((.CRG : Block).at' 0) 0x8000 = false := by
  unfold StoresOnly; decide +kernel

/-- R676 by hand: a class S write waits in the shadow; DBG_INDEX is in force at once. -/
theorem test_register_write : let s := State.reset.setReg .PIN_STRAP_HOST_EN 1
    let bytes (v : Nat) : List (Option Byte) := (leBytes 4 v).map some
    after (.registerWrite (.block .DBG 0 24) (bytes 0x1401)) s (fun t => t.reg .DBG_SPACE == 1 && t.reg .DBG_INDEX == 5 && t.shadow.isEmpty) = true
    ∧ after (.registerWrite (.block .CRG 3 0) (bytes 1000)) s (fun t => t.reg .CRG_F_TARGET_MHZ 3 == s.reg .CRG_F_TARGET_MHZ 3
        && t.regS .CRG_F_TARGET_MHZ 3 == 1000) = true := by decide +kernel

theorem wit_ShadowsCommit : let s : State := { State.reset with shadow := [(regKey .CRG_F_TARGET_MHZ 3 0, 1000)] }
    s.stopped 4 = false ∧ s.waiting .CRG 3 = [(.CRG_F_TARGET_MHZ, 3, 0)] ∧ s.waiting .CRG 2 = [] ∧ s.time.cur.reset ≠ some .cold := by decide +kernel

theorem wit_DeckUpdates : let s := State.reset
    let r : State := { s with regs := ((List.range 8).map fun k => (regKey .MEM_INIT_DONE k 0, 1)) ++ ((List.range 64).map fun c => (regKey .CRG_GATE_STATE c 0, 1)) }
    r.regs.sorted = true
    ∧ r.stopped 2 = false ∧ r.booted = true ∧ r.isSet .DECK_READY = false ∧ r.isSet .MGC_RESTARTING = false
      ∧ (∀ c ∈ r.usableClusters, r.reg .CRG_GATE_STATE c ≠ 0 ∧ r.reg .CRG_GATE_STATE c ≠ 4) ∧ (∀ k < 8, r.isSet .MEM_INIT_DONE k = true) := by
  decide +kernel

/-- A ready Deck that shows nothing yet, one that shows the present fields, and one being updated. -/
theorem wit_DeckUpdates_ready : let s := State.reset.setReg .DECK_READY 1
    s.stopped 2 = false ∧ s.isSet .DECK_READY = true ∧ s.isSet .MGC_RESTARTING = false ∧ s.isSet .DECK_UPDATING = false
      ∧ s.deck.shown.isEmpty = true ∧ s.deckNow.isEmpty = false
      ∧ (let u := s.setReg .DECK_UPDATING 1; u.isSet .DECK_UPDATING = true ∧ u.deckGen + 1 < 2 ^ 64) := by decide +kernel

theorem wit_RetirementUnderLoad : ∀ kind ∈ [1, 2], let s := State.reset.setReg .MGC_RETIRE_KIND kind
    s.reg .MGC_RETIRE_KIND = kind ∧ s.isSet .BRK_BRAKED = false ∧ s.mgc.busy = none ∧ s.mgc.due = []
    ∧ s.usable (if kind = 1 then deckIndex .CLU 0 else deckIndex .CPL 0) = true ∧ (kind = 1 → s.lastCluster 0 = false)
    ∧ (let r : Retire := { kind := kind, unit := 0, cause := 2 }
       let u : State := { s.setReg .CRG_GATE_STATE 1 with mgc := { due := [r] }, time := { bnd := 1 } }
       r.since < u.time.bnd ∧ u.isSet .MGC_RESTARTING = false ∧ u.mgc.due = [r] ∧ u.reg .CRG_GATE_STATE 0 = 1
       ∧ Occurs u 9 (cfgSrc .MGC 0 0x4E4) (.unitRetire kind 0 2)) := by
  unfold Occurs; decide +kernel

/-- A unit retired already, the last usable cluster, a deadline, a cluster that has left, and a coupler that has drained. -/
theorem wit_RetirementUnderLoad_ends : let s := State.reset
    ({ s with deck := { units := [(deckIndex .CLU 0, { retired := some 1 })] } } : State).usable (deckIndex .CLU 0) = false
    ∧ (let u : State := { s with deck := { units := (List.range 63).map fun c => (deckIndex .CLU (c + 1), { retired := some 1 }) } }
       u.lastCluster 0 = true ∧ u.usable (deckIndex .CLU 0) = true)
    ∧ (let u : State := { oneHand (handAt 0 {}) with deck := { draining := [(0, 5)] }, time := { bnd := 5 } }
       NMap.find? u.deck.draining 0 = some 5 ∧ u.stopped 1 = false ∧ 5 ≤ u.time.bnd ∧ (u.hand 0 0).isSome = true ∧ u.hand 0 1 = none)
    ∧ (let u : State := { s.setReg .CRG_GATE_STATE 1 with deck := { draining := [(0, 5)] } }
       u.clocked 0 = true ∧ u.noHands 0 = true ∧ (u.clu 0).leaving = false ∧ NMap.find? u.deck.draining 0 ≠ none)
    ∧ (∀ d ∈ [true, false], let u : State := { s.setReg .CRG_GATE_STATE 1 with
         clus := [(0, { leaving := true })], deck := { draining := if d then [(0, 5)] else [] }, mgc := { busy := some { kind := 1, unit := 0, cause := 2 } } }
       u.clocked 0 = true ∧ u.noHands 0 = true ∧ u.hasLeft 0 = true ∧ (NMap.find? u.deck.draining 0 = none ↔ d = false))
    ∧ (let u : State := { s with cpls := [(0, { leaving := some 0 })], mgc := { busy := some { kind := 2, unit := 0, cause := 2 } } }
       (u.cpl 0).leaving = some 0 ∧ u.banksRun = true ∧ u.linkUp 0 = false) := by decide +kernel

theorem wit_ServiceAndLedger : let s := State.reset
    s.isSet .BRK_BRAKED = false ∧ s.booted = true ∧ s.isSet .MGC_RESTARTING = false ∧ s.time.now / windowTicks = s.mgc.window
    ∧ (let u : State := { s with time := { now := windowTicks } }; u.time.now / windowTicks ≠ u.mgc.window)
    ∧ (∀ n ∈ [0, 1], let u : State := { s with mgc := { leak := if n = 0 then [] else [(65536, 1)], unquiet := [(65536, true)] } }
       bookHas 1 0 = true ∧ NMap.find? u.mgc.unquiet (1 * 65536 + 0) ≠ none ∧ u.quiescent 1 0 = true ∧ (u.bookOut 1 0 = u.required 1 0 ↔ n = 0))
    ∧ (let u : State := { s with homes := [(0, { inbound := [aMsg .rdS 0] })] }; u.quiescent 1 0 = false)
    ∧ (s.setReg .CRG_GATE_STATE 1).clocked 0 = true := by decide +kernel

/-! ### Power -/

theorem wit_PhasesAreShed : let s := State.reset.setReg .CRG_GATE_STATE 1
    s.isSet .BRK_BRAKED = false ∧ (s.reg .CRG_PHASE_GOOD 0).testBit 3 = true ∧ ((s.setReg .CRG_PHASE_GOOD 7).reg .CRG_PHASE_GOOD 0).testBit 3 = false
      ∧ ((s.setReg .CRG_PHASE_GOOD 0x1F).reg .CRG_PHASE_GOOD 0).testBit 3 = true := by decide +kernel

/-- R619's table: five phases left give 20 A and 1,650 MHz. -/
theorem test_shed : after (.phaseFail 2 5 false) (State.reset.setReg .CRG_PHASE_GOOD 0x3F 2) (fun t =>
    t.reg .CRG_CAP_MA 2 == 20000 && t.reg .CRG_F_MAX_MHZ 2 == 1650 && t.reg .CRG_PHASE_GOOD 2 == 0x1F && t.usable (deckIndex .CLU 2)) = true := by
  decide +kernel

/-- A regulator with fields of its own. -/
def regState (r : RegSt) : State := { State.reset.setReg .CRG_GATE_STATE 1 with pwr := { regs := [(0, r)] }, time := { bnd := 1000000, now := 1000000 } }

theorem wit_FrequencyAndRail :
    (∀ f ∈ [0, 2000], let s := (regState { freq := f }).setReg .CRG_F_TARGET_MHZ 1000
      s.isSet .BRK_BRAKED = false ∧ s.reg .CRG_GATE_STATE 0 = 1 ∧ (s.regSt 0).change = none ∧ (s.regSt 0).freq ≠ s.effective 0
        ∧ (f = 0 → (s.regSt 0).freq < s.effective 0) ∧ (f = 2000 → s.effective 0 < (s.regSt 0).freq))
    ∧ (∀ n ∈ [5, 1000001], let s := regState { change := some ⟨800, n⟩ }
      (s.regSt 0).change = some ⟨800, n⟩ ∧ (n = 5 → n ≤ s.time.bnd) ∧ (n ≠ 5 → s.time.bnd < n))
    ∧ (∀ e ∈ [0, 1, 8], let s := regState { edges := e }
      s.clocked 0 = true ∧ (s.regSt 0).edges = e ∧ (s.regSt 0).clampAt + 100 ≤ s.time.bnd)
    ∧ (∀ d ∈ [true, false], let s := (regState { droop := d }).setReg .CRG_V_SET 200
      s.clocked 0 = true ∧ (s.regSt 0).droop = d ∧ 100 + 20 < s.reg .CRG_V_SET 0 ∧ s.reg .CRG_V_SET 0 ≤ 190 + 10)
    ∧ (let s := State.reset.setReg .PIN_STRAP_HOST_EN 1
       (5 : BitVec 10).toNat < (s.setReg .CRG_GATE_STATE 1).reg .CRG_VFLOOR_V 0 ∧ s.reg .CRG_VFLOOR_V 0 ≤ (1023 : BitVec 10).toNat
         ∧ s.hostEn = true ∧ s.host.inReset = false)
    ∧ (let s := regState {}
       (List.replicate 80 (0 : BitVec 8)).length = 80 ∧ s.pwr.govAt + ticksOfUs 1000 ≤ s.time.bnd
       ∧ s.pwr.sampleAt + ticksOfUs (s.reg .TLM_PERIOD_US) ≤ s.time.bnd
       ∧ Occurs s 11 0 (.telemetry ⟨12000, 5, List.replicate 64 (0, 0), List.replicate 80 0⟩)) := by
  unfold Occurs; decide +kernel

theorem wit_GatesStatesAndEmergencies :
    (let s := State.reset
     s.isSet .BRK_BRAKED = false ∧ s.booted = true ∧ s.isSet .PWR_UV_ACTIVE = false ∧ s.isSet .PWR_UV_COLLAPSE = false ∧ s.isSet .PWR_TRIPPED = false
       ∧ s.usable (deckIndex .CLU 0) = true ∧ NMap.find? s.deck.draining 0 = none ∧ s.reg .CRG_GATE_STATE 0 = 0
       ∧ ((s.setReg .PWR_UV_ACTIVE 1).isSet .PWR_UV_ACTIVE = true) ∧ Occurs s 3 0 (.undervoltage 1600)
       ∧ ((115 : BitVec 8).toNat = 115))
    ∧ (let s : State := { (regState {}).setReg .CRG_GATE_STATE 4 with clus := [(0, { ccinit := false })], cores := (List.range 4).map fun i => (i, { l1init := false, icinit := false }) }
       s.reg .CRG_GATE_STATE 0 = 4 ∧ s.stopped 1 = false ∧ s.clusterInit 0 = true ∧ (s.regSt 0).onAt + 300 < s.time.bnd
         ∧ Occurs (s.darken 0 5) 3 1 (.gateFault 0 1 0 0))
    ∧ (∀ g ∈ [1, 5], let s : State := { State.reset.setReg .CRG_GATE_STATE g with pwr := { notices := [(0, 2)] } }
       s.pwr.notices = (0, 2) :: [] ∧ s.isSet .BRK_BRAKED = false ∧ s.reg .CRG_GATE_STATE 0 = g ∧ s.usable (deckIndex .CLU 0) = true
         ∧ NMap.find? s.deck.draining 0 = none)
    ∧ (let s := (regState { wait := some 2 }).setReg .CRG_PRERAISE 3
       (s.regSt 0).wait = some 2 ∧ s.clocked 0 = true ∧ s.isSet .PWR_UV_ACTIVE = false ∧ 2 + 1 ≤ s.reg .CRG_PRERAISE 0 ∧ (s.regSt 0).waitAt ≤ s.time.bnd ∧ (s.regSt 0).change = none) := by
  unfold Occurs; decide +kernel

theorem wit_GatesStatesAndEmergencies_states :
    (∀ tol ∈ [100, 500000], let s : State := { (regState {}).setReg .PWR_WAKE_TOL_NS tol with pwr := { idle := [(0, 0)] } }
       s.isSet .BRK_BRAKED = false ∧ (s.regSt 0).entering = false ∧ s.reg .CRG_GATE_STATE 0 = 1 ∧ s.mayEnter 0 5 = true
         ∧ s.mayEnter 0 400 = decide (tol = 500000))
    ∧ (let s : State := { ((((regState {}).setReg .PWR_WAKE_TOL_NS 500000).setReg .PWR_T3_EN 1).setReg .PWR_T4_EN 1) with
         pwr := { idle := [(64, 0), (72, 0)] }, mem := { selfRefresh := (List.range 8).map fun k => (k, true) },
         deck := { units := (List.range 64).map fun c => (deckIndex .CLU c, { retired := some 1 }) } }
       s.mayEnter 64 4000 = true ∧ s.mayEnter 72 40000 = true ∧ 0 ∉ s.pwr.t4 ∧ s.linkUp 0 = false)
    ∧ (∀ g ∈ [1, 2, 3], let s : State := { (regState { wait := some 1, entering := g == 1 }).setReg .CRG_GATE_STATE g with time := { bnd := 5 } }
       (s.regSt 0).wait ≠ none ∧ s.reg .CRG_GATE_STATE 0 = g ∧ (s.regSt 0).wakeAt = none)
    ∧ (let s : State := { homeState [] with homes := [(0, { inbound := [aMsg .rdS 3] })], mem := { selfRefresh := [(0, true)] } }
       NMap.get false s.mem.selfRefresh 0 = true ∧ (s.home 0).inbound ≠ []) := by
  decide +kernel

/-! ### Homes and agents -/

/-- The offset of a test message's line at its home. -/
def ls0 : Nat := lsOf (aMsg .rdS 3).line

theorem wit_HomesServeRequests : ∀ k ∈ [MsgKind.rdS, .rdX false, .rdX true, .wb, .ce, .ncRd, .stRd],
    let m : Msg := { aMsg k 3 with part := some { thread := 0, addr := 0xFFFF * 2 ^ 48 + 4, size := 4, op := .load } }
    let s := homeState [m]
    AtHome s m 0 ∧ isSignalMsg m = false ∧ (s.home 0).find ls0 = none ∧ ((s.home 0).place ls0).isSome = true
      ∧ (∀ i < 4, Sound s (offsetOfLs 0 ls0 / 128 * 4 + i)) := by unfold AtHome Sound; decide +kernel

theorem wit_HomesServeRequests_writes : ∀ x ∈ [(MsgKind.ncWr, PartOp.store [1, 2, 3, 4]), (.stWr, .store [1]), (.ncAtom, .amo .add 0 5 0)],
    let p : Part := { thread := 0, addr := 0xFFFF * 2 ^ 48 + 28, size := 4, op := x.2 }
    let m : Msg := { aMsg x.1 3 with part := some p }
    let s := homeState [m]
    AtHome s m 0 ∧ isSignalMsg m = false ∧ (s.home 0).find ls0 = none ∧ m.cmode = 0 ∧ m.carry = .good
      ∧ offsetOf p.addr % 32 + p.size ≤ 32 ∧ Sound s (offsetOf p.addr / 32) ∧ NMap.get .good s.mem.gran (offsetOf p.addr / 32) = .good := by
  unfold AtHome Sound; decide +kernel

/-- The home's entry says that cluster 3 owns the line: for another's read, and for its own writeback. -/
theorem wit_HomesServeRequests_owned : ∀ x ∈ [(MsgKind.rdS, 5), (.ce, 3), (.wb, 3)],
    let m : Msg := { aMsg x.1 x.2 with data := some zeroLine }
    let h : HomeSt := { dirinit := false, lmapinit := false }
    let s : State := { homeState [m] with homes := [(0, { h with dir := [((h.place ls0).getD 0, { ls := ls0, st := .excl, owner := some ⟨none, 3⟩ })] })] }
    AtHome s m 0 ∧ isSignalMsg m = false ∧ zeroLine.bytes.length = 128 ∧ s.retiredAt (offsetOfLs 0 ls0) = false
      ∧ (s.home 0).find ls0 = some ((h.place ls0).getD 0, { ls := ls0, st := .excl, owner := some ⟨none, 3⟩ }) := by
  unfold AtHome; decide +kernel

theorem wit_HomesServeRequests_away :
    (let m : Msg := { aMsg .rdS 3 with agent := ⟨some 7, 3⟩, line := (0xFFFF * 2 ^ 48 + 8 * stackBytes) / 128 }
     let s := homeState [m]
     m.agent.tile ≠ none ∧ receivable m s.mesh = true ∧ s.homeReady 0 = true ∧ populatedOffset (offsetOf (128 * m.line)) = false ∧ s.reg .CTX_STATE ≠ 1)
    ∧ (let m := aMsg .rdS 3
       let s : State := { homeState [m] with dead := [{ agent := m.agent, all := false, time := 0 }] }
       receivable m s.mesh = true ∧ s.homeReady 0 = true ∧ populatedOffset (offsetOf (128 * m.line)) = true ∧ s.isDead m.agent = true) := by
  decide +kernel

/-- R363 by hand: a write of four bytes at offset 28 lands in the last bytes of granule 0, and reads back. -/
theorem test_write_at_home : let a := 0xFFFF * 2 ^ 48 + 28
    let m : Msg := { aMsg .ncWr 64 with part := some { thread := 0, addr := a, size := 4, op := .store [1, 2, 3, 4] } }
    after (.ncwr m) (homeState [m]) (fun t => (rawBytes t.mem 0).drop 28 == [1, 2, 3, 4] && (rawBytes t.mem 0).take 28 == List.replicate 28 0
      && t.mesh == [answerOf m .ack]) = true := by decide +kernel

theorem wit_FencesTakeSignals :
    (∀ op ∈ [FenceOp.set 5, .add 5, .init 5], ∀ o ∈ [0, 16],
      let p : Part := { thread := 0, addr := 0xFFFF * 2 ^ 48 + o, size := 16, op := .signal op false }
      let m : Msg := { aMsg .ncAtom 64 with part := some p }
      let s := homeState [m]
      AtHome s m 0 ∧ (s.home 0).find ls0 = none ∧ offsetOf p.addr % 16 = 0 ∧ Sound s (offsetOf p.addr / 32)
        ∧ NMap.get .good s.mem.gran (offsetOf p.addr / 32) = .good)
    ∧ (∀ a ∈ [(⟨none, 3⟩ : Agent), ⟨some 7, 64⟩], let m : Msg := { aMsg .rejoin 3 with agent := a }
       let s := homeState [m]
       m.home.tile = none ∧ receivable m s.mesh = true ∧ s.stopped 2 = false) := by unfold AtHome Sound; decide +kernel

/-- A tile whose cluster 3 is clocked and has a request out, answered by `m`. -/
def cluState (m : Msg) (r : Option Req) (cl : Cluster := {}) : State :=
  { State.reset.setReg .CRG_GATE_STATE 1 3 with clus := [(3, { cl with reqs := (r.map fun r => (m.tag, r)).toList })], mesh := [m] }

/-- A request of cluster 3 about the test line. -/
def aReq (k : MsgKind) : Req := { kind := k, home := ⟨none, 0⟩, line := (aMsg k 3).line, since := 0 }

theorem wit_AgentsTakeAnswers :
    (∀ x ∈ [(MsgKind.data .e, MsgKind.rdS), (.data .s, .rdS), (.data .m, .rdX false)], let m : Msg := { aMsg x.1 3 with data := some zeroLine }
      let s := cluState m (some (aReq x.2))
      s.clocked 3 = true ∧ receivable m s.mesh = true ∧ NMap.find? (s.clu 3).reqs m.tag = some (aReq x.2) ∧ m.status = .ok ∧ (s.clu 3).leaving = false
        ∧ wayOf (s.clu 3).cc 16 (ccSet (aReq x.2).line) (aReq x.2).line = none
        ∧ (firstWhere 16 fun w => (NMap.find? (s.clu 3).cc (ccSet (aReq x.2).line * 16 + w)).isNone) = some 0)
    ∧ (let m := aMsg .grant 3
       let y : CLine := { line := m.line, st := .s, data := zeroLine }
       let s := cluState m (some (aReq (.rdX true))) { cc := [(16 * ccSet m.line, y)] }
       NMap.find? (s.clu 3).reqs m.tag = some (aReq (.rdX true)) ∧ (s.clu 3).find m.line = some (16 * ccSet m.line, y))
    ∧ (∀ k ∈ [MsgKind.wb, .ce], let m := aMsg .ack 3
       let s := cluState m (some (aReq k))
       s.clocked 3 = true ∧ m.tag ≠ 4095 ∧ NMap.find? (s.clu 3).reqs m.tag = some (aReq k))
    ∧ (let m := aMsg .ack 3
       (cluState m none).clocked 3 = true ∧ NMap.find? ((cluState m none).clu 3).reqs m.tag = none)
    ∧ (let m := aMsg .ack 64
       let s : State := { State.reset with posted := [(0, { unit := 64, use := .write none, since := 0 })], mesh := [m] }
       m.agent = cpAgent ∧ receivable m s.mesh = true ∧ s.stopped 2 = false ∧ NMap.find? s.posted m.tag = some { unit := 64, use := .write none, since := 0 }) := by
  decide +kernel

/-- One access of a hand of core 12 that waits. -/
theorem wit_AgentsTakeAnswers_access : ∀ x ∈ [(MsgKind.data .copy, MsgKind.ncRd), (.ack, .ncWr), (.ack, .stWr), (.atomRsp, .ncAtom)],
    let m : Msg := { aMsg x.1 3 with res := some okRes }
    let w : Waiter := { core := 12, slot := 0, op := 0, part := 0 }
    let o : MemOp := { id := 0, opc := 0x80, insn := {}, pc := 0, w0 := 0, parts := [{ thread := 0, addr := 0, size := 4, op := .load }] }
    let h : Hand := { handAt 0 {} with ops := [o] }
    let r : Req := { aReq x.2 with waiters := [w] }
    let s : State := { cluState m (some r) with cores := [(12, { slots := [(0, h)] })] }
    s.clocked 3 = true ∧ receivable m s.mesh = true ∧ NMap.find? (s.clu 3).reqs m.tag = some r ∧ s.hand w.core w.slot = some h ∧ w.core / 4 = 3 := by
  decide +kernel

theorem wit_SnoopsAreAnswered :
    (∀ x ∈ [(MsgKind.snpS, CState.e), (.snpS, .m), (.snpX, .e), (.snpX, .s), (.snpNc, .o), (.inv, .s)], ∀ hold ∈ [true, false], let m := aMsg x.1 3
      let y : CLine := { line := m.line, st := x.2, data := zeroLine, hold := hold }
      let s := cluState m none { cc := [(16 * ccSet m.line, y)] }
      s.clocked 3 = true ∧ receivable m s.mesh = true ∧ (s.clu 3).reqs = [] ∧ (s.clu 3).leaving = false ∧ (s.clu 3).find m.line = some (16 * ccSet m.line, y)
        ∧ (cluState m none).clocked 3 = true ∧ ((cluState m none).clu 3).snooped m.line = none)
    ∧ (∀ g ∈ [0, 3, 4, 5, 6], let m := aMsg .snpX 3
       let s := (cluState m none).setReg .CRG_GATE_STATE g 3
       receivable m s.mesh = true ∧ s.stopped 2 = false ∧ s.reg .CRG_GATE_STATE 3 = g)
    ∧ (∀ f ∈ [0, 1], let m : Msg := { aMsg .inv 64 with mc := some 0, home := ⟨some 9, 0⟩, line := 9 * 2 ^ 41 }
       let s : State := { State.reset with mesh := [m], filterInit := false, filter := if f = 0 then [] else [(filterIndex m.line, 1)] }
       receivable m s.mesh = true ∧ s.stopped 2 = false ∧ s.filterInit = false ∧ (NMap.get 0 s.filter (filterIndex m.line) = 0 ↔ f = 0))
    ∧ (∀ r ∈ [SnpReply.clean, .dirty], let m : Msg := { aMsg (.snpRsp r) 3 with data := some zeroLine }
       let t0 : Txn := { ls := ls0, req := aMsg .rdS 5, goal := .request, wait := [⟨none, 3⟩], due := 0 }
       let h : HomeSt := { dirinit := false, lmapinit := false }
       let s : State := { homeState [m] with
         homes := [(0, { h with txns := [t0], dir := [((h.place ls0).getD 0, { ls := ls0, st := .excl, owner := some ⟨none, 3⟩ })] })] }
       receivable m s.mesh = true ∧ s.homeReady 0 = true ∧ (s.home 0).txns = [t0] ∧ t0.ls = lsOf m.line ∧ m.agent ≠ t0.req.agent
         ∧ (s.home 0).find t0.ls = some ((h.place ls0).getD 0, { ls := t0.ls, st := .excl, owner := some m.agent })) := by
  decide +kernel

/-! ### Windows, deadlines and the memory controllers -/

theorem wit_WindowsAndDeadlines : let s := State.reset
    s.isSet .BRK_BRAKED = false ∧ s.isSet .TILE_WIN_BUSY = false ∧ s.booted = true
    ∧ (let u : State := { s.setReg .TILE_WIN_BUSY 1 with winEntries := [5], winNew := [(regKey .TILE_WIN_VALID 0 5, 1)], clus := [(0, { cc := [(0, { line := 5 * 2 ^ 41, st := .s, data := zeroLine })] })] }
       u.isSet .TILE_WIN_BUSY = true ∧ u.stopped 2 = false ∧ u.winBusy = false ∧ u.winHeld (u.normalise (128 * (5 * 2 ^ 41))) = false)
    ∧ (let t0 : Txn := { ls := 5, req := aMsg (.rdX false) 9, goal := .request, wait := [⟨none, 1⟩, ⟨none, 2⟩], due := 0 }
       let u : State := { s with homes := [(0, { txns := [t0] })] }
       u.stopped 2 = false ∧ u.dead.length < 1024 ∧ (∀ j < 8, (u.home j).inbound = []) ∧ (u.home 0).txns = [t0]
         ∧ (∀ j < 8, j ≠ 0 → (u.home j).txns = []) ∧ t0.due ≤ u.time.bnd)
    ∧ (∀ j < 8, (s.home j).txns = [])
    ∧ (let u : State := { s.setReg .RTE_LOADED 1 with rte := { ent := [(7, 1 + 2 ^ 64)] }, time := { bnd := 200000 } }
       u.isDead ⟨some 7, 0⟩ = false ∧ u.routeEnt (u.reg .RTE_ACTIVE) 7 = some (1 + 2 ^ 64) ∧ u.linkUp 0 = false
         ∧ (u.cpl 0).downAt + 100000 ≤ u.time.bnd)
    ∧ (let u := s.setReg .MEM_DEAD_AGENT (64 * 9 + 3)
       u.reg .MEM_DEAD_AGENT = 64 * 9 + 3 ∧ u.tileId ≠ some 9 ∧ u.reg .MEM_DEAD_ALL = 0) := by decide +kernel

/-- A directory with one line of a dead cluster; and losses found at tick 0. -/
theorem wit_WindowsAndDeadlines_walk :
    (let a : Agent := ⟨none, 3⟩
     let h : HomeSt := { dirinit := false, lmapinit := false, walks := 1 }
     let e : DirEntry := { ls := ls0, st := .excl, owner := some a }
     let d : DeadEntry := { agent := a, all := false, time := 0 }
     let s : State := { State.reset with homes := [(0, { h with dir := [((h.place ls0).getD 0, e)], reclaim := [d] })], dead := [d] }
     s.stopped 2 = false ∧ (s.home 0).walks ≠ 0 ∧ NMap.find? s.mem.retire 0 = none ∧ (s.home 0).dir = [((h.place ls0).getD 0, e)]
       ∧ (s.home 0).find ls0 = some ((h.place ls0).getD 0, e) ∧ s.deadOf 0 a = some d ∧ s.retiredAt (offsetOfLs 0 ls0) = false ∧ s.reg .CTX_STATE ≠ 1)
    ∧ (∀ n ∈ [5, 200000], let r : LossRange := { agent := ⟨none, 3⟩, all := false, time := 0, first := 4, count := 1, found := 0 }
       let s : State := { State.reset with homes := [(0, { losses := [r] })], time := { bnd := n } }
       s.stopped 2 = false ∧ (s.home 0).losses = r :: [] ∧ (r.found + 100000 ≤ s.time.bnd ↔ n = 200000)) := by decide +kernel

theorem wit_WindowsAndDeadlines_requests :
    (∀ x ∈ [(MsgKind.wb, false), (.ce, false), (.rdS, true)], let r : Req := { aReq x.1 with quar := x.2 }
      let s : State := { cluState (aMsg .ack 3) (some r) with time := { bnd := 10 ^ 12 } }
      s.clocked 3 = true ∧ (s.clu 3).leaving = false ∧ NMap.find? (s.clu 3).reqs 0 = some r
        ∧ r.since + 100 * s.reg .CLU_REQ_TIMEOUT_US 3 ≤ s.time.bnd)
    ∧ (let w : Waiter := { core := 12, slot := 0, op := 0, part := 0 }
       let o : MemOp := { id := 0, opc := 0x80, insn := {}, pc := 0, w0 := 0, parts := [{ thread := 0, addr := 0, size := 4, op := .load }] }
       let h : Hand := { handAt 0 {} with ops := [o] }
       let r : Req := { aReq .ncRd with waiters := [w] }
       let s : State := { cluState (aMsg .ack 3) (some r) with cores := [(12, { slots := [(0, h)] })], time := { bnd := 10 ^ 12 } }
       s.clocked 3 = true ∧ NMap.find? (s.clu 3).reqs 0 = some r ∧ s.hand w.core w.slot = some h ∧ r.since + 100 * s.reg .CLU_REQ_TIMEOUT_US 3 ≤ s.time.bnd)
    ∧ (∀ g ∈ [1, 4], ({ State.reset.setReg .CRG_GATE_STATE g with time := { bnd := 300 } } : State).invalidates 0 = true) := by decide +kernel

theorem wit_ControllersWork : let s := State.reset
    s.stopped 1 = false ∧ s.booted = true ∧ s.isSet .MEM_INIT_DONE 0 = false ∧ s.reg .CTX_STATE ≠ 1
    ∧ (let u : State := { ((s.setReg .MEM_INIT_DONE 1).setReg .MEM_SCRUB_EN 1) with time := { bnd := 10 ^ 15 } }
       u.memRuns 0 = true ∧ u.isSet .MEM_INIT_DONE 0 = true ∧ u.isSet .MEM_SCRUB_EN 0 = true ∧ u.chRetired 0 3 = false
         ∧ NMap.get 0 u.mem.scrubAt (3 * 2) + u.reg .MEM_SCRUB_HOURS 0 * 3600 * 10 ^ 8 / 6291456 ≤ u.time.bnd
         ∧ (∀ j < 4, Sound u (offsetOfLs 0 (scrubLine 3 0 0) / 128 * 4 + j)))
    ∧ s.isSet .MEM_CH_RETIRE_BUSY 0 = false ∧ s.chRetired 0 3 = false ∧ ((s.setReg .MEM_CH_RETIRE_MASK 8).chRetired 0 3 = true)
    ∧ (∀ st ∈ [0, 1], let u : State := { s with mem := { retire := [(0, (3, 1, st))] } }
       NMap.find? u.mem.retire 0 = some (3, 1, st) ∧ u.stopped 2 = false ∧ (u.home 0).walks = 0 ∧ (u.home 0).busyChannel 3 = false
         ∧ (u.home 0).dir = [] ∧ u.isSet .CDC_LMAP_EN 0 0 = false ∧ u.reg .MEM_CH_RETIRE_MASK 0 ||| 2 ^ 3 ≠ 2 ^ 32 - 1)
    ∧ s.isSet .BRK_BRAKED = false ∧ s.codec.op = none
    ∧ (∀ n ∈ [5, 1000], let u : State := { s.setReg .CRG_GATE_STATE 1 with clus := [(0, { asm := [{ block := 4, bytes := [(0, 1)], since := 0 }] })], time := { bnd := n } }
       u.clocked 0 = true ∧ (u.clu 0).asm = [{ block := 4, bytes := [(0, 1)], since := 0 }] ∧ (0 + 1000 ≤ u.time.bnd ↔ n = 1000)) := by
  unfold Sound; decide +kernel

/-- A row that needs sparing; which row holds a line is the implementation's. -/
theorem wit_ControllersWork_row : let s : State := { State.reset.setReg .MEM_INIT_DONE 1 with mem := { rowDue := [(rowKey 0 5, 1)] } }
    (NMap.find? s.mem.rowDue (rowKey 0 5)).isSome = true ∧ s.mem.err = [] := by
  refine ⟨?_, rfl⟩
  simp [NMap.find?]

/-- An image in which every symbol's code has 8 bits. -/
def image8 : List Byte :=
  let l := [0, 0, 8, 0] ++ List.replicate 12 0 ++ leBytes 170 ((List.range 256).map fun k => 8 * 2 ^ (5 * k)).sum ++ List.replicate 66 0
  l ++ leBytes 4 (crc32 l)

/-- A slot with a hold, a valid image in the stage, and a block that no entropy window covers. -/
theorem wit_ControllersWork_more :
    (let s : State := { State.reset.setReg .CDC_SLOT_STATE 2 with codec := { passes := [(0, 1)] } }
     s.slotState (s.reg .CDC_SLOT_SEL) = 2 ∧ s.slotHold (s.reg .CDC_SLOT_SEL) ≠ 0)
    ∧ (let s : State := foldState (fun s i => s.setReg .CDC_STAGE (leNat ((image8.drop (4 * i)).take 4)) 0 i) (List.range 64) State.reset
       imageValid s.stage = true ∧ s.slotState (s.reg .CDC_SLOT_SEL) ≠ 2)
    ∧ (let j : PackJob := { block := 0, slot := 0, id := 0 }
       let s : State := { State.reset.setReg .MEM_INIT_DONE 1 with codec := { pack := [j] } }
       s.memRuns 0 = true ∧ ctlOf j.block = 0 ∧ s.modeAt (s.normalise (0xFFFF * 2 ^ 48 + j.block)) ≠ 1 ∧ NMap.find? s.cp.asyncs j.id = none) := by
  decide +kernel

/-! ### Couplers -/

/-- A coupler 0 in a link state, trained and locked or not, with its bank's PLL locked. -/
def cplState (st : Nat) (c : CplSt) (lock : Nat := 0) : State :=
  { (((State.reset.setReg .CPL_LINK_STATE st).setReg .CPL_LOCK lock).setReg .BANK_PLL_LOCK 1).setReg .CPL_ENABLE 1 with cpls := [(0, c)] }

/-- A training frame of lane 1 whose CRC is right. -/
def frame1 : List Byte :=
  let l : List Byte := [1, 1, 4, 0] ++ List.replicate 10 0
  l ++ leBytes 2 (crcMsb 16 0x1021 0xFFFF l)

theorem wit_CouplersTrain :
    (let s := cplState 0 {}
     s.cplLive 0 = true ∧ s.link 0 = 0 ∧ (s.cpl 0).beaconAt = none ∧ LanesWhole s 0)
    ∧ (let s := cplState 1 { phase := 1 }
       s.cplLive 0 = true ∧ s.link 0 = 1 ∧ frame1.length = 16 ∧ s.reg .CPL_LANES_RETIRED 0 = 0
         ∧ crcMsb 16 0x1021 0xFFFF (frame1.take 14) = leNat (frame1.drop 14)
         ∧ crcMsb 16 0x1021 0xFFFF ((List.replicate 16 (0 : Byte)).take 14) ≠ leNat ((List.replicate 16 (0 : Byte)).drop 14))
    ∧ (∀ ph ∈ [1, 3], let s := cplState 1 { phase := ph, ready := [(0, 16), (1, 16), (2, 16), (3, 16)], farQual := 15 }
       s.cplLive 0 = true ∧ s.link 0 = 1 ∧ s.trainLate 0 = false ∧ (s.cpl 0).allReady = true ∧ s.reg .CPL_MAX_WIDTH 0 = 0
         ∧ 1 ≤ s.reg .CPL_LANE_RETIRE_LIMIT 0 ∧ ∀ x ∈ List.replicate 4 (10 ^ 9, 0), 10 ^ 9 ≤ x.1 ∧ x.2 * 100000 ≤ x.1)
    ∧ (let s : State := { cplState 1 { phase := 1 } with time := { bnd := 10 ^ 12 } }
       s.cplLive 0 = true ∧ s.link 0 = 1 ∧ s.trainLate 0 = true)
    ∧ (let s := cplState 1 { phase := 4 }
       s.cplLive 0 = true ∧ s.link 0 = 1 ∧ (s.cpl 0).phase = 4 ∧ s.trainLate 0 = false ∧ s.reg .CPL_LP 0 = 0)
    ∧ (let s := (cplState 4 { lpExit := some 0 }).setReg .CPL_LP 1
       s.cplLive 0 = true ∧ s.reg .CPL_LP 0 = 1 ∧ (s.cpl 0).lpExit ≠ none ∧ (s.cpl 0).rol.queue = []) := by
  unfold LanesWhole; decide +kernel

/-- An IDENTIFY payload of format 1 with a valid ID 9. -/
def far9 : List Byte := [1, 1, 9, 0] ++ List.replicate 60 0

theorem wit_CouplersTrain_identify :
    (let b := ctlBody 0x82 []
     let s := cplState 2 { ctl := [(b, far9)] } 1
     s.link 0 = 2 ∧ (s.cpl 0).rol.granted = false ∧ Takes s 0 0x82 b far9 ∧ far9.length = 64 ∧ field far9 0 1 = 1 ∧ s.reg .CPL_SEAL_EN 0 = 0
       ∧ (field far9 1 1).testBit 1 = false ∧ (s.cpl 0).far = none ∧ (s.cpl 0).acked = false ∧ s.tileId ≠ some (field far9 2 2))
    ∧ (let b := ctlBody 0x84 []
       let s := ((cplState 2 { ctl := [(b, [])], far := some far9, sentValid := true } 1).setReg .MGC_TILE_ID 3).setReg .MGC_TILE_ID_VALID 1
       Takes s 0 0x84 b [] ∧ (b.drop 8).take 16 = padTo 16 (s.cpl 0).nonce ∧ s.tileId = some 3 ∧ (field far9 1 1).testBit 0 = true ∧ field far9 2 2 ≠ 3) := by
  unfold Takes; decide +kernel

theorem wit_CouplersTrain_leaves :
    (∀ f ∈ [none, some far9], let s : State := { (cplState 2 { far := f } 1).setReg .MGC_TILE_ID_VALID 1 with time := { bnd := 10 ^ 6 } }
       s.banksRun = true ∧ s.link 0 = 2 ∧ (s.cpl 0).resume = false ∧ (s.cpl 0).sentAt + 100000 ≤ s.time.bnd ∧ (s.cpl 0).rol.granted = false
         ∧ s.reg .CPL_SEAL_EN 0 = 0 ∧ s.tileId ≠ none ∧ (field far9 1 1).testBit 0 = true ∧ (s.cpl 0).heardAt + 1000000 ≤ s.time.bnd)
    ∧ (let s : State := { cplState 3 {} 1 with time := { bnd := 10 ^ 6 } }
       s.link 0 = 3 ∧ (s.cpl 0).since + 100000 < s.time.bnd ∧ (s.cpl 0).ended < 16 ∧ s.reg .CPL_LP 0 = 0 ∧ s.reg .CPL_LOCK 0 = 1 ∧ LanesWhole s 0)
    ∧ (let s : State := { cplState 6 { gone := true } with time := { bnd := 1 } }
       s.banksRun = true ∧ s.link 0 = 6 ∧ (s.cpl 0).gone = true ∧ (s.cpl 0).since < s.time.bnd)
    ∧ (let s := cplState 4 {} 1
       s.linkUp 0 = true ∧ s.reg .CPL_LOCK 0 = 1)
    ∧ (let s : State := { cplState 3 { ended := 16, far := some far9 } 1 with time := { bnd := 1 } }
       s.cplLive 0 = true ∧ s.link 0 = 3 ∧ 16 ≤ (s.cpl 0).ended ∧ (s.cpl 0).since < s.time.bnd ∧ Occurs s 9 (deckIndex .CPL 0 * 2 ^ 20) (.linkUp 0)
         ∧ (s.cpl 0).far = some far9 ∧ (s.cpl 0).held = none ∧ (s.cpl 0).rol.queue = []) := by
  unfold LanesWhole Occurs; decide +kernel

/-- A seal whose key is the point 2·G and whose signature is of 64 zero bytes and a NONCE of zeros (made by hand). -/
def seal0 : List Byte := beBytes 97 0x0408d999057ba3d2d969260045c55b97f089025959a6f434d651d207d19fb96e9e4fe0e86ebe0e64f85b96a9c75295df618e80f1fa5b1b3cedb7bfe8dffd6dba74b275d875bc6cc43e904e505f256ab4255ffd43e94d39e22d61501e700a940e80
  ++ beBytes 96 0x9f27439b777be6ed8c04a13748da429cd501c66598dfa2b7dc9acc446ac31a07868ecca9ba7078ef8ccaf8a03d2a6ac0dfde2369859da71e779cefb52aab6560c09b94f28cf03f1c07808c20745989911c7abaa97afa2c579fcbb150f38f3fc9

/-- The seal is good: its key's hash is the entry in the list, and it signs what was sent. -/
theorem wit_CouplersTrain_seal : let far : List Byte := List.replicate 64 0
    let b := ctlBody 0x83 []
    let e := sha384 (seal0.take 97)
    let s : State := { cplState 2 { ctl := [(b, seal0)], far := some far } 1 with mem := { cells := (e.zipIdx.filter (·.1 ≠ 0)).map fun x => (x.2, x.1) } }
    s.link 0 = 2 ∧ (s.cpl 0).rol.granted = false ∧ Takes s 0 0x83 b seal0 ∧ (s.cpl 0).far = some far
    ∧ s.seesRecord (0xFFFF * 2 ^ 48 + (s.reg64 .SEC_SEAL_LIST_BASE_LO .SEC_SEAL_LIST_BASE_HI + 48 * field far 2 2) % 2 ^ 48) 48 (some e) = true
    ∧ seal0.length = 193 ∧ (e.any (· != 0)) = true
    ∧ ecdsaVerify (seal0.take 97) (sha384 (far ++ padTo 16 (s.cpl 0).nonce)) ((seal0.drop 97).take 96) = true := by
  unfold Takes; decide +kernel

/-- A flit of 64 zero bytes but for its check, an idle one. -/
def idleFlit : List Byte := flitBytes ⟨true, List.replicate 60 0⟩

theorem wit_CouplersCarryFlits :
    (let p : TxPkt := ⟨6, false, [⟨true, ctlBody 0x8B []⟩]⟩
     let s := cplState 4 { rol := { granted := true, credit := [(6, 5)] } } 1
     (s.cpl 0).rol.queue = [] ∧ s.canLeave 0 p = true ∧ (cplState 4 {} 1).canLeave 0 p = false)
    ∧ (let s := cplState 4 {} 1
       s.banksRun = true ∧ s.reg .CPL_LOCK 0 = 1 ∧ 2 ≤ s.link 0 ∧ s.link 0 ≤ 5 ∧ classifyFlit true [] = none ∧ (s.cpl 0).rol.disc = false
         ∧ classifyFlit true idleFlit = some ⟨true, List.replicate 60 0⟩ ∧ flitKind (List.replicate 60 0) = 0
         ∧ (let b := ctlBody 0x8B []
            classifyFlit true (flitBytes ⟨true, b⟩) = some ⟨true, b⟩ ∧ flitKind b = 2 ∧ 0x84 ≤ field b 1 1 ∧ field b 1 1 ≤ 0x8D ∧ leadOk b = true
              ∧ ((cplState 4 { rol := { disc := true } } 1).cpl 0).rol.disc = true))
    ∧ (let b := ctlBody 0x80 [(4, leBytes 2 0x8000)]
       Takes (cplState 2 { ctl := [(b, [])] } 1) 0 0x80 b [] ∧ field b 4 2 = 0x8000)
    ∧ (let b := ctlBody 0x80 [(4, leBytes 2 0x1007)]
       let f : Flit := ⟨true, []⟩
       let s := cplState 4 { ctl := [(b, [])], rol := { unack := [(6, f), (7, f), (8, f)] } } 1
       Takes s 0 0x80 b [] ∧ field b 4 2 = 0x1000 + 7 ∧ (s.cpl 0).rol.unack = [(6, f)] ++ (7, f) :: [(8, f)])
    ∧ (let f : Flit := ⟨true, []⟩
       let s : State := { cplState 4 { rol := { arrived := 1, unack := [(6, f)], granted := true } } 1 with time := { bnd := 10 ^ 6 } }
       s.banksRun = true ∧ 2 ≤ s.link 0 ∧ s.link 0 ≤ 5 ∧ s.reg .CPL_LP 0 = 0 ∧ (s.cpl 0).rol.ackAt + ticksOfNs (s.reg .CPL_REPLAY_TO_NS 0) ≤ s.time.bnd
         ∧ s.linkUp 0 = true ∧ (s.cpl 0).rol.busyAt + 309 ≤ s.time.bnd) := by
  unfold Takes; decide +kernel

theorem wit_CouplersCarryFlits_upkeep :
    (∀ op ∈ [0x8B, 0x8C, 0x88, 0x89, 0x8A], ∀ acc ∈ [0, 1], let b := ctlBody op [(4, leBytes 1 acc), (5, [1, 0, 0, 0]), (12, leBytes 8 50), (20, [3])]
      let s := (cplState 4 { ctl := [(b, [])], lpAsked := some 0, eqOut := [(acc, ⟨3, 50, 0⟩)] } 1).setReg .CPL_TXEQ_EN 1
      Takes s 0 op b [] ∧ (s.cpl 0).lpAsked ≠ none ∧ s.linkUp 0 = true ∧ (field b 4 1).testBit 0 = decide (acc = 1) ∧ s.reg .CPL_TXEQ_EN 0 = 1
        ∧ NMap.find? (s.cpl 0).eqOut (field b 4 1 % 4) = some ⟨3, 50, 0⟩ ∧ field b 20 1 = 3 ∧ s.time.now < field b 12 8)
    ∧ requestTaps (tapsOf 0xFA36FC00) [0, 1, 0, 0] ≠ none ∧ requestTaps (tapsOf 0xFA36FC00) [0, 0, 1, 0] = none
    ∧ (let s : State := { (cplState 4 { lpExit := some 0, qual := 15, eqIn := [(1, ⟨3, 0, 5⟩)] } 1).setReg .CPL_TXEQ_EN 1 with time := { bnd := 10 ^ 6, now := 10 ^ 6 } }
       s.banksRun = true ∧ s.linkUp 0 = true ∧ LanesWhole s 0 ∧ (s.cpl 0).lpExit = some 0 ∧ 0 + 100000 < s.time.bnd ∧ (s.cpl 0).qual.testBit 1 = true
         ∧ (∀ x ∈ List.replicate 8 (2 ^ 33), s.reg .CPL_LANE_SER_LIMIT 0 < x) ∧ NMap.find? (s.cpl 0).eqOut 1 = none
         ∧ NMap.find? (s.cpl 0).eqIn 1 = some ⟨3, 0, 5⟩ ∧ Occurs s 9 (deckIndex .CPL 0 * 2 ^ 20 + 0x64) (.eqApply 0 1))
    ∧ (let s := (cplState 4 {} 1).setReg .CPL_LP 1
       s.banksRun = true ∧ s.reg .CPL_LP 0 = 1 ∧ (s.cpl 0).lpExit = none)
    ∧ (let s := cplState 6 {}
       s.link 0 = 6 ∧ (s.cpl 0).gone = false ∧ s.regS .CPL_LANE_RETIRE_SEL 0 ∉ (s.cpl 0).retireDue) := by
  unfold Takes LanesWhole Occurs; decide +kernel

/-! ### Routes, time and ticks -/

/-- A tile whose generation 0 has an entry for tile 7 through coupler 0, which is up or not. -/
def routeState (up : Bool) : State :=
  { (cplState (if up then 4 else 0) {} 1).setReg .RTE_LOADED 1 with rte := { ent := [(7, 1 + 2 ^ 64)] } }

/-- A header for tile 7, with hops to go. -/
def hdr7 (hops : Nat) (dst : Nat := 7) : Hdr := { op := 1, dst := dst, hops := hops }

theorem wit_PacketsAreRouted : let f (hops dst : Nat) : Flit := ⟨true, (hdr7 hops dst).bytes⟩
    (∀ up ∈ [true, false], let s := routeState up
      s.routeEnt 0 7 = some (1 + 2 ^ 64) ∧ (1 + 2 ^ 64 : Nat).testBit 65 = false ∧ s.cplUsable 0 = up ∧ s.routeEnt 0 8 = none
        ∧ s.routeOf (hdr7 5) = (if up then .out 0 else .wait) ∧ s.routeOf (hdr7 5 8) = .none)
    ∧ (hdrOf (f 5 7).body).comp % 4 = 0
    ∧ (∀ up ∈ [true, false], ∀ d ∈ [7, 8], let m : Msg := { aMsg .ncRd 64 with line := d * 2 ^ 41, home := ⟨some d, 0⟩, part := some { thread := 0, addr := d * 2 ^ 48, size := 8, op := .load } }
      let s : State := { routeState up with xmit := [(d, m)] }
      s.stopped 2 = false ∧ s.xmit = (d, m) :: [] ∧ (s.packetsOf d m).length = 1
        ∧ (∀ p ∈ s.packetsOf d m, s.routeOf (hdrOf ((packetFlits p.1 p.2).headD ⟨true, []⟩).body) = (if d = 8 then .none else if up then .out 0 else .wait)))
    ∧ (∀ hops ∈ [0, 5], let s : State := { routeState true with cpls := [(0, { transit := [[f hops 7]] })] }
      s.stopped 2 = false ∧ (s.cpl 0).transit = [[f hops 7]] ∧ s.rte.stale = none ∧ (hdrOf (f hops 7).body).hops = hops ∧ s.routeOf (hdrOf (f hops 7).body) = .out 0)
    ∧ (let s0 := routeState false
       let s : State := { s0 with rte := { s0.rte with wait := [([f 5 7], none, 0)] }, time := { bnd := 100000 } }
       s.stopped 2 = false ∧ s.rte.wait = [([f 5 7], none, 0)] ∧ 0 + 100000 ≤ s.time.bnd) := by decide +kernel

theorem wit_PacketsAreRouted_generations :
    (∀ l ∈ [2, 0], let s := State.reset.setReg .RTE_LOADED l
      s.stopped 2 = false ∧ ((s.reg .RTE_LOADED).testBit (1 - s.reg .RTE_ACTIVE) && !s.isSet .RTE_DRAINING) = decide (l = 2))
    ∧ ((State.reset.setReg .RTE_DRAINING 1).isSet .RTE_DRAINING = true ∧ (State.reset.setReg .RTE_FILL_BUSY 1).isSet .RTE_FILL_BUSY = true)
    ∧ State.reset.isSet .RTE_FILL_BUSY = false ∧ State.reset.genLive 0 = true ∧ State.reset.genLive 1 = false
    ∧ (∀ x ∈ [(1, 0), (1, 5), (0, 5)], let b := ctlBody 0x8D [(4, leBytes 1 x.1), (16, leBytes 4 x.2)]
      let s := (cplState 4 { ctl := [(b, [])] } 1).setReg .RTE_LOADED 3
      Takes s 0 0x8D b [] ∧ field b 4 1 % 2 = x.1 ∧ (field b 16 4 + 2 ^ 32 - s.reg .RTE_SW_SEQ) % 2 ^ 32 = x.2 ∧ (s.reg .RTE_LOADED).testBit x.1 = true)
    ∧ (let s : State := { State.reset.setReg .RTE_ARMED 1 with time := { bnd := 1 } }
       s.isSet .RTE_ARMED = true ∧ s.rte.swAt < s.time.bnd ∧ s.reg64 .RTE_SW_TICK_LO .RTE_SW_TICK_HI ≤ s.time.now
         ∧ Occurs s 9 (deckIndex .RTE 0 * 2 ^ 20) .routeSwitch) := by unfold Takes Occurs; decide +kernel

/-- R508 by hand: ordered mode takes the lowest usable coupler of the mask. -/
theorem test_route_ordered : let s : State := { State.reset with regs := [], rte := { ent := [(7, 2 ^ 64 + 6)] } }
    let t := ((s.setReg .RTE_LOADED 1).setReg .CPL_LINK_STATE 4 2).setReg .CPL_LINK_STATE 4 1
    t.routeOf (hdr7 5) = .out 1 ∧ (t.setReg .CPL_LINK_STATE 6 1).routeOf (hdr7 5) = .out 2 := by decide +kernel

theorem wit_TimeAndTicks :
    (let s := State.reset
     s.inReset = false ∧ s.reg .BRK_BRAKED = 0 ∧ s.time.ready = [] ∧ s.time.due = [] ∧ s.padsTaken = false)
    ∧ (let s := (cplState 4 {} 1).setReg .TIK_ALIGN_EN 1
       let u : State := { s with time := { offers := [(0, ⟨5, 1⟩)] } }
       u.bestParent = some (0, ⟨5, 1⟩) ∧ s.linkUp 0 = true ∧ s.time.offers = [] ∧ s.reg .TIK_ALIGN_EN = 1 ∧ s.reg .TIK_ROOT = 0
       ∧ ({ s with time := { parent := some 0 } } : State).hasRoot = true ∧ (s.cpl 0).annAt = none ∧ s.time.measured = none)
    ∧ (∀ op ∈ [0x85, 0x86], let b := ctlBody op []
      Takes (cplState 4 { ctl := [(b, [])] } 1) 0 op b [])
    ∧ (∀ st ∈ [3, 4], let b := ctlBody 0x87 []
      let s : State := { cplState st { ctl := [(b, [])], t1 := some 5 } 1 with time := { parent := some 0, t1 := some 5 } }
      Takes s 0 0x87 b [] ∧ (s.cpl 0).t1 ≠ none ∧ field b 4 2 = (s.cpl 0).seq ∧ (s.cpl 0).started < 16 ∧ (s.cpl 0).since + 100 * (s.cpl 0).started ≤ s.time.bnd
        ∧ (st = 4 → s.linkUp 0 = true) ∧ (st = 3 → s.link 0 = 3))
    ∧ (let s : State := { State.reset with time := { step := some (3, 0), bnd := 1 } }
       s.time.step = some (3, 0) ∧ s.ticking = true ∧ 0 < s.time.bnd) := by unfold Takes; decide +kernel

/-- A replay that waits, one under way whose records are zeros and whose last has been reached, and one with a doorbell record. -/
theorem wit_TimeAndTicks_replay :
    (let s : State := { State.reset with shadow := [(regKey .TIK_REPLAY 0 0, 1)] }
     NMap.find? s.shadow (regKey .TIK_REPLAY 0 0) = some 1 ∧ s.isSet .TIK_REPLAY = false ∧ Occurs s 9 (deckIndex .TIK 0 * 2 ^ 20 + 8) .replayStart)
    ∧ (∀ left ∈ [0, 2], let r : List Byte := List.replicate 8 0 ++ [8, 1] ++ List.replicate 6 0
       let s : State := { (State.reset.setReg .TIK_REPLAY 1).setReg .MEM_INIT_DONE 1 with time := { replayLeft := left, replaySize := 4, bnd := 1 }, mem := { cells := [(8, 8), (9, 1)] } }
       s.isSet .TIK_REPLAY = true ∧ s.time.replayLeft = left ∧ s.ticking = true ∧ s.time.replayLast < s.time.bnd ∧ s.cpReached = true
         ∧ s.seesRecord (0xFFFF * 2 ^ 48 + s.time.replayBase % 2 ^ 48) 16 (some r) = true ∧ (field r 9 1).testBit 0 = true ∧ field r 8 1 = 8 ∧ field r 10 2 = 0
         ∧ field r 0 8 ≤ s.time.now ∧ Occurs s 9 (deckIndex .TIK 0 * 2 ^ 20 + 8) .replayEnd) := by
  unfold Occurs; decide +kernel

/-! ### The host and the rings -/

/-- A tile with a host and an ACTIVE context. -/
def hostState : State := (State.reset.setReg .PIN_STRAP_HOST_EN 1).setReg .CTX_STATE 1

/-- A good descriptor 0 of kind 1 with 8 bytes at 0x100, as a list of 64 bytes. -/
def desc1 : List Byte := [1, 0, 0, 0] ++ leBytes 4 8 ++ leBytes 8 0x100 ++ leBytes 2 0xFFFF ++ List.replicate 46 0

theorem wit_HostAndRings : let s := hostState
    s.hostEn = true ∧ s.host.inReset = false ∧ s.stopped 1 = false ∧ s.stopped 2 = false ∧ s.isSet .BRK_BRAKED = false ∧ s.active = true
    ∧ (s.setReg .BRK_BRAKED 1).isSet .BRK_BRAKED = true ∧ s.populated (s.barAddr 0) = true ∧ s.reg .CTX_STATE ≠ 0 ∧ State.reset.reg .CTX_STATE = 0
    ∧ (let u := s.setReg .HIF_BAR2_TILE 0xFFFF
       let v := u.setReg .HIF_BAR2_BASE_HI 0x60
       v.populated (v.barAddr 0) = false)
    ∧ (∀ r ∈ [CpRead.ack, .doorbell], ∀ n ∈ [0, 10 ^ 9], let u : State := { s with host := { reqs := [(3, { use := .cp r, since := 0 })] }, time := { bnd := n } }
       NMap.find? u.host.reqs 3 = some { use := .cp r, since := 0 } ∧ (0 + ticksOfUs (u.reg .HIF_CPL_TO_US) ≤ u.time.bnd ↔ n ≠ 0))
    ∧ NMap.find? s.host.reqs 3 = none
    ∧ (∀ q ∈ [true, false], ∀ n ∈ [0, 10 ^ 9], let p : PostReq := { unit := 64, use := .write none, since := 0, quar := q }
       let u : State := { s with posted := [(3, p)], time := { bnd := n } }
       NMap.find? u.posted 3 = some p ∧ (p.since + ticksOfUs (u.reg .CPR_REQ_TIMEOUT_US) ≤ u.time.bnd ↔ n ≠ 0))
    ∧ Occurs s 1 2 (.reset .context 0) := by
  unfold Occurs; decide +kernel

/-- Creation with each of its results. -/
theorem wit_HostAndRings_context : let ok := ((State.reset.setReg .CTX_RING_LOG2 8).setReg .CTX_EVT_LOG2 8).setReg .CTX_FENCE_KEEP 1
    (ok.ctxCreate.reg .CTX_RESULT = 0 ∧ ok.isSet .CTX_FENCE_KEEP = true)
    ∧ (ok.setReg .CTX_STATE 2).ctxCreate.reg .CTX_RESULT = 5 ∧ (ok.setReg .CTX_STATE 1).ctxCreate.reg .CTX_RESULT = 4
    ∧ (ok.setReg .CTX_RING_LOG2 7).ctxCreate.reg .CTX_RESULT = 1 ∧ (ok.setReg .CTX_EVT_LOG2 17).ctxCreate.reg .CTX_RESULT = 2
    ∧ (ok.setReg .CTX_FENCE_BASE_HI 0x60).ctxCreate.reg .CTX_RESULT = 3
    ∧ ({ ok with host := { lastEpoch := some (ok.reg .CTX_EPOCH) } } : State).ctxCreate.reg .CTX_RESULT = 6 := by
  decide +kernel

/-- A reset of the context, and doorbell and acknowledgement words of each kind. -/
theorem wit_HostAndRings_words : let ok := ((State.reset.setReg .CTX_RING_LOG2 8).setReg .CTX_EVT_LOG2 8).setReg .CTX_FENCE_KEEP 1;
    (let s := ok.setReg .CTX_STATE 2
     s.stopped 1 = false ∧ handsWhere s (fun _ _ _ => true) = [] ∧ s.posted = [])
    ∧ (let s := (ok.setReg .CTX_STATE 1).setReg .CTX_EPOCH 9
       s.active = true ∧ 5 ≠ s.reg .CTX_EPOCH ∧ 9 = s.reg .CTX_EPOCH ∧ (257 + 2 ^ 32 - s.reg .CTX_RING_HEAD) % 2 ^ 32 = 257 ∧ 2 ^ s.reg .CTX_RING_LOG2 = 256
         ∧ s.reg .CTX_RING_TAIL = 0 ∧ s.reg .CTX_EVT_TAIL = 0 ∧ s.reg .CTX_EVT_ACK = 0) := by
  decide +kernel

theorem wit_HostAndRings_taken : let ok := ((State.reset.setReg .CTX_RING_LOG2 8).setReg .CTX_EVT_LOG2 8).setReg .CTX_FENCE_KEEP 1;
    (∀ r ∈ [CpRead.doorbell, .ack], let s : State := { ok.setReg .CTX_STATE 1 with cp := { got := [(r, some 5)], fenSeen := [7] } }
       s.active = true ∧ s.stopped 1 = false ∧ s.cp.got = [(r, some 5)] ∧ s.isSet .TIK_REPLAY = false ∧ s.cp.fenSeen.contains 7 = true
         ∧ (s.setReg .TIK_REPLAY 1).isSet .TIK_REPLAY = true ∧ Occurs s 8 0 (.doorbell 5 0) ∧ Occurs s 8 1 (.ackWord 5 0)
         ∧ Occurs s 8 9 (.fenceSeen 7 0)) := by
  unfold Occurs; decide +kernel

theorem wit_HostAndRings_polls :
    (let s := ((hostState.setReg .CTX_DB_ADDR_HI 0xFFFE0000).setReg .CTX_HEADWB_ADDR_HI 0xFFFE0000).setReg .CTX_HEADWB_EN 1
     s.cpReading .doorbell = false ∧ s.cp.nextPoll ≤ s.time.bnd ∧ tileOf (s.reg64 .CTX_DB_ADDR_LO .CTX_DB_ADDR_HI) = 0xFFFE
       ∧ firstWhere 768 (fun t => (NMap.find? s.host.reqs t).isNone) = some 0
       ∧ s.isSet .CTX_HEADWB_EN = true ∧ s.cp.headWritten ≠ some (s.reg .CTX_RING_HEAD) ∧ s.cp.headAt ≤ s.time.bnd
       ∧ tileOf (s.reg64 .CTX_HEADWB_ADDR_LO .CTX_HEADWB_ADDR_HI) = 0xFFFE) := by
  decide +kernel

/-- Descriptor 0 of the ring at this tile's address 0, held in its memory, good, bad and poisoned. -/
theorem wit_HostAndRings_fetch : ∀ bad ∈ [0, 1],
    let l := BitVec.ofNat 8 (if bad = 0 then 1 else 9) :: desc1.drop 1
    let t := (((hostState.setReg .CTX_RING_TAIL 1).setReg .CTX_RING_LOG2 8).setReg .CTX_RING_BASE_HI 0xFFFF0000).setReg .MEM_INIT_DONE 1
    let s : State := { t with mem := { cells := (l.zipIdx.filter (·.1 ≠ 0)).map fun x => (x.2, x.1) } }
    let p : State := { t with mem := { gran := [(0, .poison)] } }
    let a := s.reg64 .CTX_RING_BASE_LO .CTX_RING_BASE_HI
    s.active = true ∧ s.stopped 1 = false ∧ s.cp.next = none ∧ s.reg .CTX_RING_HEAD ≠ s.reg .CTX_RING_TAIL ∧ l.length = 64
      ∧ (∀ i < 8, s.sees (a + 8 * i) 8 (some (leNat ((l.drop (8 * i)).take 8))) = true) ∧ descBad 0 l = decide (bad = 1)
      ∧ (∃ i < 8, p.sees (a + 8 * i) 8 none = true) := by decide +kernel

theorem wit_HostAndRings_descriptors : let d0 : Desc := { num := 0, kind := 1, flags := 0, msiVec := 0, len := 8, addr := 64, fence := 0xFFFF, value := 0, user := 0 }
    (∀ k ∈ [0, 1, 2], ∀ fl ∈ [0, 1], let d : Desc := { d0 with kind := k, flags := fl }
      let s : State := { hostState with cp := { next := some d, descs := [d0] } }
      s.active = true ∧ s.stopped 1 = false ∧ s.cp.next = some d ∧ s.cp.cur = none ∧ s.kittyDue = false
        ∧ ((d.flags.testBit 0 = true ∧ ∃ x ∈ s.cp.descs, x.status = none) ↔ fl = 1))
    ∧ (∀ arm ∈ [none, some 0], let d : Desc := { d0 with kind := 2 }
      let c : Cur := { list := 0, frames := [{ base := 0, len := 8, pc := 0 }] }
      let s : State := { hostState with cp := { next := some d, cur := some c, lists := [(0, { desc := some 3 })], nextList := 1, armed := arm }, time := { bnd := 5 } }
      s.cp.cur = some c ∧ s.fromKitty c.list = false ∧ s.answered c.hold = true ∧ NMap.find? s.cp.lists c.list = some { desc := some 3 } ∧ c.list ≠ s.cp.nextList
        ∧ Occurs s 9 (deckIndex .CPR 0 * 2 ^ 20) .exchange)
    ∧ (∀ e ∈ [true, false], ∀ d ∈ [none, some 3], let r : ListRun := { desc := d, tail := { fence := if e then 4 else 0xFFFF }, ended := e }
      let s : State := { hostState with cp := { lists := [(0, r)] } }
      s.stopped 1 = false ∧ NMap.find? s.cp.lists 0 = some r ∧ s.listBusy 0 = false)
    ∧ (∀ st ∈ [none, some 0], ∀ sg ∈ [none, some []], ∀ fe ∈ [0xFFFF, 4], let d : Desc := { d0 with status := st, signalled := sg, fence := fe }
      let s : State := { hostState with cp := { descs := [d] } }
      s.active = true ∧ s.stopped 1 = false ∧ s.cp.descs = d :: [] ∧ s.answered [] = true ∧ s.mirrorOwes d.fence = false) := by
  unfold Occurs; decide +kernel

theorem wit_HostAndRings_events :
    (∀ t ∈ [0, 256], let s := ((hostState.setReg .CTX_EVT_LOG2 8).setReg .CTX_EVT_TAIL t).setReg .CTX_EVT_BASE_HI 0xFFFE0000
      let a := s.reg64 .CTX_EVT_BASE_LO .CTX_EVT_BASE_HI + 64 * (t % 256)
      s.reg .CTX_STATE = 1 ∧ ((s.reg .CTX_EVT_TAIL + 2 ^ 32 - s.reg .CTX_EVT_ACK) % 2 ^ 32 = 2 ^ s.reg .CTX_EVT_LOG2 ↔ t = 256) ∧ tileOf a = 0xFFFE ∧ a % 64 = 0)
    ∧ (∀ tbl ∈ [[], [(0, (5, 6, false))]], ∀ last ∈ [none, some 100], let s : State := { hostState.setReg .CTX_EVT_MSI_EN 1 with host := { posted := true, msixTable := tbl, lastMsi := last } }
      s.active = true ∧ s.isSet .CTX_EVT_MSI_EN = true ∧ s.host.posted = true ∧ s.hostEn = true ∧ (last = some 100 → s.time.bnd < 100))
    ∧ (∀ due ∈ [[], [0]], ∀ msi ∈ [0, 1], let s : State := { (hostState.setReg .FEN_MIR_EN 1).setReg .FEN_MIR_MSI msi with cp := { mirDue := due }, host := { msixTable := [(0, (5, 6, false))] } }
      let o := s.fenceOffset (s.reg .FEN_MIR_FENCE 0 0)
      s.isSet .FEN_MIR_EN 0 0 = true ∧ (s.cp.mirDue.contains 0 = true ↔ due = [0]) ∧ NMap.find? s.cp.mirLast 0 ≠ some s.time.bnd ∧ Sound s (o / 32)
        ∧ s.retiredAt o = false ∧ NMap.get .good s.mem.gran (o / 32) = .good ∧ s.isSet .FEN_MIR_MSI 0 0 = decide (msi = 1)
        ∧ NMap.find? s.host.msixTable (s.reg .FEN_MIR_VEC 0 0) = some (5, 6, false)) := by
  unfold Sound; decide +kernel

/-! ### The command processor -/

/-- Word 0 of a command: its opcode, its words and its ARG. -/
def word0 (op arg : Nat) (words : List Nat) : Nat := op + 2 ^ 16 * (words.length + 1) + 2 ^ 32 * arg

/-- A command at the start of a list of tile 5's memory, where the CP reads any word. -/
def cmdCtx (op arg : Nat) (words : List Nat) (loops : List LoopEnt := []) : CmdCtx :=
  let f : Frame := { base := 5 * 2 ^ 48, len := 4096, pc := 5 * 2 ^ 48, loops := loops }
  { op := op, arg := arg, words := words, cur := { list := 0, frames := [f] }, frame := f, rest := [] }

/-- An ACTIVE tile whose CP stands there. -/
def cpState (c : CmdCtx) : State := { State.reset.setReg .CTX_STATE 1 with cp := { cur := some c.cur, lists := [(0, { desc := some 0 })], nextList := 1 } }

/-- What `AtCmd` asks, for the CP's list. -/
def atCmd (op arg : Nat) (words : List Nat) (loops : List LoopEnt := []) : Prop :=
  let c := cmdCtx op arg words loops
  AtCmd (cpState c) op (some (word0 op arg words) :: words.map some) c

/-- Every synchronous command, with operands that break no rule. -/
theorem wit_CommandsRun : ∀ x ∈ [(0x01, 0, []), (0x02, 0, []), (0x02, 1, []), (0x40, 10, [0, 0, 0]), (0x40, 0x210, [0, 0, 0]), (0x41, 0x200, []), (0x42, 0, []),
      (0x43, 0, [5]), (0x43, 0x200, [0]), (0x44, 0, [6 * 2 ^ 48, 0, 0]), (0x45, 0, []), (0x46, 0, [0x100, 8]), (0x46, 0, [0x101, 8]), (0x47, 0, []),
      (0x22, 1, [64, 5]), (0x30, 4, [5]), (0x31, 0x10004, [5]), (0x48, 2, [64, 5]), (0x48, 0x16, [64, 64]), (0x48, 0x2A, [64, 0]), (0x48, 3, [4, 0]), (0x32, 4, [5, 100]),
      (0x32, 0x10004, [0, 0]), (0x32, 0x60004, [5, 0]), (0x32, 0x10014, [0, 0]), (0x49, 0, [5]), (0x49, 1, [0]), (0x50, 3, [50, 0, 0, 0xFFFF]), (0x50, 0x40, [50, 0, 0, 4]),
      (0x51, 3, []), (0x70, 2, [1]), (0x71, 0, [1000])], atCmd x.1 x.2.1 x.2.2 := by
  refine fun x hx => ⟨rfl, word0 x.1 x.2.1 x.2.2, ?_⟩
  revert x hx
  decide +kernel

/-- Loops that are open, and as many as there may be; a target inside the frame; calls that are nested; and fences. -/
theorem wit_CommandsRun_more : (∀ n ∈ [1, 8], ∀ op ∈ [0x43, 0x44, 0x45], atCmd op 0 (if op = 0x43 then [5] else if op = 0x44 then [64, 0, 0] else [])
      (List.replicate n { start := 8, count := some 3, done := 2 }))
    ∧ (∀ w ∈ [0x41, 0x42, 0x45, 0x01], TargetAt (cpState (cmdCtx 0x41 0x200 [])) (cmdCtx 0x41 0x200 []) (5 * 2 ^ 48 + 16) w)
    ∧ (let s := cpState (cmdCtx 0x32 4 [5, 100])
       Sound s (s.fenceOffset 4 / 32) ∧ s.retiredAt (s.fenceOffset 4) = false ∧ NMap.get .good s.mem.gran (s.fenceOffset 4 / 32) = .good) := by
  refine ⟨fun n hn op ho => ⟨rfl, word0 op 0 (if op = 0x43 then [5] else if op = 0x44 then [64, 0, 0] else []), ?_⟩, ?_⟩
  · revert n hn op ho
    decide +kernel
  · unfold TargetAt Sound; decide +kernel

/-- Bad words 0, and a BARRIER flag while the list has a command under way. -/
theorem wit_CommandsRun_bad : (∀ w ∈ [0xFF + 2 ^ 16, 0x42 + 2 ^ 16, 0x42 + 2 ^ 17, 0x142 + 2 ^ 16], let c := cmdCtx (cmdOp w) 0 []
      (cpState c).atCommand = some (c.cur, c.frame, c.rest) ∧ c.cur.w0 = none ∧ (cpState c).sees c.frame.pc 8 (some w) = true ∧ c.op = cmdOp w)
    ∧ cmdShape (cmdOp (0xFF + 2 ^ 16)) = none ∧ cmdWords (0x42 + 2 ^ 17) ≠ 1 ∧ cmdBarrier (0x142 + 2 ^ 16) = true ∧ badWord0 (0x142 + 2 ^ 16) 64 = none
    ∧ (let s := cpState (cmdCtx 0x42 0 [])
       let a : AsyncCmd := { codec := false, list := 0, cmd := ⟨0, 0, 0, 0⟩, tail := {} }
       ({ s with cp := { s.cp with asyncs := [(0, a)] } } : State).listBusy 0 = true ∧ s.listBusy 0 = false) := by decide +kernel

/-- Waits whose end has come or not, and watchers of each kind. -/
theorem wit_CommandsRun_waits :
    (∀ w ∈ [CpWait.fence 4 5 0 (some 10), .watcher 3 5 (some 10), .timer 10 true], ∀ n ∈ [0, 10], let c : Cur := { (cmdCtx 0x32 0 []).cur with wait := some w }
      let s : State := { State.reset.setReg .CTX_STATE 1 with cp := { cur := some c, lists := [(0, { desc := some 0 })] }, time := { now := n } }
      CpRuns s ∧ s.cp.cur = some c ∧ c.frames = [(cmdCtx 0x32 0 []).frame] ∧ (10 ≤ s.time.now ↔ n = 10))
    ∧ (∀ k ∈ [0, 1, 2], ∀ g ∈ [[], [(CpRead.watch 3, some 5)]], let w : Watcher := { armed := true, kind := k, next := 1, value := 5, mask := 255 }
      let s : State := { State.reset.setReg .CTX_STATE 1 with cp := { watch := [(3, w)], got := g }, time := { now := 1 } }
      CpRuns s ∧ s.isSet .TIK_REPLAY = false ∧ s.watcher 3 = w ∧ w.next ≤ s.time.now ∧ w.readAt ≤ s.time.bnd ∧ (g = [] → s.cpReading (.watch 3) = false)
        ∧ cpCondition w.cmp w.size8 w.value w.mask (some 5) = true ∧ Occurs s 10 3 (.watchFire 3 k 0)) := by
  unfold CpRuns Occurs; decide +kernel

/-- R582 by hand: a LOOP of 5 opens a loop that starts after it. -/
theorem test_loop : after (.cpLoop [some (word0 0x43 0 [5]), some 5] none) (cpState (cmdCtx 0x43 0 [5])) (fun t =>
    t.cp.cur.map (·.frames) == some [{ base := 5 * 2 ^ 48, len := 4096, pc := 5 * 2 ^ 48 + 16, loops := [{ start := 5 * 2 ^ 48 + 16, count := some 5 }] }]
      && t.reg .CPR_CMD_CNT == 1) = true := by decide +kernel

/-! ### Asynchronous commands and the kitty -/

theorem wit_AsyncAndKitty : ∀ x ∈ [(0x10, 5, [64, 1, 70, 0xFFFF, 0, 7]), (0x10, 0, [64, 1, 2 ^ 46, 0xFFFF, 0]), (0x10, 0, [64, 1, 70, 0x1000, 0]), (0x11, 0, [64, 1, 0, 0xFFFF, 0, 6 * 2 ^ 48]),
      (0x20, 0, [6 * 2 ^ 48, 0xFFFF * 2 ^ 48, 4, 0xFFFF, 0]), (0x20, 0, [6 * 2 ^ 48, 0xFFFF * 2 ^ 48, 0, 4, 5]), (0x20, 0, [6 * 2 ^ 48, 0xFFFF006000000000, 4, 0xFFFF, 0]),
      (0x21, 0, [0xFFFF * 2 ^ 48, 4, 0x55, 0xFFFF, 0]), (0x60, 0, [0, 2048, 5, 0xFFFF, 0]), (0x60, 0, [1, 2048, 5, 0xFFFF, 0]), (0x62, 0x100, [0, 2048, 0xFFFF, 0]),
      (0x61, 0, [6 * 2 ^ 48, 0xFFFF * 2 ^ 48, 2048, 0xFFFF, 0])], atCmd x.1 x.2.1 x.2.2 := by
  refine fun x hx => ⟨rfl, word0 x.1 x.2.1 x.2.2, ?_⟩
  revert x hx
  decide +kernel

/-- What is besides asked of those states: room, tails, operands and what the engine reads. -/
theorem wit_AsyncAndKitty_operands : let s := cpState (cmdCtx 0x20 0 [6 * 2 ^ 48, 0xFFFF * 2 ^ 48, 4, 0xFFFF, 0])
    let good : Marked := List.replicate 4 (7, .good)
    s.tasks.length < 64 ∧ s.engineFull false = false ∧ s.engineFull true = false ∧ parseTail 0xFFFF 0 = some {} ∧ parseTail 0x1000 0 = none
    ∧ s.seesBytes (6 * 2 ^ 48) good = true ∧ (∀ d ∈ good, d.2 = .good) ∧ s.seesBytes (6 * 2 ^ 48) (List.replicate 4 (7, .poison)) = true
    ∧ s.populated (s.normalise (0xFFFF * 2 ^ 48)) = true ∧ s.populated (s.normalise 0xFFFF006000000000) = false ∧ s.sees (6 * 2 ^ 48) 4 (some 70) = true
    ∧ s.modeAt (s.normalise (0xFFFF * 2 ^ 48)) = 0
    ∧ (let w := ((((s.setReg .TILE_WIN_VALID 1).setReg .TILE_WIN_TYPE 2).setReg .TILE_WIN_CMODE 1).setReg .TILE_WIN_TILE_FIRST 0xFFFF).setReg .TILE_WIN_TILE_LAST 0xFFFF
       w.modeAt (w.normalise (0xFFFF * 2 ^ 48)) = 1) := by decide +kernel

/-- No window of that state is Staged, and so no address goes through a codec. -/
theorem wit_AsyncAndKitty_modes (c : CmdCtx) (b : Nat) : (cpState c).modeAt b ≠ 1 := by
  have h (n : Nat) : (cpState c).reg .TILE_WIN_TYPE 0 n = 0 := by
    have e : (cpState c).reg .TILE_WIN_TYPE 0 n = (State.reset.setReg .CTX_STATE 1).reg .TILE_WIN_TYPE 0 n := rfl
    rw [e, State.reg_setReg_ne _ _ _ _ _ _ (by decide)]
    rfl
  have k : (cpState c).codecOf b = (0, 0) := by
    unfold State.codecOf
    split
    · rfl
    · simp [h]
  simp [State.modeAt, k]

theorem wit_AsyncAndKitty_commits : let a : AsyncCmd := { codec := true, list := 0, cmd := ⟨0x60, 0, 0, 0⟩, tail := {} }
    (∀ st ∈ [0, 2], ∀ j ∈ [({ slot := 0, survey := true } : CodecJob), { slot := 0, survey := false }], let s := State.reset.setReg .CDC_SLOT_STATE st
      let u : State := { s with codec := { jobs := [(0, j)], passes := [(0, 1)] }, cp := { asyncs := [(0, a)] } }
      NMap.find? u.codec.jobs 0 = some j ∧ NMap.find? u.cp.asyncs 0 = some a ∧ u.slotState j.slot = st ∧ u.slotHold j.slot ≠ 0)
    ∧ (∀ x ∈ [(true, 0, 0xFFFF), (false, 0, 0xFFFF), (false, 0, 4), (false, 5, 0xFFFF)], let b : AsyncCmd := { a with busy := x.1, status := x.2.1, tail := { fence := x.2.2 } }
      let s : State := { State.reset with cp := { asyncs := [(0, b)], lists := [(0, { desc := some 0 })] } }
      s.stopped 1 = false ∧ NMap.find? s.cp.asyncs 0 = some b ∧ s.posted = [] ∧ NMap.find? s.cp.lists b.list = some { desc := some 0 }) := by decide +kernel

/-- A kitty record: type, flags, fence, threads, pc, mask, value, parameters. -/
def kittyRec (t fence threads plen : Nat) : List Byte :=
  leBytes 1 t ++ [0] ++ leBytes 2 fence ++ leBytes 4 threads ++ leBytes 8 64 ++ leBytes 8 1 ++ leBytes 8 5 ++ leBytes 8 (6 * 2 ^ 48) ++ leBytes 2 plen ++ leBytes 2 0
    ++ List.replicate 20 0

theorem wit_AsyncAndKitty_kitty :
    (∀ x ∈ [(1, 0xFFFF, 70, 12), (2, 0xFFFF, 0, 0), (2, 4, 0, 0), (3, 4, 0, 0), (4, 0xFFFF, 8, 0)], let b := kittyRec x.1 x.2.1 x.2.2.1 x.2.2.2
      let s : State := { State.reset.setReg .CTX_STATE 1 with cp := { kitty := [.ready (some b)] } }
      AtKitty s b ∧ (kittyFields b).rtype = x.1 ∧ (kittyFields b).fence = x.2.1 ∧ (∀ k < 2, s.sees ((kittyFields b).param + 8 * k) 8 (some 9) = true))
    ∧ (∀ r ∈ [none, some (kittyRec 0 0 0 0)], let s : State := { State.reset.setReg .CTX_STATE 1 with cp := { kitty := [.ready r] } }
      CpRuns s ∧ s.kittyDue = true ∧ s.kittyHead = some r ∧ headBad r = true)
    ∧ (∀ l ∈ [[], [(0, okRes)]], let o : MemOp := { id := 0, opc := 0xC0, insn := {}, pc := 0, w0 := 0, parts := [], res := l }
      let h : Hand := { handAt 0 {} with ops := [o] }
      let s : State := { oneHand h with cp := { kitty := [.reserved 0 0 0 0] } }
      s.stopped 1 = false ∧ s.cp.kitty[0]? = some (.reserved 0 0 0 0) ∧ s.hand 0 0 = some h ∧ h.ops.find? (fun o => o.id == 0) = some o) := by
  unfold AtKitty CpRuns; decide +kernel

/-! ### Security -/

/-- The uncompressed point 2·G, as the public key of these tests; their signatures are made by hand with it. -/
def key2 : List Byte := beBytes 97 0x0408d999057ba3d2d969260045c55b97f089025959a6f434d651d207d19fb96e9e4fe0e86ebe0e64f85b96a9c75295df618e80f1fa5b1b3cedb7bfe8dffd6dba74b275d875bc6cc43e904e505f256ab4255ffd43e94d39e22d61501e700a940e80

/-- A token of a purpose and level for the challenge below, with its signature. -/
def aToken (purpose level signer : Nat) (sig : Nat) : List Byte :=
  [0x42, 0x54, 0x4F, 0x4B] ++ leBytes 1 purpose ++ leBytes 1 level ++ leBytes 1 signer ++ [0] ++ leBytes 4 (if purpose = 1 then 60 else 0) ++ leBytes 4 0
    ++ sha384 (leBytes 5 (purpose * 2 ^ 32) ++ leBytes 3 level) ++ key2 ++ leBytes 3 0 ++ beBytes 96 sig

/-- The security state of a tile of lifecycle state `lc`, with one owner key and a challenge outstanding. -/
def secAt (lc : Nat) (purpose level : Nat) : SecSt :=
  { fuses := { provisioned := decide (lc ≠ 0), toggles := bit (decide (lc = 2)), retired := decide (lc = 3), owners := [sha384 key2] },
    challenge := some (leBytes 5 (purpose * 2 ^ 32) ++ leBytes 3 level, 0) }

/-- That tile with a message in its buffer. -/
def mbxState (x : SecSt) (m : List Byte) : State := (({ State.reset with sec := x } : State).putMbx 0 m).setReg .SEC_MBX_LEN m.length

theorem wit_MailboxAndTokens : let s := State.reset
    s.isSet .BRK_BRAKED = false ∧ s.inReset = false ∧ (s.setReg .MGC_RESTARTING 1).isSet .MGC_RESTARTING = true ∧ MbxRuns s
    ∧ ({ s with sec := { recovery := true } } : State).sec.recovery = true ∧ MailboxRow .i2c 1 (.getChallenge .i2c) ∧ MailboxRow .i2c 8 (.fwStage .i2c)
    ∧ (s.setReg .SEC_TOKEN_LOCK 1).isSet .SEC_TOKEN_LOCK = true ∧ s.isSet .SEC_TOKEN_LOCK = false
    ∧ (let m := (mbxState (secAt 1 0 0) [0, 0]).mbx 0 2; field m 0 1 = 0)
    ∧ (let u := mbxState (secAt 1 0 0) [1, 3]; u.reg .SEC_MBX_LEN = 2 ∧ field (u.mbx 0 2) 0 1 = 1 ∧ field (u.mbx 0 2) 1 1 = 3)
    ∧ (let u := mbxState (secAt 1 0 0) [5, 0]; u.reg .SEC_MBX_LEN = 2 ∧ field (u.mbx 0 2) 0 1 = 5 ∧ field (u.mbx 0 2) 1 1 = 0)
    ∧ s.tokenCheck (s.mbx 0 (s.reg .SEC_MBX_LEN)) none ≠ 0 := by
  unfold MbxRuns MailboxRow; decide +kernel

/-- An owner token of 60 s for L1 in SEALED, at the end of the time in which its challenge answers. -/
theorem wit_MailboxAndTokens_token : let t := aToken 1 1 0 0x9f27439b777be6ed8c04a13748da429cd501c66598dfa2b7dc9acc446ac31a07868ecca9ba7078ef8ccaf8a03d2a6ac011db0c6b9bda41c72dbb515ad6b56c4bab3bcc43ef3cc1d5a8a823ba78c8f53443da515c76a046f858f02417cfa460f9
    let s : State := { mbxState (secAt 1 1 1) t with time := { bnd := 6000000000 } }
    MbxRuns s ∧ s.mbx 0 (s.reg .SEC_MBX_LEN) = t ∧ s.tokenCheck t none = 0 ∧ field t 4 1 = 1 := by
  unfold MbxRuns; decide +kernel

theorem wit_MailboxAndTokens_open : let t := aToken 2 0 0 0x9f27439b777be6ed8c04a13748da429cd501c66598dfa2b7dc9acc446ac31a07868ecca9ba7078ef8ccaf8a03d2a6ac0578fb57c2511db5eabd74662577c3f0ca101ce0b89808839023ae98af146dd6bdd94965af3a56aa051deb0049b038eef
    let s := mbxState (secAt 1 2 0) t
    MbxRuns s ∧ s.mbx 0 (s.reg .SEC_MBX_LEN) = t ∧ s.tokenCheck t none = 0 ∧ field t 4 1 = 2 ∧ s.sec.fuses.toggles < 32
      ∧ 32 ≤ ({ s.sec.fuses with toggles := 32 } : Fuses).toggles := by
  unfold MbxRuns; decide +kernel

theorem wit_MailboxAndTokens_retire : let t := aToken 3 0 0 0x9f27439b777be6ed8c04a13748da429cd501c66598dfa2b7dc9acc446ac31a07868ecca9ba7078ef8ccaf8a03d2a6ac087152878e29277e7997708728799a4a7b224aba4b32a8c3713eb10d4f33ed5e4e2f8a23902fb16ad53f573a8daa9e2d6
    let s := mbxState (secAt 2 3 0) t
    MbxRuns s ∧ s.mbx 0 (s.reg .SEC_MBX_LEN) = t ∧ s.tokenCheck t none = 0 ∧ field t 4 1 = 3 := by
  unfold MbxRuns; decide +kernel

theorem wit_MailboxAndTokens_rotate : let t := aToken 4 0 0 0x9f27439b777be6ed8c04a13748da429cd501c66598dfa2b7dc9acc446ac31a07868ecca9ba7078ef8ccaf8a03d2a6ac0c9363531d49d4902a762e87d295d42a3b610e1e23b57e53e87e63acee0581e31c9bc570577ca50d4ba91d1cb6336c47b
    let s := mbxState (secAt 2 4 0) (key2 ++ t)
    let u := mbxState { secAt 2 4 0 with fuses := { (secAt 2 4 0).fuses with owners := List.replicate 4 (sha384 key2) } } (key2 ++ t)
    MbxRuns s ∧ s.reg .SEC_MBX_LEN = 357 ∧ s.tokenCheck (s.mbx 97 260) (some 4) = 0 ∧ s.sec.fuses.owners.length < 4
      ∧ 4 ≤ u.sec.fuses.owners.length ∧ u.tokenCheck (u.mbx 97 260) (some 4) = 0 := by
  unfold MbxRuns; decide +kernel

/-- A vendor token that seals a BLANK tile, where the root is the hash of this key. -/
theorem wit_MailboxAndTokens_seal (h : Config.dbgRoot = sha384 key2) : (mbxState (secAt 0 5 0) []).tokenCheck (aToken 5 0 1 0x9f27439b777be6ed8c04a13748da429cd501c66598dfa2b7dc9acc446ac31a07868ecca9ba7078ef8ccaf8a03d2a6ac0574d4476e17284fe7c730de8984c7a2693bba09407a28bd0c7de8c364f32b931b8a86cf8776ca9bbd23300b58719b773) none = 0
    ∧ MbxRuns (mbxState (secAt 0 5 0) []) ∧ field (aToken 5 0 1 0x9f27439b777be6ed8c04a13748da429cd501c66598dfa2b7dc9acc446ac31a07868ecca9ba7078ef8ccaf8a03d2a6ac0574d4476e17284fe7c730de8984c7a2693bba09407a28bd0c7de8c364f32b931b8a86cf8776ca9bbd23300b58719b773) 4 1 = 5 := by
  unfold MbxRuns State.tokenCheck; rw [h]; decide +kernel

theorem wit_MailboxAndTokens_commands :
    (∀ vendor ∈ [false, true], ∀ lc ∈ [0, 1], ∀ held ∈ [true, false],
      let tk : Option Token := if held then some { level := 1, secs := 5, since := 7 } else none
      let s := mbxState { secAt lc 0 0 with owner := tk, vendor := tk } (leBytes 1 (bit vendor))
      MbxRuns s ∧ s.reg .SEC_MBX_LEN = 1 ∧ field (s.mbx 0 1) 0 1 = bit vendor ∧ ((if vendor then s.sec.vendor else s.sec.owner) ≠ none ↔ held = true)) := by
  unfold MbxRuns; decide +kernel

theorem wit_MailboxAndTokens_transitions :
    (let f : Nat → State := fun lc => mbxState (secAt lc 0 0) []
     ((f 1).reg .SEC_MBX_LEN = 0 ∧ (f 1).lifecycle ≠ 2 ∧ (f 2).lifecycle = 2 ∧ (f 2).sec.fuses.toggles < 32 ∧ MbxRuns (f 2)))
    ∧ (let s := mbxState { fuses := { provisioned := true, toggles := 33 } } []
       s.lifecycle = 2 ∧ 32 ≤ s.sec.fuses.toggles ∧ s.reg .SEC_MBX_LEN = 0)
    ∧ (let s := mbxState { fuses := { provisioned := true } } key2
       MbxRuns s ∧ s.reg .SEC_MBX_LEN = 97 ∧ s.lifecycle = 1 ∧ s.sec.fuses.owners = [])
    ∧ (let s := mbxState (secAt 1 0 0) (List.replicate 97 4)
       s.reg .SEC_MBX_LEN = 97 ∧ s.sec.fuses.owners ≠ [] ∧ field (s.mbx 0 97) 4 1 ∉ [2, 3, 5])
    ∧ (∀ gone ∈ [true, false], let s := mbxState { fuses := { secretGone := gone } } (List.replicate 32 1)
       MbxRuns s ∧ s.reg .SEC_MBX_LEN = 32 ∧ s.sec.fuses.secretGone = gone) := by
  unfold MbxRuns; decide +kernel

/-- The two sides of each time at which a token ends, a transition resets and an activation restarts. -/
theorem wit_MailboxAndTokens_times : let tk : Token := { level := 1, secs := 5, since := 7 }
    let f : Nat → State := fun b => { State.reset with sec := { owner := some tk, resetDue := some 7, restartDue := some (7, .i2c), trial := some 0 }, time := { bnd := b } }
    (if false then (f 7).sec.vendor else (f 7).sec.owner) = some tk ∧ tk.secs ≠ 0
    ∧ (f 500000006).time.bnd < tk.since + tk.secs * 100000000 ∧ tk.since + tk.secs * 100000000 ≤ (f 500000007).time.bnd ∧ MbxRuns (f 7)
    ∧ (f 7).time.bnd ≤ 7 ∧ 7 < (f 8).time.bnd ∧ (f 7).sec.resetDue = some 7 ∧ (f 7).sec.restartDue = some (7, .i2c)
    ∧ (f 7).sec.trial = some ((f 7).reg .MGC_FW_SLOT) ∧ State.reset.sec.trial ≠ some (State.reset.reg .MGC_FW_SLOT)
    ∧ Occurs (f 7) 6 3 (.security (.expired false)) ∧ Occurs (f 8) 1 1 (.reset .warm 6) := by
  unfold Occurs MbxRuns; decide +kernel

/-- What FW_STAGE may write, an unsound image in the idle slot, and the end of a restart. -/
theorem wit_MailboxAndTokens_firmware : let s := mbxState { staged := slotBytes - 4 } [1, 2, 3, 4]
    let u := mbxState { staged := slotBytes - 3 } [1, 2, 3, 4]
    let r := (((s.setReg .MGC_RESTARTING 1).setReg .DECK_READY 1).setReg .DECK_UPDATING 0)
    MbxRuns s ∧ 0 < s.reg .SEC_MBX_LEN ∧ s.reg .SEC_MBX_LEN ≤ 1024 ∧ s.sec.staged + s.reg .SEC_MBX_LEN ≤ slotBytes ∧ slotBytes < u.sec.staged + u.reg .SEC_MBX_LEN
    ∧ imageSound (s.slotImage (1 - s.reg .MGC_FW_SLOT)) = false
    ∧ r.isSet .MGC_RESTARTING = true ∧ r.stopped 2 = false ∧ r.sec.recovery = false ∧ r.isSet .DECK_READY = true ∧ r.isSet .DECK_UPDATING = false ∧ r.deckGen < 2 ^ 64 - 1
    ∧ (r.setReg .DECK_READY 0).isSet .DECK_READY = false := by
  unfold MbxRuns; decide +kernel

/-- An image of version 7 and security version 3 with an empty body. -/
def image3 : List Byte :=
  let head : List Byte := [0x42, 0x46, 0x57, 0x49, 1, 0, 3, 0, 7, 0, 0, 0] ++ List.replicate 20 0 ++ sha384 [] ++ key2 ++ leBytes 3 0
  head ++ beBytes 96 0x9f27439b777be6ed8c04a13748da429cd501c66598dfa2b7dc9acc446ac31a07868ecca9ba7078ef8ccaf8a03d2a6ac0256d2a0e4478e322e152a4995aa61212d1ff8c56a64db62bb16052eb3eff4341adf520922b75be13f29fb9a9079bfe0f

/-- It is sound where the root is the hash of its key, for fuses below and above its security version. -/
theorem wit_MailboxAndTokens_image (h : Config.fwRoot = sha384 key2) : imageSound image3 = true ∧ imageSvn image3 = 3
    ∧ ∀ svn ∈ [3, 4], let s := mbxState { fuses := { svn := svn }, flash := [(1, image3)] } []
      MbxRuns s ∧ s.slotImage (1 - s.reg .MGC_FW_SLOT) = image3 ∧ s.sec.fuses.svn = svn := by
  unfold MbxRuns imageSound; rw [h]; decide +kernel

/-! ### Pins and management -/

/-- A tile held by RESET_N, by PWRGD, or by both. -/
def heldBy (r p : Bool) : State := { State.reset with pin := { resetLow := r, pwrLow := p } }

/-- The least board record (R729), with its CRC. -/
def board0 : List Byte :=
  let r : List Byte := [0x42, 0x42, 0x52, 0x44, 1, 0, 128, 0] ++ List.replicate 6 0 ++ [1, 0] ++ List.replicate 16 0 ++ [1] ++ List.replicate 91 0
  r ++ leBytes 4 (crc32 r)

theorem wit_PinsAndManagement_resets : let s := State.reset
    s.isSet .BRK_BRAKED = false ∧ s.inReset = false ∧ (heldBy true false).pin.resetLow = true ∧ (heldBy false true).pin.pwrLow = true
    ∧ (heldBy true true).pin.resetLow = true ∧ (heldBy true true).pin.pwrLow = true ∧ (heldBy true false).stopped 4 = true
    ∧ ({ s.setReg .BRK_BRAKED 1 with time := { bnd := 4 } } : State).stopped 4 = true
    ∧ s.hostEn = false ∧ hostState.hostEn = true ∧ hostState.host.inReset = false ∧ hostState.padsTaken = false
    ∧ hostState.reg .PIN_PERST_POLICY = 0 ∧ (hostState.setReg .PIN_PERST_POLICY 1).reg .PIN_PERST_POLICY = 1
    ∧ Occurs hostState 1 1 (.reset .warm 3) ∧ Occurs (hostState.setReg .PIN_PERST_POLICY 1) 1 2 (.reset .context 3) := by
  unfold Occurs; decide +kernel

theorem wit_PinsAndManagement_pins : let s := State.reset
    s.stopped 4 = false ∧ s.waiting .PIN 0 = [] ∧ (.PIN_FUNC, 0, 7) ∈ (s.setShadow .PIN_FUNC 1 0 7).waiting .PIN 0
    ∧ (s.setShadow .PIN_FUNC 1 0 7).regS .PIN_FUNC 0 7 ≠ (s.setShadow .PIN_FUNC 1 0 7).reg .PIN_FUNC 0 7
    ∧ (∀ b ∈ [11, 12], let u : State := { s with pin := { settle := [(3, 3)] }, cp := { watch := [(0, { kind := 1, pin := 3, armed := true })] }, time := { bnd := b } }
       NMap.find? u.pin.settle 3 = some 3 ∧ (u.time.bnd < 3 + 1 + u.reg .PIN_SETTLE ↔ b = 11) ∧ u.stopped 4 = false)
    ∧ (0x10000 : Word).toNat / 65536 % 32768 ≠ 0 ∧ (0x80000005 : Word).toNat / 65536 % 32768 = 0 ∧ s.tileIdOk 0x80000005 = true ∧ s.tileIdOk 0x8000FFFE = false := by
  decide +kernel

theorem wit_PinsAndManagement_target : I2cUp State.reset ∧ I2cRow false 16 (.boardCommit false) ∧ I2cRow true 2 (.deckRead true 0 1)
    ∧ (State.reset.setReg .MGC_RESTARTING 1).isSet .MGC_RESTARTING = true ∧ ({ State.reset with sec := { recovery := true } } : State).sec.recovery = true
    ∧ (leveled State.reset 0).level < 1 ∧ 1 ≤ State.reset.level ∧ I2cUp (leveled State.reset 0)
    ∧ (leveled { State.reset with sec := { fuses := { provisioned := true } } } 2).boardOpen = true
    ∧ ({ State.reset with sec := { fuses := { provisioned := true } } } : State).boardOpen = false ∧ State.reset.boardOpen = true
    ∧ boardOk board0 = true ∧ boardOk (List.replicate 128 0) = false ∧ State.reset.pmbOn = false
    ∧ ((State.reset.setReg .PIN_FUNC 4 0 6).setReg .PIN_FUNC 4 0 7).pmbOn = true ∧ State.reset.pin.pmb = none ∧ pmbWrites 2 = 2 ∧ pmbReads 5 240 = true := by
  unfold I2cUp I2cRow; decide +kernel

/-- Two records of the journal at this tile's address 0, a mailbox command, and a transfer asked for. -/
theorem wit_PinsAndManagement_reads : let l : List Byte := List.replicate 32 3
    let s : State := { State.reset.setReg .MEM_INIT_DONE 1 with mem := { cells := (List.range 32).map fun i => (i, 3) } }
    let z := s.reg64 .TIK_JNL_BASE_LO .TIK_JNL_BASE_HI
    I2cUp s ∧ 1 ≤ s.level ∧ 0 + 2 ≤ 2 ^ s.reg .TIK_JNL_LOG2
    ∧ (∀ k < 2, s.seesRecord (0xFFFF * 2 ^ 48 + (z + 16 * k) % 2 ^ 48) 16 (some ((l.drop (16 * k)).take 16)) = true) := by
  unfold I2cUp; decide +kernel

theorem wit_PinsAndManagement_run : let s := (received State.reset).setReg .SEC_MBX_LEN 0
    Goes (.fwAccept .i2c) s (s.setReg .SEC_MBX_RESULT 0) := by rfl

theorem wit_PinsAndManagement_registers : let s := State.reset
    0 < Block.PIN.instances ∧ (2 : Nat) % 4 ≠ 0 ∧ 0x58 % 4 = 0 ∧ Block.PIN ≠ .DBG ∧ Block.PIN ≠ .CRG ∧ Block.PIN ∉ [.HIF, .RTE]
    ∧ roWrite .PIN 0x58 = false ∧ reservedOk (Block.PIN.at' 0x58) 0x100 = false
    ∧ (s.writeBar .i2c (.block .PIN 0 0x58) [some 9, some 0, some 0, some 0]).isSome = true
    ∧ ((received s).writeBar .i2c (.block .PIN 0 0x58) [some 9, some 0, some 0, some 0]).isSome = true
    ∧ (s.writeBar .tap (.block .SEC 0 0x28) [some 9, some 0, some 0, some 0]).isSome = true
    ∧ Occurs s 1 0 (.reset .cold 5) ∧ Occurs s 1 1 (.reset .warm 5) ∧ Occurs s 1 2 (.reset .context 5) := by
  unfold Occurs; decide +kernel

theorem wit_PinsAndManagement_port : let p : Pmb := { addr := 5, txn := 3, code := 0, data := [], since := 7 }
    (let s : State := { (State.reset.setReg .PIN_FUNC 4 0 6).setReg .PIN_FUNC 4 0 7 with pin := { pmb := some p }, time := { bnd := 2500007 } }
     I2cUp s ∧ s.pmbOn = true ∧ s.pin.pmb = some p ∧ p.asked = true ∧ pmbReads p.txn 1 = true ∧ s.time.bnd ≤ p.since + 2500000)
    ∧ (∀ ir ∈ [TapIr.obs, .mbx, .dbgAcc], ∀ n ∈ [0, 2], let s : State := { leveled State.reset n with pin := { ir := ir } }
       s.inReset = false ∧ s.pin.ir ∈ [.obs, .mbx, .dbgAcc] ∧ s.isSet .BRK_BRAKED = false ∧ barOffset (.block .PIN 0 0x58) % 4 = 0
       ∧ (s.tapAllowed s.pin.ir = false ∨ tapReaches s.pin.ir (.block .PIN 0 0x58) true = false) ∧ (1 ≤ s.level ↔ n = 2)) := by
  unfold I2cUp; decide +kernel

/-- The read-out, by level and while braked. -/
theorem wit_PinsAndManagement_readOut : ∀ ir ∈ [TapIr.roAddr, .roData], (leveled State.reset 2).tapAllowed ir = false ∧ (leveled State.reset 3).tapAllowed ir = true
    ∧ (((State.reset.setReg .BRK_BRAKED 1).setReg .BRK_RO_AUTH 1).tapAllowed ir) = true ∧ (State.reset.setReg .BRK_BRAKED 1).tapAllowed ir = false
    ∧ (State.reset.setReg .BRK_BRAKED 1).isSet .BRK_BRAKED = true ∧ (0xC000000000000000 : DWord).getLsbD 63 = true ∧ (8 : DWord).getLsbD 63 = false := by
  decide +kernel

end Sys2Proof.Tests
end

section
/-!
PROOFS. Register writes through BAR0 (R25–R30, R528): the dead-agent table's words outside MEM instance 0 (R349).
-/
namespace Sys2Proof.Machine
open Sys2Proof.Safety

/-- The dead-agent table's registers appear in MEM instance 0 alone: elsewhere their words ignore a write (R349). -/
theorem State.writeWord_noDeadRegs (s : State) (path : Path) {b : Block} {inst off : Nat} (v : Nat)
    (h : noDeadRegs b inst off = true) : s.writeWord path b inst off v = some s := by
  obtain ⟨⟨rfl, -⟩, -⟩ : (b = .MEM ∧ inst ≠ 0) ∧ 0x480 ≤ off ∧ off < 0x490 := by simpa [noDeadRegs] using h
  unfold State.writeWord
  rw [if_neg (by simp), if_pos (Or.inr h)]

/-- A write with all four bytes enabled writes the word. -/
theorem State.writeReg_leBytes (s : State) (path : Path) (b : Block) (inst off v : Nat) :
    s.writeReg path b inst off ((leBytes 4 v).map some) = s.writeWord path b inst off (leNat (leBytes 4 v)) := by
  simp [State.writeReg, List.filterMap_map, List.filterMap_some]

@[simp] theorem length_leBytes (n v : Nat) : (leBytes n v).length = n := by
  induction n generalizing v with
  | zero => rfl
  | succ n ih => simp [leBytes, ih]

theorem exec_registerWrite (at' : Bar0) (bytes : List (Option Byte)) (s : State) :
    exec (.registerWrite at' bytes) s = execRegisterWrite at' bytes s := rfl

/-- A whole-register write of a word of the dead-agent table in another instance of MEM changes nothing, braked or not. -/
theorem registerWrite_noDeadRegs (s : State) {inst off : Nat} (v : Nat) (h : noDeadRegs .MEM inst off = true)
    (ha : off % 4 = 0) : Goes (.registerWrite (.block .MEM inst off) ((leBytes 4 v).map some)) s s := by
  have hbar : s.writeBar .bar0 (.block .MEM inst off) ((leBytes 4 v).map some) = some s := by
    have htake : ((leBytes 4 v).map some).take 4 = (leBytes 4 v).map some := List.take_of_length_le (by simp)
    unfold State.writeBar
    simp [ha, htake, State.writeReg_leBytes, State.writeWord_noDeadRegs s .bar0 _ h]
  unfold Goes
  rw [exec_registerWrite, execRegisterWrite, hbar]
  split <;> rfl

/-- Refutes O37: the statement holds every word of a block to its table of fields, and MEM_DEAD_AGENT stands there at 0x480.
The registers of the dead-agent table appear in MEM instance 0 alone, and the other instances ignore writes of them (R349):
a write of 1 to that word of instance 1 leaves it 0, where the statement asks for 1. -/
theorem not_registerWrites : ¬ Obligations.RegisterWrites := by
  unfold Obligations.RegisterWrites
  intro h
  let s : State := State.reset.setReg .PIN_STRAP_HOST_EN 1
  obtain ⟨hwhole, -⟩ := h s .MEM 1 0x480 1 (by decide) (by decide) (by decide) (by decide) (by decide)
  have hstores : ∀ x ∈ Block.MEM.at' 0x480, StoresOnly s x.1 := by unfold StoresOnly; decide
  obtain ⟨hwrite, -⟩ := hwhole (by decide) (by decide) (by decide) (by decide) (by decide) (by decide) hstores
  obtain ⟨t, hgo, -, hfields, -⟩ := hwrite (by decide)
  have hsame : t = s := by
    have hs : Goes (.registerWrite (.block .MEM 1 0x480) ((leBytes 4 1).map some)) s s :=
      registerWrite_noDeadRegs s 1 (by decide) (by decide)
    exact Host.Outcome.next.inj (hgo.symm.trans hs)
  have hnew : t.reg .MEM_DEAD_AGENT 1 = 1 := hfields (.MEM_DEAD_AGENT, 0, 21, 0) (by decide) (by decide)
  have hold : s.reg .MEM_DEAD_AGENT 1 = 0 := by decide
  rw [hsame, hold] at hnew
  exact absurd hnew (by decide)

end Sys2Proof.Machine
end
section
/-!
PROOFS. What the state keeps when registers are written, bytes are sent to memory or the host, and events are posted (R270,
R533, R546, R549).
-/
namespace Sys2Proof.Safety
open Sys2Proof.Machine

/-- Two states agree in one part. -/
def Agree (s t : State) : Comp → Prop
  | .pending => t.pending = s.pending
  | .free => t.free = s.free
  | .regs => t.regs = s.regs
  | .shadow => t.shadow = s.shadow
  | .time => t.time = s.time
  | .mem => t.mem = s.mem
  | .cores => t.cores = s.cores
  | .clus => t.clus = s.clus
  | .homes => t.homes = s.homes
  | .mesh => t.mesh = s.mesh
  | .xmit => t.xmit = s.xmit
  | .dead => t.dead = s.dead
  | .filter => t.filter = s.filter
  | .filterInit => t.filterInit = s.filterInit
  | .winEntries => t.winEntries = s.winEntries
  | .winNew => t.winNew = s.winNew
  | .posted => t.posted = s.posted
  | .rejoin => t.rejoin = s.rejoin
  | .rte => t.rte = s.rte
  | .cpls => t.cpls = s.cpls
  | .host => t.host = s.host
  | .tasks => t.tasks = s.tasks
  | .cp => t.cp = s.cp
  | .brk => t.brk = s.brk
  | .pwr => t.pwr = s.pwr
  | .mgc => t.mgc = s.mgc
  | .codec => t.codec = s.codec
  | .sec => t.sec = s.sec
  | .deck => t.deck = s.deck
  | .pin => t.pin = s.pin

theorem Agree.refl (s : State) (c : Comp) : Agree s s c := by cases c <;> rfl

theorem Agree.trans {s t u : State} {c : Comp} (h : Agree s t c) (h' : Agree t u c) : Agree s u c := by
  cases c <;> exact Eq.trans h' h

/-- `Same` speaks of each part that is not listed. -/
theorem same_iff {ch : List Comp} {s t : State} : Same ch s t ↔ ∀ c, c ∉ ch → Agree s t c := by
  constructor
  · intro h c hc
    unfold Same at h
    cases c <;> simp only [hc, false_or] at h <;> simp only [Agree, h]
  · intro h
    have h' (c : Comp) : c ∈ ch ∨ Agree s t c := or_iff_not_imp_left.2 (h c)
    exact ⟨h' .pending, h' .free, h' .regs, h' .shadow, h' .time, h' .mem, h' .cores, h' .clus, h' .homes, h' .mesh, h' .xmit,
      h' .dead, h' .filter, h' .filterInit, h' .winEntries, h' .winNew, h' .posted, h' .rejoin, h' .rte, h' .cpls, h' .host,
      h' .tasks, h' .cp, h' .brk, h' .pwr, h' .mgc, h' .codec, h' .sec, h' .deck, h' .pin⟩

theorem Same.refl (ch : List Comp) (s : State) : Same ch s s := same_iff.2 fun c _ => Agree.refl s c

theorem Same.trans {ch : List Comp} {s t u : State} (h : Same ch s t) (h' : Same ch t u) : Same ch s u :=
  same_iff.2 fun c hc => (same_iff.1 h c hc).trans (same_iff.1 h' c hc)

theorem Same.mono {ch ch' : List Comp} {s t : State} (h : Same ch s t) (hsub : ch ⊆ ch') : Same ch' s t :=
  same_iff.2 fun c hc => same_iff.1 h c fun hm => hc (hsub hm)

theorem SameRegs.refl (fs : List Field) (s : State) : SameRegs fs s s := fun _ _ _ _ => rfl

theorem SameRegs.trans {fs : List Field} {s t u : State} (h : SameRegs fs s t) (h' : SameRegs fs t u) : SameRegs fs s u :=
  fun f i n hf => (h' f i n hf).trans (h f i n hf)

theorem SameRegs.mono {fs fs' : List Field} {s t : State} (h : SameRegs fs s t) (hsub : fs ⊆ fs') : SameRegs fs' s t :=
  fun f i n hf => h f i n fun hm => hf (hsub hm)

theorem sameRegs_of_regs {fs : List Field} {s t : State} (h : t.regs = s.regs) : SameRegs fs s t :=
  fun f i n _ => State.reg_congr h f i n

theorem OnlyPosts.refl (fs : List Field) (s : State) : OnlyPosts fs s s := ⟨Same.refl _ s, SameRegs.refl _ s⟩

theorem OnlyPosts.trans {fs : List Field} {s t u : State} (h : OnlyPosts fs s t) (h' : OnlyPosts fs t u) : OnlyPosts fs s u :=
  ⟨h.1.trans h'.1, h.2.trans h'.2⟩

theorem OnlyPosts.mono {fs fs' : List Field} {s t : State} (h : OnlyPosts fs s t) (hsub : fs ⊆ fs') : OnlyPosts fs' s t :=
  ⟨h.1, h.2.mono (List.append_subset.2 ⟨List.subset_append_of_subset_left _ hsub, List.subset_append_right _ _⟩)⟩

/-- What posting events changes leaves the Deck alone. -/
theorem OnlyPosts.deck {fs : List Field} {s t : State} (h : OnlyPosts fs s t) : t.deck = s.deck :=
  same_iff.1 h.1 .deck (by decide)

theorem OnlyPosts.foldState {fs : List Field} {α : Type} {f : State → α → State} (hf : ∀ s a, OnlyPosts fs s (f s a)) (l : List α)
    (s : State) : OnlyPosts fs s (foldState f l s) :=
  foldState_keeps (p := OnlyPosts fs s) f l s (OnlyPosts.refl fs s) fun t a h => h.trans (hf t a)

end Sys2Proof.Safety
namespace Sys2Proof.Machine
open Sys2Proof.Safety

theorem State.onlyPosts_setReg {fs : List Field} (s : State) {f : Field} (v i n : Nat) (hf : f ∈ fs ++ postRegs) :
    OnlyPosts fs s (s.setReg f v i n) := by
  refine ⟨by simp [Same, postParts], fun g j m hg => ?_⟩
  exact State.reg_setReg_ne s v i j n m fun e => hg (e ▸ hf)

theorem State.onlyPosts_count {fs : List Field} (s : State) {f : Field} (i n k : Nat) (hf : f ∈ fs ++ postRegs) :
    OnlyPosts fs s (s.count f i n k) :=
  s.onlyPosts_setReg _ i n hf

theorem State.onlyPosts_issue (s : State) (b i n : Nat) : OnlyPosts [] s (s.issue b i n) :=
  ⟨by simp [Same, postParts], sameRegs_of_regs (by simp)⟩

/-- A write of the state's part of the host alone. -/
theorem State.onlyPosts_withHost (s : State) (h : HostSt) : OnlyPosts [] s { s with host := h } :=
  ⟨by simp [Same, postParts], sameRegs_of_regs rfl⟩

theorem State.onlyPosts_hostWrite (s : State) (a : Nat) (bs : List Byte) (c : GState) : OnlyPosts [] s (s.hostWrite a bs c) := by
  unfold State.hostWrite
  split
  · exact s.onlyPosts_count 0 0 1 (by decide)
  · exact s.onlyPosts_withHost _

theorem State.onlyPosts_sendPost (s : State) (u : PostUse) (m : Msg) : OnlyPosts [] s (s.sendPost u m) := by
  unfold State.sendPost
  dsimp only
  split <;> exact ⟨by simp [Same, postParts], sameRegs_of_regs (by simp)⟩

theorem State.onlyPosts_writePiece (s : State) (w : Agent) (a : Nat) (bs : List Byte) (c : GState) (n : Option Nat) :
    OnlyPosts [] s (s.writePiece w a bs c n) := by
  unfold State.writePiece
  dsimp only
  split
  · exact s.onlyPosts_hostWrite _ bs c
  · exact s.onlyPosts_sendPost _ _

theorem State.onlyPosts_fabricWrite (s : State) (w : Agent) (a : Nat) (bs : List Byte) (c : GState) (n : Option Nat) :
    OnlyPosts [] s (s.fabricWrite w a bs c n) :=
  OnlyPosts.foldState (fun (s : State) (p : Nat × List Byte) => s.onlyPosts_writePiece w p.1 p.2 c n) _ s

/-- Posting an event changes what events change, and nothing else. -/
theorem State.onlyPosts_postEvent (s : State) (source : Nat) (pay : List Byte) : OnlyPosts [] s (s.postEvent source pay) := by
  unfold State.postEvent
  split
  · exact OnlyPosts.refl [] s
  · dsimp only
    split
    · exact (s.onlyPosts_count 0 0 1 (by decide)).trans (State.onlyPosts_withHost _ _)
    · refine OnlyPosts.trans ?_ (State.onlyPosts_issue _ 9 0 1)
      refine OnlyPosts.trans ?_ (State.onlyPosts_withHost _ _)
      refine OnlyPosts.trans ?_ (State.onlyPosts_setReg _ _ 0 0 (by decide))
      exact (s.onlyPosts_fabricWrite _ _ _ _ _).trans (State.onlyPosts_fabricWrite _ _ _ _ _ _)

theorem State.onlyPosts_mgcEvent (s : State) (kind : Nat) (fields : List (Nat × List Byte)) :
    OnlyPosts [] s (s.mgcEvent kind fields) :=
  s.onlyPosts_postEvent _ _

/-- An evaluation of the service thresholds writes their values and their latches, and posts events (R668, R669). -/
theorem State.onlyPosts_serviceEval (s : State) : OnlyPosts [.MGC_SVC_VAL, .MGC_SVC_STATUS] s s.serviceEval := by
  unfold State.serviceEval
  dsimp only
  refine (OnlyPosts.foldState (fun s n => ?_) _ s).trans (OnlyPosts.foldState (fun s n => ?_) _ _)
  · exact s.onlyPosts_setReg _ 0 n (by decide)
  split
  · exact OnlyPosts.refl _ s
  · exact (s.onlyPosts_setReg _ 0 0 (by decide)).trans ((State.onlyPosts_mgcEvent _ _ _).mono (by simp))

end Sys2Proof.Machine
end
section
/-!
PROOFS. The Deck: it becomes ready, and its updates begin and end (R66, R81, R83, R84, R726).
-/
namespace Sys2Proof.Machine
open Sys2Proof.Safety

theorem exec_deckUpdate (finish : Bool) (s : State) : exec (.deckUpdate finish) s = execDeckUpdate finish s := rfl

theorem exec_deckReady (s : State) : exec .deckReady s = execDeckReady s := rfl

/-- The generation after its pair of registers is written. -/
theorem State.deckGen_setReg64 (s : State) {gen : Nat} (h : gen < 2 ^ 64) :
    (s.setReg64 .DECK_GEN_LO .DECK_GEN_HI gen).deckGen = gen := by
  simp only [State.deckGen, State.reg64, State.reg_setReg64, Field.spec, reduceCtorEq, false_and, if_false, and_self, if_true,
    Nat.shiftLeft_zero, Nat.shiftRight_zero]
  omega

theorem State.deckGen_congr {s t : State} (hl : t.reg .DECK_GEN_LO = s.reg .DECK_GEN_LO)
    (hh : t.reg .DECK_GEN_HI = s.reg .DECK_GEN_HI) : t.deckGen = s.deckGen := by
  simp only [State.deckGen, State.reg64, hl, hh]

/-! ### Sealing the Deck -/

theorem State.sealDeck_deck (s : State) (gen : Nat) :
    (s.sealDeck gen).deck = { s.deck with crc := crc32 (deckWith gen 0 0 s.deck.shown) } := rfl

theorem State.sealDeck_updating (s : State) (gen : Nat) : (s.sealDeck gen).reg .DECK_UPDATING = 0 :=
  State.reg_setReg_self _ _ _ _ _

theorem State.sealDeck_deckGen (s : State) {gen : Nat} (h : gen < 2 ^ 64) : (s.sealDeck gen).deckGen = gen :=
  (State.deckGen_congr (State.reg_setReg_ne _ _ _ _ _ _ (by decide)) (State.reg_setReg_ne _ _ _ _ _ _ (by decide))).trans
    (s.deckGen_setReg64 h)

theorem State.sealDeck_same (s : State) (gen : Nat) : Same [.regs, .deck] s (s.sealDeck gen) := by
  simp [Same, State.sealDeck]

theorem State.sealDeck_regs (s : State) (gen : Nat) :
    SameRegs [.DECK_UPDATING, .DECK_GEN_LO, .DECK_GEN_HI] s (s.sealDeck gen) := by
  intro f i n hf
  simp only [List.mem_cons, List.not_mem_nil, or_false, not_or] at hf
  obtain ⟨hu, hl, hh⟩ := hf
  calc (s.sealDeck gen).reg f i n
    _ = (s.setReg64 .DECK_GEN_LO .DECK_GEN_HI gen).reg f i n := State.reg_setReg_ne _ _ _ _ _ _ hu
    _ = s.reg f i n := by simp [State.reg_setReg64, hl, hh]

theorem State.deckGen_of_onlyPosts {fs : List Field} {s t : State} (h : OnlyPosts fs s t)
    (hl : .DECK_GEN_LO ∉ fs ++ postRegs) (hh : .DECK_GEN_HI ∉ fs ++ postRegs) : t.deckGen = s.deckGen :=
  State.deckGen_congr (h.2 _ 0 0 hl) (h.2 _ 0 0 hh)

/-- The end of an update is the sealing of the Deck, and at most an event (R81, R84). -/
theorem State.onlyPosts_finishUpdate (s : State) : OnlyPosts [] (s.sealDeck (s.deckGen + 1)) s.finishUpdate := by
  unfold State.finishUpdate
  dsimp only
  split
  · exact State.onlyPosts_postEvent _ _ _
  · exact OnlyPosts.refl _ _

/-! ### The commands -/

/-- The Deck as it stands when every unit is up: sealed with GENERATION 1 and ready. -/
def State.readyDeck (s : State) : State :=
  (State.sealDeck { s with deck := { s.deck with shown := s.deckNow } } 1).setReg .DECK_READY 1

theorem State.readyDeck_same (s : State) : Same [.regs, .deck] s s.readyDeck := by
  simp [Same, State.readyDeck, State.sealDeck]

theorem State.readyDeck_deckGen (s : State) : s.readyDeck.deckGen = 1 :=
  (State.deckGen_congr (State.reg_setReg_ne _ _ _ _ _ _ (by decide)) (State.reg_setReg_ne _ _ _ _ _ _ (by decide))).trans
    (State.sealDeck_deckGen _ (by decide))

theorem deckReady_goes {s : State} (hstop : s.stopped 2 = false) (hboot : s.booted = true) (hready : s.isSet .DECK_READY = false)
    (hrun : s.isSet .MGC_RESTARTING = false)
    (hclu : ∀ c ∈ s.usableClusters, s.reg .CRG_GATE_STATE c ≠ 0 ∧ s.reg .CRG_GATE_STATE c ≠ 4)
    (hmem : ∀ k < 8, s.isSet .MEM_INIT_DONE k = true) : Goes .deckReady s s.readyDeck.serviceEval := by
  have hclu' : (s.usableClusters.all fun c => s.reg .CRG_GATE_STATE c != 0 && s.reg .CRG_GATE_STATE c != 4) = true := by
    simpa using hclu
  have hmem' : ((List.range 8).all fun k => s.isSet .MEM_INIT_DONE k) = true := by simpa using hmem
  unfold Goes
  rw [exec_deckReady, execDeckReady, hstop, hboot, hready, hrun, hmem', hclu']
  rfl

/-- A tile that is up makes its Deck ready (R83, R726). -/
theorem deckReady_ends {s : State} (hstop : s.stopped 2 = false) (hboot : s.booted = true) (hready : s.isSet .DECK_READY = false)
    (hrun : s.isSet .MGC_RESTARTING = false)
    (hclu : ∀ c ∈ s.usableClusters, s.reg .CRG_GATE_STATE c ≠ 0 ∧ s.reg .CRG_GATE_STATE c ≠ 4)
    (hmem : ∀ k < 8, s.isSet .MEM_INIT_DONE k = true) :
    Ends .deckReady s fun t => t.reg .DECK_READY = 1 ∧ t.deckGen = 1 ∧ t.deck.shown = s.deckNow
      ∧ Same (.deck :: postParts) s t := by
  have hsvc := s.readyDeck.onlyPosts_serviceEval
  refine ⟨_, deckReady_goes hstop hboot hready hrun hclu hmem, ?_, ?_, ?_, ?_⟩
  · exact (hsvc.2 .DECK_READY 0 0 (by decide)).trans (State.reg_setReg_self _ _ _ _ _)
  · exact (State.deckGen_of_onlyPosts hsvc (by decide) (by decide)).trans s.readyDeck_deckGen
  · rw [hsvc.deck]; rfl
  · exact (s.readyDeck_same.mono (by decide)).trans (hsvc.1.mono (by decide))

section
variable {s : State} (hstop : s.stopped 2 = false) (hready : s.isSet .DECK_READY = true)
  (hrun : s.isSet .MGC_RESTARTING = false)
include hstop hready hrun

/-- An update command to a ready Deck of a tile that runs: it ends the update under way, or begins one where what the Deck
shows has changed (R81). -/
theorem exec_deckUpdate_ready (finish : Bool) : exec (.deckUpdate finish) s = .next
    (if s.isSet .DECK_UPDATING then (if finish then s.finishUpdate else s)
      else if !finish && s.deck.shown != s.deckNow then s.beginUpdate else s) := by
  rw [exec_deckUpdate, execDeckUpdate, hstop, hready, hrun]
  rfl

theorem deckUpdate_begins (hidle : s.isSet .DECK_UPDATING = false) (hchg : s.deck.shown ≠ s.deckNow) :
    Goes (.deckUpdate false) s s.beginUpdate := by
  simp [Goes, exec_deckUpdate_ready hstop hready hrun, hidle, hchg]

theorem deckUpdate_unchanged (hidle : s.isSet .DECK_UPDATING = false) (hchg : s.deck.shown = s.deckNow) :
    Goes (.deckUpdate false) s s := by
  simp [Goes, exec_deckUpdate_ready hstop hready hrun, hidle, hchg]

theorem deckUpdate_finishes (hbusy : s.isSet .DECK_UPDATING = true) : Goes (.deckUpdate true) s s.finishUpdate := by
  simp [Goes, exec_deckUpdate_ready hstop hready hrun, hbusy]

end

theorem State.beginUpdate_updating (s : State) : s.beginUpdate.reg .DECK_UPDATING = 1 :=
  State.reg_setReg_self s .DECK_UPDATING 1 0 0

theorem State.beginUpdate_same (s : State) : Same [.regs, .deck] s s.beginUpdate := by
  simp [Same, State.beginUpdate]

theorem State.beginUpdate_regs (s : State) : SameRegs [.DECK_UPDATING] s s.beginUpdate :=
  fun _ i n hf => State.reg_setReg_ne s 1 0 i 0 n (List.ne_of_not_mem_cons hf)

/-- What the end of an update leaves: the next GENERATION over the fields that the Deck shows, and UPDATING clear. -/
theorem State.finishUpdate_sealed (s : State) (hgen : s.deckGen + 1 < 2 ^ 64) :
    s.finishUpdate.reg .DECK_UPDATING = 0 ∧ s.finishUpdate.deckGen = s.deckGen + 1
      ∧ s.finishUpdate.deck = { s.deck with crc := crc32 (deckWith (s.deckGen + 1) 0 0 s.deck.shown) } := by
  have hpost := s.onlyPosts_finishUpdate
  refine ⟨?_, ?_, ?_⟩
  · exact (hpost.2 .DECK_UPDATING 0 0 (by decide)).trans (s.sealDeck_updating _)
  · exact (State.deckGen_of_onlyPosts hpost (by decide) (by decide)).trans (s.sealDeck_deckGen hgen)
  · exact hpost.deck.trans (s.sealDeck_deck _)

theorem State.finishUpdate_same (s : State) : Same (.deck :: postParts) s s.finishUpdate :=
  ((s.sealDeck_same _).mono (by decide)).trans (s.onlyPosts_finishUpdate.1.mono (by decide))

theorem State.finishUpdate_regs (s : State) :
    SameRegs ([.DECK_UPDATING, .DECK_GEN_LO, .DECK_GEN_HI] ++ postRegs) s s.finishUpdate :=
  ((s.sealDeck_regs _).mono (by decide)).trans (s.onlyPosts_finishUpdate.2.mono (by decide))

/-- Settles O39: each command of the Deck's life goes to a state named by the model (the ready Deck, the update begun, the
update ended), and the events on the way leave the Deck and its registers alone. -/
theorem deckUpdates : Obligations.DeckUpdates := by
  unfold Obligations.DeckUpdates
  refine ⟨fun s => deckReady_ends, fun s hstop hready hrun => ⟨fun hidle hchg => ?_, ?_, fun hbusy hgen => ?_⟩⟩
  · exact ⟨s.beginUpdate, deckUpdate_begins hstop hready hrun hidle hchg, s.beginUpdate_updating, rfl, s.beginUpdate_same,
      s.beginUpdate_regs⟩
  · exact deckUpdate_unchanged hstop hready hrun
  · obtain ⟨hupd, hnext, hdeck⟩ := s.finishUpdate_sealed hgen
    exact ⟨s.finishUpdate, deckUpdate_finishes hstop hready hrun hbusy, hupd, hnext, by rw [hdeck], by rw [hdeck],
      s.finishUpdate_same, s.finishUpdate_regs⟩

end Sys2Proof.Machine
end
section
/-!
PROOFS. Frames: which parts of the state and which registers an operation of the shared layer may change, in one predicate that
composes along a chain of updates; and couplers after they are written.
-/
namespace Sys2Proof.Safety
open Sys2Proof.Machine

/-- Nothing changes but the parts listed, and among the registers those listed. -/
def Alters (ch : List Comp) (fs : List Field) (s t : State) : Prop := Same ch s t ∧ SameRegs fs s t

theorem Alters.refl (ch : List Comp) (fs : List Field) (s : State) : Alters ch fs s s := ⟨Same.refl ch s, SameRegs.refl fs s⟩

theorem Alters.trans {ch : List Comp} {fs : List Field} {s t u : State} (h : Alters ch fs s t) (h' : Alters ch fs t u) :
    Alters ch fs s u :=
  ⟨h.1.trans h'.1, h.2.trans h'.2⟩

theorem Alters.mono {ch ch' : List Comp} {fs fs' : List Field} {s t : State} (h : Alters ch fs s t)
    (hch : ch ⊆ ch') (hfs : fs ⊆ fs') : Alters ch' fs' s t :=
  ⟨h.1.mono hch, h.2.mono hfs⟩

/-- Two operations one after the other change what either of them changes. -/
theorem Alters.comp {ch₁ ch₂ ch : List Comp} {fs₁ fs₂ fs : List Field} {s t u : State} (h : Alters ch₁ fs₁ s t)
    (h' : Alters ch₂ fs₂ t u) (hch : ch₁ ⊆ ch ∧ ch₂ ⊆ ch) (hfs : fs₁ ⊆ fs ∧ fs₂ ⊆ fs) : Alters ch fs s u :=
  (h.mono hch.1 hfs.1).trans (h'.mono hch.2 hfs.2)

/-- A part that is not listed is the same. -/
theorem Alters.agree {ch : List Comp} {fs : List Field} {s t : State} (h : Alters ch fs s t) (c : Comp)
    (hc : c ∉ ch) :
    Agree s t c :=
  same_iff.1 h.1 c hc

theorem Alters.reg {ch : List Comp} {fs : List Field} {s t : State} (h : Alters ch fs s t) (f : Field) (i n : Nat)
    (hf : f ∉ fs) :
    t.reg f i n = s.reg f i n :=
  h.2 f i n hf

theorem Alters.isSet {ch : List Comp} {fs : List Field} {s t : State} (h : Alters ch fs s t) (f : Field) (i n : Nat)
    (hf : f ∉ fs) :
    t.isSet f i n = s.isSet f i n := by
  simp [State.isSet, h.reg f i n hf]

/-- An operation that leaves the register table alone. -/
theorem Alters.of_regs {ch : List Comp} {s t : State} (h : Same ch s t) (hr : t.regs = s.regs) : Alters ch [] s t :=
  ⟨h, sameRegs_of_regs hr⟩

theorem Alters.foldState {ch : List Comp} {fs : List Field} {α : Type} {f : State → α → State}
    (hf : ∀ s a, Alters ch fs s (f s a)) (l : List α) (s : State) : Alters ch fs s (foldState f l s) :=
  foldState_keeps (p := Alters ch fs s) f l s (Alters.refl ch fs s) fun t a h => h.trans (hf t a)

end Sys2Proof.Safety
namespace Sys2Proof.Machine
open Sys2Proof.Safety

theorem State.alters_setReg (s : State) (f : Field) (v i n : Nat) : Alters [.regs] [f] s (s.setReg f v i n) :=
  ⟨by simp [Same], fun _ j m hg => State.reg_setReg_ne s v i j n m (List.ne_of_not_mem_cons hg)⟩

theorem State.alters_count (s : State) (f : Field) (i n k : Nat) : Alters [.regs] [f] s (s.count f i n k) :=
  s.alters_setReg f _ i n

theorem State.alters_setReg64 (s : State) (l h : Field) (v i n : Nat) : Alters [.regs] [l, h] s (s.setReg64 l h v i n) :=
  (s.alters_setReg l _ i n).comp (State.alters_setReg _ h _ i n) (by simp) (by simp)

theorem State.alters_time (s : State) (t : TimeSt) : Alters [.time] [] s { s with time := t } :=
  .of_regs (by simp [Same]) rfl

/-! ### Bytes sent to memory or the host -/

theorem State.alters_hostWrite (s : State) (a : Nat) (bs : List Byte) (c : GState) :
    Alters postParts [.HIF_CPL_TO_CNT] s (s.hostWrite a bs c) := by
  refine ⟨(s.onlyPosts_hostWrite a bs c).1, ?_⟩
  unfold State.hostWrite
  split
  · exact (s.alters_count .HIF_CPL_TO_CNT 0 0 1).2
  · exact sameRegs_of_regs rfl

theorem State.alters_sendPost (s : State) (u : PostUse) (m : Msg) : Alters postParts [] s (s.sendPost u m) := by
  refine .of_regs (s.onlyPosts_sendPost u m).1 ?_
  unfold State.sendPost
  dsimp only
  split <;> simp

theorem State.alters_writePiece (s : State) (w : Agent) (a : Nat) (bs : List Byte) (c : GState) (n : Option Nat) :
    Alters postParts [.HIF_CPL_TO_CNT] s (s.writePiece w a bs c n) := by
  unfold State.writePiece
  dsimp only
  split
  · exact s.alters_hostWrite _ bs c
  · exact (s.alters_sendPost _ _).mono (by decide) (by decide)

theorem State.alters_fabricWrite (s : State) (w : Agent) (a : Nat) (bs : List Byte) (c : GState) (n : Option Nat) :
    Alters postParts [.HIF_CPL_TO_CNT] s (s.fabricWrite w a bs c n) :=
  Alters.foldState (fun (s : State) (p : Nat × List Byte) => s.alters_writePiece w p.1 p.2 c n) _ s

theorem State.alters_localWrite (s : State) (o : Nat) (bs : List Byte) :
    Alters postParts [.HIF_CPL_TO_CNT] s (s.localWrite o bs) :=
  s.alters_fabricWrite _ _ _ _ _

theorem State.alters_sendMsi (s : State) (vec : Nat) : Alters [.host] [] s (s.sendMsi vec) := by
  unfold State.sendMsi
  split
  · exact Alters.refl _ _ s
  · split <;> exact .of_regs (by simp [Same]) rfl

/-! ### Couplers -/

theorem State.cpl_congr {s t : State} (h : t.cpls = s.cpls) (n : Nat) : t.cpl n = s.cpl n := by
  simp [State.cpl, h]

theorem State.cpl_setCpl (s : State) (n m : Nat) (c : CplSt) : (s.setCpl n c).cpl m = if m = n then c else s.cpl m := by
  simp [State.cpl, State.setCpl, NMap.get_set]

theorem State.cpl_onCpl (s : State) (n m : Nat) (f : CplSt → CplSt) :
    (s.onCpl n f).cpl m = if m = n then f (s.cpl n) else s.cpl m :=
  s.cpl_setCpl n m _

@[simp] theorem State.cpl_onCpl_self (s : State) (n : Nat) (f : CplSt → CplSt) : (s.onCpl n f).cpl n = f (s.cpl n) := by
  simp [State.cpl_onCpl]

theorem State.cpl_onCpl_ne (s : State) {n m : Nat} (f : CplSt → CplSt) (h : m ≠ n) : (s.onCpl n f).cpl m = s.cpl m := by
  simp [State.cpl_onCpl, h]

theorem State.alters_onCpl (s : State) (n : Nat) (f : CplSt → CplSt) : Alters [.cpls] [] s (s.onCpl n f) :=
  .of_regs (by simp [Same, State.onCpl, State.setCpl]) rfl

theorem State.alters_emit (s : State) (n : Nat) (fs : List Flit) : Alters [.cpls] [] s (s.emit n fs) := s.alters_onCpl n _

end Sys2Proof.Machine
end
section
/-!
PROOFS. The trump order (R116–R118, R750): the events of a tick are put in order, and an event that is sampled now is applied in
the current tick, after its journal record (R123), or waits for the next one.
-/
namespace Sys2Proof.Machine
open Sys2Proof.Safety

/-! ### Events put in order -/

/-- One event may come before another (R116). -/
def TickEvt.le (a b : TickEvt) : Prop := a.cls < b.cls ∨ (a.cls = b.cls ∧ a.src ≤ b.src)

theorem TickEvt.before_iff (a b : TickEvt) : a.before b = true ↔ a.le b := by
  simp [TickEvt.before, TickEvt.le]

theorem TickEvt.le_of_not {a b : TickEvt} (h : ¬ a.le b) : b.le a := by
  unfold TickEvt.le at *; omega

theorem TickEvt.le_trans {a b c : TickEvt} (h : a.le b) (h' : b.le c) : a.le c := by
  unfold TickEvt.le at *; omega

theorem perm_insertEvt (e : TickEvt) (l : List TickEvt) : (insertEvt e l).Perm (e :: l) := by
  induction l with
  | nil => exact .refl _
  | cons x t ih =>
    unfold insertEvt
    split
    · exact (ih.cons x).trans (.swap e x t)
    · exact .refl _

theorem mem_insertEvt_self (e : TickEvt) (l : List TickEvt) : e ∈ insertEvt e l :=
  (perm_insertEvt e l).mem_iff.2 List.mem_cons_self

theorem pairwise_insertEvt (e : TickEvt) {l : List TickEvt} (h : l.Pairwise TickEvt.le) : (insertEvt e l).Pairwise TickEvt.le := by
  induction l with
  | nil => exact List.pairwise_singleton _ e
  | cons x t ih =>
    obtain ⟨hx, ht⟩ := List.pairwise_cons.1 h
    unfold insertEvt
    split
    · rename_i hxe
      refine List.pairwise_cons.2 ⟨fun y hy => ?_, ih ht⟩
      rcases List.mem_cons.1 ((perm_insertEvt e t).mem_iff.1 hy) with rfl | hy
      · exact (TickEvt.before_iff x y).1 hxe
      · exact hx y hy
    · rename_i hxe
      have hex : e.le x := TickEvt.le_of_not fun hle => hxe ((TickEvt.before_iff x e).2 hle)
      refine List.pairwise_cons.2 ⟨fun y hy => ?_, h⟩
      rcases List.mem_cons.1 hy with rfl | hy
      · exact hex
      · exact TickEvt.le_trans hex (hx y hy)

theorem pairwise_inTrumpOrder (l : List TickEvt) : (inTrumpOrder l).Pairwise TickEvt.le := by
  suffices h : ∀ (l acc : List TickEvt), acc.Pairwise TickEvt.le → (l.foldl (fun a e => insertEvt e a) acc).Pairwise TickEvt.le from
    h l [] List.Pairwise.nil
  intro l
  induction l with
  | nil => exact fun _ h => h
  | cons e t ih => exact fun acc h => ih _ (pairwise_insertEvt e h)

theorem perm_inTrumpOrder (l : List TickEvt) : (inTrumpOrder l).Perm l := by
  suffices h : ∀ l acc : List TickEvt, (l.foldl (fun a e => insertEvt e a) acc).Perm (l ++ acc) by
    simpa [inTrumpOrder] using h l []
  intro l
  induction l with
  | nil => exact fun acc => .refl acc
  | cons e t ih =>
    intro acc
    calc (t.foldl (fun a e => insertEvt e a) (insertEvt e acc)).Perm (t ++ insertEvt e acc) := ih _
      List.Perm _ (t ++ e :: acc) := (perm_insertEvt e acc).append_left t
      List.Perm _ (e :: t ++ acc) := List.perm_middle

/-! ### Events of the next tick -/

theorem State.queues_later (s : State) (cls src : Nat) (act : TickAct) : Queues ⟨cls, src, act⟩ s (s.later cls src act) := by
  unfold State.later Queues
  split <;> simp_all [Same]

theorem State.mem_later_due (s : State) (cls src : Nat) (act : TickAct) : ⟨cls, src, act⟩ ∈ (s.later cls src act).time.due := by
  rw [(s.queues_later cls src act).2]
  by_cases he : (⟨cls, src, act⟩ : TickEvt) ∈ s.time.due <;> simp [he]

/-! ### The journal -/

theorem State.journal_of_disabled {s : State} (h : s.isSet .TIK_JNL_EN = false) (cls src fl : Nat) (act : TickAct) :
    s.journal cls src fl act = s := by
  unfold State.journal
  simp [h]

theorem State.alters_journal (s : State) (cls src fl : Nat) (act : TickAct) :
    Alters postParts [.TIK_JNL_PTR, .TIK_JNL_WRAPS, .HIF_CPL_TO_CNT] s (s.journal cls src fl act) := by
  unfold State.journal
  split
  · exact Alters.refl _ _ s
  · have hrec (o : Nat) (bs : List Byte) :
        Alters postParts [.TIK_JNL_PTR, .TIK_JNL_WRAPS, .HIF_CPL_TO_CNT] s (s.localWrite o bs) :=
      (s.alters_localWrite o bs).mono (by decide) (by decide)
    dsimp only
    split
    · exact (hrec _ _).comp (State.alters_setReg _ .TIK_JNL_PTR _ _ _) (by decide) (by decide)
    · exact ((hrec _ _).comp (ch := postParts) (fs := [.TIK_JNL_PTR, .TIK_JNL_WRAPS, .HIF_CPL_TO_CNT])
        (State.alters_setReg _ .TIK_JNL_PTR _ _ _) (by decide) (by decide)).comp (State.alters_count _ .TIK_JNL_WRAPS _ _ _) (by decide) (by decide)

/-! ### Events applied in the current tick -/

/-- The current tick has come to a class and source index. -/
def State.atEvent (s : State) (cls src : Nat) : State :=
  { s with time := { s.time with cur := { s.time.cur with cls := cls, src := src } } }

theorem State.alters_atEvent (s : State) (cls src : Nat) : Alters [.time] [] s (s.atEvent cls src) := s.alters_time _

theorem State.met_journal (s : State) (cls src fl : Nat) (act : TickAct) :
    Met s cls src ((s.atEvent cls src).journal cls src fl act) := by
  have hcur := s.alters_atEvent cls src
  have hj := (s.atEvent cls src).alters_journal cls src fl act
  refine ⟨(hcur.1.mono (by simp)).trans (hj.1.mono (by decide)), (hcur.2.mono (by simp)).trans hj.2, hj.agree .time (by decide),
    fun hen => ?_⟩
  rw [State.journal_of_disabled (s := s.atEvent cls src) hen]
  exact hcur.1

/-- An event of classes 3 to 6 is held once the brake is applied in its tick, where no reset of the tile is (R118). -/
theorem State.applyEvent_held {s : State} {cls : Nat} (h3 : 3 ≤ cls) (h6 : cls ≤ 6) (hb : s.time.cur.brake = true)
    (hr : s.time.cur.reset = none) (src : Nat) (act : TickAct) (f : State → State) :
    s.applyEvent cls src act f = (s.atEvent cls src).hold ⟨cls, src, act⟩ := by
  unfold State.applyEvent
  exact if_pos ⟨h3, h6, .inl hb, by simp [hr], by simp [hr]⟩

/-- An event that what has been applied before it makes moot does not have its effect (R117). -/
theorem State.applyEvent_moot {s : State} {cls : Nat} {act : TickAct} (h : cls < 3 ∨ 6 < cls)
    (hm : (s.atEvent cls src).moot cls act = true) (f : State → State) :
    s.applyEvent cls src act f = (s.atEvent cls src).discardMoot cls src act := by
  unfold State.applyEvent
  exact (if_neg (by omega)).trans (if_pos hm)

/-- An event that is neither held nor moot is written to the journal and has its effect (R121, R123). -/
theorem State.applyEvent_takes {s : State} {cls : Nat} {act : TickAct} (hm : s.moot cls act = false)
    (hh : 3 ≤ cls → cls ≤ 6 → s.time.cur.brake = false ∧ s.isSet .BRK_BRAKED = false) (src : Nat) (f : State → State) :
    s.applyEvent cls src act f = f ((s.atEvent cls src).journal cls src 1 act) := by
  have hheld : ¬(3 ≤ cls ∧ cls ≤ 6 ∧ (s.time.cur.brake = true ∨ (s.atEvent cls src).isSet .BRK_BRAKED = true)
      ∧ s.time.cur.reset ≠ some .cold ∧ s.time.cur.reset ≠ some .warm) := by
    rintro ⟨h3, h6, hb, -⟩
    obtain ⟨hcur, hreg⟩ := hh h3 h6
    rw [(s.alters_atEvent cls src).isSet .BRK_BRAKED 0 0 (by decide), hcur, hreg] at hb
    simp at hb
  have hmoot : ¬ (s.atEvent cls src).moot cls act = true := fun e => Bool.noConfusion (hm.symm.trans e)
  unfold State.applyEvent
  exact (if_neg hheld).trans (if_neg hmoot)

/-- A command that samples an event applies it in this tick or leaves it to the next. -/
theorem applies_of_tickEvent {c : Instr} {s : State} {cls src : Nat} {act : TickAct} {f : State → State}
    (h : exec c s = .next (s.tickEvent cls src act f)) : Applies c s cls src act f := by
  constructor
  · rintro ⟨htick, hord, hready, hm, hh⟩
    refine ⟨_, s.met_journal cls src 1 act, ?_⟩
    rw [h, ← State.applyEvent_takes hm hh src f]
    simp [State.tickEvent, htick, hord, hready]
  · intro htick hord
    refine ⟨_, h, ?_⟩
    have hlater : s.tickEvent cls src act f = s.later cls src act := by simp [State.tickEvent, htick, hord]
    exact hlater ▸ s.queues_later cls src act

end Sys2Proof.Machine
end
section
/-!
PROOFS. The brake (R265–R275, R505): its triggers, its record, the flits that carry it on, and the domains that it stops.
-/
namespace Sys2Proof.Machine
open Sys2Proof.Safety

theorem exec_brakeNLow (s : State) : exec .brakeNLow s = execBrakeNLow s := rfl

theorem exec_brake (n : Fin 64) (s : State) : exec (.brake n) s = execBrake n s := rfl

theorem exec_brakeApply (s : State) : exec .brakeApply s = .next s.applyReady := rfl

theorem exec_brkRoStart (s : State) : exec .brkRoStart s = .next (s.startReadOut (s.isSet .BRK_RO_MEM)) := rfl

/-! ### The triggers -/

theorem State.same_atOnce (s : State) (e : TickEvt) : Same [.time] s (s.atOnce e) := by simp [Same]

section
variable {s : State} (htick : s.ticking = true) (hpads : s.padsTaken = false) (hun : s.isSet .BRK_BRAKED = false)
include htick hpads hun

/-- BRAKE_N low makes a brake event of this tick, where the trump order has a place for it (R265). -/
theorem brakeNLow_goes_atOnce (hord : s.inOrder 2 0 = true) : Goes .brakeNLow s (s.atOnce ⟨2, 0, .brake 0 none⟩) := by
  simp [Goes, exec_brakeNLow, execBrakeNLow, done, htick, hpads, hun, hord]

theorem brakeNLow_goes_later (hord : s.inOrder 2 0 = false) : Goes .brakeNLow s (s.later 2 0 (.brake 0 none)) := by
  simp [Goes, exec_brakeNLow, execBrakeNLow, done, htick, hpads, hun, hord]

end

/-- A brake flit that is taken queues a brake event, and its origin is kept where none is yet (R266, R505). -/
theorem brake_goes {s u : State} {n : Fin 64} {b d : List Byte} (h : s.takeCtl n 0x81 = some ((b, d), u))
    (hen : u.isSet .BRK_RX_EN = true) (hun : u.isSet .BRK_BRAKED = false) :
    ∃ o, Goes (.brake n) s (({ u with brk := { u.brk with origin := o } } : State).later 2 0 (.brake 0 (some n.val))) := by
  simp only [Goes, exec_brake, execBrake, done, h, hen, hun]
  exact ⟨_, rfl⟩

/-! ### The record of the brake -/

/-- A source of the brake is noted, with the first coupler that brought a flit (R265). -/
def State.noteBrake (s : State) (src : Nat) (coupler : Option Nat) : State :=
  let s := s.setReg .BRK_SOURCES (s.reg .BRK_SOURCES ||| 2 ^ src)
  match coupler with
  | some n => if s.reg .BRK_RX_COUPLER = 0 then s.setReg .BRK_RX_COUPLER (n + 1) else s
  | none => s

theorem State.noteBrake_sources (s : State) (src : Nat) (n : Option Nat) :
    (s.noteBrake src n).reg .BRK_SOURCES = s.reg .BRK_SOURCES ||| 2 ^ src := by
  cases n with
  | none => exact State.reg_setReg_self _ _ _ _ _
  | some n =>
    unfold State.noteBrake
    dsimp only
    split <;> simp [State.reg_setReg]

theorem State.alters_noteBrake (s : State) (src : Nat) (n : Option Nat) :
    Alters [.regs] [.BRK_SOURCES, .BRK_RX_COUPLER] s (s.noteBrake src n) := by
  have hsrc (v : Nat) : Alters [.regs] [.BRK_SOURCES, .BRK_RX_COUPLER] s (s.setReg .BRK_SOURCES v) :=
    (s.alters_setReg _ v 0 0).mono (by decide) (by decide)
  unfold State.noteBrake
  cases n with
  | none => exact hsrc _
  | some n =>
    dsimp only
    split
    · exact (hsrc _).comp (State.alters_setReg _ .BRK_RX_COUPLER _ 0 0) (by decide) (by decide)
    · exact hsrc _

/-- The registers that the brake writes at its tick, but for its sources (R265, R273). -/
def State.brakeRegs (s : State) : State :=
  ((s.setReg .BRK_BRAKED 1).setReg64 .BRK_TIME_LO .BRK_TIME_HI s.time.now).setReg .BRK_RO_AUTH (bit (s.level == 3))

/-- What the brake writes at its tick before it is sent on: its record, and BRAKE_OUT_N low (R265, R270, R273). -/
def State.recordBrake (s : State) (src : Nat) (coupler : Option Nat) : State :=
  let s := s.brakeRegs.noteBrake src coupler
  { s with brk := { s.brk with bnd := s.time.bnd, outLow := true }, time := { s.time with cur := { s.time.cur with brake := true } } }

/-- The MSI-X message of the brake (R267). -/
def State.brakeMsi (s : State) : State := if s.isSet .BRK_MSI_EN then s.sendMsi (s.reg .BRK_MSI_VEC) else s

theorem applyBrake_unbraked {s : State} (h : s.isSet .BRK_BRAKED = false) (src : Nat) (n : Option Nat) :
    applyBrake src n s = (s.recordBrake src n).brakeMsi.forwardBrake := by
  unfold applyBrake
  rw [h]
  rfl

theorem State.alters_brakeRegs (s : State) :
    Alters [.regs] [.BRK_BRAKED, .BRK_TIME_LO, .BRK_TIME_HI, .BRK_RO_AUTH] s s.brakeRegs :=
  (((s.alters_setReg .BRK_BRAKED _ 0 0).comp (ch := [.regs]) (fs := [.BRK_BRAKED, .BRK_TIME_LO, .BRK_TIME_HI])
    (State.alters_setReg64 _ .BRK_TIME_LO .BRK_TIME_HI _ 0 0) (by decide) (by decide))).comp
    (State.alters_setReg _ .BRK_RO_AUTH _ 0 0) (by decide) (by decide)

section
variable (s : State) (src : Nat) (n : Option Nat)

theorem State.alters_recordBrake :
    Alters [.regs, .time, .brk] [.BRK_BRAKED, .BRK_TIME_LO, .BRK_TIME_HI, .BRK_RO_AUTH, .BRK_SOURCES, .BRK_RX_COUPLER] s
      (s.recordBrake src n) := by
  have hnote : Alters [.regs, .time, .brk] [.BRK_BRAKED, .BRK_TIME_LO, .BRK_TIME_HI, .BRK_RO_AUTH, .BRK_SOURCES, .BRK_RX_COUPLER] s
      (s.brakeRegs.noteBrake src n) :=
    s.alters_brakeRegs.comp (State.alters_noteBrake _ src n) (by decide) (by decide)
  exact hnote.trans ⟨by simp [Same, State.recordBrake], sameRegs_of_regs rfl⟩

/-- But for the sources, the registers are those that the brake writes. -/
theorem State.recordBrake_reg {f : Field} (hf : f ∉ [Field.BRK_SOURCES, .BRK_RX_COUPLER]) (i k : Nat) :
    (s.recordBrake src n).reg f i k = s.brakeRegs.reg f i k :=
  (State.alters_noteBrake _ src n).reg f i k hf

theorem State.recordBrake_braked : (s.recordBrake src n).reg .BRK_BRAKED = 1 :=
  (s.recordBrake_reg src n (by simp) 0 0).trans (by simp [State.brakeRegs, State.reg_setReg, State.reg_setReg64])

theorem State.recordBrake_auth : (s.recordBrake src n).reg .BRK_RO_AUTH = if s.level = 3 then 1 else 0 :=
  (s.recordBrake_reg src n (by simp) 0 0).trans (by simp [State.brakeRegs, bit])

theorem State.recordBrake_sources : (s.recordBrake src n).reg .BRK_SOURCES = s.reg .BRK_SOURCES ||| 2 ^ src :=
  (s.brakeRegs.noteBrake_sources src n).trans (by rw [s.alters_brakeRegs.reg .BRK_SOURCES 0 0 (by decide)])

theorem State.recordBrake_time64 : (s.recordBrake src n).reg64 .BRK_TIME_LO .BRK_TIME_HI = s.time.now % 2 ^ 64 := by
  unfold State.reg64
  rw [s.recordBrake_reg src n (by simp), s.recordBrake_reg src n (by simp)]
  simp [State.brakeRegs, State.reg_setReg, State.reg_setReg64, Field.spec]
  omega

theorem State.recordBrake_brk : (s.recordBrake src n).brk = { s.brk with bnd := s.time.bnd, outLow := true } := by
  have hb : (s.brakeRegs.noteBrake src n).brk = s.brk :=
    (s.alters_brakeRegs.agree .brk (by decide)).trans ((State.alters_noteBrake _ src n).agree .brk (by decide))
  have ht : (s.brakeRegs.noteBrake src n).time = s.time :=
    (s.alters_brakeRegs.agree .time (by decide)).trans ((State.alters_noteBrake _ src n).agree .time (by decide))
  simp only [State.recordBrake, hb, ht]

theorem State.recordBrake_time : (s.recordBrake src n).time = { s.time with cur := { s.time.cur with brake := true } } := by
  have ht : (s.brakeRegs.noteBrake src n).time = s.time :=
    (s.alters_brakeRegs.agree .time (by decide)).trans ((State.alters_noteBrake _ src n).agree .time (by decide))
  simp only [State.recordBrake, ht]

end

/-! ### The brake is sent on -/

theorem State.alters_brakeMsi (s : State) : Alters [.host] [] s s.brakeMsi := by
  unfold State.brakeMsi
  split
  · exact s.alters_sendMsi _
  · exact Alters.refl _ _ s

theorem State.alters_forwardBrake (s : State) : Alters [.cpls] [] s s.forwardBrake := by
  unfold State.forwardBrake
  split
  · exact Alters.refl _ _ s
  · exact Alters.foldState (fun s n => s.alters_emit n _) _ s

/-- Flits put on the lanes of some couplers, each of them once. -/
theorem State.cpl_foldEmit (fs : List Flit) {l : List Nat} (hl : l.Nodup) (s : State) (c : Nat) :
    (foldState (fun s n => s.emit n fs) l s).cpl c
      = if c ∈ l then { s.cpl c with wire := (s.cpl c).wire ++ fs.map flitBytes } else s.cpl c := by
  induction l generalizing s with
  | nil => rfl
  | cons n t ih =>
    obtain ⟨hn, ht⟩ := List.nodup_cons.1 hl
    rw [foldState, ih ht, State.emit]
    by_cases hc : c = n
    · subst hc; simp [hn]
    · simp [State.cpl_onCpl_ne _ _ hc, hc]

/-- A brake flit goes out on a coupler in TIME, ACTIVE or DEGRADED that is not in low power (R266). -/
theorem State.forwardBrake_wire {s : State} (hen : s.isSet .BRK_FWD_EN = true) {c : Nat} (hc : c < 64)
    (hlink : s.link c = 3 ∨ s.linkUp c = true) (hlp : s.isSet .CPL_LP c = false) :
    (s.forwardBrake.cpl c).wire = (s.cpl c).wire ++ [flitBytes ⟨true, s.brakeBody⟩] := by
  have hmem : c ∈ numsWhere 64 fun n => (s.link n == 3 || s.linkUp n) && !s.isSet .CPL_LP n := by
    simp [numsWhere, hc, hlink, hlp]
  unfold State.forwardBrake
  dsimp only
  rw [if_neg (by simp [hen]), State.cpl_foldEmit _ (l := numsWhere 64 _) (List.nodup_range.filter _), if_pos hmem]
  rfl

/-- The body of a brake flit depends on the time, the tile's ID and the origin that a received flit gave. -/
theorem State.brakeBody_congr {s t : State} {ch : List Comp} {fs : List Field} (h : Alters ch fs s t)
    (hnow : t.time.now = s.time.now) (horig : t.brk.origin = s.brk.origin) (hid : Field.MGC_TILE_ID ∉ fs)
    (hval : Field.MGC_TILE_ID_VALID ∉ fs) : t.brakeBody = s.brakeBody := by
  have ht : t.tileId = s.tileId := by simp [State.tileId, h.isSet _ 0 0 hval, h.reg _ 0 0 hid]
  simp [State.brakeBody, horig, ht, hnow]

/-! ### The brake at its tick -/

section
variable {s : State} (hun : s.isSet .BRK_BRAKED = false) (src : Nat) (n : Option Nat)
include hun

/-- After its record the brake only sends: to the host, and on the couplers. -/
theorem alters_applyBrake_record : Alters [.host, .cpls] [] (s.recordBrake src n) (applyBrake src n s) := by
  rw [applyBrake_unbraked hun]
  exact (State.alters_brakeMsi _).comp (State.alters_forwardBrake _) (by decide) (by decide)

theorem alters_applyBrake : Alters [.regs, .time, .brk, .host, .cpls]
    [.BRK_BRAKED, .BRK_TIME_LO, .BRK_TIME_HI, .BRK_RO_AUTH, .BRK_SOURCES, .BRK_RX_COUPLER] s (applyBrake src n s) :=
  (s.alters_recordBrake src n).comp (alters_applyBrake_record hun src n) (by decide) (by decide)

theorem applyBrake_reg (f : Field) (i k : Nat) : (applyBrake src n s).reg f i k = (s.recordBrake src n).reg f i k :=
  (alters_applyBrake_record hun src n).reg f i k (by simp)

theorem applyBrake_wire (hen : s.isSet .BRK_FWD_EN = true) {c : Nat} (hc : c < 64)
    (hlink : s.link c = 3 ∨ s.linkUp c = true) (hlp : s.isSet .CPL_LP c = false) :
    ((applyBrake src n s).cpl c).wire = (s.cpl c).wire ++ [flitBytes ⟨true, s.brakeBody⟩] := by
  have hrec := s.alters_recordBrake src n
  have hmsi := (s.recordBrake src n).alters_brakeMsi
  have hm : Alters [.regs, .time, .brk, .host]
      [.BRK_BRAKED, .BRK_TIME_LO, .BRK_TIME_HI, .BRK_RO_AUTH, .BRK_SOURCES, .BRK_RX_COUPLER] s (s.recordBrake src n).brakeMsi :=
    hrec.comp hmsi (by decide) (by decide)
  have hl : (s.recordBrake src n).brakeMsi.link c = s.link c := hm.reg .CPL_LINK_STATE c 0 (by decide)
  have hcpl : (s.recordBrake src n).brakeMsi.cpl c = s.cpl c := State.cpl_congr (hm.agree .cpls (by decide)) c
  have hbody : (s.recordBrake src n).brakeMsi.brakeBody = s.brakeBody := by
    refine State.brakeBody_congr hm ?_ ?_ (by simp) (by simp)
    · rw [hmsi.agree .time (by decide), State.recordBrake_time]
    · rw [hmsi.agree .brk (by decide), State.recordBrake_brk]
  rw [applyBrake_unbraked hun, State.forwardBrake_wire _ hc, hcpl, hbody]
  · rwa [State.linkUp, hl, ← State.linkUp]
  · rw [hm.isSet .CPL_LP c 0 (by decide), hlp]
  · rw [hm.isSet .BRK_FWD_EN 0 0 (by decide), hen]

/-- Without flits and without a message the brake changes its record alone. -/
theorem applyBrake_quiet (hfwd : s.isSet .BRK_FWD_EN = false) (hmsi : s.isSet .BRK_MSI_EN = false) :
    applyBrake src n s = s.recordBrake src n := by
  have hrec := s.alters_recordBrake src n
  have hm : (s.recordBrake src n).brakeMsi = s.recordBrake src n := by
    unfold State.brakeMsi
    rw [if_neg (by simp [hrec.isSet .BRK_MSI_EN 0 0 (by decide), hmsi])]
  rw [applyBrake_unbraked hun, hm]
  unfold State.forwardBrake
  rw [if_pos (by simp [hrec.isSet .BRK_FWD_EN 0 0 (by decide), hfwd])]

end

/-- The state in which the brake of the current tick is applied, nothing else waiting there: the tick has come to it, and it is
in the journal (R121, R123). -/
def State.atBrake (s : State) (src : Nat) (n : Option Nat) : State :=
  (State.atEvent { s with time := { s.time with ready := [] } } 2 src).journal 2 src 1 (.brake src n)

section
variable (s : State) (src : Nat) (n : Option Nat)

theorem State.met_atBrake : Met { s with time := { s.time with ready := [] } } 2 src (s.atBrake src n) :=
  State.met_journal _ 2 src 1 _

theorem State.atBrake_time : (s.atBrake src n).time = { s.time with ready := [], cur := { s.time.cur with cls := 2, src := src } } :=
  (s.met_atBrake src n).2.2.1

theorem State.alters_atBrake :
    Alters (.time :: postParts) [.TIK_JNL_PTR, .TIK_JNL_WRAPS, .HIF_CPL_TO_CNT] s (s.atBrake src n) := by
  obtain ⟨hsame, hregs, -, -⟩ := s.met_atBrake src n
  exact ((s.alters_time _).mono (by decide) (by decide)).trans ⟨hsame, hregs⟩

theorem State.atBrake_of_disabled (h : s.isSet .TIK_JNL_EN = false) : Same [.time] s (s.atBrake src n) := by
  obtain ⟨-, -, -, hquiet⟩ := s.met_atBrake src n
  exact (s.alters_time _).1.trans (hquiet h)

end

/-- The brake of the current tick is applied where no reset is (R265). -/
theorem brakeApply_goes {s : State} {src : Nat} {n : Option Nat} (hready : s.time.ready = [⟨2, src, .brake src n⟩])
    (hreset : s.time.cur.reset = none) : Goes .brakeApply s (applyBrake src n (s.atBrake src n)) := by
  have hmoot : State.moot { s with time := { s.time with ready := [] } } 2 (.brake src n) = false := by
    simp [State.moot, hreset]
  unfold Goes
  rw [exec_brakeApply, State.applyReady, hready]
  exact congrArg _ (State.applyEvent_takes hmoot (fun h => absurd h (by decide)) src (applyBrake src n))

theorem State.level_congr {s t : State} (h : t.sec = s.sec) : t.level = s.level := by
  simp [State.level, State.freeLevel, State.lifecycle, h]

/-- What the brake leaves at its tick (R265–R267, R270, R273). -/
theorem brakeApply_ends {s : State} {src : Nat} {n : Option Nat} (hun : s.isSet .BRK_BRAKED = false)
    (hready : s.time.ready = [⟨2, src, .brake src n⟩]) (hreset : s.time.cur.reset = none) :
    Ends .brakeApply s fun t => t.reg .BRK_BRAKED = 1 ∧ t.reg64 .BRK_TIME_LO .BRK_TIME_HI = s.time.now % 2 ^ 64
        ∧ t.reg .BRK_SOURCES = s.reg .BRK_SOURCES ||| 2 ^ src ∧ t.reg .BRK_RO_AUTH = (if s.level = 3 then 1 else 0)
        ∧ t.brk = { s.brk with bnd := s.time.bnd, outLow := true } ∧ t.time.cur.brake = true ∧ t.time.ready = []
        ∧ (s.isSet .BRK_FWD_EN = true → ∀ c < 64, (s.link c = 3 ∨ s.linkUp c = true) → s.isSet .CPL_LP c = false →
            (t.cpl c).wire = (s.cpl c).wire ++ [flitBytes ⟨true, s.brakeBody⟩])
        ∧ Same [.regs, .time, .brk, .cpls, .host, .posted, .mesh, .xmit, .mgc] s t
        ∧ SameRegs [.BRK_BRAKED, .BRK_TIME_LO, .BRK_TIME_HI, .BRK_SOURCES, .BRK_RO_AUTH, .BRK_RX_COUPLER, .TIK_JNL_PTR, .TIK_JNL_WRAPS,
            .HIF_CPL_TO_CNT] s t
        ∧ (s.isSet .BRK_FWD_EN = false → s.isSet .BRK_MSI_EN = false → s.isSet .TIK_JNL_EN = false → Same [.regs, .time, .brk] s t) := by
  have hx := s.alters_atBrake src n
  have hxt := s.atBrake_time src n
  have hxun : (s.atBrake src n).isSet .BRK_BRAKED = false := (hx.isSet .BRK_BRAKED 0 0 (by decide)).trans hun
  have hrec := alters_applyBrake_record hxun src n
  have hall := alters_applyBrake hxun src n
  have hxb : (s.atBrake src n).brk = s.brk := hx.agree .brk (by decide)
  refine ⟨_, brakeApply_goes hready hreset, ?_, ?_, ?_, ?_, ?_, ?_, ?_, ?_, ?_, ?_, ?_⟩
  · rw [applyBrake_reg hxun, State.recordBrake_braked]
  · rw [State.reg64, applyBrake_reg hxun, applyBrake_reg hxun, ← State.reg64, State.recordBrake_time64, hxt]
  · rw [applyBrake_reg hxun, State.recordBrake_sources, hx.reg .BRK_SOURCES 0 0 (by decide)]
  · rw [applyBrake_reg hxun, State.recordBrake_auth, State.level_congr (hx.agree .sec (by decide))]
  · rw [hrec.agree .brk (by decide), State.recordBrake_brk, hxb, hxt]
  · rw [hrec.agree .time (by decide), State.recordBrake_time]
  · rw [hrec.agree .time (by decide), State.recordBrake_time, hxt]
  · intro hen c hc hlink hlp
    have hl : (s.atBrake src n).link c = s.link c := hx.reg .CPL_LINK_STATE c 0 (by decide)
    have hbody : (s.atBrake src n).brakeBody = s.brakeBody :=
      State.brakeBody_congr hx (by rw [hxt]) (by rw [hxb]) (by simp) (by simp)
    rw [applyBrake_wire hxun src n ((hx.isSet .BRK_FWD_EN 0 0 (by decide)).trans hen) hc (by rwa [State.linkUp, hl, ← State.linkUp])
      ((hx.isSet .CPL_LP c 0 (by decide)).trans hlp), hbody, State.cpl_congr (hx.agree .cpls (by decide))]
  · exact (hx.1.mono (by decide)).trans (hall.1.mono (by decide))
  · exact (hx.2.mono (by simp)).trans (hall.2.mono (by simp))
  · intro hfwd hmsi hen
    rw [applyBrake_quiet hxun src n ((hx.isSet .BRK_FWD_EN 0 0 (by decide)).trans hfwd) ((hx.isSet .BRK_MSI_EN 0 0 (by decide)).trans hmsi)]
    exact ((s.atBrake_of_disabled src n hen).mono (by simp)).trans (State.alters_recordBrake _ src n).1

/-! ### The domains that stop -/

theorem exec_brakeStopDomains (s : State) : exec .brakeStopDomains s = execBrakeStopDomains s := rfl

/-- The stacks are in self-refresh. -/
def allRefreshed : NMap Bool := (List.range 8).map fun k => (k, true)

theorem allRefreshed_all : ∀ k < 8, NMap.find? allRefreshed k = some true := by decide

/-- A row of R268 stops at its time after the brake, once: `x` is its count of ticks and its number, `t` the brake's tick. -/
def State.stopRow (t : Nat) (s : State) (x : Nat × Nat) : State :=
  if s.brk.bnd + x.1 ≤ s.time.bnd ∧ (NMap.find? s.brk.rows x.2).isNone then
    let s := { s with brk := { s.brk with rows := NMap.insert s.brk.rows x.2 (t + x.1) } }
    if x.2 = 2 then { s with mem := { s.mem with selfRefresh := allRefreshed } } else s
  else s

theorem brakeStopDomains_goes {s : State} (h : s.isSet .BRK_BRAKED = true) :
    Goes .brakeStopDomains s (foldState (State.stopRow (s.reg64 .BRK_TIME_LO .BRK_TIME_HI)) stopAfter.zipIdx s) := by
  unfold Goes
  rw [exec_brakeStopDomains, execBrakeStopDomains, h]
  rfl

section
variable (t : Nat) (s : State) (x : Nat × Nat)

theorem State.stopRow_same : Same [.brk, .mem] s (s.stopRow t x) := by
  unfold State.stopRow
  dsimp only
  split
  · split <;> simp [Same]
  · exact Same.refl _ s

theorem State.stopRow_bnd : (s.stopRow t x).brk.bnd = s.brk.bnd := by
  unfold State.stopRow
  dsimp only
  split
  · split <;> rfl
  · rfl

theorem State.stopRow_time : (s.stopRow t x).time = s.time := same_iff.1 (s.stopRow_same t x) .time (by simp)

/-- A row's time is recorded once, when it has come. -/
theorem State.stopRow_rows (r : Nat) : NMap.find? (s.stopRow t x).brk.rows r =
    if r = x.2 ∧ NMap.find? s.brk.rows r = none ∧ s.brk.bnd + x.1 ≤ s.time.bnd then some (t + x.1)
    else NMap.find? s.brk.rows r := by
  have hins : NMap.find? (NMap.insert s.brk.rows x.2 (t + x.1)) r = if r = x.2 then some (t + x.1) else NMap.find? s.brk.rows r :=
    NMap.find?_insert _ _ _ _
  unfold State.stopRow
  by_cases hrow : s.brk.bnd + x.1 ≤ s.time.bnd ∧ (NMap.find? s.brk.rows x.2).isNone = true
  · obtain ⟨hdue, hnone⟩ := hrow
    rw [if_pos ⟨hdue, hnone⟩]
    have hnone : NMap.find? s.brk.rows x.2 = none := by simpa using hnone
    dsimp only
    split <;> (rw [hins]; by_cases hr : r = x.2 <;> simp [hr, hnone, hdue])
  · rw [if_neg hrow, if_neg]
    rintro ⟨rfl, hnone, hdue⟩
    exact hrow ⟨hdue, by simp [hnone]⟩

/-- The third row puts the stacks into self-refresh, and no row does anything else to memory. -/
theorem State.stopRow_mem : (s.stopRow t x).mem =
    if x.2 = 2 ∧ NMap.find? s.brk.rows 2 = none ∧ s.brk.bnd + x.1 ≤ s.time.bnd then { s.mem with selfRefresh := allRefreshed }
    else s.mem := by
  unfold State.stopRow
  by_cases hx : x.2 = 2
  · by_cases hdue : s.brk.bnd + x.1 ≤ s.time.bnd <;> by_cases hnone : NMap.find? s.brk.rows 2 = none <;> simp [hx, hdue, hnone]
  · simp only [hx, if_false, false_and]
    split <;> rfl

end

section
variable (t : Nat) (l : List (Nat × Nat)) (s : State)

theorem State.stopRows_same : Same [.brk, .mem] s (foldState (State.stopRow t) l s) :=
  foldState_keeps (p := Same [.brk, .mem] s) _ l s (Same.refl _ s) fun u x h => h.trans (u.stopRow_same t x)

/-- The rows of a list that have not stopped before stop at their times. -/
theorem State.stopRows_rows (r : Nat) : NMap.find? (foldState (State.stopRow t) l s).brk.rows r =
    match NMap.find? s.brk.rows r with
    | some v => some v
    | none => (l.find? fun x => r == x.2 && decide (s.brk.bnd + x.1 ≤ s.time.bnd)).map (t + ·.1) := by
  induction l generalizing s with
  | nil => simp only [foldState]; split <;> simp [*]
  | cons x l ih =>
    rw [foldState, ih, State.stopRow_bnd, State.stopRow_time, State.stopRow_rows]
    by_cases hx : r = x.2 ∧ s.brk.bnd + x.1 ≤ s.time.bnd
    · obtain ⟨rfl, hdue⟩ := hx
      cases NMap.find? s.brk.rows x.2 <;> simp [hdue]
    · have hp : (r == x.2 && decide (s.brk.bnd + x.1 ≤ s.time.bnd)) = false := by simpa using hx
      rw [if_neg (fun h => hx ⟨h.1, h.2.2⟩), List.find?_cons_of_neg (by simp [hp])]

/-- The stacks are in self-refresh once the third row has stopped. -/
theorem State.stopRows_mem : (foldState (State.stopRow t) l s).mem =
    if NMap.find? s.brk.rows 2 = none ∧ ∃ x ∈ l, x.2 = 2 ∧ s.brk.bnd + x.1 ≤ s.time.bnd then
      { s.mem with selfRefresh := allRefreshed }
    else s.mem := by
  induction l generalizing s with
  | nil => simp [foldState]
  | cons x l ih =>
    rw [foldState, ih, State.stopRow_bnd, State.stopRow_time, State.stopRow_rows, State.stopRow_mem]
    by_cases hx : x.2 = 2 ∧ s.brk.bnd + x.1 ≤ s.time.bnd
    · obtain ⟨h2, hdue⟩ := hx
      cases NMap.find? s.brk.rows 2 <;> simp [h2, hdue]
    · have h1 : ¬(x.2 = 2 ∧ NMap.find? s.brk.rows 2 = none ∧ s.brk.bnd + x.1 ≤ s.time.bnd) := fun h => hx ⟨h.1, h.2.2⟩
      have h2 : ¬(2 = x.2 ∧ NMap.find? s.brk.rows 2 = none ∧ s.brk.bnd + x.1 ≤ s.time.bnd) := fun h => hx ⟨h.1.symm, h.2.2⟩
      simp only [List.mem_cons, exists_eq_or_imp, hx, h1, h2, if_false, false_or]

end

/-- The row of a number is found among the rows where its time has come. -/
theorem find?_stopAfter (due : Nat → Bool) {r : Nat} (hr : r < 7) :
    (stopAfter.zipIdx.find? fun x => r == x.2 && due x.1) =
      if due (stopAfter.getD r 0) then some (stopAfter.getD r 0, r) else none := by
  unfold stopAfter
  interval_cases r <;> simp [List.find?_cons] <;> cases due _ <;> rfl

/-- The domains whose time has come stop (R268). -/
theorem brakeStopDomains_ends {s : State} (h : s.isSet .BRK_BRAKED = true) : Ends .brakeStopDomains s fun t =>
      (∀ r < 7, NMap.find? t.brk.rows r = match NMap.find? s.brk.rows r with
        | some x => some x
        | none => if s.brk.bnd + stopAfter.getD r 0 ≤ s.time.bnd then
            some (s.reg64 .BRK_TIME_LO .BRK_TIME_HI + stopAfter.getD r 0) else none)
      ∧ Same [.brk, .mem] s t ∧ t.mem.cells = s.mem.cells ∧ t.mem.gran = s.mem.gran
      ∧ (NMap.find? s.brk.rows 2 = none → s.brk.bnd + 3 ≤ s.time.bnd → ∀ k < 8, NMap.find? t.mem.selfRefresh k = some true) := by
  refine ⟨_, brakeStopDomains_goes h, fun r hr => ?_, State.stopRows_same _ _ s, ?_, ?_, fun hnone hdue k hk => ?_⟩
  · rw [State.stopRows_rows, find?_stopAfter (fun k => decide (s.brk.bnd + k ≤ s.time.bnd)) hr]
    cases NMap.find? s.brk.rows r with
    | some v => rfl
    | none => by_cases hdue : s.brk.bnd + stopAfter.getD r 0 ≤ s.time.bnd <;> simp
  · rw [State.stopRows_mem]; split <;> rfl
  · rw [State.stopRows_mem]; split <;> rfl
  · rw [State.stopRows_mem, if_pos ⟨hnone, (3, 2), by decide, rfl, hdue⟩]
    exact allRefreshed_all k hk

/-! ### The read-out -/

theorem brkRoStart_unbraked {s : State} (h : s.isSet .BRK_BRAKED = false) : Goes .brkRoStart s s := by
  simp [Goes, exec_brkRoStart, State.startReadOut, h]

/-- The layout of the image is fixed for a setting of BRK_RO_MEM (R275). -/
def State.fixLayout (s : State) (mem : Bool) : State := { s with brk := { s.brk with layout := some mem } }

theorem State.alters_fixLayout (s : State) (mem : Bool) : Alters [.brk] [] s (s.fixLayout mem) :=
  .of_regs (by simp [Same, State.fixLayout]) rfl

/-- BRK_RO_START fixes the layout of the image of a braked tile, and gives its length (R275). -/
theorem brkRoStart_goes {s : State} (h : s.isSet .BRK_BRAKED = true) : Goes .brkRoStart s
    ((s.fixLayout (s.isSet .BRK_RO_MEM)).setReg64 .BRK_RO_LEN_LO .BRK_RO_LEN_HI
      ((s.fixLayout (s.isSet .BRK_RO_MEM)).imageLen (s.isSet .BRK_RO_MEM))) := by
  unfold Goes
  rw [exec_brkRoStart, State.startReadOut, h]
  rfl

theorem brkRoStart_ends {s : State} (h : s.isSet .BRK_BRAKED = true) : Ends .brkRoStart s fun t =>
    t.brk = { s.brk with layout := some (s.isSet .BRK_RO_MEM) } ∧ Alters [.brk, .regs] [.BRK_RO_LEN_LO, .BRK_RO_LEN_HI] s t :=
  ⟨_, brkRoStart_goes h, State.setReg64_brk _ _ _ _ _ _, 
    (s.alters_fixLayout _).comp (State.alters_setReg64 _ _ _ _ _ _) (by decide) (by decide)⟩

/-! ### Events after the brake -/

theorem State.hold_heldCount (s : State) (e : TickEvt) : (s.hold e).brk.heldCount = s.brk.heldCount + 1 := by
  unfold State.hold
  dsimp only
  split <;> rfl

theorem State.hold_held (s : State) (e : TickEvt) :
    (s.hold e).brk.held = if s.brk.held.length < 64 then s.brk.held ++ [e] else s.brk.held := by
  unfold State.hold
  dsimp only
  by_cases h : s.brk.held.length < 64 <;> simp only [h, if_true, if_false]

/-- An event of classes 3 to 6 after the brake of its tick is counted, and kept while there are fewer than 64 (R118). -/
theorem applyEvt_held {s : State} {e : TickEvt} (hb : s.time.cur.brake = true) (hr : s.time.cur.reset = none) (h3 : 3 ≤ e.cls)
    (h6 : e.cls ≤ 6) : (s.applyEvt e).brk.heldCount = s.brk.heldCount + 1
      ∧ (s.applyEvt e).brk.held = (if s.brk.held.length < 64 then s.brk.held ++ [e] else s.brk.held)
      ∧ Same [.time, .brk] s (s.applyEvt e) := by
  have hheld : s.applyEvt e = (s.atEvent e.cls e.src).hold e := State.applyEvent_held h3 h6 hb hr e.src e.act _
  rw [hheld]
  exact ⟨State.hold_heldCount _ e, State.hold_held _ e, ((s.alters_atEvent e.cls e.src).1.mono (by simp)).trans (by simp [Same])⟩

/-- An event of classes 7 to 11 after the brake of its tick does not have its effect (R117). -/
theorem applyEvt_moot {s : State} {e : TickEvt} (hb : s.time.cur.brake = true) (h7 : 7 ≤ e.cls) :
    s.applyEvt e = (s.atEvent e.cls e.src).discardMoot e.cls e.src e.act := by
  refine State.applyEvent_moot (by omega) ?_ _
  simp [State.moot, State.atEvent, hb, h7]

/-- Settles O36: each command of the brake goes to a state named by the model (the event in the order of its tick, the record of
the brake and what sends it on, the rows that stop, the layout fixed), and what stands between leaves the record alone. -/
theorem brakeIsApplied : Obligations.BrakeIsApplied := by
  unfold Obligations.BrakeIsApplied
  refine ⟨fun s htick hpads hun => ⟨fun hord => ?_, fun hord => ?_⟩, fun s u n b d htake _ _ hen hun => ?_,
    fun s src n => brakeApply_ends, fun s e hb hr => ⟨applyEvt_held hb hr, fun h7 => ?_⟩, fun s => brakeStopDomains_ends,
    fun s => ⟨brkRoStart_unbraked, fun h => ?_⟩⟩
  · exact ⟨_, brakeNLow_goes_atOnce htick hpads hun hord, mem_insertEvt_self _ _, s.same_atOnce _⟩
  · exact ⟨_, brakeNLow_goes_later htick hpads hun hord, s.mem_later_due _ _ _, (s.queues_later _ _ _).1⟩
  · obtain ⟨o, hgo⟩ := brake_goes htake hen hun
    exact ⟨_, hgo, State.mem_later_due _ _ _ _, by simp [Same]⟩
  · exact ⟨_, (s.alters_atEvent _ _).1, applyEvt_moot hb h7⟩
  · obtain ⟨t, hgo, hbrk, hsame, hregs⟩ := brkRoStart_ends h
    exact ⟨t, hgo, hbrk, hsame, hregs⟩

end Sys2Proof.Machine
end
section
/-!
PROOFS. Control flits and the time tree (R105–R109, R458): a flit is taken or sent, the parent is the best offer, an announcement
joins the tile to it, and a measurement gives the delay and the offset.
-/
namespace Sys2Proof.Machine
open Sys2Proof.Safety

/-! ### Control flits -/

theorem State.alters_issue (s : State) (b i k : Nat) : Alters [.mgc] [] s (s.issue b i k) :=
  .of_regs (by simp [Same]) (by simp)

theorem State.alters_onRol (s : State) (n : Nat) (f : RolSt → RolSt) : Alters [.cpls] [] s (s.onRol n f) := s.alters_onCpl n _

theorem State.alters_sendPkt (s : State) (n : Nat) (p : TxPkt) : Alters [.cpls, .mgc] [] s (s.sendPkt n p) := by
  have hcount : Alters [.cpls, .mgc] [] s (s.issue 2 (8 * n + p.sub) p.flits.length) := (s.alters_issue _ _ _).mono (by decide) (by decide)
  have hsend (u : State) (f : RolSt → RolSt) : Alters [.cpls, .mgc] [] u ((u.emit n p.flits).onRol n f) :=
    (u.alters_emit n _).comp (State.alters_onRol _ n f) (by decide) (by decide)
  unfold State.sendPkt
  dsimp only
  split
  · exact (hcount.comp (State.alters_issue _ _ _ _) (by decide) (by decide)).trans (hsend _ _)
  · exact hcount.trans (hsend _ _)

theorem State.alters_drainQueue (n : Nat) (l wait : List TxPkt) (s : State) :
    Alters [.cpls, .mgc] [] s (State.drainQueue n l wait s) := by
  induction l generalizing wait s with
  | nil => exact (s.alters_onRol n _).mono (by decide) (by decide)
  | cons p rest ih =>
    unfold State.drainQueue
    split
    · exact (s.alters_sendPkt n p).trans (ih _ _)
    · exact ih _ _

/-- A control flit that is sent changes couplers and the ledger's counts alone. -/
theorem State.alters_sendCtl (s : State) (n op : Nat) (fields : List (Nat × List Byte)) :
    Alters [.cpls, .mgc] [] s (s.sendCtl n op fields) :=
  (s.alters_onRol n _).comp (State.alters_drainQueue n _ _ _) (by decide) (by decide)

theorem alters_taken (s : State) (n : Nat) : Alters [.cpls] [] s (taken s n) := s.alters_onCpl n _

theorem taken_cpl (s : State) (n : Nat) : (taken s n).cpl n = { s.cpl n with ctl := [] } := s.cpl_onCpl_self n _

theorem taken_cpl_ne (s : State) {n j : Nat} (h : j ≠ n) : (taken s n).cpl j = s.cpl j := s.cpl_onCpl_ne _ h

theorem taken_link (s : State) (n j : Nat) : (taken s n).link j = s.link j := (alters_taken s n).reg .CPL_LINK_STATE j 0 (by decide)

theorem taken_linkUp (s : State) (n j : Nat) : (taken s n).linkUp j = s.linkUp j := by simp [State.linkUp, taken_link]

/-- The one control flit that a coupler holds is taken. -/
theorem takeCtl_of_takes {s : State} {n op : Nat} {b d : List Byte} (h : Takes s n op b d) :
    s.takeCtl n op = some ((b, d), taken s n) := by
  obtain ⟨hrun, hctl, hop⟩ := h
  unfold State.takeCtl
  simp [hrun, hctl, hop, taken, State.onCpl]

/-! ### The best offer (R105) -/

/-- An offer is no worse than another: lower depth, then lower root ID, then lower coupler. -/
def offerLe (a b : Nat × Offer) : Prop :=
  a.2.depth < b.2.depth ∨ (a.2.depth = b.2.depth ∧ (a.2.root < b.2.root ∨ (a.2.root = b.2.root ∧ a.1 ≤ b.1)))

theorem betterOffer_eq_false {a b : Nat × Offer} : betterOffer a b = false ↔ offerLe b a := by
  simp only [betterOffer, offerLe, Bool.or_eq_false_iff, Bool.and_eq_false_imp, decide_eq_false_iff_not, beq_iff_eq]
  omega

theorem betterOffer_eq_true {a b : Nat × Offer} (h : betterOffer a b = true) : offerLe a b := by
  simp only [betterOffer, Bool.or_eq_true, Bool.and_eq_true, decide_eq_true_eq, beq_iff_eq] at h
  unfold offerLe
  omega

theorem offerLe.refl (a : Nat × Offer) : offerLe a a := by unfold offerLe; omega

theorem offerLe.trans {a b c : Nat × Offer} (h : offerLe a b) (h' : offerLe b c) : offerLe a c := by
  unfold offerLe at *
  omega

/-- Of two offers the later one is chosen where it is better. -/
def pickOffer (b : Option (Nat × Offer)) (o : Nat × Offer) : Option (Nat × Offer) := match b with
  | none => some o
  | some x => if betterOffer o x then some o else b

/-- The best of a list of offers is one of them, and none of them is better. -/
theorem foldl_pickOffer (l : List (Nat × Offer)) (x : Nat × Offer) :
    ∃ p, l.foldl pickOffer (some x) = some p ∧ p ∈ x :: l ∧ ∀ y ∈ x :: l, offerLe p y := by
  induction l generalizing x with
  | nil => exact ⟨x, rfl, List.mem_singleton_self x, fun y hy => List.mem_singleton.1 hy ▸ offerLe.refl y⟩
  | cons o t ih =>
    by_cases hb : betterOffer o x = true
    · obtain ⟨p, hp, hmem, hle⟩ := ih o
      refine ⟨p, by simpa [pickOffer, hb] using hp, List.mem_cons_of_mem x hmem, fun y hy => ?_⟩
      rcases List.mem_cons.1 hy with rfl | hy
      · exact (hle o List.mem_cons_self).trans (betterOffer_eq_true hb)
      · exact hle y hy
    · obtain ⟨p, hp, hmem, hle⟩ := ih x
      have hxo : offerLe x o := betterOffer_eq_false.1 (by simpa using hb)
      refine ⟨p, by simpa [pickOffer, hb] using hp, ?_, fun y hy => ?_⟩
      · rcases List.mem_cons.1 hmem with rfl | hmem
        · exact List.mem_cons_self
        · exact List.mem_cons_of_mem x (List.mem_cons_of_mem o hmem)
      · rcases List.mem_cons.1 hy with rfl | hy
        · exact hle y List.mem_cons_self
        · rcases List.mem_cons.1 hy with rfl | hy
          · exact (hle x List.mem_cons_self).trans hxo
          · exact hle y (List.mem_cons_of_mem x hy)

/-- Whether the tile may follow an offer: a tile with ROOT set follows only a root with a lower tile ID (R107). -/
def State.mayFollow (s : State) (o : Nat × Offer) : Bool := !s.isSet .TIK_ROOT || (match s.tileId with
  | some id => decide (o.2.root < id)
  | none => false)

theorem State.bestParent_eq (s : State) :
    s.bestParent = if !s.isSet .TIK_ALIGN_EN then none else (s.time.offers.filter s.mayFollow).foldl pickOffer none := rfl

/-- The parent is the best of the offers that the tile may follow. -/
theorem State.bestParent_some {s : State} {p : Nat × Offer} (h : s.bestParent = some p) :
    s.isSet .TIK_ALIGN_EN = true ∧ p ∈ s.time.offers ∧ ∀ x ∈ s.time.offers, s.mayFollow x = true → offerLe p x := by
  rw [State.bestParent_eq] at h
  cases hen : s.isSet .TIK_ALIGN_EN with
  | false => simp [hen] at h
  | true =>
    cases hl : s.time.offers.filter s.mayFollow with
    | nil => simp [hen, hl] at h
    | cons x t =>
      obtain ⟨q, hq, hmem, hle⟩ := foldl_pickOffer t x
      have hqp : q = p := by simpa [hen, hl, pickOffer, hq] using h
      subst hqp
      rw [← hl] at hmem hle
      exact ⟨rfl, (List.mem_filter.1 hmem).1, fun y hy hf => hle y (List.mem_filter.2 ⟨hy, hf⟩)⟩

theorem State.mayFollow_of_not_root {s : State} (h : s.isSet .TIK_ROOT = false) (o : Nat × Offer) : s.mayFollow o = true := by
  simp [State.mayFollow, h]

theorem State.bestParent_singleton {s : State} {o : Nat × Offer} (hen : s.isSet .TIK_ALIGN_EN = true) (hroot : s.isSet .TIK_ROOT = false)
    (h : s.time.offers = [o]) : s.bestParent = some o := by
  simp [State.bestParent_eq, hen, h, State.mayFollow_of_not_root hroot, pickOffer]

/-! ### Announcements -/

theorem exec_timeAnn (n : Fin 64) (s : State) : exec (.timeAnn n) s = execTimeAnn n s := rfl

theorem exec_timeAnnSend (n : Fin 64) (s : State) : exec (.timeAnnSend n) s = execTimeAnnSend n s := rfl

/-- What TIK_STATUS and the root ID show of a parent (R104, R106). -/
def State.showParent (s : State) (p : Nat) (o : Offer) : State :=
  ((((((s.setReg .TIK_JOINED 1).setReg .TIK_IS_ROOT 0).setReg .TIK_HOLDOVER 0).setReg .TIK_ROOT_VALID 1).setReg
      .TIK_DEPTH ((o.depth + 1) % 256)).setReg .TIK_PARENT p).setReg .TIK_ROOT_ID o.root

theorem State.showTime_joined {s : State} {p : Nat} {o : Offer} (hp : s.time.parent = some p)
    (ho : NMap.find? s.time.offers p = some o) : s.showTime = s.showParent p o := by
  unfold State.showTime
  simp [hp, ho, State.showParent]

/-- Fabric time once a coupler is the parent: a measurement under way ends where it was on another. -/
def TimeSt.follow (t : TimeSt) (p : Nat) : TimeSt :=
  { t with parent := some p, hadParent := true, t1 := if some p = t.parent then t.t1 else none }

theorem State.chooseParent_joined {s : State} {p : Nat} {o : Offer} (hroot : s.isSet .TIK_ROOT = false)
    (hbest : s.bestParent = some (p, o)) (ho : NMap.find? s.time.offers p = some o) :
    s.chooseParent = State.showParent { s with time := s.time.follow p } p o := by
  unfold State.chooseParent
  simp only [hbest, hroot, Option.map_some, Bool.false_and, Option.isSome_some, Bool.or_true]
  exact State.showTime_joined rfl ho

/-- The state in which an announcement has been taken that is the only offer, and its coupler is the parent. -/
def State.joinedTo (s : State) (n : Nat) (o : Offer) : State :=
  { taken s n with time := TimeSt.follow { s.time with offers := [(n, o)] } n }

/-- An announcement on a coupler that carries time joins the tile to it, where it is the only offer (R105, R106). -/
theorem timeAnn_goes {s : State} {n : Fin 64} {b d : List Byte} (hup : s.linkUp n = true) (h : Takes s n 0x85 b d)
    (hoff : s.time.offers = []) (hen : s.reg .TIK_ALIGN_EN = 1) (hroot : s.reg .TIK_ROOT = 0) :
    Goes (.timeAnn n) s ((s.joinedTo n ⟨field b 4 2, field b 6 1⟩).showParent n ⟨field b 4 2, field b 6 1⟩) := by
  let o : Offer := ⟨field b 4 2, field b 6 1⟩
  let u : State := { taken s n with time := { (taken s n).time with offers := [(n.val, o)] } }
  have hu : Alters [.cpls, .time] [] s u := (alters_taken s n).comp ((taken s n).alters_time _) (by decide) (by decide)
  have huroot : u.isSet .TIK_ROOT = false := (hu.isSet .TIK_ROOT 0 0 (by decide)).trans (by simp [State.isSet, hroot])
  have huen : u.isSet .TIK_ALIGN_EN = true := (hu.isSet .TIK_ALIGN_EN 0 0 (by decide)).trans (by simp [State.isSet, hen])
  have hexec : exec (.timeAnn n) s = .next u.chooseParent := by
    rw [exec_timeAnn, execTimeAnn, takeCtl_of_takes h]
    have hoff' : (taken s n).time.offers = [] := hoff
    simp [taken_linkUp, hup, done, hoff', NMap.insert, u, o]
  unfold Goes
  rw [hexec, State.chooseParent_joined huroot (State.bestParent_singleton huen huroot rfl) (by simp [u, NMap.find?])]
  rfl

theorem State.alters_showParent (s : State) (p : Nat) (o : Offer) : Alters [.regs]
    [.TIK_JOINED, .TIK_IS_ROOT, .TIK_HOLDOVER, .TIK_ROOT_VALID, .TIK_DEPTH, .TIK_PARENT, .TIK_ROOT_ID] s (s.showParent p o) := by
  refine ⟨by simp [Same, State.showParent], fun f i k hf => ?_⟩
  simp only [List.mem_cons, List.not_mem_nil, or_false, not_or] at hf
  simp [State.showParent, State.reg_setReg, hf]

/-- What an announcement leaves that joins the tile to its coupler (R104–R106). -/
theorem timeAnn_ends {s : State} {n : Fin 64} {b d : List Byte} (hup : s.linkUp n = true) (h : Takes s n 0x85 b d)
    (hoff : s.time.offers = []) (hen : s.reg .TIK_ALIGN_EN = 1) (hroot : s.reg .TIK_ROOT = 0) : Ends (.timeAnn n) s fun t =>
      t.time.parent = some n.val ∧ t.time.hadParent = true ∧ t.time.offers = [(n.val, ⟨field b 4 2, field b 6 1⟩)]
      ∧ t.reg .TIK_JOINED = 1 ∧ t.reg .TIK_PARENT = n ∧ t.reg .TIK_DEPTH = (field b 6 1 + 1) % 256 ∧ t.reg .TIK_ROOT_ID = field b 4 2
      ∧ t.reg .TIK_IS_ROOT = 0 ∧ t.reg .TIK_HOLDOVER = 0 ∧ t.reg .TIK_ROOT_VALID = 1 ∧ Same [.cpls, .time, .regs] s t := by
  let o : Offer := ⟨field b 4 2, field b 6 1⟩
  have hshow := (s.joinedTo n o).alters_showParent n o
  have ht : ((s.joinedTo n o).showParent n o).time = TimeSt.follow { s.time with offers := [(n.val, o)] } n := hshow.agree .time (by decide)
  have hjoin : Same [.cpls, .time] s (s.joinedTo n o) := ((alters_taken s n).1.mono (by decide)).trans (by simp [Same, State.joinedTo])
  refine ⟨_, timeAnn_goes hup h hoff hen hroot, ?_, ?_, ?_, ?_, ?_, ?_, ?_, ?_, ?_, ?_,
    (hjoin.mono (by decide)).trans (hshow.1.mono (by decide))⟩
  · exact congrArg TimeSt.parent ht
  · exact congrArg TimeSt.hadParent ht
  · exact congrArg TimeSt.offers ht
  all_goals simp [State.showParent, State.reg_setReg]

/-- An announcement is made where the tile has a root and none has been made on the coupler (R106). -/
theorem timeAnnSend_goes {s : State} {n : Fin 64} (hup : s.linkUp n = true) (hrun : s.banksRun = true) (hroot : s.hasRoot = true)
    (hann : (s.cpl n).annAt = none) : Goes (.timeAnnSend n) s
      ((s.sendCtl n 0x85 [(4, leBytes 2 (s.reg .TIK_ROOT_ID)), (6, leBytes 1 (s.reg .TIK_DEPTH))]).onCpl n
        fun c => { c with annAt := some s.time.bnd }) := by
  simp [Goes, exec_timeAnnSend, execTimeAnnSend, done, hrun, hup, hroot, hann]

/-! ### Measurement -/

theorem exec_timeMeasure (frac : Fin 256) (s : State) : exec (.timeMeasure frac) s = execTimeMeasure frac s := rfl

theorem exec_timeReq (n : Fin 64) (t2 t3 : Fin 256) (s : State) : exec (.timeReq n t2 t3) s = execTimeReq n t2 t3 s := rfl

theorem exec_couplerTimeExchange (n : Fin 64) (frac : Fin 256) (s : State) :
    exec (.couplerTimeExchange n frac) s = execCouplerTimeExchange n frac s := rfl

theorem exec_timeRsp (n : Fin 64) (t4 : Fin 256) (s : State) : exec (.timeRsp n t4) s = execTimeRsp n t4 s := rfl

theorem State.alters_sendTimeReq (s : State) (n t1 : Nat) : Alters [.cpls, .mgc] [] s (s.sendTimeReq n t1) := by
  unfold State.sendTimeReq
  exact (s.alters_sendCtl n 0x86 _).comp (State.alters_onCpl _ n _) (by decide) (by decide)

theorem State.sendTimeReq_t1 (s : State) (n t1 : Nat) : ((s.sendTimeReq n t1).cpl n).t1 = some t1 := by simp [State.sendTimeReq]

theorem State.sendTimeReq_seq (s : State) (n t1 : Nat) : ((s.sendTimeReq n t1).cpl n).seq = ((s.cpl n).seq + 1) % 65536 := by
  simp [State.sendTimeReq]

/-- A state with another fabric time. -/
def State.withTime (s : State) (t : TimeSt) : State := { s with time := t }

theorem State.withTime_cpl (s : State) (t : TimeSt) (n : Nat) : (s.withTime t).cpl n = s.cpl n := rfl

/-- What its fabric time alone sets apart from a state is that state, with that time put back. -/
theorem State.withTime_back {s : State} {t : TimeSt} (h : s.time = t) (t' : TimeSt) : { s.withTime t' with time := t } = s := by
  subst h
  rfl

/-- The state in which a measurement on the parent has begun: TIME_REQ is on its way, and its t1 is kept (R108). -/
def State.beginMeasure (s : State) (n t1 : Nat) : State :=
  (s.sendTimeReq n t1).withTime { s.time with t1 := some t1, measured := some s.time.bnd }

theorem timeMeasure_goes {s : State} {n : Fin 64} (frac : Fin 256) (hup : s.linkUp n = true) (hrun : s.banksRun = true)
    (hpar : s.time.parent = some n.val) (hm : s.time.measured = none) :
    Goes (.timeMeasure frac) s (s.beginMeasure n (256 * s.time.now + frac.val)) := by
  have ht : (s.sendTimeReq n (256 * s.time.now + frac.val)).time = s.time := (s.alters_sendTimeReq _ _).agree .time (by decide)
  simp [Goes, exec_timeMeasure, execTimeMeasure, done, hpar, hm, hrun, hup, ht, State.beginMeasure, State.withTime]

/-- What a measurement on the parent leaves (R108). -/
theorem timeMeasure_ends {s : State} {n : Fin 64} (frac : Fin 256) (hup : s.linkUp n = true) (hrun : s.banksRun = true)
    (hpar : s.time.parent = some n.val) (hm : s.time.measured = none) : Ends (.timeMeasure frac) s fun t =>
      t.time = { s.time with t1 := some (256 * s.time.now + frac), measured := some s.time.bnd }
      ∧ { t with time := s.time } = s.sendTimeReq n (256 * s.time.now + frac) ∧ (t.cpl n).t1 = some (256 * s.time.now + frac)
      ∧ (t.cpl n).seq = ((s.cpl n).seq + 1) % 65536 := by
  have ht : (s.sendTimeReq n (256 * s.time.now + frac.val)).time = s.time := (s.alters_sendTimeReq _ _).agree .time (by decide)
  refine ⟨_, timeMeasure_goes frac hup hrun hpar hm, rfl, State.withTime_back ht _, ?_, ?_⟩
  · rw [State.beginMeasure, State.withTime_cpl, State.sendTimeReq_t1]
  · rw [State.beginMeasure, State.withTime_cpl, State.sendTimeReq_seq]

/-- A timestamp of a fraction of the present tick (R503). -/
theorem ts72_of_fraction (now : Nat) (f : Fin 256) : ts72 (256 * now + f) = leBytes 1 (f.val % 256) ++ leBytes 8 now := by
  have hmod : (256 * now + f.val) % 256 = f.val % 256 := by omega
  have hdiv : (256 * now + f.val) / 256 = now := by omega
  rw [ts72, hmod, hdiv]

/-- TIME_REQ is answered with its own sequence number and t1, and with t2 and t3 (R108, R503). -/
theorem timeReq_goes {s : State} {n : Fin 64} {b d : List Byte} {t2 t3 : Fin 256} (h : Takes s n 0x86 b d) (ht : t2 ≤ t3) :
    Goes (.timeReq n t2 t3) s ((taken s n).sendCtl n 0x87
      [(4, (b.drop 4).take 2), (8, (b.drop 8).take 9), (17, leBytes 1 (t2.val % 256) ++ leBytes 8 s.time.now),
        (26, leBytes 1 (t3.val % 256) ++ leBytes 8 s.time.now)]) := by
  unfold Goes
  rw [exec_timeReq, execTimeReq, takeCtl_of_takes h, ← ts72_of_fraction, ← ts72_of_fraction]
  exact congrArg _ (if_neg (not_lt.2 ht))

theorem couplerTimeExchange_goes {s : State} {n : Fin 64} (frac : Fin 256) (hrun : s.banksRun = true) (hlink : s.link n = 3)
    (hstart : (s.cpl n).started < 16) (hdue : (s.cpl n).since + 100 * (s.cpl n).started ≤ s.time.bnd) :
    Goes (.couplerTimeExchange n frac) s
      ((s.sendTimeReq n (256 * s.time.now + frac.val)).onCpl n fun c => { c with started := c.started + 1 }) := by
  have hdue' : ¬ s.time.bnd < (s.cpl n).since + ticksOfUs (s.cpl n).started := by unfold ticksOfUs; omega
  simp [Goes, exec_couplerTimeExchange, execCouplerTimeExchange, done, hrun, hlink, hstart, hdue']

end Sys2Proof.Machine
end
section
/-!
PROOFS. Fabric time (R99, R100, R108–R110, R114, R116): the answer of a measurement, the tick boundary, and a step.
-/
namespace Sys2Proof.Machine
open Sys2Proof.Safety

/-! ### The answer of a measurement -/

/-- A TIME_RSP of the measurement under way has been taken: its coupler waits for none. -/
def State.rspTaken (s : State) (n : Nat) : State := (taken s n).onCpl n fun c => { c with t1 := none }

theorem State.alters_rspTaken (s : State) (n : Nat) : Alters [.cpls] [] s (s.rspTaken n) :=
  (alters_taken s n).trans (State.alters_onCpl _ n _)

/-- The path delay that a TIME_RSP gives at its arrival (R108). -/
def rspDelay (b : List Byte) (now : Nat) : Int := pathDelay (ts72Of b 8) (ts72Of b 17) (ts72Of b 26) now

/-- The least delay of a coupler's exchanges, with one more that gives `d` (R458). -/
def leastDelay (c : CplSt) (d : Nat) : Nat := match c.least with
  | some x => min x d
  | none => d

theorem leastDelay_eq (c : CplSt) (d : Nat) : leastDelay c d = min (c.least.getD d) d := by
  unfold leastDelay
  cases c.least <;> simp

/-- A coupler after an exchange in TIME that gives the delay `d`. -/
def State.exchangeEnds (s : State) (n d : Nat) : State :=
  (s.rspTaken n).onCpl n fun c => { c with ended := c.ended + 1, least := some (leastDelay ((taken s n).cpl n) d) }

/-- The sixteenth exchange gives the path delay (R458). -/
def State.exchanged (s : State) (n d : Nat) : State :=
  if ((taken s n).cpl n).ended + 1 < 16 then s.exchangeEnds n d
  else ((s.exchangeEnds n d).setReg .CPL_PATH_DELAY (leastDelay ((taken s n).cpl n) d % 2 ^ 32) n).setReg .CPL_LONG
    (bit (decide (2048 < 10 * leastDelay ((taken s n).cpl n) d))) n

/-- A TIME_RSP of the measurement under way: in TIME an exchange ends, and on the parent the offset is known (R108, R458). -/
theorem exec_timeRsp_taken {s : State} {n : Fin 64} {b d : List Byte} {t4 : Fin 256} (h : Takes s n 0x87 b d)
    (ht1 : (s.cpl n).t1 ≠ none) (hseq : field b 4 2 = (s.cpl n).seq) : exec (.timeRsp n t4) s = .next
      (if (s.rspTaken n).link n = 3 then s.exchanged n (rspDelay b (256 * s.time.now + t4.val)).toNat
      else if (s.rspTaken n).linkUp n ∧ s.time.parent = some n.val ∧ s.time.t1.isSome then
        State.applyOffset { s.rspTaken n with time := { s.time with t1 := none } }
          ((ts72Of b 17 : Int) + rspDelay b (256 * s.time.now + t4.val) - ((256 * s.time.now + t4.val : Nat) : Int))
      else s.rspTaken n) := by
  have hno : ¬(((taken s n).cpl n).t1.isNone = true ∨ field b 4 2 ≠ ((taken s n).cpl n).seq) := by
    rw [taken_cpl]
    simp [ht1, hseq]
  rw [exec_timeRsp, execTimeRsp, takeCtl_of_takes h]
  exact congrArg Host.Outcome.next (if_neg hno)

section
variable (s : State) (n d : Nat)

theorem State.alters_exchangeEnds : Alters [.cpls] [] s (s.exchangeEnds n d) :=
  (s.alters_rspTaken n).trans (State.alters_onCpl _ n _)

theorem State.exchangeEnds_cpl : (s.exchangeEnds n d).cpl n =
    { s.cpl n with ctl := [], t1 := none, ended := (s.cpl n).ended + 1, least := some (min ((s.cpl n).least.getD d) d) } := by
  simp [State.exchangeEnds, State.rspTaken, taken_cpl, leastDelay_eq]

theorem State.exchangeEnds_onlyCpl : OnlyCpl n s (s.exchangeEnds n d) := by
  intro j hj
  rw [State.exchangeEnds, State.cpl_onCpl_ne _ _ hj, State.rspTaken, State.cpl_onCpl_ne _ _ hj, taken_cpl_ne s hj]

theorem State.exchanged_early (h : (s.cpl n).ended < 15) : s.exchanged n d = s.exchangeEnds n d := by
  have hlt : ((taken s n).cpl n).ended + 1 < 16 := by rw [taken_cpl]; exact Nat.succ_lt_succ h
  exact if_pos hlt

theorem State.exchanged_last (h : 15 ≤ (s.cpl n).ended) : s.exchanged n d =
    ((s.exchangeEnds n d).setReg .CPL_PATH_DELAY (min ((s.cpl n).least.getD d) d % 2 ^ 32) n).setReg .CPL_LONG
      (bit (decide (2048 < 10 * min ((s.cpl n).least.getD d) d))) n := by
  have hge : ¬((taken s n).cpl n).ended + 1 < 16 := by rw [taken_cpl]; exact not_lt.2 (Nat.succ_le_succ h)
  have hleast : leastDelay ((taken s n).cpl n) d = min ((s.cpl n).least.getD d) d := by rw [leastDelay_eq, taken_cpl]
  rw [← hleast]
  exact if_neg hge

theorem State.exchanged_regs (h : 15 ≤ (s.cpl n).ended) :
    (s.exchanged n d).reg .CPL_PATH_DELAY n = min ((s.cpl n).least.getD d) d % 2 ^ 32
      ∧ (s.exchanged n d).reg .CPL_LONG n = bit (decide (2048 < 10 * min ((s.cpl n).least.getD d) d)) := by
  rw [s.exchanged_last n d h]
  exact ⟨by simp [State.reg_setReg], State.reg_setReg_self _ _ _ _ _⟩

/-- But for the registers of the path delay an exchange changes its coupler alone. -/
theorem State.exchanged_rest : Same [.cpls, .regs] s (s.exchanged n d) ∧ (s.exchanged n d).cpls = (s.exchangeEnds n d).cpls := by
  have hends : Alters [.cpls, .regs] [] s (s.exchangeEnds n d) := (s.alters_exchangeEnds n d).mono (by decide) (by decide)
  by_cases h : (s.cpl n).ended < 15
  · rw [s.exchanged_early n d h]
    exact ⟨hends.1, rfl⟩
  · rw [s.exchanged_last n d (not_lt.1 h)]
    exact ⟨hends.1.trans (by simp [Same]), by simp⟩

theorem State.alters_applyOffset (off : Int) : Alters [.time, .regs] [.TIK_OFFSET] s (s.applyOffset off) := by
  have hreg : Alters [.time, .regs] [.TIK_OFFSET] s (s.setReg .TIK_OFFSET (BitVec.ofInt 32 off).toNat) :=
    (s.alters_setReg _ _ 0 0).mono (by decide) (by decide)
  unfold State.applyOffset
  dsimp only
  split <;> exact hreg.comp (State.alters_time _ _) (by decide) (by decide)

theorem State.applyOffset_reg (off : Int) : (s.applyOffset off).reg .TIK_OFFSET = (BitVec.ofInt 32 off).toNat := by
  have hreg := s.reg_setReg_self .TIK_OFFSET (BitVec.ofInt 32 off).toNat 0 0
  unfold State.applyOffset
  dsimp only
  split <;> exact hreg

/-- An offset below one tick is slewed away (R109). -/
theorem State.applyOffset_slews {off : Int} (h : off.natAbs < 256) :
    (s.applyOffset off).time = { s.time with slew := off, step := none } := by
  simp [State.applyOffset, h]

/-- A larger one is stepped, and what is left of it slewed (R109). -/
theorem State.applyOffset_steps {off : Int} (h : 256 ≤ off.natAbs) :
    (s.applyOffset off).time = { s.time with step := some (off.tdiv 256, s.time.bnd), slew := off.tmod 256 } := by
  simp [State.applyOffset, not_lt.2 h]

end

section
variable {s : State} {n : Fin 64} {b d : List Byte} {t4 : Fin 256} (h : Takes s n 0x87 b d) (ht1 : (s.cpl n).t1 ≠ none)
  (hseq : field b 4 2 = (s.cpl n).seq)
include h ht1 hseq

theorem timeRsp_goes_exchanged (hlink : s.link n = 3) :
    Goes (.timeRsp n t4) s (s.exchanged n (rspDelay b (256 * s.time.now + t4.val)).toNat) := by
  unfold Goes
  have hl : (s.rspTaken n).link n = 3 := ((s.alters_rspTaken n).reg .CPL_LINK_STATE n 0 (by decide)).trans hlink
  rw [exec_timeRsp_taken h ht1 hseq, if_pos hl]

theorem timeRsp_goes_offset (hup : s.linkUp n = true) (hpar : s.time.parent = some n.val) (hrun : s.time.t1 ≠ none) :
    Goes (.timeRsp n t4) s (State.applyOffset { s.rspTaken n with time := { s.time with t1 := none } }
      ((ts72Of b 17 : Int) + rspDelay b (256 * s.time.now + t4.val) - ((256 * s.time.now + t4.val : Nat) : Int))) := by
  have hl : (s.rspTaken n).link n = s.link n := (s.alters_rspTaken n).reg .CPL_LINK_STATE n 0 (by decide)
  have hup' : (s.rspTaken n).linkUp n = true := by rwa [State.linkUp, hl, ← State.linkUp]
  have hne : ¬(s.rspTaken n).link n = 3 := by
    intro h3
    simp [State.linkUp, h3] at hup'
  unfold Goes
  rw [exec_timeRsp_taken h ht1 hseq, if_neg hne, if_pos ⟨hup', hpar, Option.isSome_iff_ne_none.2 hrun⟩]

end

/-! ### Steps of fabric time -/

theorem NMap.find?_map {α β : Type} (f : α → β) (m : NMap α) (k : Nat) :
    NMap.find? (m.map fun x => (x.1, f x.2)) k = (NMap.find? m k).map f := by
  induction m with
  | nil => rfl
  | cons p t ih =>
    simp only [List.map_cons, NMap.find?]
    split <;> simp [ih]

theorem exec_timeStep (s : State) : exec .timeStep s = execTimeStep s := rfl

/-- A hand's sleep moved by a step (R110). -/
def Hand.sleepMoved (d : Int) (h : Hand) : Hand := if h.sleepEnd = 0 then h else { h with sleepEnd := moved d h.sleepEnd }

theorem State.same_moveWaits (s : State) (d : Int) : Same [.cores, .cp] s (s.moveWaits d) := by simp [Same, State.moveWaits]

theorem State.hand_moveWaits (s : State) (d : Int) (c slot : Nat) :
    (s.moveWaits d).hand c slot = (s.hand c slot).map (Hand.sleepMoved d) := by
  have hcore : ((s.moveWaits d).core c).slots = (s.core c).slots.map fun x : Nat × Hand => (x.1, Hand.sleepMoved d x.2) := by
    have hfind := NMap.find?_map (fun co : Core => { co with slots := co.slots.map fun x : Nat × Hand => (x.1, Hand.sleepMoved d x.2) }) s.cores c
    unfold State.core NMap.get
    refine (congrArg (fun o : Option Core => (o.getD {}).slots) hfind).trans ?_
    cases NMap.find? s.cores c <;> rfl
  rw [State.hand, hcore, NMap.find?_map, ← State.hand]

/-- A step made: fabric time moves by it, and it is counted (R109). -/
def State.stepped (s : State) (d : Int) : State :=
  State.count { s with time := { s.time with now := moved d s.time.now, step := none } } .TIK_STEP_CNT

/-- An armed route switch that the step carries past its tick is counted as late (R110). -/
def State.countLate (s : State) (old new tick : Nat) : State :=
  if s.isSet .RTE_ARMED ∧ old < tick ∧ tick ≤ new then s.count .RTE_SW_LATE_CNT else s

/-- The step that is due is made, what waits for a relative time moves with it, and it is posted (R109, R110). -/
theorem timeStep_goes {s : State} {d : Int} {at' : Nat} (hstep : s.time.step = some (d, at')) (htick : s.ticking = true)
    (hdue : at' < s.time.bnd) : Goes .timeStep s
      ((((s.stepped d).countLate s.time.now (moved d s.time.now) (s.reg64 .RTE_SW_TICK_LO .RTE_SW_TICK_HI)).moveWaits d).postEvent
        (deckIndex .TIK 0) (payload [(0, leBytes 1 0x41), (8, leBytes 8 (moved d s.time.now)), (0x10, leBytes 8 s.time.now),
          (0x18, leBytes 8 (moved d s.time.now))])) := by
  have hgo : ¬(!s.ticking || decide (s.time.bnd ≤ at')) = true := by simp [htick, hdue]
  unfold Goes
  rw [exec_timeStep, execTimeStep, hstep]
  exact congrArg Host.Outcome.next (if_neg hgo)

theorem State.alters_countLate (s : State) (old new tick : Nat) : Alters [.regs] [.RTE_SW_LATE_CNT] s (s.countLate old new tick) := by
  unfold State.countLate
  split
  · exact s.alters_count _ 0 0 1
  · exact Alters.refl _ _ s

/-- What a step does (R109, R110). -/
theorem timeStep_ends {s : State} {d : Int} {at' : Nat} (hstep : s.time.step = some (d, at')) (htick : s.ticking = true)
    (hdue : at' < s.time.bnd) : Ends .timeStep s fun t =>
      t.time = { s.time with now := ((s.time.now : Int) + d).toNat, step := none }
      ∧ t.reg .TIK_STEP_CNT = satAdd32 (s.reg .TIK_STEP_CNT) 1
      ∧ (∀ core slot, t.hand core slot = (s.hand core slot).map (Hand.sleepMoved d)) ∧ Same (.time :: .cores :: .cp :: postParts) s t := by
  let u := (s.stepped d).countLate s.time.now (moved d s.time.now) (s.reg64 .RTE_SW_TICK_LO .RTE_SW_TICK_HI)
  have hstepped : Same [.time, .regs] s (s.stepped d) := by simp [Same, State.stepped]
  have hlate : Alters [.regs] [.RTE_SW_LATE_CNT] (s.stepped d) u := State.alters_countLate _ _ _ _
  have hwaits : Alters [.cores, .cp] [] u (u.moveWaits d) := .of_regs (u.same_moveWaits d) rfl
  have hpost := (u.moveWaits d).onlyPosts_postEvent (deckIndex .TIK 0) (payload [(0, leBytes 1 0x41),
    (8, leBytes 8 (moved d s.time.now)), (0x10, leBytes 8 s.time.now), (0x18, leBytes 8 (moved d s.time.now))])
  refine ⟨_, timeStep_goes hstep htick hdue, ?_, ?_, fun core slot => ?_, ?_⟩
  · rw [same_iff.1 hpost.1 .time (by decide), hwaits.agree .time (by decide), hlate.agree .time (by decide)]
    rfl
  · rw [hpost.2 .TIK_STEP_CNT 0 0 (by decide), hwaits.reg .TIK_STEP_CNT 0 0 (by decide), hlate.reg .TIK_STEP_CNT 0 0 (by decide)]
    exact State.reg_setReg_self _ _ _ _ _
  · have hcores : u.cores = s.cores := (same_iff.1 hstepped .cores (by decide)).symm ▸ hlate.agree .cores (by decide)
    have hhand : u.hand core slot = s.hand core slot := by simp [State.hand, State.core_congr hcores]
    rw [State.hand, State.core_congr (same_iff.1 hpost.1 .cores (by decide)), ← State.hand, State.hand_moveWaits, hhand]
  · exact (((hstepped.mono (by decide)).trans (hlate.1.mono (by decide))).trans (hwaits.1.mono (by decide))).trans
      (hpost.1.mono (by decide))

/-! ### The tick boundary -/

theorem exec_tickBoundary (mf : BitVec 16) (l : List Upset) (s : State) : exec (.tickBoundary mf l) s = execTickBoundary mf l s := rfl

theorem TimeSt.no_events {t : TimeSt} (hr : t.ready = []) (hd : t.due = []) : { t with due := [], ready := [] } = t := by
  cases t; simp_all

theorem State.applyReady_nil {s : State} (h : s.time.ready = []) : s.applyReady = s := by
  have ht : { s.time with ready := [] } = s.time := by rw [← h]
  rw [State.applyReady, h, ht]
  rfl

/-- The state of a boundary before its events: fabric time and the capture of the pins (R99, R114). -/
def State.tickStart (s : State) (mf : BitVec 16) : State := State.capture { s with time := s.time.next } mf

/-- A boundary in which nothing waits from the tick before applies what is due, and counts residency and idle times. -/
theorem tickBoundary_goes {s : State} (mf : BitVec 16) (hreset : s.inReset = false) (hun : s.reg .BRK_BRAKED = 0)
    (hready : s.time.ready = []) : Goes (.tickBoundary mf []) s (s.tickStart mf).applyDue.reside.scanIdle := by
  have hstop : ({ s with time := s.time.next } : State).stopped 4 = false := by
    have hb : ({ s with time := s.time.next } : State).isSet .BRK_BRAKED = false := by
      rw [(s.alters_time _).isSet .BRK_BRAKED 0 0 (by decide), State.isSet, hun]; rfl
    simp only [State.stopped, hb, Bool.false_and, Bool.or_false]
    exact hreset
  unfold Goes
  rw [exec_tickBoundary, execTickBoundary, hreset, State.applyReady_nil hready]
  simp [done, hstop, hreset, foldState, State.tickStart]

theorem State.capture_taken {s : State} (h : s.padsTaken = true) (mf : BitVec 16) : s.capture mf = s := by
  simp [State.capture, h]

theorem State.capture_pin {s : State} (h : s.padsTaken = false) (mf : BitVec 16) :
    (s.capture mf).pin = { s.pin with cap := mf.toNat } := by
  simp [State.capture, h]

theorem State.alters_capture (s : State) (mf : BitVec 16) : Alters [.pin, .cp] [] s (s.capture mf) := by
  unfold State.capture
  split
  · exact Alters.refl _ _ s
  · exact .of_regs (by simp [Same]) rfl

theorem State.capture_cp (s : State) (mf : BitVec 16) : (s.capture mf).cp = { s.cp with watch := (s.capture mf).cp.watch } := by
  unfold State.capture
  split <;> rfl

theorem State.alters_tickStart (s : State) (mf : BitVec 16) : Alters [.time, .pin, .cp] [] s (s.tickStart mf) :=
  (s.alters_time _).comp (State.alters_capture _ mf) (by decide) (by decide)

theorem State.tickStart_time (s : State) (mf : BitVec 16) : (s.tickStart mf).time = s.time.next := (State.alters_capture _ mf).agree .time (by decide)

/-- No event is due or waits. -/
def State.noEvents (s : State) : State := { s with time := { s.time with due := [], ready := [] } }

theorem State.applyDue_nil {s : State} (hr : s.time.ready = []) (hd : s.time.due = []) : s.applyDue = s := by
  have hnone : s.applyDue = s.noEvents := by rw [State.applyDue, hd]; rfl
  rw [hnone, State.noEvents, TimeSt.no_events hr hd]

theorem State.alters_reside (s : State) : Alters [.pwr, .regs] [.PWR_RES_T_LO, .PWR_RES_T_HI] s s.reside := by
  have hpart (p : PwrSt) : Alters [.pwr, .regs] [.PWR_RES_T_LO, .PWR_RES_T_HI] s { s with pwr := p } :=
    ⟨by simp [Same], sameRegs_of_regs rfl⟩
  unfold State.reside
  dsimp only
  split
  · exact hpart _
  · exact (hpart _).comp (State.alters_setReg64 _ _ _ _ _ _) (by decide) (by decide)

theorem State.reside_pwr (s : State) : s.reside.pwr = { s.pwr with part := s.reside.pwr.part } := by
  unfold State.reside
  dsimp only
  split <;> rfl

theorem State.alters_scanIdle (s : State) : Alters [.pwr] [] s s.scanIdle := .of_regs (by simp [Same, State.scanIdle]) rfl

theorem State.scanIdle_pwr (s : State) : s.scanIdle.pwr = { s.pwr with idle := s.scanIdle.pwr.idle } := rfl

/-- Residency and idle times are counted at the end of a boundary. -/
theorem State.alters_residency (s : State) : Alters [.pwr, .regs] [.PWR_RES_T_LO, .PWR_RES_T_HI] s s.reside.scanIdle :=
  s.alters_reside.comp (State.alters_scanIdle _) (by decide) (by decide)

theorem State.residency_pwr (s : State) :
    s.reside.scanIdle.pwr = { s.pwr with part := s.reside.scanIdle.pwr.part, idle := s.reside.scanIdle.pwr.idle } := by
  rw [State.scanIdle_pwr, s.reside_pwr]

/-- A switch of the route table that is due at a boundary is applied in it (R116, R519). -/
theorem State.applyDue_routeSwitch {s : State} (hcur : s.time.cur = {}) (hun : s.isSet .BRK_BRAKED = false) {src : Nat}
    (hd : s.time.due = [⟨9, src, .routeSwitch⟩]) :
    s.applyDue = applyRouteSwitch ((s.noEvents.atEvent 9 src).journal 9 src 1 .routeSwitch) := by
  have hun' : s.noEvents.isSet .BRK_BRAKED = false := ((s.alters_time _).isSet .BRK_BRAKED 0 0 (by decide)).trans hun
  have hcur' : s.noEvents.time.cur = {} := hcur
  have hmoot : s.noEvents.moot 9 .routeSwitch = false := by simp [State.moot, hcur', hun']
  unfold State.applyDue
  rw [hd]
  exact State.applyEvent_takes hmoot (fun _ h => absurd h (by decide)) src applyRouteSwitch

end Sys2Proof.Machine
end
section
/-!
PROOFS. What a tick boundary leaves (R99, R114, R116), and replay from the journal (R124).
-/
namespace Sys2Proof.Machine
open Sys2Proof.Safety

/-! ### The boundary -/

theorem alters_applyRouteSwitch (s : State) :
    Alters [.regs, .rte] [.RTE_ACTIVE, .RTE_DRAINING, .RTE_ARMED] s (applyRouteSwitch s) := by
  have hregs : Alters [.regs, .rte] [.RTE_ACTIVE, .RTE_DRAINING, .RTE_ARMED] s
      (((s.setReg .RTE_ACTIVE s.rte.swGen).setReg .RTE_DRAINING 1).setReg .RTE_ARMED 0) :=
    ((s.alters_setReg _ _ _ _).comp (ch := [.regs]) (fs := [.RTE_ACTIVE, .RTE_DRAINING]) (State.alters_setReg _ _ _ _ _)
      (by decide) (by decide)).comp (State.alters_setReg _ _ _ _ _) (by decide) (by decide)
  exact hregs.trans ⟨by simp [Same, applyRouteSwitch], sameRegs_of_regs rfl⟩

theorem applyRouteSwitch_active (s : State) : (applyRouteSwitch s).reg .RTE_ACTIVE = s.rte.swGen := by
  have h : (applyRouteSwitch s).reg .RTE_ACTIVE =
      (((s.setReg .RTE_ACTIVE s.rte.swGen).setReg .RTE_DRAINING 1).setReg .RTE_ARMED 0).reg .RTE_ACTIVE := rfl
  rw [h]
  simp [State.reg_setReg]

theorem applyRouteSwitch_draining (s : State) : (applyRouteSwitch s).reg .RTE_DRAINING = 1 := by
  have h : (applyRouteSwitch s).reg .RTE_DRAINING =
      (((s.setReg .RTE_ACTIVE s.rte.swGen).setReg .RTE_DRAINING 1).setReg .RTE_ARMED 0).reg .RTE_DRAINING := rfl
  rw [h]
  simp [State.reg_setReg]

section
variable {s : State} (mf : BitVec 16) (hreset : s.inReset = false) (hun : s.reg .BRK_BRAKED = 0) (hready : s.time.ready = [])
include hreset hun hready

/-- A boundary with nothing due (R99, R100, R114, R652). -/
theorem tickBoundary_ends_quiet (hdue : s.time.due = []) : Ends (.tickBoundary mf []) s fun t => t.time = s.time.next
      ∧ (s.padsTaken = false → t.pin = { s.pin with cap := mf.toNat }) ∧ (s.padsTaken = true → t.pin = s.pin)
      ∧ t.cp = { s.cp with watch := t.cp.watch } ∧ t.pwr = { s.pwr with part := t.pwr.part, idle := t.pwr.idle }
      ∧ Alters [.time, .pin, .cp, .regs, .pwr] [.PWR_RES_T_LO, .PWR_RES_T_HI] s t := by
  have hquiet : (s.tickStart mf).applyDue = s.tickStart mf :=
    State.applyDue_nil (by rw [State.tickStart_time]; exact hready) (by rw [State.tickStart_time]; exact hdue)
  have hgo := hquiet ▸ tickBoundary_goes mf hreset hun hready
  have hstart := s.alters_tickStart mf
  have hres := (s.tickStart mf).alters_residency
  refine ⟨_, hgo, ?_, fun hp => ?_, fun hp => ?_, ?_, ?_, hstart.comp hres (by decide) (by decide)⟩
  · exact (s.tickStart_time mf).symm ▸ hres.agree .time (by decide)
  · rw [hres.agree .pin (by decide)]
    exact State.capture_pin (s := { s with time := s.time.next }) hp mf
  · rw [hres.agree .pin (by decide), State.tickStart, State.capture_taken (s := { s with time := s.time.next }) hp]
  · rw [hres.agree .cp (by decide)]
    exact State.capture_cp _ mf
  · have hpwr := State.residency_pwr (s.tickStart mf)
    rwa [show (s.tickStart mf).pwr = s.pwr from hstart.agree .pwr (by decide)] at hpwr

/-- A boundary in which a switch of the route table is due (R116, R519). -/
theorem tickBoundary_ends_routeSwitch {src : Nat} (hdue : s.time.due = [⟨9, src, .routeSwitch⟩]) :
    Ends (.tickBoundary mf []) s fun t => t.reg .RTE_ACTIVE = s.rte.swGen ∧ t.reg .RTE_DRAINING = 1 ∧ t.time.due = []
      ∧ t.time.bnd = s.time.bnd + 1 ∧ t.time.cur.cls = 9 ∧ t.mem = s.mem ∧ t.cores = s.cores := by
  have hstart := s.alters_tickStart mf
  have htime := s.tickStart_time mf
  have hun' : (s.tickStart mf).isSet .BRK_BRAKED = false := (hstart.isSet .BRK_BRAKED 0 0 (by decide)).trans (by simp [State.isSet, hun])
  have hgo := tickBoundary_goes mf hreset hun hready
  rw [State.applyDue_routeSwitch (by rw [htime]; rfl) hun' (by rw [htime]; exact hdue)] at hgo
  let y := ((s.tickStart mf).noEvents.atEvent 9 src).journal 9 src 1 .routeSwitch
  obtain ⟨hsame, -, hyt, -⟩ : Met (s.tickStart mf).noEvents 9 src y := State.met_journal _ 9 src 1 .routeSwitch
  have hswitch := alters_applyRouteSwitch y
  have hres := (applyRouteSwitch y).alters_residency
  have hend : (applyRouteSwitch y).reside.scanIdle.time = y.time := (hswitch.agree .time (by decide)).trans (hres.agree .time (by decide))
  have hx : Same [.time, .pin, .cp] s (s.tickStart mf).noEvents := hstart.1.trans (((s.tickStart mf).alters_time _).1.mono (by decide))
  have hall : Same [.time, .pin, .cp, .regs, .posted, .mesh, .xmit, .host, .mgc, .rte, .pwr] s (applyRouteSwitch y).reside.scanIdle :=
    ((hx.mono (by decide)).trans (hsame.mono (by decide))).trans ((hswitch.1.mono (by decide)).trans (hres.1.mono (by decide)))
  have hrte : y.rte = s.rte := Agree.trans (c := .rte) (same_iff.1 hx .rte (by decide)) (same_iff.1 hsame .rte (by decide))
  refine ⟨_, hgo, ?_, ?_, ?_, ?_, ?_, same_iff.1 hall .mem (by decide), same_iff.1 hall .cores (by decide)⟩
  · rw [hres.reg .RTE_ACTIVE 0 0 (by decide), applyRouteSwitch_active, hrte]
  · rw [hres.reg .RTE_DRAINING 0 0 (by decide), applyRouteSwitch_draining]
  · rw [hend, hyt]; rfl
  · rw [hend, hyt]
    exact congrArg TimeSt.bnd htime
  · rw [hend, hyt]

end

/-! ### Replay -/

theorem exec_replayStart (s : State) : exec .replayStart s = execReplayStart s := rfl

theorem exec_replayEnd (s : State) : exec .replayEnd s = execReplayEnd s := rfl

theorem exec_replayApply (rec : Option (List Byte)) (s : State) : exec (.replayApply rec) s = execReplayApply rec s := rfl

theorem replayStart_applies {s : State} (hsh : NMap.find? s.shadow (regKey .TIK_REPLAY 0 0) = some 1)
    (hidle : s.isSet .TIK_REPLAY = false) : Applies .replayStart s 9 (cfgSrc .TIK 0 8) .replayStart applyReplayStart := by
  refine applies_of_tickEvent ?_
  rw [exec_replayStart, execReplayStart, hsh, hidle]
  rfl

theorem replayEnd_applies {s : State} (hrun : s.isSet .TIK_REPLAY = true) (hleft : s.time.replayLeft = 0)
    (hlast : s.time.replayLast < s.time.bnd) : Applies .replayEnd s 9 (cfgSrc .TIK 0 8) .replayEnd applyReplayEnd := by
  refine applies_of_tickEvent ?_
  rw [exec_replayEnd, execReplayEnd, hrun, hleft, decide_eq_true hlast]
  rfl

/-- The registers of a replay's range, once it has begun. -/
theorem applyReplayStart_reg (s : State) (f : Field) : (applyReplayStart s).reg f =
    (((s.setReg .TIK_REPLAY 1).setReg .TIK_RPL_PTR (if s.reg .TIK_JNL_WRAPS ≠ 0 then s.reg .TIK_JNL_PTR else 0)).setReg .TIK_RPL_END
      (s.reg .TIK_JNL_PTR)).reg f := rfl

theorem applyReplayStart_left (s : State) : (applyReplayStart s).time.replayLeft =
    if s.reg .TIK_JNL_WRAPS ≠ 0 then 2 ^ s.reg .TIK_JNL_LOG2 else s.reg .TIK_JNL_PTR := rfl

theorem applyReplayStart_same (s : State) : Same [.regs, .shadow, .time] s (applyReplayStart s) := by
  simp [Same, applyReplayStart]

/-- The state in which a replay stands at its next record. -/
def State.nextRecord (s : State) : State :=
  { s.setReg .TIK_RPL_PTR ((s.reg .TIK_RPL_PTR + 1) % s.time.replaySize) with
    time := { s.time with replayLeft := s.time.replayLeft - 1 } }

/-- The offset of the record at which a replay stands. -/
def State.recordAt (s : State) : Nat := s.time.replayBase + 16 * s.reg .TIK_RPL_PTR

/-- The state in which a replay has taken its record: the record is marked as replayed, with the flags `fl` that it has. -/
def State.recordTaken (s : State) (fl : Nat) : State :=
  State.localWrite { s.nextRecord with time := { s.nextRecord.time with replayLast := s.time.bnd } } (s.recordAt + 9)
    [BitVec.ofNat 8 (fl ||| 4)]

/-- What a replay does at a record that it reads, `none` being poison (R124). -/
def State.replayStep (s : State) : Option (List Byte) → State
  | none => s.nextRecord
  | some b =>
    if !(field b 9 1).testBit 0 ∨ !((field b 8 1 = 8 ∧ field b 10 2 = 0) ∨ (field b 8 1 = 10 ∧ field b 10 2 < 16)) then s.nextRecord
    else if s.time.now < field b 0 8 ∨ s.time.bnd ≤ s.time.replayLast ∨ !s.cpReached then s
    else
      let x := s.recordTaken (field b 9 1)
      if field b 8 1 = 8 then
        x.tickEvent 8 0 (.doorbell (field b 12 4) (x.reg .CTX_EPOCH)) (applyDoorbell (field b 12 4) (x.reg .CTX_EPOCH))
      else x.tickEvent 10 (field b 10 2) (.watchFire (field b 10 2) (field b 12 4 % 4) (field b 12 4 / 4 % 2)) (fireWatch (field b 10 2))

section
variable {s : State} {rec : Option (List Byte)} (hrun : s.isSet .TIK_REPLAY = true) (hleft : s.time.replayLeft ≠ 0)
  (htick : s.ticking = true) (hsee : s.seesRecord (0xFFFF * 2 ^ 48 + s.recordAt % 2 ^ 48) 16 rec = true)
include hrun hleft htick hsee

theorem exec_replayApply_at : exec (.replayApply rec) s = .next (s.replayStep rec) := by
  have hgo : ¬(!s.isSet .TIK_REPLAY || s.time.replayLeft == 0 || !s.ticking
      || !s.seesRecord (0xFFFF * 2 ^ 48 + s.recordAt % 2 ^ 48) 16 rec) = true := by
    rw [hrun, hsee, htick, beq_false_of_ne hleft]
    decide
  rw [exec_replayApply, execReplayApply]
  refine congrArg Host.Outcome.next ((if_neg hgo).trans ?_)
  cases rec <;> rfl

end

section
variable {s : State} {b : List Byte} (hrun : s.isSet .TIK_REPLAY = true) (hleft : s.time.replayLeft ≠ 0)
  (htick : s.ticking = true) (hsee : s.seesRecord (0xFFFF * 2 ^ 48 + s.recordAt % 2 ^ 48) 16 (some b) = true)
include hrun hleft htick hsee

/-- A record whose event was not applied is passed over. -/
theorem replayApply_unapplied (hfl : (field b 9 1).testBit 0 = false) : Goes (.replayApply (some b)) s s.nextRecord := by
  unfold Goes
  rw [exec_replayApply_at hrun hleft htick hsee]
  simp [State.replayStep, hfl]

variable (hfl : (field b 9 1).testBit 0 = true) (hcls : field b 8 1 = 8) (hsrc : field b 10 2 = 0)
include hfl hcls hsrc

/-- A record waits for its time. -/
theorem replayApply_early (hnow : s.time.now < field b 0 8) : Goes (.replayApply (some b)) s s := by
  unfold Goes
  rw [exec_replayApply_at hrun hleft htick hsee]
  simp [State.replayStep, hfl, hcls, hsrc, hnow]

/-- A doorbell record whose time has come is applied as the doorbell that it records. -/
theorem replayApply_doorbell (hnow : field b 0 8 ≤ s.time.now) (hlast : s.time.replayLast < s.time.bnd) (hcp : s.cpReached = true) :
    Goes (.replayApply (some b)) s (let x := s.recordTaken (field b 9 1)
      x.tickEvent 8 0 (.doorbell (field b 12 4) (x.reg .CTX_EPOCH)) (applyDoorbell (field b 12 4) (x.reg .CTX_EPOCH))) := by
  unfold Goes
  rw [exec_replayApply_at hrun hleft htick hsee]
  simp [State.replayStep, hfl, hcls, hsrc, not_lt.2 hnow, not_le.2 hlast, hcp]

end

/-- Settles O55: each command of fabric time, of the time tree and of replay goes to a state named by the model (the boundary with
what is due applied, the parent shown, the flit sent, the step made, the record taken), and what stands between leaves the rest. -/
theorem timeAndTicks : Obligations.TimeAndTicks := by
  unfold Obligations.TimeAndTicks
  refine ⟨fun s mf hreset hun hready hdue => ?_, fun s mf hreset hun hready => tickBoundary_ends_routeSwitch mf hreset hun hready,
    fun l => ⟨pairwise_inTrumpOrder l, perm_inTrumpOrder l⟩, fun s p hp => ?_,
    fun s n b d hup => ⟨timeAnn_ends hup, timeAnnSend_goes hup, fun frac => timeMeasure_ends frac hup⟩,
    fun s n b d => ⟨fun t2 t3 => timeReq_goes, fun frac => couplerTimeExchange_goes frac,
      fun t4 h ht1 hseq => ⟨fun hlink => ?_, fun hup hpar hrun => ?_⟩⟩,
    fun s d at' hstep htick hdue => ?_, fun s => replayStart_applies, fun s => ?_,
    fun s rec hrun hleft htick hsee => ⟨?_, fun b hrec => ?_⟩, fun s => replayEnd_applies, fun s => ?_⟩
  · obtain ⟨t, hgo, ht, hpin, htaken, hcp, hpwr, hsame, hregs⟩ := tickBoundary_ends_quiet mf hreset hun hready hdue
    exact ⟨t, hgo, ht, ht ▸ rfl, ht ▸ rfl, ht ▸ rfl, hpin, htaken, hcp, hpwr, hsame, hregs⟩
  · obtain ⟨hen, hmem, hle⟩ := State.bestParent_some hp
    exact ⟨hmem, hen, fun hroot x hx => hle x hx (State.mayFollow_of_not_root hroot x)⟩
  · obtain ⟨hsame, hcpls⟩ := s.exchanged_rest n (rspDelay b (256 * s.time.now + t4.val)).toNat
    have hcpl := (State.cpl_congr hcpls n).trans (s.exchangeEnds_cpl n _)
    refine ⟨_, timeRsp_goes_exchanged h ht1 hseq hlink, ?_, ?_, ?_, s.exchanged_regs n _, fun hlt => ?_, hsame, fun j hj => ?_⟩
    · rw [hcpl]
    · rw [hcpl]; rfl
    · rw [hcpl]
    · rw [s.exchanged_early n _ hlt]
      exact (s.alters_exchangeEnds n _).1
    · rw [State.cpl_congr hcpls]
      exact s.exchangeEnds_onlyCpl n _ j hj
  · let x : State := { s.rspTaken n with time := { s.time with t1 := none } }
    have hx : Alters [.cpls, .time] [] s x := (s.alters_rspTaken n).comp ((s.rspTaken n).alters_time _) (by decide) (by decide)
    obtain ⟨hsame, hregs⟩ := x.alters_applyOffset
      ((ts72Of b 17 : Int) + rspDelay b (256 * s.time.now + t4.val) - ((256 * s.time.now + t4.val : Nat) : Int))
    exact ⟨_, timeRsp_goes_offset h ht1 hseq hup hpar hrun, x.applyOffset_reg _,
      (hx.1.mono (by decide)).trans (hsame.mono (by decide)), (hx.2.mono (by simp)).trans hregs, x.applyOffset_slews, x.applyOffset_steps⟩
  · obtain ⟨t, hgo, ht, hcount, hhand, hsame⟩ := timeStep_ends hstep htick hdue
    exact ⟨t, hgo, ht, hcount, fun core slot h hh => by rw [hhand, hh]; rfl, fun core slot hh => by rw [hhand, hh]; rfl, hsame⟩
  · refine ⟨?_, ?_, applyReplayStart_same s, fun hw => ⟨?_, ?_⟩, fun hw => ⟨?_, ?_⟩⟩
    · simp [applyReplayStart_reg, State.reg_setReg]
    · simp [applyReplayStart_reg]
    · simp [applyReplayStart_reg, State.reg_setReg, hw]
    · simp [applyReplayStart_left, hw]
    · simp [applyReplayStart_reg, State.reg_setReg, hw]
    · simp [applyReplayStart_left, hw]
  · rintro rfl
    exact exec_replayApply_at hrun hleft htick hsee
  · subst hrec
    exact ⟨replayApply_unapplied hrun hleft htick hsee, fun hfl hcls hsrc => ⟨replayApply_early hrun hleft htick hsee hfl hcls hsrc,
      replayApply_doorbell hrun hleft htick hsee hfl hcls hsrc⟩⟩
  · exact ⟨State.reg_setReg_self s .TIK_REPLAY 0 0 0, s.alters_setReg .TIK_REPLAY 0 0 0⟩

end Sys2Proof.Machine
end
section
/-!
PROOFS. An instruction that issues: the state on which its effect falls, and what reading a core or hand does not depend on (R137,
R138, R157).
-/
namespace Sys2Proof.Machine
open Sys2Proof.Safety

/-! ### Cores and hands after they are written -/

theorem State.alters_setCore (s : State) (c : Nat) (v : Core) : Alters [.cores] [] s (s.setCore c v) :=
  .of_regs (by simp [Same]) rfl

theorem State.alters_setHand (s : State) (c n : Nat) (h : Hand) : Alters [.cores] [] s (s.setHand c n h) := s.alters_setCore c _

theorem State.core_setHand (s : State) (c n d : Nat) (h : Hand) : (s.setHand c n h).core d =
    if d = c then { s.core c with slots := NMap.insert (s.core c).slots n h } else s.core d :=
  s.core_setCore c d _

theorem State.core_setHand_ne (s : State) {c d : Nat} (n : Nat) (h : Hand) (hd : d ≠ c) : (s.setHand c n h).core d = s.core d := by
  rw [s.core_setHand, if_neg hd]

/-- The storage of a core is not in the slots that its hands stand in. -/
theorem State.core_setHand_self (s : State) (c n : Nat) (h : Hand) : (s.setHand c n h).core c =
    { s.core c with slots := NMap.insert (s.core c).slots n h } := by
  rw [s.core_setHand, if_pos rfl]

@[simp] theorem State.vrf_setHand (s : State) (c n d : Nat) (h : Hand) : ((s.setHand c n h).core d).vrf = (s.core d).vrf := by
  rw [s.core_setHand]
  split
  · next hd => rw [hd]
  · rfl

theorem State.hand_congr {s t : State} (h : t.cores = s.cores) (c n : Nat) : t.hand c n = s.hand c n := by
  simp only [State.hand, State.core_congr h]

theorem State.hand_setHand_ne (s : State) {c n d m : Nat} (h : Hand) (hne : ¬(d = c ∧ m = n)) :
    (s.setHand c n h).hand d m = s.hand d m := by
  rw [s.hand_setHand, if_neg hne]

/-! ### The state on which an instruction's effect falls -/

/-- An issue is counted, and the hand's program counter names the next instruction. -/
def State.issued (s : State) (i : Issue) (u : ExecUnit) (ins : Insn) (h : Hand) : State :=
  (countIssue s i u).setHand i.core i.slot (h.issued s.coreTime ins)

section
variable (s : State) (i : Issue) (u : ExecUnit) (ins : Insn) (h : Hand)

@[simp] theorem State.hand_issued : (s.issued i u ins h).hand i.core i.slot = some (h.issued s.coreTime ins) :=
  State.hand_setHand_self _ _ _ _

theorem State.onlyHand_issued : OnlyHand i s (s.issued i u ins h) := OnlyHand.setHand (onlyHand_countIssue s i u) _

/-- A reading of a core that its choice rules do not enter is the same after an issue. -/
theorem Core.read_chosen {α : Type} (f : Core → α) (hf : ∀ co last rot, f { co with last := last, rot := rot } = f co) (co : Core) :
    f (co.chosen i u) = f co := by
  unfold Core.chosen
  split
  · exact hf co none co.rot
  · exact hf co (some (i.slot.val, u.code)) ((i.slot.val + 1) % 16)

/-- A reading of a core and a hand that an issue leaves alone. -/
theorem Core.read_chosen_issued {α : Type} (f : Core → Hand → α) {h : Hand} {now : Nat}
    (hf : ∀ co last rot, f { co with last := last, rot := rot } (h.issued now ins) = f co h) (co : Core) :
    f (co.chosen i u) (h.issued now ins) = f co h := by
  unfold Core.chosen
  split
  · exact hf co none co.rot
  · exact hf co (some (i.slot.val, u.code)) ((i.slot.val + 1) % 16)

theorem State.core_issued : (s.issued i u ins h).core i.core =
    { (s.core i.core).chosen i u with slots := NMap.insert ((s.core i.core).chosen i u).slots i.slot (h.issued s.coreTime ins) } := by
  rw [State.issued, State.core_setHand_self, core_countIssue, if_pos rfl]

theorem State.read_issued {α : Type} (f : Core → α)
    (hf : ∀ co last rot slots, f { co with last := last, rot := rot, slots := slots } = f co) :
    f ((s.issued i u ins h).core i.core) = f (s.core i.core) := by
  rw [State.core_issued]
  exact (hf ((s.core i.core).chosen i u) _ _ _).trans (Core.read_chosen i u f (fun co last rot => hf co last rot co.slots) _)

theorem State.onlyHandRegs_issued : OnlyHandRegs i s (s.issued i u ins h) :=
  ⟨s.onlyHand_issued i u ins h, s.read_issued i u ins h Core.vrf fun _ _ _ _ => rfl⟩

end

theorem OnlyHandRegs.setHand {i : Issue} {s t : State} (h : OnlyHandRegs i s t) (hh : Hand) :
    OnlyHandRegs i s (t.setHand i.core i.slot hh) :=
  ⟨OnlyHand.setHand h.1 hh, by rw [State.vrf_setHand, h.2]⟩

/-- An instruction that nothing holds has its effect on the state that its issue leaves. -/
theorem issue_clear {s : State} {i : Issue} {ins : Insn} {sp : IssueSpec} {h : Hand} (hc : Clear s i ins sp h) :
    issue s i ins sp = sp.body (s.issued i sp.unit ins h) ((s.core i.core).chosen i sp.unit) (h.issued s.coreTime ins) := by
  obtain ⟨hcan, hlegal, hmatrix, hready, haccess⟩ := hc
  rw [issue_of hcan hlegal hmatrix hready haccess, core_countIssue, if_pos rfl]
  rfl

end Sys2Proof.Machine
end
section
/-!
PROOFS. The vector ALU and the lane exchange: each enabled thread takes its result (R147, R154, R172, R180, R200).
-/
namespace Sys2Proof.Machine
open Sys2Proof.Safety

/-- What a row of the vector ALU asks of its issue; `legal` is its demand on the fields. -/
def vecSpec (r : VecRow) (legal : Insn → Hand → Bool) (i : Issue) (ins : Insn) : IssueSpec :=
  { opc := r.opc, unit := .vector,
    names := vecNamesOf (r.rule ins) ins (r.nd ins) (r.na ins) (r.nb ins) (r.nc ins) (r.preds ins), legal := legal ins,
    body := vecBody i ins fun co h k => r.res co h ins k }

/-- A destination of a wide type is an even register, in an instruction whose fields are legal (R168). -/
theorem even_dst_of_ruleOk {r : OpRule} {vregs na nb nc : Nat} {ins : Insn} (hd : r.d = .vec)
    (h : ruleOk r vregs (fp ins) na nb nc ins = true) (hw : (insnTy ins).wide = true) : ins.dst.toNat % 2 = 0 := by
  have hfp : fp ins = 2 := by
    unfold fp footprint
    unfold insnTy at hw
    generalize ins.typ.toNat = n at hw
    unfold Ty.ofCode at hw
    split at hw <;> simp_all [Ty.wide]
  have hf : fieldOk vregs (fp ins) r.d false ins.dst.toNat = true := by
    simp only [ruleOk, Bool.and_eq_true] at h
    exact h.1.1.1.1.2
  rw [hd, hfp] at hf
  simp only [fieldOk, Bool.and_eq_true, decide_eq_true_eq] at hf
  exact hf.2

section
variable (s : State) (i : Issue) (ins : Insn) (f : Core → Hand → Nat → Nat × FFlags) (co : Core) (h : Hand)

theorem hand_vecBody : (vecBody i ins f s co h).hand i.core i.slot =
    some { h with flags := h.flags ||| orFlags (fun k => (f co h k).2) (h.enabled ins) } :=
  State.hand_setHand_self _ _ _ _

theorem vrf_vecBody : ((vecBody i ins f s co h).core i.core).vrf = (co.setVTy h (insnTy ins) ins.dst.toNat fun k =>
    if h.enabled ins k then some (f co h k).1 else none).vrf := by
  simp [vecBody]

theorem vTy_vecBody {k : Nat} (hk : k < 64) (heven : (insnTy ins).wide = true → ins.dst.toNat % 2 = 0) :
    ((vecBody i ins f s co h).core i.core).vTy h (insnTy ins) ins.dst.toNat k =
      if h.enabled ins k then (f co h k).1 % 2 ^ (insnTy ins).width else co.vTy h (insnTy ins) ins.dst.toNat k := by
  have hread : ((vecBody i ins f s co h).core i.core).vTy h (insnTy ins) ins.dst.toNat k =
      (co.setVTy h (insnTy ins) ins.dst.toNat fun k => if h.enabled ins k then some (f co h k).1 else none).vTy h (insnTy ins)
        ins.dst.toNat k := by
    simp only [Core.vTy, Core.v, vrf_vecBody]
  rw [hread, Core.vTy_setVTy _ _ _ _ _ _ hk heven]
  by_cases hen : h.enabled ins k <;> simp [hen]

theorem onlyHand_vecBody {s x : State} (hx : OnlyHand i s x)
    (hs : ∀ n, n ≠ i.slot.val → NMap.find? co.slots n = s.hand i.core n) : OnlyHand i s (vecBody i ins f x co h) :=
  OnlyHand.setHand (OnlyHand.setCore hx fun n hn => by rw [Core.setVTy_slots, hs n hn]) _

end

/-- A row whose destination is a vector, and whose result reads only what an issue leaves alone. -/
theorem vecEffect_of_spec {r : VecRow} (legal : Insn → Hand → Bool)
    (hexec : ∀ i ins s, exec (r.cmd i ins) s = .next (issue s i ins (vecSpec r legal i ins)))
    (hlegal : ∀ ins h, ruleOk (r.rule ins) h.vregs (r.nd ins) (r.na ins) (r.nb ins) (r.nc ins) ins = true →
      r.legal ins = true → legal ins h = true)
    (hd : ∀ ins, (r.rule ins).d = .vec) (hnd : r.nd = fp)
    (hres : ∀ co last rot (h : Hand) now ins, r.res { co with last := last, rot := rot } (h.issued now ins) ins = r.res co h ins) :
    VecEffect r := by
  intro s i ins h hcan hrule hrow
  have hcl : Clear s i ins (vecSpec r legal i ins) h := ⟨hcan, hlegal ins h hrule hrow, rfl, rfl, rfl⟩
  have hr : r.res ((s.core i.core).chosen i .vector) (h.issued s.coreTime ins) ins = r.res (s.core i.core) h ins :=
    Core.read_chosen_issued i .vector ins (fun co h => r.res co h ins) (fun co last rot => hres co last rot h _ ins) _
  have heven := even_dst_of_ruleOk (hd ins) (by rw [← hnd]; exact hrule)
  have hvrf : ((s.core i.core).chosen i .vector).vrf = (s.core i.core).vrf := Core.read_chosen i .vector Core.vrf (fun _ _ _ => rfl) _
  have hslots : ((s.core i.core).chosen i .vector).slots = (s.core i.core).slots :=
    Core.read_chosen i .vector Core.slots (fun _ _ _ => rfl) _
  let f : Core → Hand → Nat → Nat × FFlags := fun co h k => r.res co h ins k
  let x := s.issued i .vector ins h
  let co' := (s.core i.core).chosen i .vector
  let h' := h.issued s.coreTime ins
  have hgoes : exec (r.cmd i ins) s = .next (vecBody i ins f x co' h') := (hexec i ins s).trans (congrArg _ (issue_clear hcl))
  have hf : f co' h' = f (s.core i.core) h := by simp only [f, co', h', hr]
  refine ⟨vecBody i ins f x co' h', hgoes, ?_, fun k hk => ?_, fun p hp hp2 => ?_, ?_⟩
  · rw [hand_vecBody, hf]
    rfl
  · refine (vTy_vecBody x i ins f co' h' hk heven).trans ?_
    rw [hf]
    simp only [Core.vTy, Core.v, co', hvrf]
    rfl
  · rw [vrf_vecBody]
    exact (Core.vrf_setVTy co' h' _ _ p _ hp hp2).trans (by rw [hvrf])
  · exact onlyHand_vecBody i ins f co' h' (s.onlyHand_issued i .vector ins h) fun n _ => by rw [hslots]; rfl

theorem vecEffect_aluRow {cmd : Issue → Insn → Instr} {opc : Nat} {types : List Nat} {n : Nat} {mask : Insn → Nat}
    {res : Insn → Nat → Nat → Nat → Nat × FFlags}
    (hexec : ∀ i ins s, exec (cmd i ins) s = .next (vecOp opc types n (mask ins) i ins (fun _ => res ins) s)) :
    VecEffect (aluRow cmd opc types n mask res) :=
  vecEffect_of_spec (fun ins h => ruleOk (vecRule types n (mask ins)) h.vregs (fp ins) (fp ins) (fp ins) (fp ins) ins)
    hexec (fun _ _ h _ => h) (fun _ => rfl) rfl fun _ _ _ _ _ _ => rfl

theorem vecEffect_shflRow {cmd : Issue → Insn → Instr} {opc : Nat} {vecB : Bool} {f : Nat → Nat → Nat}
    (hexec : ∀ i ins s, exec (cmd i ins) s = .next (shuffle opc vecB i ins f s)) : VecEffect (shflRow cmd opc vecB f) :=
  vecEffect_of_spec _ hexec (fun _ _ h h' => by exact Bool.and_eq_true_iff.2 ⟨h, h'⟩) (fun _ => rfl) rfl fun _ _ _ _ _ _ => rfl

/-- Settles O10: every row is one operation on the sources of each enabled thread. -/
theorem vectorArithmetic : Obligations.VectorArithmetic := by
  unfold Obligations.VectorArithmetic vecRows
  simp only [List.forall_mem_cons, List.not_mem_nil, false_implies, implies_true, and_true]
  and_intros <;> exact vecEffect_aluRow fun _ _ _ => rfl

/-- Settles O11: the shuffles and bcast are rows of one kind; sel and cvt read their sources in their own way. -/
theorem laneExchangeSelectConvert : Obligations.LaneExchangeSelectConvert := by
  unfold Obligations.LaneExchangeSelectConvert moveRows
  simp only [List.forall_mem_cons, List.not_mem_nil, false_implies, implies_true, and_true]
  refine ⟨?shflIdx, ?shflUp, ?shflDown, ?shflXor, ?bcast, ?sel, ?cvt⟩
  case sel =>
    exact vecEffect_of_spec (fun ins h => ruleOk (vecRule tyAll 2 15) h.vregs (fp ins) (fp ins) (fp ins) 1 ins)
      (fun _ _ _ => rfl) (fun _ _ h _ => h) (fun _ => rfl) rfl fun _ _ _ _ _ _ => rfl
  case cvt =>
    exact vecEffect_of_spec _ (fun _ _ _ => rfl) (fun _ _ h h' => by exact Bool.and_eq_true_iff.2 ⟨h, h'⟩) (fun _ => rfl) rfl
      fun _ _ _ _ _ _ => rfl
  all_goals exact vecEffect_shflRow fun _ _ _ => rfl

end Sys2Proof.Machine
end
section
/-!
PROOFS. The instructions that write a predicate register (R148, R183), and the accessors of hands and registers (R129, R142, R164).
-/
namespace Sys2Proof.Machine
open Sys2Proof.Safety

theorem Hand.setPRaw_flags (h : Hand) (n : Nat) (v : DWord) : (h.setPRaw n v).flags = h.flags := by
  unfold Hand.setPRaw
  split <;> rfl

theorem Hand.setPRaw_pc (h : Hand) (n : Nat) (v : DWord) : (h.setPRaw n v).pc = h.pc := by
  unfold Hand.setPRaw
  split <;> rfl

theorem Hand.setPRaw_ureg (h : Hand) (n : Nat) (v : DWord) : (h.setPRaw n v).ureg = h.ureg := by
  unfold Hand.setPRaw
  split <;> rfl

/-- A hand after its instruction has written p[DST] for the enabled threads, with the flags that they raise. -/
def Hand.takesPred (h : Hand) (ins : Insn) (f : Nat → Bool) (fl : FFlags) : Hand :=
  { h.setP (ins.dst.toNat % 8) (h.enabled ins) f with flags := h.flags ||| fl }

theorem Hand.takesPred_zero (h : Hand) (ins : Insn) (f : Nat → Bool) :
    h.takesPred ins f 0 = h.setP (ins.dst.toNat % 8) (h.enabled ins) f := by
  have hfl : (h.setP (ins.dst.toNat % 8) (h.enabled ins) f).flags = h.flags := h.setPRaw_flags _ _
  unfold Hand.takesPred
  rw [← hfl, show ∀ fl : FFlags, fl ||| 0 = fl from fun fl => BitVec.or_zero]

theorem Hand.takesPred_p (h : Hand) (ins : Insn) (f : Nat → Bool) (fl : FFlags) {k : Nat} (hk : k < 64) (p : Nat) :
    ((h.takesPred ins f fl).p p).getLsbD k = if p = ins.dst.toNat % 8 ∧ p ≠ 0 then
      h.live.getLsbD k && (if h.enabled ins k then f k else (h.p p).getLsbD k) else (h.p p).getLsbD k := by
  refine (h.p_setP (ins.dst.toNat % 8) p k (h.enabled ins) f hk).trans ?_
  by_cases hp : p = ins.dst.toNat % 8
  · rw [hp]
  · simp only [hp, false_and, if_false]

/-- What a row that writes a predicate register asks of its issue. -/
def predSpec (r : PredRow) (body : Issue → Insn → State → Core → Hand → State) (i : Issue) (ins : Insn) : IssueSpec :=
  { opc := r.opc, unit := .vector, names := r.names ins, legal := fun h => r.legal h ins, body := body i ins }

/-- A row whose bits and flags read only what an issue leaves alone. -/
theorem predEffect_of_spec {r : PredRow} (body : Issue → Insn → State → Core → Hand → State)
    (hexec : ∀ i ins s, exec (r.cmd i ins) s = .next (issue s i ins (predSpec r body i ins)))
    (hbody : ∀ i ins s co h, body i ins s co h = s.setHand i.core i.slot (h.takesPred ins (r.bit co h ins) (r.flags co h ins)))
    (hread : ∀ co last rot (h : Hand) now ins, r.bit { co with last := last, rot := rot } (h.issued now ins) ins = r.bit co h ins
      ∧ r.flags { co with last := last, rot := rot } (h.issued now ins) ins = r.flags co h ins) :
    PredEffect r := by
  intro s i ins h hcan hlegal
  let x := s.issued i .vector ins h
  let co := (s.core i.core).chosen i .vector
  let h' := h.issued s.coreTime ins
  have hcl : Clear s i ins (predSpec r body i ins) h := ⟨hcan, hlegal, rfl, rfl, rfl⟩
  have hgoes : exec (r.cmd i ins) s = .next (body i ins x co h') := (hexec i ins s).trans (congrArg _ (issue_clear hcl))
  rw [hbody] at hgoes
  have hbit : r.bit co h' ins = r.bit (s.core i.core) h ins :=
    Core.read_chosen_issued i .vector ins (fun co h => r.bit co h ins) (fun co last rot => (hread co last rot h _ ins).1) _
  have hflags : r.flags co h' ins = r.flags (s.core i.core) h ins :=
    Core.read_chosen_issued i .vector ins (fun co h => r.flags co h ins) (fun co last rot => (hread co last rot h _ ins).2) _
  refine ⟨_, hgoes, ⟨_, State.hand_setHand_self _ _ _ _, h'.setPRaw_pc _ _, h'.setPRaw_ureg _ _, ?_, fun k hk p => ?_⟩,
    OnlyHandRegs.setHand (s.onlyHandRegs_issued i .vector ins h) _⟩
  · rw [hflags]
    rfl
  · rw [h'.takesPred_p ins _ _ hk, hbit]
    rfl

theorem predEffect_combineRow {cmd : Issue → Insn → Instr} {opc : Nat} {f : Bool → Bool → Bool}
    (hexec : ∀ i ins s, exec (cmd i ins) s = .next (predOp opc i ins f s)) : PredEffect (combineRow cmd opc f) :=
  predEffect_of_spec _ hexec (fun _ ins s _ h => congrArg (s.setHand _ _) (h.takesPred_zero ins _).symm)
    fun _ _ _ _ _ _ => ⟨rfl, rfl⟩

/-- Settles O13: each row writes p[DST] for the enabled threads; cmp alone raises flags. -/
theorem predicateInstructions : Obligations.PredicateInstructions := by
  unfold Obligations.PredicateInstructions predRows
  simp only [List.forall_mem_cons, List.not_mem_nil, false_implies, implies_true, and_true]
  refine ⟨?cmp, ?pand, ?por, ?pxor, ?pnot, ?upmov, ?ptst⟩
  case cmp =>
    exact predEffect_of_spec _ (fun _ _ _ => rfl) (fun _ _ _ _ _ => by simp only [Hand.takesPred])
      fun _ _ _ _ _ _ => ⟨rfl, rfl⟩
  case pand | por | pxor => exact predEffect_combineRow fun _ _ _ => rfl
  all_goals
    exact predEffect_of_spec _ (fun _ _ _ => rfl) (fun _ ins s _ h => congrArg (s.setHand _ _) (h.takesPred_zero ins _).symm)
      fun _ _ _ _ _ _ => ⟨rfl, rfl⟩

/-- Settles O19: each clause is what a write of a hand, or of a register of its space, is read back as. -/
theorem handWritesKeepTheRest : Obligations.HandWritesKeepTheRest := by
  unfold Obligations.HandWritesKeepTheRest
  refine ⟨fun s c n d m h => s.hand_setHand c d n m h, fun s c n h => ⟨?_, s.vrf_setHand c n c h, fun d => s.core_setHand_ne n h⟩,
    Hand.u_setU, Hand.p_setPRaw, fun h => ⟨rfl, rfl⟩, fun co h r q k f hk => ?_⟩
  · exact (s.alters_setHand c n h).1
  · rw [co.v_setV h r q k f hk]
    split
    · next hq => simp only [Core.v, hq]
    · rfl

end Sys2Proof.Machine
end
section
/-!
PROOFS. Waits that end, stops of a hand, and the control instructions that are no transfers (R132, R136, R140, R186, R190, R239–R248).
-/
namespace Sys2Proof.Machine
open Sys2Proof.Safety

/-! ### Ends of waits -/

theorem exec_branchWaitEnd (x : HandId) (s : State) : exec (.branchWaitEnd x) s = .next (endWait s x.core x.slot (.waiting .branch)) :=
  rfl

theorem exec_yieldEnd (x : HandId) (s : State) : exec (.yieldEnd x) s = .next (endWait s x.core x.slot (.waiting .yield)) := rfl

theorem exec_sleepEnd (x : HandId) (s : State) : exec (.sleepEnd x) s = execSleepEnd x s := rfl

theorem endWait_of {s : State} {c n : Nat} {h : Hand} (hclk : s.clocked (c / 4) = true) (hh : s.hand c n = some h) :
    endWait s c n h.st = s.setHand c n { h with st := .ready } := by
  unfold endWait clusterOf
  simp [hclk, hh]

theorem execSleepEnd_of {s : State} {x : HandId} {h : Hand} (hclk : s.clocked (x.core.val / 4) = true)
    (hh : s.hand x.core x.slot = some h) : execSleepEnd x s = .next (if h.st = .sleeping ∧ h.sleepEnd ≤ s.time.now then
      s.setHand x.core x.slot { h with st := .ready, sleepEnd := 0 } else s) := by
  unfold execSleepEnd clusterOf State.coreTime
  simp only [hh, hclk, Bool.true_and, Bool.and_eq_true, beq_iff_eq, decide_eq_true_eq]
  rfl

/-- Settles O18: a wait ends where its hand waits so, and a sleep where its end tick has come. -/
theorem waitsEnd : Obligations.WaitsEnd := by
  unfold Obligations.WaitsEnd Goes
  refine fun s x h hclk hh => ⟨fun hst => ?_, fun hst => ?_, fun hst hdue => ?_, fun hearly => ?_⟩
  · rw [exec_branchWaitEnd, ← hst, endWait_of hclk hh]
  · rw [exec_yieldEnd, ← hst, endWait_of hclk hh]
  · rw [exec_sleepEnd, execSleepEnd_of hclk hh, if_pos ⟨hst, hdue⟩]
  · rw [exec_sleepEnd, execSleepEnd_of hclk hh, if_neg fun hdue => by omega]

/-! ### Tasks -/

theorem State.task_congr {s t : State} (h : t.tasks = s.tasks) (k : Nat) : t.task k = s.task k := by simp only [State.task, h]

theorem State.alters_onTask (s : State) (k : Nat) (f : Task → Task) : Alters [.tasks] [] s (s.onTask k f) := by
  unfold State.onTask
  split
  · exact Alters.refl _ _ s
  · exact .of_regs (by simp [Same]) rfl

theorem State.task_onTask_self {s : State} {k : Nat} {t : Task} (h : s.task k = some t) (f : Task → Task) :
    (s.onTask k f).task k = some (f t) := by
  unfold State.onTask
  rw [h]
  exact NMap.find?_insert_self _ _ _

/-! ### Hands that stop -/

section
variable {s : State} {c n : Nat} {h : Hand} (hh : s.hand c n = some h)
include hh

theorem settle_busy (hops : h.ops ≠ []) : settle s c n = s := by
  simp [settle, hh, hops]

theorem settle_halt (hops : h.ops = []) (hstop : h.stop = some .halt) : settle s c n = finishHalt s c n h := by
  simp [settle, hh, hops, hstop]

theorem settle_fault {f : FaultRec} (hops : h.ops = []) (hstop : h.stop = some (.fault f)) :
    settle s c n = finishFault s c n h f := by
  simp [settle, hh, hops, hstop]

end

theorem hand_finishHalt (s : State) (c n : Nat) (h : Hand) :
    (finishHalt s c n h).hand c n = some { h with st := .releasing, stop := none } :=
  State.hand_setHand_self _ _ _ _

theorem alters_finishHalt (s : State) (c n : Nat) (h : Hand) : Alters [.cores, .tasks] [] s (finishHalt s c n h) :=
  (s.alters_onTask h.task _).comp (State.alters_setHand _ c n _) (by decide) (by decide)

theorem task_finishHalt {s : State} {h : Hand} {k : Task} (hk : s.task h.task = some k) (c n : Nat) :
    (finishHalt s c n h).task h.task = some { k with flags := k.flags ||| h.flags } :=
  (State.task_congr rfl _).trans (State.task_onTask_self hk _)

/-- Every hand stays in its slot, and nothing of it changes but whether it is marked for removal. -/
def KeepsHands (s t : State) : Prop := ∀ c n h, s.hand c n = some h → ∃ b, t.hand c n = some { h with removed := b }

theorem KeepsHands.of_cores {s t : State} (h : t.cores = s.cores) : KeepsHands s t :=
  fun c n x hx => ⟨x.removed, (State.hand_congr h c n).trans hx⟩

theorem KeepsHands.trans {s t u : State} (h : KeepsHands s t) (h' : KeepsHands t u) : KeepsHands s u := by
  intro c n x hx
  obtain ⟨b, hb⟩ := h c n x hx
  obtain ⟨b', hb'⟩ := h' c n _ hb
  exact ⟨b', hb'⟩

theorem keepsHands_onTask (s : State) (k : Nat) (f : Task → Task) : KeepsHands s (s.onTask k f) :=
  .of_cores ((s.alters_onTask k f).agree .cores (by decide))

theorem keepsHands_removeHand (s : State) (c n : Nat) : KeepsHands s (removeHand s c n) := by
  unfold removeHand
  split
  · exact .of_cores rfl
  · next h hh =>
    split
    · exact .of_cores rfl
    · refine KeepsHands.trans (fun d m x hx => ?_) (keepsHands_onTask _ h.task _)
      rw [State.hand_setHand]
      split
      · next hdm =>
        obtain ⟨rfl, rfl⟩ := hdm
        obtain rfl : h = x := Option.some.inj (hh.symm.trans hx)
        exact ⟨true, rfl⟩
      · exact ⟨x.removed, hx⟩

theorem keepsHands_removeWhere (s : State) (p : Nat → Nat → Hand → Bool) : KeepsHands s (removeWhere s p) :=
  foldState_keeps (p := KeepsHands s) _ _ s (.of_cores rfl) fun t _ ht => ht.trans (keepsHands_removeHand t _ _)

theorem keepsHands_applyPolicy (s : State) (action c n task : Nat) : KeepsHands s (applyPolicy s action c n task) := by
  unfold applyPolicy
  split
  · exact .of_cores rfl
  · exact keepsHands_removeHand s c n
  · exact (keepsHands_removeWhere s _).trans (keepsHands_onTask _ _ _)
  · exact .of_cores (by simp)

theorem keepsHands_postFault (s : State) (f : FaultRec) (action c n task : Nat) : KeepsHands s (postFault s f action c n task) := by
  unfold postFault
  dsimp only
  have hcores : ∀ (s : State) source pay, (s.postEvent source pay).cores = s.cores :=
    fun s source pay => same_iff.1 (s.onlyPosts_postEvent source pay).1 .cores (by decide)
  split_ifs
  · exact (keepsHands_onTask s task _).trans (.of_cores (hcores _ _ _))
  · exact keepsHands_onTask s task _

/-- A hand whose fault is applied is FAULTED, at the address where it resumes. -/
theorem hand_finishFault (s : State) (c n : Nat) (h : Hand) (f : FaultRec) : ∃ b, (finishFault s c n h f).hand c n =
    some { h with st := .faulted, stop := none, pc := f.resume, stepping := false, removed := b } :=
  (keepsHands_postFault _ _ _ _ _ _).trans (keepsHands_applyPolicy _ _ _ _ _) c n _ (State.hand_setHand_self s c n _)

/-- A fault waits while something that the hand issued is outstanding. -/
theorem raiseFault_busy (s : State) (c n : Nat) {h : Hand} (f : FaultRec) (hops : h.ops ≠ []) :
    raiseFault s c n h f = s.setHand c n { h with stop := some (.fault f), poison := none } :=
  settle_busy (State.hand_setHand_self s c n _) hops

theorem raiseFault_idle (s : State) (c n : Nat) {h : Hand} (f : FaultRec) (hops : h.ops = []) :
    ∃ b, (raiseFault s c n h f).hand c n =
      some { h with st := .faulted, stop := none, poison := none, pc := f.resume, stepping := false, removed := b } := by
  have hset := settle_fault (State.hand_setHand_self s c n { h with stop := some (.fault f), poison := none }) hops rfl
  unfold raiseFault
  rw [hset]
  exact hand_finishFault _ c n _ f

/-! ### Control instructions -/

/-- The instruction that nothing holds goes to the state that its effect gives. -/
theorem goes_of_clear {cmd : Instr} {s : State} {i : Issue} {ins : Insn} {sp : IssueSpec} {h : Hand}
    (hexec : exec cmd s = .next (issue s i ins sp)) (hc : Clear s i ins sp h) :
    Goes cmd s (sp.body (s.issued i sp.unit ins h) ((s.core i.core).chosen i sp.unit) (h.issued s.coreTime ins)) :=
  hexec.trans (congrArg _ (issue_clear hc))

section
variable {s : State} {i : Issue} {ins : Insn} {h : Hand}

theorem onlyHandRegs_setIssued (s : State) (i : Issue) (ins : Insn) (h x : Hand) :
    OnlyHandRegs i s ((s.issued i .uniform ins h).setHand i.core i.slot x) :=
  OnlyHandRegs.setHand (s.onlyHandRegs_issued i .uniform ins h) x

/-- A hand that halts once nothing that it issued is outstanding. -/
def Hand.halting (h : Hand) : Hand := { h with stop := some .halt }

theorem haltSpec_body (x : State) (co : Core) (y : Hand) :
    (haltSpec i ins).body x co y = settle (x.setHand i.core i.slot y.halting) i.core i.slot := rfl

theorem halt_ends (hc : Clear s i ins (haltSpec i ins) h) : Ends (.halt i ins) s fun t =>
    Same [.cores, .regs, .tasks] s t ∧ SameRegs issueFields s t ∧
      if h.ops = [] then t.hand i.core i.slot = some { h.issued s.coreTime ins with st := .releasing, stop := none }
        ∧ (∀ k, s.task h.task = some k → t.task h.task = some { k with flags := k.flags ||| h.flags })
      else t.hand i.core i.slot = some { h.issued s.coreTime ins with stop := some .halt } ∧ t.tasks = s.tasks := by
  have hgo : Goes (.halt i ins) s _ := goes_of_clear (sp := haltSpec i ins) rfl hc
  rw [haltSpec_body, show (haltSpec i ins).unit = .uniform from rfl] at hgo
  obtain ⟨⟨hsame, hregs, -, -⟩, -⟩ := onlyHandRegs_setIssued s i ins h (h.issued s.coreTime ins).halting
  generalize hx : (s.issued i .uniform ins h).setHand i.core i.slot (h.issued s.coreTime ins).halting = x at hgo hsame hregs
  have hhand : x.hand i.core i.slot = some (h.issued s.coreTime ins).halting := by
    rw [← hx]
    exact State.hand_setHand_self _ _ _ _
  have htasks : x.tasks = s.tasks := same_iff.1 hsame .tasks (by decide)
  by_cases hops : h.ops = []
  · rw [settle_halt hhand hops rfl] at hgo
    have hfin := alters_finishHalt x i.core i.slot (h.issued s.coreTime ins).halting
    refine ⟨_, hgo, (hsame.mono (by decide)).trans (hfin.1.mono (by decide)), hregs.trans (hfin.2.mono (by simp)), ?_⟩
    rw [if_pos hops]
    exact ⟨hand_finishHalt x _ _ _, fun k hk =>
      task_finishHalt (h := (h.issued s.coreTime ins).halting) ((State.task_congr htasks _).trans hk) _ _⟩
  · rw [settle_busy hhand hops] at hgo
    refine ⟨_, hgo, hsame.mono (by decide), hregs, ?_⟩
    rw [if_neg hops]
    exact ⟨hhand, htasks⟩

theorem brk_ends (hc : Clear s i ins (brkSpec i ins) h) : Ends (.brk i ins) s fun t => OnlyHandRegs i s t ∧
    ∃ f, t.hand i.core i.slot = some { h.issued s.coreTime ins with stop := some (.debug f) } ∧ f.kind = 0x11
      ∧ f.code = ins.fn.toNat ∧ f.pc = (h.issued s.coreTime ins).pc ∧ (f.policy = true ↔ s.level < 2) := by
  refine ⟨_, goes_of_clear rfl hc, onlyHandRegs_setIssued s i ins h _, _, State.hand_setHand_self _ _ _ _, rfl, rfl, rfl, ?_⟩
  have hlevel : (s.issued i .uniform ins h).level = s.level :=
    State.level_congr (same_iff.1 (s.onlyHand_issued i .uniform ins h).1 .sec (by decide))
  exact decide_eq_true_iff.trans (by rw [← hlevel]; rfl)

/-- The fault of a `trap` that has issued: it names its own address, and the next one to resume at (R239). -/
def trapRec (s : State) (ins : Insn) (h : Hand) : FaultRec :=
  { faultAt s (atPc h ins) 0x76 ins 5 0xFF 0 with resume := h.pc, code := ins.fn.toNat }

/-- A hand that traps: a step that it takes for a debugger shows in its stop alone. -/
def Hand.trapping (h : Hand) : Hand := { h with stepping := h.stop.isSome }

theorem trapSpec_body (x : State) (co : Core) (y : Hand) :
    (trapSpec i ins).body x co y = raiseFault x i.core i.slot y.trapping (trapRec x ins y) := rfl

theorem trap_ends (hc : Clear s i ins (trapSpec i ins) h) : Ends (.trap i ins) s fun t =>
    ∃ h', t.hand i.core i.slot = some h' ∧ h'.pc = (h.issued s.coreTime ins).pc ∧ h'.ureg = h.ureg ∧ h'.preds = h.preds
      ∧ h'.flags = h.flags ∧ if h.ops = [] then h'.st = .faulted ∧ h'.stop = none
        else ∃ f, h'.stop = some (.fault f) ∧ f.kind = 5 ∧ f.code = ins.fn.toNat ∧ f.pc = h.pc
          ∧ f.resume = (h.issued s.coreTime ins).pc := by
  have hgo : Goes (.trap i ins) s _ := goes_of_clear (sp := trapSpec i ins) rfl hc
  rw [trapSpec_body] at hgo
  by_cases hops : h.ops = []
  · obtain ⟨b, hb⟩ := raiseFault_idle _ i.core i.slot (h := (h.issued s.coreTime ins).trapping) _ hops
    refine ⟨_, hgo, _, hb, rfl, rfl, rfl, rfl, ?_⟩
    rw [if_pos hops]
    exact ⟨rfl, rfl⟩
  · rw [raiseFault_busy _ i.core i.slot (h := (h.issued s.coreTime ins).trapping) _ hops] at hgo
    refine ⟨_, hgo, _, State.hand_setHand_self _ _ _ _, rfl, rfl, rfl, rfl, ?_⟩
    rw [if_neg hops]
    exact ⟨_, rfl, rfl, rfl, BitVec.add_sub_cancel _ _, rfl⟩

theorem sleepTicks_ends (hc : Clear s i ins (sleepTicksSpec i ins) h) : Ends (.sleepTicks i ins) s fun t => OnlyHandRegs i s t ∧
    t.hand i.core i.slot = some (if sleepCount h ins = 0 then h.issued s.coreTime ins
      else { h.issued s.coreTime ins with st := .sleeping, sleepEnd := s.time.now + sleepCount h ins }) := by
  have htime : (s.issued i .uniform ins h).time = s.time := same_iff.1 (s.onlyHand_issued i .uniform ins h).1 .time (by decide)
  let x := s.issued i .uniform ins h
  have hgo : Goes (.sleepTicks i ins) s (if sleepCount h ins = 0 then x else x.setHand i.core i.slot
      { h.issued s.coreTime ins with st := .sleeping, sleepEnd := x.time.now + sleepCount h ins }) := goes_of_clear rfl hc
  rw [htime] at hgo
  refine ⟨_, hgo, ?_⟩
  split
  · exact ⟨s.onlyHandRegs_issued i .uniform ins h, s.hand_issued i .uniform ins h⟩
  · exact ⟨onlyHandRegs_setIssued s i ins h _, State.hand_setHand_self _ _ _ _⟩

theorem noticeInsn_ends (hc : Clear s i ins (noticeInsnSpec i ins) h) : Ends (.noticeInsn i ins) s fun t =>
    Same [.cores, .regs, .pwr] s t ∧ SameRegs issueFields s t ∧ t.hand i.core i.slot = some (h.issued s.coreTime ins)
      ∧ t.pwr = { s.pwr with notices := s.pwr.notices ++ [(i.core.val / 4, ins.fn.toNat % 4)] } := by
  obtain ⟨hsame, hregs, -, -⟩ := s.onlyHand_issued i .uniform ins h
  let x := s.issued i .uniform ins h
  have hpwr : x.pwr = s.pwr := same_iff.1 hsame .pwr (by decide)
  have hsend : Alters [.pwr] [] x (x.sendNotice (i.core.val / 4) (ins.fn.toNat % 4)) :=
    .of_regs (by simp [Same, State.sendNotice]) rfl
  refine ⟨_, goes_of_clear rfl hc, (hsame.mono (by decide)).trans (hsend.1.mono (by decide)), hregs.trans (hsend.2.mono (by simp)),
    s.hand_issued i .uniform ins h, ?_⟩
  rw [← hpwr]
  rfl

end

/-- Settles O16: halt and trap stop the hand once nothing is outstanding; the others write the hand, or a notice. -/
theorem controlOfHands : Obligations.ControlOfHands := by
  unfold Obligations.ControlOfHands
  refine fun s i ins h => ⟨halt_ends, brk_ends, trap_ends, fun hc => ?yield, sleepTicks_ends, noticeInsn_ends, fun hc => ?nop⟩
  case yield => exact ⟨_, goes_of_clear rfl hc, onlyHandRegs_setIssued s i ins h _, State.hand_setHand_self _ _ _ _⟩
  case nop => exact ⟨_, goes_of_clear rfl hc, s.onlyHandRegs_issued i .uniform ins h, s.hand_issued i .uniform ins h⟩

end Sys2Proof.Machine
end
section
/-!
PROOFS. The issue of loads, stores and atomics: their accesses are recorded with the hand (R153, R191–R197).
-/
namespace Sys2Proof.Machine
open Sys2Proof.Safety

/-- A normalised address depends on the tile's ID alone. -/
theorem State.normalise_congr {s t : State} (hval : t.reg .MGC_TILE_ID_VALID = s.reg .MGC_TILE_ID_VALID)
    (hid : t.reg .MGC_TILE_ID = s.reg .MGC_TILE_ID) (a : Nat) : t.normalise a = s.normalise a := by
  have hself : t.tileId = s.tileId := by
    unfold State.tileId State.isSet
    rw [hval, hid]
  unfold State.normalise
  rw [hself]

theorem State.normalise_issued (s : State) (i : Issue) (u : ExecUnit) (ins : Insn) (h : Hand) (a : Nat) :
    (s.issued i u ins h).normalise a = s.normalise a := by
  obtain ⟨-, hregs, -⟩ := s.onlyHand_issued i u ins h
  exact State.normalise_congr (hregs _ _ _ (by decide)) (hregs _ _ _ (by decide)) a

/-- The operation that joins those of a hand as an access issues. -/
def issuedOp (h : Hand) (opc : Nat) (ins : Insn) (parts : List Part) : MemOp :=
  { id := h.nextOp, opc := opc, insn := ins, pc := (atPc h ins).pc, w0 := (wordOfInsn (BitVec.ofNat 8 opc) ins).toNat,
    parts := parts }

/-- A hand with the accesses of its instruction recorded; a watchpoint that they meet asks for a debug stop (R260). -/
def Hand.recorded (h : Hand) (s : State) (i : Issue) (opc : Nat) (ins : Insn) (rd wr : Bool) (parts : List Part) : Hand :=
  { h with ops := h.ops ++ [issuedOp h opc ins parts], nextOp := h.nextOp + 1,
           stop := watchStop s i.core.val i.slot.val rd wr (parts.map fun p => (p.thread, p.addr, p.size)) h }

theorem beginOp_nil (s : State) (i : Issue) (h : Hand) (opc : Nat) (ins : Insn) (rd wr : Bool) : beginOp s i h opc ins rd wr [] = s :=
  rfl

theorem beginOp_of_ne_nil (s : State) (i : Issue) (h : Hand) (opc : Nat) (ins : Insn) (rd wr : Bool) {parts : List Part}
    (hp : parts ≠ []) : beginOp s i h opc ins rd wr parts =
      pumpOp (s.setHand i.core i.slot (h.recorded s i opc ins rd wr parts)) i.core i.slot h.nextOp := by
  obtain ⟨p, l, rfl⟩ := List.exists_cons_of_ne_nil hp
  rfl

/-- The accesses of a row's instruction. -/
def partsOf (r : MemRow) (s : State) (ins : Insn) (co : Core) (h : Hand) : List Part :=
  (r.accs co h ins).map fun p =>
    { thread := p.1, addr := s.normalise p.2, size := r.size ins, op := r.op co h ins p.1, hint := r.hint ins }

/-- What a row of the memory unit asks of its issue. -/
def memSpec (r : MemRow) (rd wr : Bool) (i : Issue) (ins : Insn) : IssueSpec :=
  { opc := r.opc, unit := .memory, names := r.names ins, legal := fun h => r.legal h ins,
    access := fun s co h => accessFault s (r.size ins) (r.accs co h ins),
    ready := fun s co h => mayAccess h && (!(r.release && isRelease ins) || released s i.core h (scopeOf ins))
      && !((r.accs co h ins).any fun p => s.winHeld (s.normalise p.2)),
    prep := fun s _ => if r.release && isRelease ins then releasePrep i.core (scopeOf ins) s else s,
    body := fun s co h => beginOp s i h r.opc ins rd wr (partsOf r s ins co h) }

/-- A row whose accesses and operations read only what an issue leaves alone. -/
theorem memEffect_of_spec {r : MemRow} (rd wr : Bool)
    (hexec : ∀ i ins s, exec (r.cmd i ins) s = .next (issue s i ins (memSpec r rd wr i ins)))
    (hread : ∀ co last rot (h : Hand) now ins, r.accs { co with last := last, rot := rot } (h.issued now ins) ins = r.accs co h ins
      ∧ r.op { co with last := last, rot := rot } (h.issued now ins) ins = r.op co h ins) : MemEffect r := by
  intro s i ins h hcan hlegal hfault hmay hrel hwin
  have hready : (memSpec r rd wr i ins).ready s (s.core i.core) h = true := by
    have hrel' : (!(r.release && isRelease ins) || released s i.core h (scopeOf ins)) = true := by
      by_cases hb : (r.release && isRelease ins) = true
      · simp [hrel hb]
      · simp [hb]
    simp only [memSpec, hmay, hrel', hwin, Bool.and_self, Bool.not_false]
  have hcl : Clear s i ins (memSpec r rd wr i ins) h := ⟨hcan, hlegal, rfl, hready, hfault⟩
  let x := s.issued i .memory ins h
  let h' := h.issued s.coreTime ins
  let parts := partsOf r s ins (s.core i.core) h
  have hparts : partsOf r x ins ((s.core i.core).chosen i .memory) h' = parts := by
    have haccs := Core.read_chosen_issued i .memory ins (fun co h => r.accs co h ins)
      (fun co last rot => (hread co last rot h s.coreTime ins).1) (s.core i.core)
    have hop := Core.read_chosen_issued i .memory ins (fun co h => r.op co h ins)
      (fun co last rot => (hread co last rot h s.coreTime ins).2) (s.core i.core)
    simp only [partsOf, parts, x, h', State.normalise_issued, haccs, hop]
  have hgo : exec (r.cmd i ins) s = .next (beginOp x i h' r.opc ins rd wr parts) :=
    ((hexec i ins s).trans (congrArg _ (issue_clear hcl))).trans (by rw [← hparts]; rfl)
  by_cases haccs : r.accs (s.core i.core) h ins = []
  · refine ⟨x, s.onlyHandRegs_issued i .memory ins h, ?_⟩
    rw [if_pos haccs]
    have hnil : parts = [] := by simp [parts, partsOf, haccs]
    rw [hnil, beginOp_nil] at hgo
    exact ⟨hgo, s.hand_issued i .memory ins h⟩
  · refine ⟨x.setHand i.core i.slot (h'.recorded x i r.opc ins rd wr parts),
      OnlyHandRegs.setHand (s.onlyHandRegs_issued i .memory ins h) _, ?_⟩
    rw [if_neg haccs]
    rw [beginOp_of_ne_nil x i h' r.opc ins rd wr (by simp [parts, partsOf, haccs])] at hgo
    exact ⟨hgo, issuedOp h' r.opc ins parts, _, State.hand_setHand_self _ _ _ _, rfl, rfl, rfl, rfl, rfl, rfl, rfl, rfl⟩

/-- Settles O20: each row's instruction records one access for each that its addresses name; with none it goes on. -/
theorem memoryInstructionsIssue : Obligations.MemoryInstructionsIssue := by
  unfold Obligations.MemoryInstructionsIssue memRows
  simp only [List.forall_mem_cons, List.not_mem_nil, false_implies, implies_true, and_true]
  refine ⟨?ld, ?st, ?uld, ?ust, ?amo⟩
  case ld => exact memEffect_of_spec true false (fun _ _ _ => rfl) fun _ _ _ _ _ _ => ⟨rfl, rfl⟩
  case st => exact memEffect_of_spec false true (fun _ _ _ => rfl) fun _ _ _ _ _ _ => ⟨rfl, rfl⟩
  case uld => exact memEffect_of_spec true false (fun _ _ _ => rfl) fun _ _ _ _ _ _ => ⟨rfl, rfl⟩
  case ust => exact memEffect_of_spec false true (fun _ _ _ => rfl) fun _ _ _ _ _ _ => ⟨rfl, rfl⟩
  case amo => and_intros <;> exact memEffect_of_spec true true (fun _ _ _ => rfl) fun _ _ _ _ _ _ => ⟨rfl, rfl⟩

end Sys2Proof.Machine
end
section
/-!
PROOFS. The completion of loads, stores and atomics (R137, R155, R198, R241).
-/
namespace Sys2Proof.Machine
open Sys2Proof.Safety

/-! ### A run of vector registers -/

/-- The registers of an aligned run of one, two or four stand on different physical registers. -/
theorem Hand.phys_run (h : Hand) {d n i j : Nat} (hn : n ∣ 16) (hd : d % n = 0) (hi : i < n) (hj : j < n)
    (hp : h.phys (d + i) = h.phys (d + j)) : i = j := by
  obtain ⟨m, hm⟩ := hn
  obtain ⟨q, rfl⟩ := Nat.dvd_of_mod_eq_zero hd
  have hpos : 0 < n := by omega
  have hblk (k : Nat) (hk : k < n) : (n * q + k) / 16 = q / m ∧ (n * q + k) % 16 = n * (q % m) + k := by
    have hmod : q % m < m := Nat.mod_lt _ (Nat.pos_of_ne_zero (by rintro rfl; omega))
    have hlt : n * (q % m) + k < 16 := by
      calc n * (q % m) + k < n * (q % m) + n := by omega
        _ = n * (q % m + 1) := by ring
        _ ≤ n * m := Nat.mul_le_mul_left n hmod
        _ = 16 := hm.symm
    have hq : n * q + k = 16 * (q / m) + (n * (q % m) + k) := by
      rw [hm]
      conv_lhs => rw [← Nat.div_add_mod q m]
      ring
    rw [hq]
    omega
  unfold Hand.phys at hp
  rw [(hblk i hi).1, (hblk i hi).2, (hblk j hj).1, (hblk j hj).2] at hp
  omega

/-- Writes `n` registers from `d` up, the lanes of each for which `f` gives a value. -/
def Core.setRun (co : Core) (h : Hand) (d n : Nat) (f : Nat → Nat → Option Word) : Core :=
  (List.range n).foldl (fun co j => co.setV h (d + j) (f j)) co

theorem Core.setRun_succ (co : Core) (h : Hand) (d n : Nat) (f : Nat → Nat → Option Word) :
    co.setRun h d (n + 1) f = (co.setRun h d n f).setV h (d + n) (f n) := by
  simp [Core.setRun, List.range_succ]

theorem Core.setRun_slots (co : Core) (h : Hand) (d n : Nat) (f : Nat → Nat → Option Word) : (co.setRun h d n f).slots = co.slots := by
  induction n with
  | zero => rfl
  | succ n ih => rw [Core.setRun_succ, Core.setV_slots, ih]

theorem Core.vrf_setRun (co : Core) (h : Hand) (d n : Nat) (f : Nat → Nat → Option Word) {q : Nat}
    (hq : ∀ j < n, q ≠ h.phys (d + j)) : NMap.get zeroLanes (co.setRun h d n f).vrf q = NMap.get zeroLanes co.vrf q := by
  induction n with
  | zero => rfl
  | succ n ih => rw [Core.setRun_succ, Core.vrf_setV, if_neg (hq n (by omega)), ih fun j hj => hq j (by omega)]

theorem Core.v_setRun (co : Core) (h : Hand) {d n m : Nat} (f : Nat → Nat → Option Word) (hm : m ∣ 16) (hd : d % m = 0) (hn : n ≤ m)
    {j k : Nat} (hj : j < n) (hk : k < 64) : (co.setRun h d n f).v h (d + j) k = (f j k).getD (co.v h (d + j) k) := by
  induction n with
  | zero => omega
  | succ n ih =>
    rw [Core.setRun_succ, Core.v_setV _ _ _ _ _ _ hk]
    by_cases hjn : j = n
    · subst hjn
      rw [if_pos rfl]
      congr 1
      unfold Core.v
      rw [co.vrf_setRun h d j f fun i hi hp => by have := h.phys_run hm hd (i := j) (j := i) (by omega) (by omega) hp; omega]
    · rw [if_neg fun hp => hjn (h.phys_run hm hd (by omega) (by omega) hp), ih (by omega) (by omega)]

/-! ### A completed access -/

/-- The vector registers that a load or atomic writes for each thread. -/
def MemOp.regs (o : MemOp) : Nat := if o.opc = 0x80 then sizeRegs (o.insn.fn.toNat % 8) else footprint o.insn.typ.toNat

theorem MemOp.regs_dvd (o : MemOp) : o.regs ∣ 16 := by
  unfold MemOp.regs sizeRegs footprint
  split_ifs <;> decide

/-- What an access gives lane `k` of the `j`-th register, where one was made for that thread. -/
def MemOp.lane (o : MemOp) (j k : Nat) : Option Word :=
  (o.parts.zipIdx.find? fun p => p.1.thread == k).map fun p => BitVec.ofNat 32 (loadValue o (o.part p.2) / 2 ^ (32 * j))

/-- A hand after it has seen the answers of an operation: a poisoned one sets poison-seen (R155). -/
def Hand.sees (h : Hand) (s : State) (o : MemOp) : Hand :=
  match o.parts.zipIdx.find? fun p => (o.part p.2).gran != .good with
  | some (p, _) => h.seePoison s o p.thread p.addr
  | none => h

theorem Hand.sees_eq (h : Hand) (s : State) (o : MemOp) : ∃ poison, h.sees s o = { h with
    flags := if ∃ p ∈ o.parts.zipIdx, (o.part p.2).gran ≠ .good then h.flags ||| 0x20 else h.flags, poison := poison } := by
  unfold Hand.sees
  split
  · next p n hfind =>
    have hex : ∃ p ∈ o.parts.zipIdx, (o.part p.2).gran ≠ .good :=
      ⟨_, List.mem_of_find?_eq_some hfind, by simpa using List.find?_some hfind⟩
    rw [if_pos hex]
    exact ⟨_, rfl⟩
  · next hfind =>
    have hex : ¬ ∃ p ∈ o.parts.zipIdx, (o.part p.2).gran ≠ .good := by simpa using hfind
    rw [if_neg hex]
    exact ⟨h.poison, rfl⟩

theorem finishAccess_uld (s : State) (c n : Nat) (h : Hand) {o : MemOp} (ho : o.opc = 0x82) : finishAccess s c n h o =
    s.setHand c n ((h.sees s o).setU (o.insn.dst.toNat % 64) (BitVec.ofNat 64 (loadValue o (o.part 0)))) :=
  if_pos ho

theorem finishAccess_regs (s : State) (c n : Nat) (h : Hand) {o : MemOp} (ho : o.opc ≠ 0x82) : finishAccess s c n h o =
    (s.setCore c ((s.core c).setRun (h.sees s o) o.insn.dst.toNat o.regs o.lane)).setHand c n (h.sees s o) := by
  refine (if_neg ho).trans ?_
  unfold Core.setRun MemOp.lane
  simp only [Option.map_map]
  rfl

/-- Nothing changes but one hand, and storage of its core. -/
def OnlyHandAt (c n : Nat) (s t : State) : Prop :=
  Same [.cores] s t ∧ (∀ d, d ≠ c → t.core d = s.core d) ∧ ∀ m, m ≠ n → t.hand c m = s.hand c m

theorem OnlyHandAt.refl (c n : Nat) (s : State) : OnlyHandAt c n s s := ⟨Same.refl _ s, fun _ _ => rfl, fun _ _ => rfl⟩

theorem OnlyHandAt.setHand {c n : Nat} {s t : State} (ht : OnlyHandAt c n s t) (h : Hand) : OnlyHandAt c n s (t.setHand c n h) := by
  obtain ⟨hsame, hcores, hhands⟩ := ht
  exact ⟨hsame.trans (t.alters_setHand c n h).1, fun d hd => (t.core_setHand_ne n h hd).trans (hcores d hd),
    fun m hm => (t.hand_setHand_ne h fun he => hm he.2).trans (hhands m hm)⟩

theorem OnlyHandAt.setCore {c n : Nat} {s t : State} (ht : OnlyHandAt c n s t) {co : Core}
    (hco : ∀ m, m ≠ n → NMap.find? co.slots m = t.hand c m) : OnlyHandAt c n s (t.setCore c co) := by
  obtain ⟨hsame, hcores, hhands⟩ := ht
  refine ⟨hsame.trans (t.alters_setCore c co).1, fun d hd => ?_, fun m hm => ?_⟩
  · rw [State.core_setCore, if_neg hd, hcores d hd]
  · rw [State.hand, State.core_setCore_self, hco m hm, hhands m hm]

/-- A hand without an operation that has completed. -/
def Hand.without (h : Hand) (op : Nat) : Hand := { h with ops := h.ops.filter fun o => o.id != op }

/-- The state once an operation that is answered has left its hand and written what it received. -/
def State.returned (s : State) (c n op : Nat) (h : Hand) (o : MemOp) : State :=
  if isLoad o.opc then finishAccess s c n (h.without op) o else s.setHand c n (h.without op)

theorem memAccessComplete_goes {s : State} {x : HandId} {op : Nat} {h : Hand} {o : MemOp} (hclk : s.clocked (x.core.val / 4) = true)
    (hh : s.hand x.core x.slot = some h) (hrem : h.removed = false) (hop : h.ops.find? (fun o => o.id == op) = some o)
    (hopc : o.opc < 0xA0 ∨ 0xA4 < o.opc) (howes : enqOwes s x.core x.slot op = false) (hans : o.answered = true) :
    Goes (.memAccessComplete x op) s (settle (pumpHand (if o.acquires then
      invalidateStaged (s.returned x.core x.slot op h o) x.core (scopeOf o.insn) none else s.returned x.core x.slot op h o)
        x.core x.slot) x.core x.slot) := by
  have hmatrix : decide (0xA0 ≤ o.opc ∧ o.opc ≤ 0xA4) = false := by simp; omega
  have hstart : exec (.memAccessComplete x op) s = .next (completeAccess s x.core x.slot op) := by
    refine (show exec (.memAccessComplete x op) s = execMemAccessComplete x op s from rfl).trans ?_
    unfold execMemAccessComplete clusterOf
    simp only [hh, hop, hclk, howes, hmatrix, Option.bind_some]
    rfl
  refine hstart.trans (congrArg _ ?_)
  unfold completeAccess
  have hkeep : (isLoad o.opc && !h.removed) = isLoad o.opc := by rw [hrem, Bool.not_false, Bool.and_true]
  simp only [hh, hop, hans, Bool.not_true, Bool.false_eq_true, if_false, hkeep]
  unfold State.returned Hand.without
  rfl

theorem Core.v_congr {co co' : Core} (hv : co'.vrf = co.vrf) (h : Hand) (r k : Nat) : co'.v h r k = co.v h r k := by
  unfold Core.v
  rw [hv]

section
variable (s : State) (c n op : Nat) (h : Hand) {o : MemOp}

theorem returned_store (ho : isLoad o.opc = false) : s.returned c n op h o = s.setHand c n (h.without op) := by
  unfold State.returned
  rw [ho]
  rfl

theorem returned_uld (ho : o.opc = 0x82) : s.returned c n op h o = s.setHand c n
    (((h.without op).sees s o).setU (o.insn.dst.toNat % 64) (BitVec.ofNat 64 (loadValue o (o.part 0)))) :=
  (if_pos (by rw [ho]; decide)).trans (finishAccess_uld s c n _ ho)

theorem returned_load (ho : isLoad o.opc = true) (ho' : o.opc ≠ 0x82) : s.returned c n op h o =
    (s.setCore c ((s.core c).setRun ((h.without op).sees s o) o.insn.dst.toNat o.regs o.lane)).setHand c n ((h.without op).sees s o) :=
  (if_pos ho).trans (finishAccess_regs s c n _ ho')

theorem onlyHandAt_returned (o : MemOp) : OnlyHandAt c n s (s.returned c n op h o) := by
  have hrefl := OnlyHandAt.refl c n s
  cases hload : isLoad o.opc with
  | false => exact returned_store s c n op h hload ▸ hrefl.setHand _
  | true =>
    by_cases huld : o.opc = 0x82
    · exact returned_uld s c n op h huld ▸ hrefl.setHand _
    · rw [returned_load s c n op h hload huld]
      exact OnlyHandAt.setHand (hrefl.setCore fun m _ => by rw [Core.setRun_slots]; rfl) _

/-- What the hand is after its operation has returned. -/
theorem hand_returned (o : MemOp) : ∃ h', (s.returned c n op h o).hand c n = some h'
    ∧ h'.ops = h.ops.filter (fun o => o.id != op) ∧ h'.pc = h.pc ∧ h'.preds = h.preds
    ∧ h'.ureg = (if o.opc = 0x82 then (h.setU (o.insn.dst.toNat % 64) (BitVec.ofNat 64 (loadValue o (o.part 0)))).ureg else h.ureg)
    ∧ h'.flags = (if isLoad o.opc ∧ ∃ p ∈ o.parts.zipIdx, (o.part p.2).gran ≠ .good then h.flags ||| 0x20 else h.flags) := by
  cases hload : isLoad o.opc with
  | false =>
    have huld : o.opc ≠ 0x82 := fun he => by rw [he] at hload; exact absurd hload (by decide)
    rw [returned_store s c n op h hload]
    exact ⟨_, State.hand_setHand_self _ _ _ _, rfl, rfl, rfl, (if_neg huld).symm, (if_neg fun hp => Bool.noConfusion hp.1).symm⟩
  | true =>
    simp only [true_and]
    obtain ⟨poison, hsees⟩ := (h.without op).sees_eq s o
    by_cases huld : o.opc = 0x82
    · rw [returned_uld s c n op h huld, hsees, if_pos huld]
      refine ⟨_, State.hand_setHand_self _ _ _ _, ?_⟩
      unfold Hand.setU
      split <;> exact ⟨rfl, rfl, rfl, rfl, rfl⟩
    · rw [returned_load s c n op h hload huld, hsees, if_neg huld]
      exact ⟨_, State.hand_setHand_self _ _ _ _, rfl, rfl, rfl, rfl, rfl⟩

/-- A load or atomic writes its registers, lane by lane, and no other. -/
theorem vrf_returned_load (ho : isLoad o.opc = true) (ho' : o.opc ≠ 0x82) :
    ((s.returned c n op h o).core c).vrf = ((s.core c).setRun h o.insn.dst.toNat o.regs o.lane).vrf := by
  obtain ⟨poison, hsees⟩ := (h.without op).sees_eq s o
  rw [returned_load s c n op h ho ho', State.vrf_setHand, State.core_setCore_self, hsees]
  rfl

theorem vrf_returned_other (ho : isLoad o.opc = false ∨ o.opc = 0x82) : ((s.returned c n op h o).core c).vrf = (s.core c).vrf := by
  rcases ho with ho | ho
  · rw [returned_store s c n op h ho, State.vrf_setHand]
  · rw [returned_uld s c n op h ho, State.vrf_setHand]

end

/-- Settles O23: the operation leaves the hand, and its registers take what each thread received. -/
theorem accessesComplete : Obligations.AccessesComplete := by
  unfold Obligations.AccessesComplete
  intro s x op h o hclk hh hrem hop hopc howes hans regs haligned
  obtain ⟨hsame, hcores, hhands⟩ := onlyHandAt_returned s x.core x.slot op h o
  obtain ⟨h', hhand, hops, hpc, hpreds, hureg, hflags⟩ := hand_returned s x.core x.slot op h o
  refine ⟨s.returned x.core x.slot op h o, h', memAccessComplete_goes hclk hh hrem hop hopc howes hans, hsame, hcores, hhands,
    hhand, hops, hpc, hpreds, hureg, hflags, fun hload huld j hj k hk => ?_, fun q hq => ?_,
    vrf_returned_other s x.core x.slot op h⟩
  · rw [Core.v_congr (vrf_returned_load s x.core x.slot op h hload huld), Core.v_setRun _ h _ o.regs_dvd haligned le_rfl hj hk]
    unfold MemOp.lane
    cases o.parts.zipIdx.find? (fun p => p.1.thread == k) <;> rfl
  · by_cases hload : isLoad o.opc = true ∧ o.opc ≠ 0x82
    · rw [vrf_returned_load s x.core x.slot op h hload.1 hload.2]
      exact Core.vrf_setRun _ h _ _ _ hq
    · rw [vrf_returned_other s x.core x.slot op h (by simpa [or_iff_not_imp_left] using hload)]

end Sys2Proof.Machine
end
section
/-!
PROOFS. Release and zeroing of a hand's storage (R132, R133, R247, R248).
-/
namespace Sys2Proof.NMap
variable {α : Type}

/-- A table after some of its keys are dropped. -/
theorem find?_filter_key (p : Nat → Bool) (m : NMap α) (k : Nat) :
    find? (m.filter fun x => p x.1) k = if p k then find? m k else none := by
  induction m with
  | nil => simp
  | cons x t ih =>
    obtain ⟨j, v⟩ := x
    rw [List.filter_cons]
    by_cases hj : j = k
    · subst hj
      by_cases hp : p j <;> simp [hp, find?, ih]
    · by_cases hp : p j <;> simp [hp, find?, hj, ih]

/-- A table after every key of a list is set to one value. -/
theorem get_foldl_set [DecidableEq α] (d v : α) (l : List Nat) (m : NMap α) (k : Nat) :
    get d (l.foldl (fun m i => set d m i v) m) k = if k ∈ l then v else get d m k := by
  induction l generalizing m with
  | nil => simp
  | cons i t ih =>
    rw [List.foldl_cons, ih, get_set]
    by_cases hi : k = i <;> simp [hi]

end Sys2Proof.NMap
namespace Sys2Proof.Machine
open Sys2Proof.Safety

theorem get_zeroBlocks (m : NMap BlkSt) (l : List Nat) (b : Nat) :
    NMap.get .free (zeroBlocks m l) b = if b ∈ l then .zeroing else NMap.get .free m b :=
  NMap.get_foldl_set _ _ l m b

/-- A unit of storage of `size` words reads as its default once it is dropped; other storage keeps its value (R133). -/
theorem get_dropRange {α : Type} (d : α) (m : NMap α) {size : Nat} (n : Nat) (hs : 0 < size) (k : Nat) :
    NMap.get d (dropRange m (size * n) size) k = if k / size = n then d else NMap.get d m k := by
  have hdrop : NMap.find? (dropRange m (size * n) size) k =
      if (decide (k < size * n) || decide (size * n + size ≤ k)) then NMap.find? m k else none :=
    NMap.find?_filter_key (fun k => decide (k < size * n) || decide (size * n + size ≤ k)) m k
  have hiff : k / size = n ↔ ¬(k < size * n ∨ size * n + size ≤ k) := by
    rw [Nat.div_eq_iff hs, Nat.mul_comm n size]
    omega
  unfold NMap.get
  rw [hdrop]
  by_cases hk : k / size = n
  · simp [hk, hiff.1 hk]
  · have hin : k < size * n ∨ size * n + size ≤ k := not_not.1 fun h => hk (hiff.2 h)
    simp [hk, hin]

/-! ### A hand leaves its slot -/

theorem exec_handRelease (x : HandId) (s : State) : exec (.handRelease x) s = execHandRelease x s := rfl

theorem exec_handRemove (x : HandId) (s : State) : exec (.handRemove x) s = execHandRemove x s := rfl

/-- A core whose hand has left a slot: what the hand held is being zeroed (R132, R133). -/
def Core.releases (co : Core) (n : Nat) (h : Hand) : Core :=
  { co with slots := NMap.erase co.slots n, vb := zeroBlocks co.vb h.vblk, ob := zeroBlocks co.ob h.osbPages,
            ab := zeroBlocks co.ab h.accPages }

section
variable {s : State} {x : HandId} {h : Hand} (hclk : s.clocked (x.core.val / 4) = true) (hh : s.hand x.core x.slot = some h)
include hclk hh

theorem handRemove_goes (hrem : h.removed = true) (hops : h.ops = []) : Goes (.handRemove x) s
    (s.setHand x.core x.slot { h with st := .releasing, stop := none, poison := none }) := by
  unfold Goes
  rw [exec_handRemove, execHandRemove]
  simp only [done, clusterOf, hclk, hh, hrem, hops]
  rfl

theorem handRelease_goes (hst : h.st = .releasing) (hops : h.ops = []) : Goes (.handRelease x) s
    (s.setCore x.core ((s.core x.core).releases x.slot h)) := by
  unfold Goes
  rw [exec_handRelease, execHandRelease]
  simp only [done, clusterOf, hclk, hh, hst, hops, releaseHand]
  rfl

end

section
variable {s : State} {x : HandId} {h : Hand} (hh : s.hand x.core x.slot = some h) (hops : h.ops ≠ [])
include hh hops

/-- A hand keeps its slot while something that it issued is outstanding. -/
theorem handRelease_busy : Goes (.handRelease x) s s := by
  unfold Goes
  rw [exec_handRelease, execHandRelease]
  simp [done, hh, hops]

theorem handRemove_busy : Goes (.handRemove x) s s := by
  unfold Goes
  rw [exec_handRemove, execHandRemove]
  simp [done, hh, hops]

end

theorem handRelease_ends {s : State} {x : HandId} {h : Hand} (hclk : s.clocked (x.core.val / 4) = true)
    (hh : s.hand x.core x.slot = some h) (hst : h.st = .releasing) (hops : h.ops = []) : Ends (.handRelease x) s fun t =>
      t.hand x.core x.slot = none
      ∧ Same [.cores] s t ∧ (∀ d, d ≠ x.core.val → t.core d = s.core d) ∧ (∀ n, n ≠ x.slot.val → t.hand x.core n = s.hand x.core n)
      ∧ (∀ b, NMap.get .free (t.core x.core).vb b = if b ∈ h.vblk then .zeroing else NMap.get .free (s.core x.core).vb b)
      ∧ (∀ b, NMap.get .free (t.core x.core).ob b = if b ∈ h.osbPages then .zeroing else NMap.get .free (s.core x.core).ob b)
      ∧ (∀ b, NMap.get .free (t.core x.core).ab b = if b ∈ h.accPages then .zeroing else NMap.get .free (s.core x.core).ab b)
      ∧ (t.core x.core).vrf = (s.core x.core).vrf ∧ (t.core x.core).osb = (s.core x.core).osb
      ∧ (t.core x.core).acc = (s.core x.core).acc := by
  have hframe : OnlyHandAt x.core x.slot s (s.setCore x.core ((s.core x.core).releases x.slot h)) :=
    (OnlyHandAt.refl _ _ s).setCore fun m hm => NMap.find?_erase_ne _ hm
  obtain ⟨hsame, hcores, hhands⟩ := hframe
  refine ⟨_, handRelease_goes hclk hh hst hops, ?_, hsame, hcores, hhands, ?_⟩
  · rw [State.hand, State.core_setCore_self]
    exact NMap.find?_erase_self _ _
  · rw [State.core_setCore_self]
    exact ⟨get_zeroBlocks _ _, get_zeroBlocks _ _, get_zeroBlocks _ _, rfl, rfl, rfl⟩

/-! ### Storage is zeroed -/

/-- What a register block or page of a core is doing. -/
def Core.storeSt (co : Core) (n : Nat) : Store → BlkSt
  | .regs => NMap.get .free co.vb n
  | .osb => NMap.get .free co.ob n
  | .acc => NMap.get .free co.ab n

/-- A core one of whose blocks or pages has been zeroed, and is free (R133). -/
def Core.zeroed (co : Core) (n : Nat) : Store → Core
  | .regs => { co with vb := NMap.set .free co.vb n .free, vrf := dropRange co.vrf (16 * n) 16 }
  | .osb => { co with ob := NMap.set .free co.ob n .free, osb := dropRange co.osb (8192 * n) 8192 }
  | .acc => { co with ab := NMap.set .free co.ab n .free, acc := dropRange co.acc (2048 * n) 2048 }

theorem Core.slots_zeroed (co : Core) (n : Nat) (what : Store) : (co.zeroed n what).slots = co.slots := by cases what <;> rfl

theorem Core.storeSt_zeroed (co : Core) (n : Nat) (what : Store) : (co.zeroed n what).storeSt n what = .free := by
  cases what
  case regs => exact NMap.get_set_self .free co.vb n .free
  case osb => exact NMap.get_set_self .free co.ob n .free
  case acc => exact NMap.get_set_self .free co.ab n .free

theorem exec_storageZeroed {s : State} {core : Fin 256} (hclk : s.clocked (core.val / 4) = true) (n : Nat) (what : Store) :
    exec (.storageZeroed core what n) s = .next
      (if (s.core core).storeSt n what == .zeroing then s.setCore core ((s.core core).zeroed n what) else s) := by
  refine (show exec (.storageZeroed core what n) s = execStorageZeroed core what n s from rfl).trans ?_
  unfold execStorageZeroed clusterOf
  simp only [hclk]
  cases what <;> rfl

theorem State.core_setCore_ne (s : State) {c d : Nat} (v : Core) (hd : d ≠ c) : (s.setCore c v).core d = s.core d := by
  rw [State.core_setCore, if_neg hd]

section
variable {s : State} {core : Fin 256} (hclk : s.clocked (core.val / 4) = true) {n : Nat} {what : Store}
include hclk

/-- Storage that is not being zeroed is not touched. -/
theorem storageZeroed_kept (hz : (s.core core).storeSt n what ≠ .zeroing) : Goes (.storageZeroed core what n) s s :=
  (exec_storageZeroed hclk n what).trans (by rw [if_neg (by simpa using hz)])

theorem storageZeroed_ends {p : Core → Prop} (hz : (s.core core).storeSt n what = .zeroing) (hp : p ((s.core core).zeroed n what)) :
    Ends (.storageZeroed core what n) s fun t => Same [.cores] s t ∧ (∀ d, d ≠ core.val → t.core d = s.core d)
      ∧ (t.core core).slots = (s.core core).slots ∧ (t.core core).storeSt n what = .free ∧ p (t.core core) := by
  refine ⟨_, (exec_storageZeroed hclk n what).trans (by rw [if_pos (by simpa using hz)]),
    (s.alters_setCore _ _).1, fun d => s.core_setCore_ne _, ?_⟩
  rw [State.core_setCore_self]
  exact ⟨Core.slots_zeroed _ n what, Core.storeSt_zeroed _ n what, hp⟩

end

/-- Settles O31: a removed hand is releasing, a releasing one leaves its slot, and what it held is free once it reads zero. -/
theorem releasedStorageIsZeroed : Obligations.ReleasedStorageIsZeroed := by
  unfold Obligations.ReleasedStorageIsZeroed
  refine ⟨fun s x h hclk hh hrem hops => ?_, fun s x h => handRelease_ends, fun s x h hh hops =>
    ⟨handRelease_busy hh hops, handRemove_busy hh hops⟩, fun s core n hclk => ⟨fun hz => ?regs, fun hz => ?osb, fun hz => ?acc,
      storageZeroed_kept (what := .regs) hclk, storageZeroed_kept (what := .osb) hclk, storageZeroed_kept (what := .acc) hclk⟩⟩
  · exact ⟨_, handRemove_goes hclk hh hrem hops, State.hand_setHand_self _ _ _ _, (OnlyHandAt.refl _ _ s).setHand _⟩
  case regs =>
    exact storageZeroed_ends (what := .regs) hclk hz (p := fun co => ∀ r, NMap.get zeroLanes co.vrf r =
      if r / 16 = n then zeroLanes else NMap.get zeroLanes (s.core core).vrf r) (get_dropRange _ _ n (by decide : 0 < 16))
  case osb =>
    exact storageZeroed_ends (what := .osb) hclk hz (p := fun co => ∀ a, NMap.get 0 co.osb a =
      if a / 8192 = n then 0 else NMap.get 0 (s.core core).osb a) (get_dropRange _ _ n (by decide : 0 < 8192))
  case acc =>
    exact storageZeroed_ends (what := .acc) hclk hz (p := fun co => ∀ a, NMap.get 0 co.acc a =
      if a / 2048 = n then 0 else NMap.get 0 (s.core core).acc a) (get_dropRange _ _ n (by decide : 0 < 2048))

end Sys2Proof.Machine
end
section
/-!
PROOFS. Placing a hand: its slot, its storage, its launch registers and its live mask (R130, R131, R142, R146, R591, R592).
-/
namespace Sys2Proof.NMap
variable {α : Type}

theorem mem_keys_of_find? {m : NMap α} {k : Nat} {v : α} (h : find? m k = some v) : k ∈ m.map Prod.fst := by
  induction m with
  | nil => simp at h
  | cons x t ih =>
    obtain ⟨j, w⟩ := x
    rw [find?] at h
    split at h
    · next hj => simp [hj]
    · exact List.mem_cons_of_mem _ (ih h)

theorem find?_append (m l : NMap α) (k : Nat) : find? (m ++ l) k = (find? m k).or (find? l k) := by
  induction m with
  | nil => simp
  | cons x t ih =>
    obtain ⟨j, w⟩ := x
    simp only [List.cons_append, find?]
    split
    · rfl
    · exact ih

/-- A table that lists the values of a list at consecutive keys. -/
theorem find?_zipIdx {β : Type} (f : β → α) (a : Nat) (l : List β) (n k : Nat) :
    find? ((l.zipIdx n).map fun w => (w.2 + a, f w.1)) k = if n + a ≤ k then (l[k - a - n]?).map f else none := by
  induction l generalizing n with
  | nil => simp
  | cons x t ih =>
    rw [List.zipIdx_cons, List.map_cons, find?, ih]
    rcases Nat.lt_trichotomy k (n + a) with hk | hk | hk
    · rw [if_neg (by omega), if_neg (by omega), if_neg (by omega)]
    · subst hk
      simp
    · rw [if_neg (by omega), if_pos (by omega), if_pos (by omega), show k - a - n = (k - a - (n + 1)) + 1 by omega,
        List.getElem?_cons_succ]

/-- Dropping the entries that hold the default changes no reading, where no key stands twice. -/
theorem get_filter_ne [DecidableEq α] (d : α) {m : NMap α} (hm : (m.map Prod.fst).Nodup) (k : Nat) :
    get d (m.filter fun p => p.2 != d) k = get d m k := by
  induction m with
  | nil => rfl
  | cons x t ih =>
    obtain ⟨j, w⟩ := x
    obtain ⟨hj, ht⟩ := List.nodup_cons.1 hm
    have ih' := ih ht
    unfold get at ih' ⊢
    rw [List.filter_cons]
    by_cases hw : w = d
    · by_cases hk : j = k
      · subst hk
        have hnone : find? t j = none := by
          cases hf : find? t j with
          | none => rfl
          | some v => exact absurd (mem_keys_of_find? hf) hj
        simp [hw, find?, ih', hnone]
      · simp [hw, find?, hk, ih']
    · by_cases hk : j = k <;> simp [hw, find?, hk, ih']

end Sys2Proof.NMap
namespace Sys2Proof.Machine
open Sys2Proof.Safety

/-! ### The hand that is placed -/

/-- Bit `k` of the live mask: thread `k` of the hand is one of the task's (R146). -/
theorem Task.getLsbD_liveMask (t : Task) (n : Nat) {k : Nat} (hk : k < 64) :
    (t.liveMask n).getLsbD k = decide (64 * n + k < t.threads) := by
  unfold Task.liveMask
  dsimp only
  split
  · next h =>
    rw [BitVec.getLsbD_allOnes, decide_eq_decide]
    omega
  · next h =>
    rw [BitVec.getLsbD_ofNat, Nat.testBit_two_pow_sub_one]
    simp [hk]
    omega

/-- The uniform registers at launch, listed with those that are zero (R142, R143). -/
def Task.launchTable (t : Task) (n now : Nat) : NMap DWord :=
  [(1, BitVec.ofNat 64 n), (2, BitVec.ofNat 64 t.hands), (3, BitVec.ofNat 64 t.id), (4, BitVec.ofNat 64 now)]
    ++ ((List.range 56).zipIdx.map fun w => (w.2 + 8, BitVec.ofNat 64 (leNat ((t.params.drop (8 * w.1)).take 8))))

theorem Task.launchRegs_eq (t : Task) (n now : Nat) : t.launchRegs n now = (t.launchTable n now).filter fun p => p.2 != 0 := by
  unfold Task.launchRegs Task.launchTable
  simp only [List.map_append, List.zipIdx_map, List.map_map]
  rfl

theorem Task.nodup_launchTable (t : Task) (n now : Nat) : ((t.launchTable n now).map Prod.fst).Nodup := by
  have hkeys : (t.launchTable n now).map Prod.fst = [1, 2, 3, 4] ++ (List.range 56).zipIdx.map fun w => w.2 + 8 := by
    simp [Task.launchTable, Function.comp_def]
  rw [hkeys]
  decide

theorem Task.get_launchRegs (t : Task) (n now k : Nat) : NMap.get 0 (t.launchRegs n now) k = NMap.get 0 (t.launchTable n now) k := by
  rw [t.launchRegs_eq]
  exact NMap.get_filter_ne 0 (t.nodup_launchTable n now) k

theorem Task.get_launchTable (t : Task) (n now : Nat) {k : Nat} (hk : 8 ≤ k) (hk' : k < 64) :
    NMap.get 0 (t.launchTable n now) k = BitVec.ofNat 64 (leNat ((t.params.drop (8 * (k - 8))).take 8)) := by
  unfold NMap.get Task.launchTable
  rw [NMap.find?_append, NMap.find?_zipIdx (fun j => BitVec.ofNat 64 (leNat ((t.params.drop (8 * j)).take 8)))]
  have h56 : k - 8 < 56 := by omega
  have hne : 1 ≠ k ∧ 2 ≠ k ∧ 3 ≠ k ∧ 4 ≠ k := by omega
  simp [NMap.find?, hne, hk, h56]

/-- The first seven launch registers: the hand, the hands, the task, the time, and three that are zero. -/
theorem Task.get_launchTable_low (t : Task) (n now : Nat) {k : Nat} (hk : k ∈ [1, 2, 3, 4, 5, 6, 7]) :
    NMap.get 0 (t.launchTable n now) k = if k = 1 then BitVec.ofNat 64 n else if k = 2 then BitVec.ofNat 64 t.hands
      else if k = 3 then BitVec.ofNat 64 t.id else if k = 4 then BitVec.ofNat 64 now else 0 := by
  unfold NMap.get Task.launchTable
  rw [NMap.find?_append, NMap.find?_zipIdx (fun j => BitVec.ofNat 64 (leNat ((t.params.drop (8 * j)).take 8)))]
  fin_cases hk <;> simp [NMap.find?]

/-- A slot of a core that lists fewer than 16 hands. -/
def Core.emptySlot (co : Core) : Nat := (firstWhere 16 fun n => (NMap.find? co.slots n).isNone).getD 0

theorem Core.emptySlot_spec {co : Core} (h : co.slots.length < 16) :
    co.emptySlot < 16 ∧ NMap.find? co.slots co.emptySlot = none := by
  unfold Core.emptySlot
  cases hf : firstWhere 16 fun n => (NMap.find? co.slots n).isNone with
  | some n =>
    have hp := List.find?_some hf
    have hm := List.mem_of_find?_eq_some hf
    simp only [List.mem_range, Option.isNone_iff_eq_none] at hp hm
    exact ⟨hm, hp⟩
  | none =>
    exfalso
    have hall : List.range 16 ⊆ co.slots.map Prod.fst := by
      intro n hn
      have hsome := List.find?_eq_none.1 hf n hn
      obtain ⟨v, hv⟩ := Option.ne_none_iff_exists'.1 (by simpa using hsome)
      exact NMap.mem_keys_of_find? hv
    have hlen := (List.subperm_of_subset List.nodup_range hall).length_le
    simp at hlen
    omega

/-- The blocks or pages that a hand takes: the first `n` of those that are free. -/
theorem freeOf_take (m : NMap BlkSt) (size n : Nat) (h : n ≤ (freeOf m size).length) :
    ((freeOf m size).take n).length = n ∧ ((freeOf m size).take n).Nodup
      ∧ (∀ b, NMap.get .free (takeBlocks m ((freeOf m size).take n)) b =
          if b ∈ (freeOf m size).take n then .used else NMap.get .free m b)
      ∧ ∀ b ∈ (freeOf m size).take n, b < size ∧ NMap.get .free m b = .free := by
  refine ⟨List.length_take_of_le h, (List.nodup_range.filter _).sublist (List.take_sublist _ _),
    NMap.get_foldl_set _ _ _ m, fun b hb => ?_⟩
  have hmem := List.mem_filter.1 (List.mem_of_mem_take hb)
  exact ⟨List.mem_range.1 hmem.1, by simpa using hmem.2⟩

/-- The hand of a task that a core takes (R129–R131, R142, R146). -/
def newHand (co : Core) (t : Task) (now : Nat) : Hand :=
  { task := t.id, vregs := t.vregs, vblk := (freeOf co.vb 64).take (t.vregs / 16), osbPages := (freeOf co.ob 16).take t.opg,
    accPages := (freeOf co.ab 16).take t.apg, pc := BitVec.ofNat 64 t.pc, live := t.liveMask t.placed,
    ureg := t.launchRegs t.placed now }

/-- A core that has taken the next hand of a task. -/
def Core.takes (co : Core) (t : Task) (now : Nat) : Core :=
  { co with slots := NMap.insert co.slots co.emptySlot (newHand co t now), vb := takeBlocks co.vb (newHand co t now).vblk,
            ob := takeBlocks co.ob (newHand co t now).osbPages, ab := takeBlocks co.ab (newHand co t now).accPages }

theorem placeOn_eq (s : State) (i : Nat) (t : Task) : placeOn s i t = s.setCore i ((s.core i).takes t s.coreTime) := rfl

theorem newHand_u (co : Core) (t : Task) (now : Nat) {k : Nat} (hk : k ≠ 0) :
    (newHand co t now).u k = NMap.get 0 (t.launchTable t.placed now) k :=
  (if_neg hk).trans (t.get_launchRegs t.placed now k)

theorem newHand_u_low (co : Core) (t : Task) (now : Nat) {k : Nat} (hk : k ∈ [1, 2, 3, 4, 5, 6, 7]) :
    (newHand co t now).u k = if k = 1 then BitVec.ofNat 64 t.placed else if k = 2 then BitVec.ofNat 64 t.hands
      else if k = 3 then BitVec.ofNat 64 t.id else if k = 4 then BitVec.ofNat 64 now else 0 :=
  (newHand_u co t now (by rintro rfl; simp at hk)).trans (t.get_launchTable_low t.placed now hk)

theorem newHand_p (co : Core) (t : Task) (now : Nat) {n : Nat} (hn : n ≠ 0) : (newHand co t now).p n = 0 := if_neg hn

theorem canTake_iff {co : Core} {t : Task} : canTake co t = true ↔ co.slots.length < 16 ∧ t.vregs / 16 ≤ (freeOf co.vb 64).length
    ∧ t.opg ≤ (freeOf co.ob 16).length ∧ t.apg ≤ (freeOf co.ab 16).length := by
  simp [canTake, and_assoc]

/-- The core that is chosen is one of the cluster's, and can take the hand (R130). -/
theorem coreFor_some {s : State} {c i : Nat} {t : Task} (h : coreFor s c t = some i) : i / 4 = c ∧ canTake (s.core i) t = true := by
  have hmem : ∀ j, coreFor s c t = some j → j ∈ ((List.range 4).map (4 * c + ·)).filter fun i => canTake (s.core i) t := by
    unfold coreFor
    refine List.foldlRecOn _ _ (motive := fun best => ∀ j, best = some j → j ∈ _) (by simp) fun best ih a ha j hj => ?_
    split at hj
    · exact Option.some.inj hj ▸ ha
    · next b =>
      split at hj
      · exact Option.some.inj hj ▸ ha
      · exact ih j hj
  obtain ⟨hrange, htake⟩ := List.mem_filter.1 (hmem i h)
  obtain ⟨k, hk, rfl⟩ := List.mem_map.1 hrange
  rw [List.mem_range] at hk
  exact ⟨by omega, htake⟩

/-! ### The dispatcher's step -/

theorem exec_handPlace (s : State) : exec .handPlace s = execHandPlace s := rfl

section
variable {s : State} {t : Task} (hact : s.active = true) (hstop : s.stopped 1 = false) (hpl : s.placing = some t) (hheld : t.held = false)
include hact hstop hpl hheld

/-- With no candidate left the task ends its placement (R591). -/
theorem handPlace_none (hcand : candidates s t = []) : Goes .handPlace s
    (s.onTask t.id fun t => { t with noCluster := true, dark := t.dark || decide (0 < t.placed) }) := by
  unfold Goes
  rw [exec_handPlace, execHandPlace]
  simp [done, hact, hstop, hpl, hheld, hcand]

section
variable {c low : Nat} {cand : List Nat} (hcand : candidates s t = low :: cand)
  (hnext : (circular (low :: cand) (t.cursor.getD low)).find? (fun c => s.clocked c && !s.drains c && (coreFor s c t).isSome) = some c)
include hcand hnext

/-- The load notice that must go first (R592). -/
theorem handPlace_notice (hweight : t.nweight ≠ 0) (hnone : NMap.find? t.noticed c = none) : Goes .handPlace s
    ({ s with pwr := { s.pwr with notices := s.pwr.notices ++ [(c, t.nweight)] } }.onTask t.id fun t =>
      { t with noticed := NMap.insert t.noticed c s.time.bnd }) := by
  unfold Goes
  rw [exec_handPlace, execHandPlace]
  simp [done, hact, hstop, hpl, hheld, hcand, hnext, hweight, hnone]

theorem handPlace_takes {i : Nat} (hcore : coreFor s c t = some i)
    (hready : t.nweight = 0 ∨ ∃ a, NMap.find? t.noticed c = some a ∧ a + noticeTicks s c ≤ s.time.bnd) : Goes .handPlace s
    ((placeOn s i t).onTask t.id fun t => { t with
      placed := t.placed + 1, cursor := some (((low :: cand).find? (c < ·)).getD low),
      firstPlaced := some (t.firstPlaced.getD s.time.now) }) := by
  unfold Goes
  rw [exec_handPlace, execHandPlace]
  rcases hready with hweight | ⟨a, hnoticed, hdue⟩
  · simp [done, hact, hstop, hpl, hheld, hcand, hnext, hcore, hweight]
  · simp [done, hact, hstop, hpl, hheld, hcand, hnext, hcore, hnoticed, hdue]

end
end

/-- The frame of a placement: one slot of one core, and what of that core's storage is in use. -/
theorem placeOn_frame (s : State) (i : Nat) (t : Task) : OnlyHandAt i (s.core i).emptySlot s (placeOn s i t) :=
  (OnlyHandAt.refl _ _ s).setCore fun _ hm => NMap.find?_insert_ne _ _ hm

theorem hand_placeOn (s : State) (i : Nat) (t : Task) :
    (placeOn s i t).hand i (s.core i).emptySlot = some (newHand (s.core i) t s.coreTime) := by
  rw [placeOn_eq, State.hand, State.core_setCore_self]
  exact NMap.find?_insert_self _ _ _

/-- Settles O30: the dispatcher gives the next hand a slot and free storage of a core that can take it. -/
theorem handsArePlaced : Obligations.HandsArePlaced := by
  unfold Obligations.HandsArePlaced
  refine ⟨fun s t c i low cand hact hstop hpl htask hheld hcand hnext hcore hready => ?placed,
    fun s t c low cand hact hstop hpl hheld hcand hnext hweight hnone => ?notice,
    fun s t hact hstop hpl htask hheld hcand => ?none⟩
  case placed =>
    obtain ⟨hi, htake⟩ := coreFor_some hcore
    obtain ⟨hslots, hvb, hob, hab⟩ := canTake_iff.1 htake
    obtain ⟨hslot, hempty⟩ := Core.emptySlot_spec hslots
    obtain ⟨hvlen, hvnodup, hvuse, hvfree⟩ := freeOf_take _ _ _ hvb
    obtain ⟨holen, honodup, house, hofree⟩ := freeOf_take _ _ _ hob
    obtain ⟨halen, hanodup, hause, hafree⟩ := freeOf_take _ _ _ hab
    obtain ⟨hsame, hcores, hhands⟩ := placeOn_frame s i t
    have hafter := fun f => (placeOn s i t).alters_onTask t.id f
    have hcongr (f : Task → Task) : ((placeOn s i t).onTask t.id f).cores = (placeOn s i t).cores := (hafter f).agree .cores (by decide)
    refine ⟨_, handPlace_takes hact hstop hpl hheld hcand hnext hcore hready, (s.core i).emptySlot,
      newHand (s.core i) t s.coreTime, hi, hslot, hempty, ?_⟩
    simp only [State.hand_congr (hcongr _), State.core_congr (hcongr _)]
    have hlow {k : Nat} (hk : k ∈ [1, 2, 3, 4, 5, 6, 7]) := newHand_u_low (s.core i) t s.coreTime hk
    have hcore' : (placeOn s i t).core i = (s.core i).takes t s.coreTime := State.core_setCore_self _ _ _
    have htask' : (placeOn s i t).task t.id = some t := htask
    rw [hcore']
    exact ⟨hand_placeOn s i t, ⟨rfl, rfl, rfl, rfl, rfl, rfl⟩, fun k => t.getLsbD_liveMask t.placed, fun n => newHand_p _ _ _,
      ⟨rfl, hlow (by decide), hlow (by decide), hlow (by decide), hlow (by decide), hlow (by decide), hlow (by decide),
        hlow (by decide)⟩,
      fun k hk hk' => (newHand_u _ _ _ (by omega)).trans (t.get_launchTable _ _ hk hk'), ⟨hvlen, hvnodup, hvuse⟩,
      ⟨holen, honodup, house⟩, ⟨halen, hanodup, hause⟩, hvfree, hofree, hafree, rfl, rfl, rfl, hhands, hcores,
      (hsame.mono (by decide)).trans ((hafter _).1.mono (by decide)), State.task_onTask_self htask' _⟩
  case notice =>
    refine ⟨_, handPlace_notice hact hstop hpl hheld hcand hnext hweight hnone, ?_, ?_⟩
    · exact (show Same [.pwr, .tasks] s _ by simp [Same]).trans ((State.alters_onTask _ _ _).1.mono (by decide))
    · exact (State.alters_onTask _ _ _).agree .pwr (by decide)
  case none =>
    exact ⟨_, handPlace_none hact hstop hpl hheld hcand, (s.alters_onTask _ _).1, State.task_onTask_self htask _⟩

end Sys2Proof.Machine
end
section
/-!
PROOFS. Service thresholds (R668–R670): their quantities are shown, and the crossed ones latched.
-/
namespace Sys2Proof.Machine
open Sys2Proof.Safety

/-! ### Sums of bits, and folds over the numbers below a bound -/

theorem testBit_add_two_pow {x n : Nat} (hx : x.testBit n = false) (k : Nat) :
    (x + 2 ^ n).testBit k = (x.testBit k || decide (k = n)) := by
  rw [Nat.add_comm]
  rcases Nat.lt_trichotomy k n with hk | rfl | hk
  · simp [Nat.testBit_two_pow_add_gt hk, hk.ne]
  · simp [Nat.testBit_two_pow_add_eq, hx]
  · obtain ⟨j, rfl⟩ : ∃ j, k = j + (n + 1) := ⟨k - (n + 1), by omega⟩
    have heven : x / 2 ^ n % 2 ≠ 1 := by simpa [Nat.testBit_eq_decide_div_mod_eq] using hx
    have hdiv : (2 ^ n + x) / 2 ^ (n + 1) = x / 2 ^ (n + 1) := by
      rw [Nat.pow_succ, ← Nat.div_div_eq_div_mul, ← Nat.div_div_eq_div_mul, Nat.add_div_left _ (Nat.two_pow_pos n)]
      omega
    rw [← Nat.testBit_div_two_pow, hdiv, Nat.testBit_div_two_pow]
    simp [show j + (n + 1) ≠ n by omega]

theorem natOfBits_eq_sum (n : Nat) (f : Nat → Bool) : ((numsWhere n f).map (2 ^ ·)).sum = natOfBits n f := by
  induction n with
  | zero => rfl
  | succ n ih =>
    rw [natOfBits_succ, ← ih]
    unfold numsWhere
    rw [List.range_succ, List.filter_append, List.map_append, List.sum_append]
    cases hf : f n <;> simp [hf]

theorem foldState_append {σ α : Type} (f : σ → α → σ) (l l' : List α) (s : σ) :
    foldState f (l ++ l') s = foldState f l' (foldState f l s) := by
  induction l generalizing s with
  | nil => rfl
  | cons a t ih => exact ih _

/-- A fold over the numbers below `n`, by what holds after the first `k` of them. -/
theorem foldState_range {σ : Type} {p : Nat → σ → Prop} (f : σ → Nat → σ) (s : σ) (h : p 0 s) (n : Nat)
    (hf : ∀ k < n, ∀ s, p k s → p (k + 1) (f s k)) : p n (foldState f (List.range n) s) := by
  induction n with
  | zero => exact h
  | succ n ih =>
    rw [List.range_succ, foldState_append]
    exact hf n (Nat.lt_succ_self n) _ (ih fun k hk => hf k (Nat.lt_succ_of_lt hk))

/-! ### The quantities of the service thresholds (R668) -/

/-- The counts of the management controller that service thresholds show. -/
def MgcSt.counts (m : MgcSt) : NMap Nat × Nat × Nat := (m.kept, m.ueGran, m.ueWord)

/-- The counts that service thresholds show stay as they are. -/
def KeepsCounts (s t : State) : Prop := t.mgc.counts = s.mgc.counts

theorem KeepsCounts.refl (s : State) : KeepsCounts s s := Eq.refl s.mgc.counts

theorem KeepsCounts.trans {s t u : State} (h : KeepsCounts s t) (h' : KeepsCounts t u) : KeepsCounts s u := Eq.trans h' h

theorem KeepsCounts.of_mgc {s t : State} (h : t.mgc = s.mgc) : KeepsCounts s t := congrArg MgcSt.counts h

theorem State.keepsCounts_issue (s : State) (b i n : Nat) : KeepsCounts s (s.issue b i n) := by
  unfold State.issue
  split <;> rfl

theorem State.keepsCounts_sendPost (s : State) (u : PostUse) (m : Msg) : KeepsCounts s (s.sendPost u m) := by
  unfold State.sendPost
  dsimp only
  split
  · exact (s.keepsCounts_issue 5 0 1).trans (KeepsCounts.of_mgc (by simp))
  · exact KeepsCounts.of_mgc (by simp)

theorem State.keepsCounts_hostWrite (s : State) (a : Nat) (bs : List Byte) (c : GState) : KeepsCounts s (s.hostWrite a bs c) := by
  unfold State.hostWrite
  split
  · exact KeepsCounts.of_mgc (s.count_mgc .HIF_CPL_TO_CNT 0 0 1)
  · exact KeepsCounts.refl s

theorem State.keepsCounts_fabricWrite (s : State) (w : Agent) (a : Nat) (bs : List Byte) (c : GState) (n : Option Nat) :
    KeepsCounts s (s.fabricWrite w a bs c n) := by
  refine foldState_keeps _ _ s (KeepsCounts.refl s) fun u p h => h.trans ?_
  unfold State.writePiece
  dsimp only
  split
  · exact u.keepsCounts_hostWrite _ _ _
  · exact u.keepsCounts_sendPost _ _

/-- An event's place in the ring is taken. -/
theorem State.keepsCounts_tail (s : State) (v : Nat) (h : HostSt) : KeepsCounts s { s.setReg .CTX_EVT_TAIL v with host := h } :=
  KeepsCounts.of_mgc (s.setReg_mgc .CTX_EVT_TAIL v 0 0)

theorem State.keepsCounts_postEvent (s : State) (source : Nat) (pay : List Byte) : KeepsCounts s (s.postEvent source pay) := by
  unfold State.postEvent
  split
  · exact KeepsCounts.refl s
  · dsimp only
    split
    · exact KeepsCounts.of_mgc (s.count_mgc .CTX_EVT_LOST_CNT 0 0 1)
    · refine KeepsCounts.trans ?_ (State.keepsCounts_issue _ 9 0 1)
      refine KeepsCounts.trans ?_ (State.keepsCounts_tail _ _ _)
      exact (s.keepsCounts_fabricWrite _ _ _ _ _).trans (State.keepsCounts_fabricWrite _ _ _ _ _ _)

/-- Nothing changes that a service threshold's quantity or limit rests on. -/
def KeepsService (s t : State) : Prop := OnlyPosts [.MGC_SVC_VAL, .MGC_SVC_STATUS] s t ∧ KeepsCounts s t

theorem KeepsService.refl (s : State) : KeepsService s s := ⟨OnlyPosts.refl _ s, KeepsCounts.refl s⟩

theorem KeepsService.trans {s t u : State} (h : KeepsService s t) (h' : KeepsService t u) : KeepsService s u :=
  ⟨h.1.trans h'.1, h.2.trans h'.2⟩

theorem keepsService_setReg (s : State) {f : Field} (v i n : Nat) (hf : f ∈ [Field.MGC_SVC_VAL, .MGC_SVC_STATUS]) :
    KeepsService s (s.setReg f v i n) :=
  ⟨s.onlyPosts_setReg v i n (List.mem_append_left _ hf), KeepsCounts.of_mgc (s.setReg_mgc f v i n)⟩

theorem keepsService_mgcEvent (s : State) (kind : Nat) (fields : List (Nat × List Byte)) : KeepsService s (s.mgcEvent kind fields) :=
  ⟨(s.onlyPosts_mgcEvent kind fields).mono (by simp), s.keepsCounts_postEvent _ _⟩

theorem KeepsService.svcQuantity {s t : State} (h : KeepsService s t) (n : Nat) : t.svcQuantity n = s.svcQuantity n := by
  obtain ⟨hposts, hcounts⟩ := h
  obtain ⟨hkept, hgran, hword⟩ : t.mgc.kept = s.mgc.kept ∧ t.mgc.ueGran = s.mgc.ueGran ∧ t.mgc.ueWord = s.mgc.ueWord := by
    simpa [KeepsCounts, MgcSt.counts] using hcounts
  have hreg (f : Field) (i n : Nat) (hf : f ∉ [Field.MGC_SVC_VAL, .MGC_SVC_STATUS] ++ postRegs) : t.reg f i n = s.reg f i n :=
    hposts.2 f i n hf
  have hunit (e : Nat) : t.unitSt e = s.unitSt e := by rw [State.unitSt, hposts.deck, State.unitSt]
  unfold State.svcQuantity
  simp only [hunit, hkept, hgran, hword, hreg .CRG_PHASE_GOOD _ _ (by decide), hreg .MEM_CH_RETIRE_MASK _ _ (by decide),
    hreg .MEM_SPARE_FAIL_CNT _ _ (by decide), hreg .CPL_LANES_RETIRED _ _ (by decide)]

theorem KeepsService.svcCrossed {s t : State} (h : KeepsService s t) (n : Nat) : t.svcCrossed n = s.svcCrossed n := by
  unfold State.svcCrossed
  rw [h.svcQuantity, h.1.2 .MGC_SVC_LIM 0 n (by decide)]

/-! ### An evaluation of the thresholds (R668–R670) -/

/-- The quantities of the first `k` thresholds are shown. -/
def Shown (s : State) (k : Nat) (t : State) : Prop :=
  KeepsService s t ∧ t.reg .MGC_SVC_STATUS = s.reg .MGC_SVC_STATUS ∧
    ∀ n < k, t.reg .MGC_SVC_VAL 0 n = min (s.svcQuantity n) 0xFFFFFFFF

theorem Shown.succ {s t : State} {k : Nat} (h : Shown s k t) :
    Shown s (k + 1) (t.setReg .MGC_SVC_VAL (min (t.svcQuantity k) 0xFFFFFFFF) 0 k) := by
  obtain ⟨hkeeps, hstatus, hvals⟩ := h
  refine ⟨hkeeps.trans (keepsService_setReg t _ 0 k (by decide)), ?_, fun n hn => ?_⟩
  · rw [State.reg_setReg_ne _ _ _ _ _ _ (by decide), hstatus]
  · rw [State.reg_setReg, hkeeps.svcQuantity]
    split
    · next heq => rw [heq.2.2]
    · next hne => exact hvals n (by simp at hne; omega)

/-- The crossed ones of the first `k` thresholds are latched. -/
def Latched (s : State) (k : Nat) (t : State) : Prop :=
  KeepsService s t ∧ (∀ n, t.reg .MGC_SVC_VAL 0 n = s.reg .MGC_SVC_VAL 0 n) ∧
    ∀ n, (t.reg .MGC_SVC_STATUS).testBit n = ((s.reg .MGC_SVC_STATUS).testBit n || (decide (n < k) && s.svcCrossed n))

/-- The evaluation of one threshold: a newly crossed one is latched, recorded and reported. -/
def State.latch (s : State) (n : Nat) : State :=
  let st := s.reg .MGC_SVC_STATUS
  if st.testBit n || !s.svcCrossed n then s else
  let s := s.setReg .MGC_SVC_STATUS (st + 2 ^ n)
  s.mgcEvent 0x50 [(1, leBytes 1 n), (0x10, leBytes 4 (s.svcQuantity n)), (0x14, leBytes 4 (s.reg .MGC_SVC_LIM 0 n)),
    (0x18, leBytes 4 (st + 2 ^ n))]

theorem State.serviceEval_eq (s : State) : s.serviceEval = foldState State.latch (List.range 12)
    (foldState (fun s n => s.setReg .MGC_SVC_VAL (min (s.svcQuantity n) 0xFFFFFFFF) 0 n) (List.range 12) s) := rfl

theorem Latched.succ {s t : State} {k : Nat} (h : Latched s k t) : Latched s (k + 1) (t.latch k) := by
  obtain ⟨hkeeps, hvals, hbits⟩ := h
  have hsplit (n : Nat) : (decide (n < k + 1) && s.svcCrossed n) =
      ((decide (n < k) && s.svcCrossed n) || (decide (n = k) && s.svcCrossed k)) := by
    rcases Nat.lt_trichotomy n k with hn | rfl | hn
    · simp [hn, hn.ne, Nat.lt_succ_of_lt hn]
    · simp
    · simp [show ¬ n < k + 1 by omega, show ¬ n < k by omega, show n ≠ k by omega]
  unfold State.latch
  dsimp only
  split
  · next hold =>
    refine ⟨hkeeps, hvals, fun n => ?_⟩
    rw [hbits, hsplit]
    rw [hkeeps.svcCrossed, hbits] at hold
    by_cases hn : n = k
    · subst hn
      revert hold
      cases (s.reg .MGC_SVC_STATUS).testBit n <;> cases s.svcCrossed n <;> simp
    · simp [hn]
  · next hnew =>
    obtain ⟨hclear, hcrossed⟩ : (t.reg .MGC_SVC_STATUS).testBit k = false ∧ s.svcCrossed k = true := by
      simpa [hkeeps.svcCrossed] using hnew
    have hevent := keepsService_mgcEvent (t.setReg .MGC_SVC_STATUS (t.reg .MGC_SVC_STATUS + 2 ^ k))
    have hregs (kind : Nat) (fields : List (Nat × List Byte)) :=
      (State.onlyPosts_mgcEvent (t.setReg .MGC_SVC_STATUS (t.reg .MGC_SVC_STATUS + 2 ^ k)) kind fields).2
    refine ⟨hkeeps.trans ((keepsService_setReg t _ 0 0 (by decide)).trans (hevent _ _)), fun n => ?_, fun n => ?_⟩
    · rw [hregs _ _ .MGC_SVC_VAL 0 n (by decide), State.reg_setReg_ne _ _ _ _ _ _ (by decide), hvals]
    · rw [hregs _ _ .MGC_SVC_STATUS 0 0 (by decide), State.reg_setReg_self, testBit_add_two_pow hclear, hbits, hsplit, hcrossed,
        Bool.and_true, Bool.or_assoc]

theorem State.shown_latched (s : State) : ∃ t, Shown s 12 t ∧ Latched t 12 s.serviceEval := by
  refine ⟨_, foldState_range _ s ⟨KeepsService.refl s, rfl, fun n hn => absurd hn (by omega)⟩ 12 fun k _ t => Shown.succ, ?_⟩
  rw [s.serviceEval_eq]
  exact foldState_range _ _ ⟨KeepsService.refl _, fun n => rfl, fun n => by simp⟩ 12 fun k _ t => Latched.succ

end Sys2Proof.Machine
end
section
/-!
PROOFS. The ledger's books, their audits and their snapshot (R671–R674), and the commands of thresholds, windows and counters
(R157, R158, R662, R755).
-/
namespace Sys2Proof.Machine
open Sys2Proof.Safety

/-! ### What a book's instance has outstanding (R671, R672) -/

/-- The registers that a book's instance rests on. -/
def bookReads : List Field :=
  [.CTX_RING_TAIL, .CTX_RING_HEAD, .CTX_EVT_TAIL, .CTX_EVT_ACK, .TILE_WIN_VALID, .TILE_WIN_TYPE, .TILE_WIN_CMODE, .TILE_WIN_CSEL]

section
variable {fs : List Field} {s t : State} (h : Alters [.regs, .mgc] fs s t) (hfs : ∀ f ∈ bookReads, f ∉ fs)
include h hfs

theorem State.held_of_alters (book inst : Nat) : t.held book inst = s.held book inst := by
  have hreg (f : Field) (i n : Nat) (hf : f ∈ bookReads) : t.reg f i n = s.reg f i n := h.reg f i n (hfs f hf)
  have hclus : t.clus = s.clus := h.agree .clus (by decide)
  have hhomes : t.homes = s.homes := h.agree .homes (by decide)
  have hcpls : t.cpls = s.cpls := h.agree .cpls (by decide)
  have hposted : t.posted = s.posted := h.agree .posted (by decide)
  have hhost : t.host = s.host := h.agree .host (by decide)
  have hcp : t.cp = s.cp := h.agree .cp (by decide)
  have hcodec : t.codec = s.codec := h.agree .codec (by decide)
  unfold State.held State.slotHold State.isSet State.clu State.home State.cpl
  simp only [hclus, hhomes, hcpls, hposted, hhost, hcp, hcodec, hreg .CTX_RING_TAIL _ _ (by decide),
    hreg .CTX_RING_HEAD _ _ (by decide), hreg .CTX_EVT_TAIL _ _ (by decide), hreg .CTX_EVT_ACK _ _ (by decide),
    hreg .TILE_WIN_VALID _ _ (by decide), hreg .TILE_WIN_TYPE _ _ (by decide), hreg .TILE_WIN_CMODE _ _ (by decide),
    hreg .TILE_WIN_CSEL _ _ (by decide)]

theorem State.required_of_alters (book inst : Nat) : t.required book inst = s.required book inst := by
  unfold State.required
  rw [State.held_of_alters h hfs]

theorem State.bookOut_of_alters (hleak : t.mgc.leak = s.mgc.leak) (book inst : Nat) : t.bookOut book inst = s.bookOut book inst := by
  unfold State.bookOut
  rw [State.held_of_alters h hfs, hleak]

end

/-! ### An audit of one instance (R673, R674) -/

/-- An audit is counted, and the instance waits to leave its quiescent point again. -/
def State.audited (s : State) (book inst : Nat) : State :=
  { s.count .MGC_LDG_AUDITS 0 book with mgc := { s.mgc with unquiet := NMap.erase s.mgc.unquiet (book * 65536 + inst) } }

/-- A failed audit is counted and shown. -/
def State.unbalanced (s : State) (book inst : Nat) : State :=
  ((s.count .MGC_LDG_FAILS 0 book).setReg .MGC_LDG_LAST (inst + 65536) 0 book).keep 7

/-- An instance is rebased to `cap`: its leak is forgotten, and a link's credit is made whole. -/
def State.rebased (s : State) (book inst cap : Nat) : State :=
  if book = 2 then
    { s with mgc := { s.mgc with leak := NMap.erase s.mgc.leak (book * 65536 + inst) } }.onRol (inst / 8) fun r =>
      { r with credit := NMap.set 0 r.credit (inst % 8) cap }
  else if book = 3 then
    { s with mgc := { s.mgc with leak := NMap.erase s.mgc.leak (book * 65536 + inst) } }.onRol inst fun r =>
      { r with credit := NMap.set 0 r.credit 7 cap }
  else { s with mgc := { s.mgc with leak := NMap.erase s.mgc.leak (book * 65536 + inst) } }

/-- How much an instance can have outstanding, where the spec bounds it. -/
def State.bookCap (s : State) (book inst : Nat) : Nat :=
  let cap := [2048, 8192, 0, 0, 8, 1024, 768, 8192, 2 ^ s.reg .CTX_RING_LOG2, 2 ^ s.reg .CTX_EVT_LOG2, 0].getD book 0
  if book = 2 then NMap.get 0 (s.cpl (inst / 8)).rol.grant (inst % 8)
  else if book = 3 then NMap.get 0 (s.cpl inst).rol.grant 7 else cap

/-- The event of a failed audit. -/
def State.reportAudit (s : State) (book inst found want : Nat) : State :=
  s.mgcEvent 0x51 [(1, leBytes 1 book), (2, leBytes 2 inst), (0x10, leBytes 4 found), (0x14, leBytes 4 want),
    (0x18, leBytes 4 (s.bookCap book inst - found))]

theorem State.auditBook_eq (s : State) (book inst : Nat) : s.auditBook book inst =
    if (s.audited book inst).bookOut book inst = (s.audited book inst).required book inst then
      (s.audited book inst).setReg .MGC_LDG_LAST inst 0 book
    else (((s.audited book inst).unbalanced book inst).reportAudit book inst ((s.audited book inst).bookOut book inst)
      ((s.audited book inst).required book inst)).rebased book inst (((s.audited book inst).unbalanced book inst).bookCap book inst) := by
  unfold State.auditBook
  dsimp only
  rw [← State.rebased]
  rfl

theorem State.alters_audited (s : State) (book inst : Nat) : Alters [.regs, .mgc] [.MGC_LDG_AUDITS] s (s.audited book inst) :=
  ⟨by simp [State.audited, Same], (s.alters_count _ _ _ _).2⟩

theorem State.alters_unbalanced (s : State) (book inst : Nat) :
    Alters [.regs, .mgc] [.MGC_LDG_FAILS, .MGC_LDG_LAST] s (s.unbalanced book inst) :=
  ⟨by simp [State.unbalanced, State.keep, Same], ((s.alters_count .MGC_LDG_FAILS 0 book 1).comp
    (State.alters_setReg _ .MGC_LDG_LAST (inst + 65536) 0 book) (ch := [.regs]) (by decide) (by decide)).2⟩

theorem State.reg_unbalanced (s : State) (book inst : Nat) (f : Field) (i n : Nat) : (s.unbalanced book inst).reg f i n =
    ((s.count .MGC_LDG_FAILS 0 book).setReg .MGC_LDG_LAST (inst + 65536) 0 book).reg f i n := rfl

theorem State.alters_rebased (s : State) (book inst cap : Nat) : Alters [.mgc, .cpls] [] s (s.rebased book inst cap) := by
  have hleak : Alters [.mgc, .cpls] [] s { s with mgc := { s.mgc with leak := NMap.erase s.mgc.leak (book * 65536 + inst) } } :=
    .of_regs (by simp [Same]) rfl
  have hrol (u : State) (n : Nat) (f : RolSt → RolSt) : Alters [.mgc, .cpls] [] u (u.onRol n f) :=
    (u.alters_onRol n f).mono (by decide) (by decide)
  unfold State.rebased
  split
  · exact hleak.trans (hrol _ _ _)
  split
  · exact hleak.trans (hrol _ _ _)
  · exact hleak

theorem State.leak_rebased (s : State) (book inst cap : Nat) :
    NMap.find? (s.rebased book inst cap).mgc.leak (book * 65536 + inst) = none := by
  have hrol (u : State) (n : Nat) (f : RolSt → RolSt) : (u.onRol n f).mgc = u.mgc := (u.alters_onRol n f).agree .mgc (by decide)
  have herase : NMap.find? (NMap.erase s.mgc.leak (book * 65536 + inst)) (book * 65536 + inst) = none := NMap.find?_erase_self _ _
  unfold State.rebased
  split
  · rw [hrol]; exact herase
  split
  · rw [hrol]; exact herase
  · exact herase

/-- What an audit that fails leaves behind after it is counted: an event, and the rebased instance. -/
theorem State.alters_report (s : State) (book inst found want cap : Nat) :
    Alters (.cpls :: postParts) postRegs s ((s.reportAudit book inst found want).rebased book inst cap) :=
  Alters.comp (s.onlyPosts_mgcEvent 0x51 _) (State.alters_rebased _ book inst cap) (by decide) (by decide)

section
variable (s : State) (book inst : Nat)

theorem State.audited_out : (s.audited book inst).bookOut book inst = s.bookOut book inst :=
  State.bookOut_of_alters (s.alters_audited book inst) (by decide) rfl book inst

theorem State.audited_required : (s.audited book inst).required book inst = s.required book inst :=
  State.required_of_alters (s.alters_audited book inst) (by decide) book inst

theorem State.auditBook_balanced (h : s.bookOut book inst = s.required book inst) :
    s.auditBook book inst = (s.audited book inst).setReg .MGC_LDG_LAST inst 0 book := by
  rw [s.auditBook_eq, s.audited_out, s.audited_required, if_pos h]

theorem State.auditBook_unbalanced (h : s.bookOut book inst ≠ s.required book inst) : ∃ cap, s.auditBook book inst =
    (((s.audited book inst).unbalanced book inst).reportAudit book inst (s.bookOut book inst) (s.required book inst)).rebased
      book inst cap := by
  rw [s.auditBook_eq, s.audited_out, s.audited_required, if_neg h]
  exact ⟨_, rfl⟩

end

theorem State.audits_audited (s : State) (book inst b : Nat) : (s.audited book inst).reg .MGC_LDG_AUDITS 0 b =
    if b = book then satAdd32 (s.reg .MGC_LDG_AUDITS 0 book) 1 else s.reg .MGC_LDG_AUDITS 0 b :=
  (s.reg_count .MGC_LDG_AUDITS .MGC_LDG_AUDITS 0 0 book b 1).trans (by simp)

/-- The registers that an audit may change, besides those of its event. -/
def auditRegs : List Field := [.MGC_LDG_AUDITS, .MGC_LDG_LAST, .MGC_LDG_FAILS]

section
variable {s : State} {book inst : Nat}

theorem auditBook_passes (h : s.bookOut book inst = s.required book inst) :
    Alters [.regs, .mgc] [.MGC_LDG_AUDITS, .MGC_LDG_LAST] s (s.auditBook book inst)
      ∧ (s.auditBook book inst).mgc = { s.mgc with unquiet := NMap.erase s.mgc.unquiet (book * 65536 + inst) }
      ∧ (s.auditBook book inst).reg .MGC_LDG_LAST 0 book = inst
      ∧ ∀ b, (s.auditBook book inst).reg .MGC_LDG_AUDITS 0 b = (s.audited book inst).reg .MGC_LDG_AUDITS 0 b := by
  rw [s.auditBook_balanced book inst h]
  exact ⟨(s.alters_audited book inst).comp (State.alters_setReg _ _ _ _ _) (by decide) (by decide), State.setReg_mgc _ _ _ _ _,
    State.reg_setReg_self _ _ _ _ _, fun b => State.reg_setReg_ne _ _ _ _ _ _ (by decide)⟩

theorem auditBook_fails (h : s.bookOut book inst ≠ s.required book inst) :
    Alters (.cpls :: postParts) (auditRegs ++ postRegs) s (s.auditBook book inst)
      ∧ (s.auditBook book inst).reg .MGC_LDG_FAILS 0 book = satAdd32 (s.reg .MGC_LDG_FAILS 0 book) 1
      ∧ (s.auditBook book inst).reg .MGC_LDG_LAST 0 book = inst + 65536
      ∧ NMap.find? (s.auditBook book inst).mgc.leak (book * 65536 + inst) = none
      ∧ ∀ b, (s.auditBook book inst).reg .MGC_LDG_AUDITS 0 b = (s.audited book inst).reg .MGC_LDG_AUDITS 0 b := by
  obtain ⟨cap, heq⟩ := s.auditBook_unbalanced book inst h
  have hcount := s.alters_audited book inst
  have hfail := (s.audited book inst).alters_unbalanced book inst
  have hreport := ((s.audited book inst).unbalanced book inst).alters_report book inst (s.bookOut book inst) (s.required book inst) cap
  rw [heq]
  refine ⟨(hcount.comp hfail (ch := .cpls :: postParts) (fs := auditRegs ++ postRegs) (by decide) (by decide)).trans
      (hreport.mono (by decide) (by decide)), ?_, ?_, State.leak_rebased _ _ _ _, fun b => ?_⟩
  · rw [hreport.reg .MGC_LDG_FAILS 0 book (by decide), ← hcount.reg .MGC_LDG_FAILS 0 book (by decide)]
    rw [State.reg_unbalanced, State.reg_setReg_ne _ _ _ _ _ _ (by decide)]
    exact State.reg_setReg_self _ _ _ _ _
  · rw [hreport.reg .MGC_LDG_LAST 0 book (by decide), State.reg_unbalanced]
    exact State.reg_setReg_self _ _ _ _ _
  · rw [hreport.reg .MGC_LDG_AUDITS 0 b (by decide), hfail.reg .MGC_LDG_AUDITS 0 b (by decide)]

/-! ### An audit of every instance -/

/-- What an audit changes, and that its counters do not fall while they have 32 bits. -/
def Audits (s t : State) : Prop := Alters (.cpls :: postParts) (auditRegs ++ postRegs) s t ∧
  ∀ b, s.reg .MGC_LDG_AUDITS 0 b ≤ 0xFFFFFFFF →
    s.reg .MGC_LDG_AUDITS 0 b ≤ t.reg .MGC_LDG_AUDITS 0 b ∧ t.reg .MGC_LDG_AUDITS 0 b ≤ 0xFFFFFFFF

theorem Audits.refl (s : State) : Audits s s := ⟨Alters.refl _ _ s, fun _ hb => ⟨Nat.le_refl _, hb⟩⟩

theorem Audits.trans {t u : State} (h : Audits s t) (h' : Audits t u) : Audits s u :=
  ⟨h.1.trans h'.1, fun b hb => ⟨(h.2 b hb).1.trans (h'.2 b (h.2 b hb).2).1, (h'.2 b (h.2 b hb).2).2⟩⟩

theorem Audits.foldState {α : Type} {f : State → α → State} (hf : ∀ s a, Audits s (f s a)) (l : List α) (s : State) :
    Audits s (foldState f l s) :=
  foldState_keeps (p := Audits s) f l s (Audits.refl s) fun t a h => h.trans (hf t a)

theorem audits_auditBook (s : State) (book inst : Nat) : Audits s (s.auditBook book inst) := by
  have hrise (b : Nat) (hb : s.reg .MGC_LDG_AUDITS 0 b ≤ 0xFFFFFFFF) :
      s.reg .MGC_LDG_AUDITS 0 b ≤ (s.audited book inst).reg .MGC_LDG_AUDITS 0 b
        ∧ (s.audited book inst).reg .MGC_LDG_AUDITS 0 b ≤ 0xFFFFFFFF := by
    rw [s.audits_audited]
    unfold satAdd32
    split
    · next heq => subst heq; omega
    · exact ⟨Nat.le_refl _, hb⟩
  by_cases h : s.bookOut book inst = s.required book inst
  · obtain ⟨halters, -, -, haudits⟩ := auditBook_passes h
    exact ⟨halters.mono (by decide) (by decide), fun b hb => by rw [haudits]; exact hrise b hb⟩
  · obtain ⟨halters, -, -, -, haudits⟩ := auditBook_fails h
    exact ⟨halters, fun b hb => by rw [haudits]; exact hrise b hb⟩

theorem audits_setLast (s : State) (book v : Nat) : Audits s (s.setReg .MGC_LDG_LAST v 0 book) := by
  refine ⟨(s.alters_setReg _ _ _ _).mono (by decide) (by decide), fun b hb => ?_⟩
  rw [State.reg_setReg_ne _ _ _ _ _ _ (by decide)]
  exact ⟨Nat.le_refl _, hb⟩

end

/-! ### The ledger's snapshot (R671) -/

/-- The sum of what the instances of a book have outstanding, `out` being that of the mesh's book. -/
def State.bookSum (s : State) (out book : Nat) : Nat := ((bookInsts book).map (s.bookOut book)).sum + if book = 4 then out else 0

/-- The registers of a snapshot, besides its time. -/
def snapRegs : List Field := [.MGC_LDG_ISSUED_LO, .MGC_LDG_ISSUED_HI, .MGC_LDG_RETURNED_LO, .MGC_LDG_RETURNED_HI, .MGC_LDG_OUT]

/-- The snapshot of one book. -/
def State.snapBook (issued out : Nat) (s : State) (book : Nat) : State :=
  let insts := bookInsts book
  let o := s.bookSum out book
  let i := (insts.map fun n => NMap.get 0 s.mgc.issued (book * 65536 + n)).sum + (if book = 4 then issued else 0)
  let s := s.setReg64 .MGC_LDG_ISSUED_LO .MGC_LDG_ISSUED_HI i 0 book
  (s.setReg64 .MGC_LDG_RETURNED_LO .MGC_LDG_RETURNED_HI (i - o) 0 book).setReg .MGC_LDG_OUT (o % 2 ^ 32) 0 book

theorem applyLedgerSnap_eq (issued out : Nat) (s : State) : applyLedgerSnap issued out s =
    foldState (State.snapBook issued out) (List.range 11) (s.setReg64 .MGC_LDG_SNAP_TIME_LO .MGC_LDG_SNAP_TIME_HI s.time.now) := rfl

/-- The first `k` books are shown in the snapshot. -/
def Snapped (s : State) (out k : Nat) (t : State) : Prop :=
  Alters [.regs] snapRegs s t ∧ ∀ book < k, t.reg .MGC_LDG_OUT 0 book = s.bookSum out book % 2 ^ 32

theorem State.bookSum_of_alters {fs : List Field} {s t : State} (h : Alters [.regs] fs s t) (hfs : ∀ f ∈ bookReads, f ∉ fs)
    (out book : Nat) : t.bookSum out book = s.bookSum out book := by
  have hmgc : t.mgc = s.mgc := h.agree .mgc (by decide)
  have hout : t.bookOut book = s.bookOut book :=
    funext (State.bookOut_of_alters (h.mono (by decide) (List.Subset.refl fs)) hfs (congrArg _ hmgc) book)
  unfold State.bookSum
  rw [hout]

theorem Snapped.succ {s t : State} {issued out k : Nat} (h : Snapped s out k t) : Snapped s out (k + 1) (t.snapBook issued out k) := by
  obtain ⟨halters, hout⟩ := h
  have hpair (u : State) (lo hi : Field) (v : Nat) (hsub : [lo, hi] ⊆ snapRegs) : Alters [.regs] snapRegs u (u.setReg64 lo hi v 0 k) :=
    (u.alters_setReg64 lo hi v 0 k).mono (List.Subset.refl _) hsub
  refine ⟨halters.trans ((hpair t _ _ _ (by decide)).trans ((hpair _ _ _ _ (by decide)).trans
    ((State.alters_setReg _ _ _ _ _).mono (by decide) (by decide)))), fun book hbook => ?_⟩
  unfold State.snapBook
  dsimp only
  rw [State.reg_setReg, State.reg_setReg64, State.reg_setReg64]
  by_cases heq : book = k
  · subst heq
    simp [State.bookSum_of_alters halters (by decide)]
  · simp [heq, hout book (by omega)]

theorem applyLedgerSnap_snapped (s : State) (issued out : Nat) :
    Snapped (s.setReg64 .MGC_LDG_SNAP_TIME_LO .MGC_LDG_SNAP_TIME_HI s.time.now) out 11 (applyLedgerSnap issued out s) := by
  rw [applyLedgerSnap_eq]
  exact foldState_range _ _ ⟨Alters.refl _ _ _, fun book hbook => absurd hbook (by omega)⟩ 11 fun k _ t => Snapped.succ

theorem State.reg64_snapTime (s : State) (v : Nat) :
    (s.setReg64 .MGC_LDG_SNAP_TIME_LO .MGC_LDG_SNAP_TIME_HI v).reg64 .MGC_LDG_SNAP_TIME_LO .MGC_LDG_SNAP_TIME_HI = v % 2 ^ 64 := by
  unfold State.reg64
  simp [State.reg_setReg64, Field.spec]
  omega

/-! ### The commands -/

theorem exec_serviceEval (s : State) : exec .serviceEval s = execServiceEval s := rfl

theorem exec_mgcSvcClear (s : State) : exec .mgcSvcClear s = execMgcSvcClear s := rfl

theorem exec_errorWindowRoll (s : State) : exec .errorWindowRoll s = execErrorWindowRoll s := rfl

theorem exec_ledgerAudit (book : Fin 11) (inst : Nat) (s : State) : exec (.ledgerAudit book inst) s = execLedgerAudit book inst s := rfl

theorem exec_mgcLdgAudit (s : State) : exec .mgcLdgAudit s = execMgcLdgAudit s := rfl

theorem exec_mgcLdgSnap (issued out : Nat) (s : State) : exec (.mgcLdgSnap issued out) s = execMgcLdgSnap issued out s := rfl

theorem exec_corCntClr (core : Fin 256) (s : State) : exec (.corCntClr core) s = execCorCntClr core s := rfl

/-- The state after the issue counters of a core are cleared (R157). -/
def State.clearCounts (s : State) (c : Nat) : State :=
  ((s.setReg64 .COR_ISSUE_CNT_LO .COR_ISSUE_CNT_HI 0 c).setReg64 .COR_DUAL_CNT_LO .COR_DUAL_CNT_HI 0 c).setReg64
    .COR_IDLE_CNT_LO .COR_IDLE_CNT_HI 0 c

theorem corCntClr_goes {s : State} {core : Fin 256} (hclk : s.clocked (core.val / 4) = true) :
    Goes (.corCntClr core) s (s.clearCounts core) := by
  unfold Goes
  rw [exec_corCntClr, execCorCntClr]
  simp only [done, clusterOf, hclk]
  rfl

theorem State.reg_clearCounts (s : State) (c : Nat) (f : Field) (i n : Nat) : (s.clearCounts c).reg f i n =
    if (f, i, n) ∈ [Field.COR_ISSUE_CNT_LO, .COR_ISSUE_CNT_HI, .COR_DUAL_CNT_LO, .COR_DUAL_CNT_HI, .COR_IDLE_CNT_LO, .COR_IDLE_CNT_HI].map
      fun f => (f, c, 0) then 0 else s.reg f i n := by
  unfold State.clearCounts
  simp only [State.reg_setReg64, List.map, List.mem_cons, List.not_mem_nil, Prod.mk.injEq, or_false, Nat.zero_mod, Nat.zero_div,
    Nat.zero_shiftRight]
  by_cases h : i = c ∧ n = 0
  · obtain ⟨rfl, rfl⟩ := h
    simp only [and_true]
    split_ifs <;> simp_all
  · simp [h]

theorem ledgerAudit_waits {s : State} {book : Fin 11} {inst : Nat} (hquiet : s.quiescent book inst = false) :
    Goes (.ledgerAudit book inst) s s := by
  unfold Goes
  rw [exec_ledgerAudit, execLedgerAudit]
  simp [done, hquiet]

theorem errorWindowRoll_holds {s : State} (hwin : s.time.now / windowTicks = s.mgc.window) : Goes .errorWindowRoll s s := by
  unfold Goes
  rw [exec_errorWindowRoll, execErrorWindowRoll]
  simp [done, hwin]

section
variable {s : State} {book : Fin 11} {inst : Nat} (hbrake : s.isSet .BRK_BRAKED = false)
include hbrake

theorem ledgerAudit_goes (hhas : bookHas book inst = true) (hdue : NMap.find? s.mgc.unquiet (book * 65536 + inst) ≠ none)
    (hquiet : s.quiescent book inst = true) : Goes (.ledgerAudit book inst) s (s.auditBook book inst) := by
  have hsome : (NMap.find? s.mgc.unquiet (book * 65536 + inst)).isNone = false := by
    rw [Option.isNone_eq_false_iff]
    exact Option.isSome_iff_ne_none.2 hdue
  unfold Goes
  rw [exec_ledgerAudit, execLedgerAudit]
  simp [done, hbrake, hhas, hsome, hquiet]

theorem mgcLdgAudit_ends : ∃ t, Goes .mgcLdgAudit s t ∧ Audits s t := by
  unfold Goes
  rw [exec_mgcLdgAudit, execMgcLdgAudit]
  simp only [done, hbrake]
  refine ⟨_, rfl, Audits.foldState (fun t book => Audits.foldState (fun u inst => ?_) _ t) _ s⟩
  split
  · exact audits_auditBook u book inst
  · exact audits_setLast u book _

theorem mgcSvcClear_goes : Goes .mgcSvcClear s
    (s.setReg .MGC_SVC_STATUS (natOfBits 12 fun n => (s.reg .MGC_SVC_STATUS).testBit n && s.svcCrossed n)) := by
  unfold Goes
  rw [exec_mgcSvcClear, execMgcSvcClear, ← natOfBits_eq_sum]
  simp only [done, hbrake]
  rfl

theorem errorWindowRoll_goes (hwin : s.time.now / windowTicks ≠ s.mgc.window) : Goes .errorWindowRoll s
    { s with mgc := { s.mgc with window := s.time.now / windowTicks, ueGran := 0, ueWord := 0, cluUe := [], cplDown := [] },
             mem := { s.mem with ueWin := [] } } := by
  unfold Goes
  rw [exec_errorWindowRoll, execErrorWindowRoll]
  simp [done, hbrake, hwin]

theorem serviceEval_goes (hboot : s.booted = true) (hrun : s.isSet .MGC_RESTARTING = false) : Goes .serviceEval s s.serviceEval := by
  unfold Goes
  rw [exec_serviceEval, execServiceEval]
  simp [done, hbrake, hboot, hrun]

theorem mgcLdgSnap_goes {issued out : Nat} (hle : out ≤ issued) :
    Goes (.mgcLdgSnap issued out) s (s.later 9 (cfgSrc .MGC 0 0x500) (.ledgerSnap issued out)) := by
  unfold Goes
  rw [exec_mgcLdgSnap, execMgcLdgSnap]
  simp [done, hbrake, Nat.not_lt.2 hle]

end

/-- Settles O42: thresholds show and latch their quantities, audits count and rebase, and a snapshot shows each book. -/
theorem serviceAndLedger : Obligations.ServiceAndLedger := by
  unfold Obligations.ServiceAndLedger
  refine ⟨fun s hbrake hboot hrun => ?eval, fun s hbrake => ?clear, fun s hbrake => ⟨errorWindowRoll_holds, fun hwin => ?roll⟩,
    fun s book inst hbrake hhas hdue hquiet => ⟨fun h => ?passes, fun h => ?fails⟩, fun s book inst _ => ledgerAudit_waits,
    fun s hbrake => ?all, fun s issued out hbrake hle => ⟨_, mgcLdgSnap_goes hbrake hle, s.queues_later _ _ _⟩,
    fun s issued out => ?snap, fun s core hclk => ?counts⟩
  case eval =>
    obtain ⟨t, ⟨hshown, hstatus, hvals⟩, hlatched, hkept, hbits⟩ := s.shown_latched
    refine ⟨_, serviceEval_goes hbrake hboot hrun, s.onlyPosts_serviceEval, fun n hn => ⟨(hkept n).trans (hvals n hn), ?_⟩⟩
    rw [hbits, hstatus, hshown.svcCrossed, decide_eq_true hn, Bool.true_and, State.svcCrossed]
  case clear =>
    refine ⟨_, mgcSvcClear_goes hbrake, s.alters_setReg _ _ _ _, fun n hn => ?_⟩
    rw [State.reg_setReg_self, testBit_natOfBits, decide_eq_true hn, Bool.true_and]
  case roll => exact ⟨_, errorWindowRoll_goes hbrake hwin, by simp [Same], rfl, rfl⟩
  case passes =>
    obtain ⟨⟨hsame, hregs⟩, hmgc, hlast, haudits⟩ := auditBook_passes h
    refine ⟨_, ledgerAudit_goes hbrake hhas hdue hquiet, hsame, hregs, ?_, hlast, hmgc⟩
    rw [haudits, s.audits_audited, if_pos rfl]
  case fails =>
    obtain ⟨⟨hsame, hregs⟩, hfails, hlast, hleak, haudits⟩ := auditBook_fails h
    refine ⟨_, ledgerAudit_goes hbrake hhas hdue hquiet, hsame, hregs, ?_, hfails, hlast, hleak⟩
    rw [haudits, s.audits_audited, if_pos rfl]
  case all =>
    obtain ⟨t, hgoes, ⟨hsame, hregs⟩, haudits⟩ := mgcLdgAudit_ends hbrake
    exact ⟨t, hgoes, hsame, hregs, fun book _ hb => (haudits book hb).1⟩
  case snap =>
    intro t
    have htime := s.alters_setReg64 .MGC_LDG_SNAP_TIME_LO .MGC_LDG_SNAP_TIME_HI s.time.now 0 0
    obtain ⟨halters, hout⟩ := applyLedgerSnap_snapped s issued out
    refine ⟨?_, htime.1.trans halters.1, fun book hbook => ?_⟩
    · rw [← s.reg64_snapTime s.time.now, State.reg64, State.reg64]
      rw [show t.reg .MGC_LDG_SNAP_TIME_LO = _ from halters.reg .MGC_LDG_SNAP_TIME_LO 0 0 (by decide),
        show t.reg .MGC_LDG_SNAP_TIME_HI = _ from halters.reg .MGC_LDG_SNAP_TIME_HI 0 0 (by decide)]
    · rw [show t.reg .MGC_LDG_OUT 0 book = _ from hout book hbook, State.bookSum_of_alters htime (by decide), State.bookSum]
  case counts =>
    refine ⟨_, corCntClr_goes hclk, ?_, ?_, ?_, ?_, fun f i n hf => (s.reg_clearCounts core f i n).trans (if_neg hf)⟩
    · simp [State.reg64, State.reg_clearCounts]
    · simp [State.reg64, State.reg_clearCounts]
    · simp [State.reg64, State.reg_clearCounts]
    · simp [Same, State.clearCounts]

end Sys2Proof.Machine
end
section
/-!
PROOFS. The words of a hand's instructions: what is written is read back (R159, R160).
-/
namespace Sys2Proof

theorem bitVecOf_getLsbD (w : DWord) (k : Nat) : bitVecOf (w.getLsbD k) = w.extractLsb' k 1 := by
  ext j hj
  obtain rfl : j = 0 := by omega
  simp [bitVecOf]

theorem bitVecOf_inj {a b : Bool} (h : bitVecOf a = bitVecOf b) : a = b := BitVec.ofBool_eq_iff_eq.1 h

theorem append_eq_append_iff {v w : Nat} {x x' : BitVec v} {y y' : BitVec w} : x ++ y = x' ++ y' ↔ x = x' ∧ y = y' := by
  refine ⟨fun h => ⟨?_, ?_⟩, fun ⟨hx, hy⟩ => by rw [hx, hy]⟩
  · rw [← BitVec.extractLsb'_append_eq_left (a := x) (b := y), h, BitVec.extractLsb'_append_eq_left]
  · rw [← BitVec.extractLsb'_append_eq_right (a := x) (b := y), h, BitVec.extractLsb'_append_eq_right]

/-- The fields, read from a word where R160 places them, make that word again. -/
theorem wordOfInsn_insnOfWords (w0 w1 : DWord) : wordOfInsn (opcodeOfWord w0) (insnOfWords w0 w1) = w0 := by
  simp only [wordOfInsn, opcodeOfWord, insnOfWords, bitVecOf_getLsbD]
  iterate 13 rw [BitVec.extractLsb'_append_extractLsb'_eq_extractLsb' (by decide)]
  exact BitVec.extractLsb'_eq_self

/-- A word has one opcode and one set of fields; the second word is beside it. -/
theorem wordOfInsn_inj {opc opc' : BitVec 8} {i j : Insn} (h : wordOfInsn opc i = wordOfInsn opc' j) :
    opc = opc' ∧ i = { j with w1 := i.w1 } := by
  unfold wordOfInsn at h
  iterate 13 rw [append_eq_append_iff] at h
  obtain ⟨⟨⟨⟨⟨⟨⟨⟨⟨⟨⟨⟨⟨hopc, hprd⟩, hpiv⟩, hdst⟩, hsra⟩, hsrb⟩, hsrc⟩, hlng⟩, hua⟩, hub⟩, huc⟩, himb⟩, htyp⟩,
    hfn⟩ := h
  refine ⟨hopc, ?_⟩
  rw [← hprd, ← bitVecOf_inj hpiv, ← hdst, ← hsra, ← hsrb, ← hsrc, ← bitVecOf_inj hlng, ← bitVecOf_inj hua, ← bitVecOf_inj hub,
    ← bitVecOf_inj huc, ← bitVecOf_inj himb, ← htyp, ← hfn]

theorem Insn.w1_of_wf {i : Insn} (hwf : i.wf = true) : (if i.lng then i.w1 else 0) = i.w1 := by
  unfold Insn.wf at hwf
  split <;> simp_all

theorem read_wordOfInsn (opc : BitVec 8) {i : Insn} (hwf : i.wf = true) :
    opcodeOfWord (wordOfInsn opc i) = opc ∧ insnOfWords (wordOfInsn opc i) i.w1 = i := by
  obtain ⟨hopc, hi⟩ := wordOfInsn_inj (wordOfInsn_insnOfWords (wordOfInsn opc i) i.w1)
  have hlng : (insnOfWords (wordOfInsn opc i) i.w1).lng = i.lng := (congrArg Insn.lng hi :)
  have hw1 : (insnOfWords (wordOfInsn opc i) i.w1).w1 = i.w1 :=
    (show _ = if (insnOfWords (wordOfInsn opc i) i.w1).lng then i.w1 else 0 from rfl).trans (by rw [hlng, i.w1_of_wf hwf])
  exact ⟨hopc, by rw [hi, hw1]⟩

/-- Settles O5: the fields fill the word, each at its own bits, so it is read back as it was written. -/
theorem instructionWordsRoundTrip : Obligations.InstructionWordsRoundTrip := by
  unfold Obligations.InstructionWordsRoundTrip
  refine ⟨fun opc i hwf => read_wordOfInsn opc hwf, fun opc opc' i j _ _ hw0 hw1 => ?_, wordOfInsn_insnOfWords⟩
  obtain ⟨hopc, hi⟩ := wordOfInsn_inj hw0
  exact ⟨hopc, by rw [hi, hw1]⟩

/-- Settles O6: the kernel reads each word. -/
theorem instructionWordFields : Obligations.InstructionWordFields := by
  unfold Obligations.InstructionWordFields
  decide

end Sys2Proof
end
section
/-!
PROOFS. Integer arithmetic of one thread: values of a type and their patterns, shifts, bit fields and division (R172–R175).
-/
namespace Sys2Proof.Machine

/-! ### Values and patterns of a type -/

theorem two_pow_width (t : Ty) : 2 ^ t.width = 2 * 2 ^ (t.width - 1) := by
  cases t <;> rfl

theorem two_pow_width_int (t : Ty) : (2 : Int) ^ t.width = 2 * 2 ^ (t.width - 1) := by
  exact_mod_cast two_pow_width t

theorem loOf_le_intOf (t : Ty) (v : Nat) : loOf t ≤ intOf t v := by
  unfold loOf intOf
  have hw := two_pow_width_int t
  have hpos : (0 : Int) < 2 ^ (t.width - 1) := by positivity
  cases t.signed with
  | false =>
    simp only [Bool.false_and, Bool.false_eq_true, if_false]
    exact Int.natCast_nonneg _
  | true =>
    simp only [Bool.true_and, decide_eq_true_eq, if_true]
    split
    · next hle =>
      have : ((2 ^ (t.width - 1) : Nat) : Int) ≤ (v % 2 ^ t.width : Nat) := by exact_mod_cast hle
      push_cast at *
      omega
    · omega

theorem intOf_le_hiOf (t : Ty) (v : Nat) : intOf t v ≤ hiOf t := by
  unfold hiOf intOf
  have hw := two_pow_width_int t
  have hlt : ((v % 2 ^ t.width : Nat) : Int) < 2 ^ t.width := by exact_mod_cast Nat.mod_lt v (Nat.two_pow_pos t.width)
  cases t.signed with
  | false =>
    simp only [Bool.false_and, Bool.false_eq_true, if_false]
    omega
  | true =>
    simp only [Bool.true_and, decide_eq_true_eq, if_true]
    split
    · omega
    · next hlt' =>
      have : ((v % 2 ^ t.width : Nat) : Int) < (2 ^ (t.width - 1) : Nat) := by exact_mod_cast Nat.lt_of_not_le hlt'
      push_cast at *
      omega

theorem loOf_le_hiOf (t : Ty) : loOf t ≤ hiOf t := (loOf_le_intOf t 0).trans (intOf_le_hiOf t 0)

theorem hiOf_eq (t : Ty) : hiOf t = loOf t + 2 ^ t.width - 1 := by
  have hw := two_pow_width_int t
  unfold hiOf loOf
  split <;> omega

/-- Reading a pattern as a value of its type keeps it modulo 2^width. -/
theorem intOf_modEq (t : Ty) (v : Nat) : intOf t v ≡ v [ZMOD 2 ^ t.width] := by
  have hv : ((v % 2 ^ t.width : Nat) : Int) ≡ v [ZMOD 2 ^ t.width] := by
    push_cast
    exact Int.mod_modEq _ _
  unfold intOf
  dsimp only
  split
  · exact (Int.sub_emod_right _ _).trans hv
  · exact hv

theorem wrapInt_of_modEq {t : Ty} {x : Int} {n : Nat} (h : x ≡ n [ZMOD 2 ^ t.width]) : wrapInt t x = n % 2 ^ t.width := by
  unfold wrapInt
  rw [h.eq]
  exact_mod_cast Int.toNat_natCast (n % 2 ^ t.width)

theorem wrapInt_modEq (t : Ty) (x : Int) : (wrapInt t x : Int) ≡ x [ZMOD 2 ^ t.width] := by
  unfold wrapInt
  rw [Int.toNat_of_nonneg (Int.emod_nonneg x (by positivity))]
  exact Int.mod_modEq _ _

/-- A value in the range of a type is read back from its pattern. -/
theorem intOf_wrapInt {t : Ty} {x : Int} (hlo : loOf t ≤ x) (hhi : x ≤ hiOf t) : intOf t (wrapInt t x) = x := by
  have hmod := (intOf_modEq t (wrapInt t x)).trans (wrapInt_modEq t x)
  have h1 := loOf_le_intOf t (wrapInt t x)
  have h2 := intOf_le_hiOf t (wrapInt t x)
  have hhi' := hiOf_eq t
  have hzero := Int.eq_zero_of_abs_lt_dvd hmod.dvd (by rw [abs_lt]; omega)
  omega

theorem intOf_clampInt (t : Ty) (x : Int) : intOf t (clampInt t x) = max (loOf t) (min (hiOf t) x) :=
  intOf_wrapInt (le_max_left _ _) (max_le (loOf_le_hiOf t) (min_le_left _ _))

/-- The value of a pattern of its own width. -/
theorem intOf_of_lt {t : Ty} {v : Nat} (hv : v < 2 ^ t.width) :
    intOf t v = if t.signed ∧ v.testBit (t.width - 1) then (v : Int) - 2 ^ t.width else v := by
  have htop : v.testBit (t.width - 1) = decide (2 ^ (t.width - 1) ≤ v) := by
    have hw := two_pow_width t
    rw [Nat.testBit_eq_decide_div_mod_eq, decide_eq_decide]
    by_cases hle : 2 ^ (t.width - 1) ≤ v
    · rw [Nat.div_eq_of_lt_le (k := 1) (by omega) (by omega)]
      simp [hle]
    · rw [Nat.div_eq_of_lt (by omega)]
      simp [hle]
  simp only [intOf, Nat.mod_eq_of_lt hv, htop, Bool.and_eq_true]

/-! ### Results -/

theorem aluShr_of_long {t : Ty} {a b : Nat} (ha : a < 2 ^ t.width) (hb : t.width ≤ b) :
    aluShr t a b = if t.signed ∧ a.testBit (t.width - 1) then 2 ^ t.width - 1 else 0 := by
  have ha' : (a : Int) < 2 ^ t.width := by exact_mod_cast ha
  have hpos : (0 : Int) < 2 ^ t.width := by positivity
  rw [aluShr, Nat.min_eq_right hb, intOf_of_lt ha]
  split
  · have hdiv : ((a : Int) - 2 ^ t.width) / 2 ^ t.width = -1 := by
      rw [Int.sub_ediv_of_dvd _ (dvd_refl _), Int.ediv_self hpos.ne', Int.ediv_eq_zero_of_lt (by omega) ha']
      rfl
    have hones : (-1 : Int) ≡ (2 ^ t.width - 1 : Nat) [ZMOD 2 ^ t.width] :=
      (Int.modEq_iff_dvd).2 ⟨1, by push_cast [Nat.one_le_two_pow]; ring⟩
    rw [hdiv, wrapInt_of_modEq hones, Nat.mod_eq_of_lt (by omega)]
  · rw [Int.ediv_eq_zero_of_lt (by omega) ha', wrapInt_of_modEq (n := 0) (by rfl), Nat.zero_mod]

theorem length_filter_eq_sum (p : Nat → Bool) (l : List Nat) : (l.filter p).length = (l.map fun k => bit (p k)).sum := by
  induction l with
  | nil => rfl
  | cons k l ih => cases hp : p k <;> simp [hp, bit, ih, Nat.add_comm]

theorem aluClz_eq_iff {t : Ty} {a : Nat} (ha : a < 2 ^ t.width) (n : Nat) :
    aluClz t a = n ↔ n ≤ t.width ∧ a < 2 ^ (t.width - n) ∧ (n < t.width → 2 ^ (t.width - 1 - n) ≤ a) := by
  simp only [aluClz, Nat.mod_eq_of_lt ha]
  split
  · next hzero =>
    subst hzero
    have hpow (k : Nat) : ¬ 2 ^ k ≤ 0 := by simp
    constructor
    · rintro rfl
      simp
    · rintro ⟨hle, -, hlow⟩
      by_contra hne
      exact hpow _ (hlow (by omega))
  · next hne =>
    have hlog : Nat.log2 a < t.width := (Nat.log2_lt hne).2 ha
    constructor
    · rintro rfl
      refine ⟨by omega, ?_, fun _ => ?_⟩
      · rw [show t.width - (t.width - 1 - Nat.log2 a) = Nat.log2 a + 1 by omega]
        exact Nat.lt_log2_self
      · rw [show t.width - 1 - (t.width - 1 - Nat.log2 a) = Nat.log2 a by omega]
        exact Nat.log2_self_le hne
    · rintro ⟨hle, hlt, hlow⟩
      have hn : n ≠ t.width := by
        rintro rfl
        simp at hlt
        omega
      have : Nat.log2 a < t.width - n := (Nat.log2_lt hne).2 hlt
      have : t.width - 1 - n ≤ Nat.log2 a := (Nat.le_log2 hne).2 (hlow (by omega))
      omega

theorem testBit_aluBfe (a b k : Nat) : (aluBfe .u32 a b).testBit k =
    (decide (k < b / 256 % 256) && decide (b % 256 + k < 32) && a.testBit (b % 256 + k)) := by
  have hval : aluBfe .u32 a b = a / 2 ^ (b % 256) % 2 ^ min (b / 256 % 256) (32 - b % 256) := by
    unfold aluBfe
    dsimp only
    split
    · next hw => rw [hw, pow_zero, Nat.mod_one]
    · rfl
  rw [hval, Nat.testBit_mod_two_pow, Nat.testBit_div_two_pow, ← Bool.decide_and, Nat.add_comm k]
  congr 2
  exact propext (by omega)

/-- Bit `k` of a number after the bits `hi` down to `lo` have taken those of another. -/
theorem testBit_putBits (n v : Nat) {hi lo : Nat} (h : lo ≤ hi) (k : Nat) :
    (putBits n hi lo v).testBit k = if lo ≤ k ∧ k ≤ hi then v.testBit (k - lo) else n.testBit k := by
  have hbits : bitsOf n hi lo = n / 2 ^ lo % 2 ^ (hi + 1 - lo) := by rw [bitsOf, Nat.shiftRight_eq_div_pow]
  have hsplit : n = 2 ^ lo * (2 ^ (hi + 1 - lo) * (n / 2 ^ lo / 2 ^ (hi + 1 - lo)) + n / 2 ^ lo % 2 ^ (hi + 1 - lo)) + n % 2 ^ lo := by
    rw [Nat.div_add_mod, Nat.div_add_mod]
  have hput : putBits n hi lo v =
      2 ^ lo * (2 ^ (hi + 1 - lo) * (n / 2 ^ lo / 2 ^ (hi + 1 - lo)) + v % 2 ^ (hi + 1 - lo)) + n % 2 ^ lo := by
    unfold putBits
    rw [hbits, Nat.shiftLeft_eq, Nat.shiftLeft_eq, Nat.mul_comm _ (2 ^ lo), Nat.mul_comm _ (2 ^ lo)]
    rw [Nat.mul_add] at hsplit ⊢
    omega
  rw [hput, Nat.testBit_two_pow_mul_add _ (Nat.mod_lt _ (Nat.two_pow_pos _)),
    Nat.testBit_two_pow_mul_add _ (Nat.mod_lt _ (Nat.two_pow_pos _))]
  simp only [Nat.testBit_mod_two_pow, Nat.testBit_div_two_pow]
  by_cases hlo : k < lo
  · rw [if_pos hlo, if_neg (by omega)]
    simp [hlo]
  · rw [if_neg hlo]
    by_cases hhi : k ≤ hi
    · rw [if_pos (by omega), if_pos (by omega), decide_eq_true (by omega), Bool.true_and]
    · rw [if_neg (by omega), if_neg (by omega)]
      congr 1
      omega

theorem testBit_aluBfi (a b c k : Nat) : (aluBfi a b c).testBit k =
    if b % 256 ≤ k ∧ k < b % 256 + b / 256 % 256 ∧ k < 32 then a.testBit (k - b % 256) else c.testBit k := by
  unfold aluBfi
  dsimp only
  split
  · rw [if_neg (by omega)]
  · rw [testBit_putBits _ _ (by omega)]
    congr 1
    exact propext (by omega)

/-- Settles O7: a result is the exact one modulo 2^width; shifts and fields are read bit by bit. -/
theorem integerResultsWrap : Obligations.IntegerResultsWrap := by
  unfold Obligations.IntegerResultsWrap
  intro t ins a b c hint ha hb _
  refine ⟨fun hsat => ⟨?add, ?sub⟩, fun hsat => ⟨?addSat, ?subSat⟩, ?mul, ?fma, ?neg, rfl, fun hlong => aluShr_of_long ha hlong,
    length_filter_eq_sum _ _, aluClz_eq_iff ha, fun ht k => ?bfe, fun _ hw => ?bfeNone, fun _ k => testBit_aluBfi a b c k⟩
  case add =>
    simp only [aluAdd, hint, intSum, hsat, if_true, Bool.false_eq_true, if_false]
    exact wrapInt_of_modEq (by push_cast; exact (intOf_modEq t a).add (intOf_modEq t b))
  case sub =>
    simp only [aluSub, hint, intSum, hsat, if_true, Bool.false_eq_true, if_false]
    refine wrapInt_of_modEq (((intOf_modEq t a).sub (intOf_modEq t b)).trans ?_)
    rw [Nat.cast_sub (by omega)]
    exact Int.modEq_iff_dvd.2 ⟨1, by push_cast; ring⟩
  case addSat =>
    simp only [aluAdd, hint, intSum, hsat, if_true, intOf_clampInt]
  case subSat =>
    simp only [aluSub, hint, intSum, hsat, if_true, intOf_clampInt]
  case mul => simp only [aluMul, hint, if_true]
  case fma => simp only [aluFma, hint, if_true]
  case neg =>
    simp only [aluNeg, hint, if_true]
    refine wrapInt_of_modEq ((intOf_modEq t a).neg.trans ?_)
    rw [Nat.cast_sub (by omega)]
    exact Int.modEq_iff_dvd.2 ⟨1, by push_cast; ring⟩
  case bfe => rw [ht, testBit_aluBfe]
  case bfeNone => simp [aluBfe, hw]

/-! ### Division -/

/-- A remainder stays between its dividend and zero. -/
theorem tmod_mem_range {lo hi x y : Int} (hlo : lo ≤ x) (hhi : x ≤ hi) (hlo0 : lo ≤ 0) (hhi0 : 0 ≤ hi) :
    lo ≤ Int.tmod x y ∧ Int.tmod x y ≤ hi := by
  have habs : (Int.tmod x y).natAbs ≤ x.natAbs := by
    rw [Int.natAbs_tmod]
    exact Nat.mod_le _ _
  rcases le_or_gt 0 x with hx | hx
  · have := Int.tmod_nonneg y hx
    omega
  · have := Int.tmod_nonneg y (a := -x) (by omega)
    rw [Int.neg_tmod] at this
    omega

theorem intOf_aluRem (t : Ty) (a : Nat) {b : Nat} (hb : b ≠ 0) :
    intOf t (aluRem t a b).1 = Int.tmod (intOf t a) (intOf t b) := by
  obtain ⟨hlo, hhi⟩ := tmod_mem_range (y := intOf t b) (loOf_le_intOf t a) (intOf_le_hiOf t a)
    (by cases t <;> decide) (by cases t <;> decide)
  rw [aluRem, if_neg hb]
  exact intOf_wrapInt hlo hhi

theorem aluCmp_int {t : Ty} (hint : t.isInt = true) (code a b : Nat) : aluCmp t code a b = (cmpInt t code a b, 0) := by
  cases t <;> simp_all [aluCmp, Ty.isInt]

/-- Settles O8: only a divisor of zero raises a flag; every other quotient and remainder wraps. -/
theorem divisionCorners : Obligations.DivisionCorners := by
  unfold Obligations.DivisionCorners
  refine ⟨fun t ins a hint => ⟨by simp [aluDiv, hint], by simp [aluRem]⟩, fun ins => ⟨?_, by decide⟩, fun t ins a b c hint => ?_,
    fun t a b _ _ _ _ hb => intOf_aluRem t a hb⟩
  · rw [aluDiv, if_pos (by rfl), if_neg (by decide)]
    decide
  · simp +contextual [aluDiv, aluRem, aluAdd, aluSub, aluMul, aluFma, aluMinMax, aluCmp_int hint, hint]

end Sys2Proof.Machine
end
section
/-!
PROOFS. A fault at an instruction boundary: the hand stops there, and registers and memory keep their values (R239–R248).
-/
namespace Sys2Proof.Machine
open Sys2Proof.Safety

/-! ### What a stop leaves alone -/

/-- Memory stays, and of every core all but what stands in its slots. -/
def KeepsStorage (s t : State) : Prop := t.mem = s.mem ∧ ∀ d, ∃ slots, t.core d = { s.core d with slots := slots }

theorem KeepsStorage.of_cores {s t : State} (hmem : t.mem = s.mem) (hcores : t.cores = s.cores) : KeepsStorage s t :=
  ⟨hmem, fun d => ⟨(s.core d).slots, State.core_congr hcores d⟩⟩

theorem KeepsStorage.refl (s : State) : KeepsStorage s s := .of_cores rfl rfl

theorem KeepsStorage.trans {s t u : State} (h : KeepsStorage s t) (h' : KeepsStorage t u) : KeepsStorage s u := by
  refine ⟨h'.1.trans h.1, fun d => ?_⟩
  obtain ⟨slots, ht⟩ := h.2 d
  obtain ⟨slots', hu⟩ := h'.2 d
  exact ⟨slots', by rw [hu, ht]⟩

/-- A reading of a core that the hands in its slots do not enter. -/
theorem KeepsStorage.read {s t : State} (h : KeepsStorage s t) {α : Type} (f : Core → α)
    (hf : ∀ co slots, f { co with slots := slots } = f co) (d : Nat) : f (t.core d) = f (s.core d) := by
  obtain ⟨slots, ht⟩ := h.2 d
  rw [ht, hf]

theorem keepsStorage_setHand (s : State) (c n : Nat) (h : Hand) : KeepsStorage s (s.setHand c n h) := by
  refine ⟨(s.alters_setHand c n h).agree .mem (by decide), fun d => ?_⟩
  rw [s.core_setHand]
  split
  · next hd => exact ⟨_, by rw [hd]⟩
  · exact ⟨_, rfl⟩

theorem keepsStorage_onTask (s : State) (k : Nat) (f : Task → Task) : KeepsStorage s (s.onTask k f) :=
  have h := s.alters_onTask k f
  .of_cores (h.agree .mem (by decide)) (h.agree .cores (by decide))

theorem keepsStorage_removeHand (s : State) (c n : Nat) : KeepsStorage s (removeHand s c n) := by
  unfold removeHand
  split
  · exact .refl s
  · split
    · exact .refl s
    · exact (keepsStorage_setHand s c n _).trans (keepsStorage_onTask _ _ _)

theorem keepsStorage_removeWhere (s : State) (p : Nat → Nat → Hand → Bool) : KeepsStorage s (removeWhere s p) :=
  foldState_keeps (p := KeepsStorage s) _ _ s (.refl s) fun t _ ht => ht.trans (keepsStorage_removeHand t _ _)

theorem keepsStorage_applyPolicy (s : State) (action c n task : Nat) : KeepsStorage s (applyPolicy s action c n task) := by
  unfold applyPolicy
  split
  · exact .refl s
  · exact keepsStorage_removeHand s c n
  · exact (keepsStorage_removeWhere s _).trans (keepsStorage_onTask _ _ _)
  · exact .of_cores (by simp) (by simp)

theorem keepsStorage_postEvent (s : State) (source : Nat) (pay : List Byte) : KeepsStorage s (s.postEvent source pay) :=
  have h := same_iff.1 (s.onlyPosts_postEvent source pay).1
  .of_cores (h .mem (by decide)) (h .cores (by decide))

theorem keepsStorage_postFault (s : State) (f : FaultRec) (action c n task : Nat) :
    KeepsStorage s (postFault s f action c n task) := by
  unfold postFault
  dsimp only
  split_ifs
  · exact (keepsStorage_onTask s task _).trans (keepsStorage_postEvent _ _ _)
  · exact keepsStorage_onTask s task _

theorem keepsStorage_finishFault (s : State) (c n : Nat) (h : Hand) (f : FaultRec) : KeepsStorage s (finishFault s c n h f) :=
  ((keepsStorage_setHand s c n _).trans (keepsStorage_postFault _ _ _ _ _ _)).trans (keepsStorage_applyPolicy _ _ _ _ _)

theorem keepsStorage_finishHalt (s : State) (c n : Nat) (h : Hand) : KeepsStorage s (finishHalt s c n h) :=
  (keepsStorage_onTask s h.task _).trans (keepsStorage_setHand _ c n _)

theorem keepsStorage_settle (s : State) (c n : Nat) : KeepsStorage s (settle s c n) := by
  unfold settle
  split
  · exact .refl s
  · next h _ =>
    split
    · exact .refl s
    · split
      · exact keepsStorage_finishHalt s c n h
      · exact keepsStorage_finishFault s c n h _
      · exact .refl s

theorem keepsStorage_raiseFault (s : State) (c n : Nat) (h : Hand) (f : FaultRec) : KeepsStorage s (raiseFault s c n h f) :=
  (keepsStorage_setHand s c n _).trans (keepsStorage_settle _ c n)

/-! ### The hand that faults -/

theorem stopsWith_raiseFault (s : State) (i : Issue) (h : Hand) {f : FaultRec} {kind : Nat} (hkind : f.kind = kind)
    (hpc : f.pc = h.pc) (hresume : f.resume = h.pc) : StopsWith s i h kind (raiseFault s i.core i.slot h f) := by
  have hkeep := keepsStorage_raiseFault s i.core i.slot h f
  refine ⟨?_, hkeep.read Core.vrf (fun _ _ => rfl) _, hkeep.read Core.osb (fun _ _ => rfl) _,
    hkeep.read Core.acc (fun _ _ => rfl) _, hkeep.1⟩
  by_cases hops : h.ops = []
  · obtain ⟨b, hhand⟩ := raiseFault_idle s i.core i.slot f hops
    exact ⟨_, hhand, hresume, rfl, rfl, rfl, rfl, (if_pos hops).symm ▸ ⟨rfl, rfl⟩⟩
  · rw [raiseFault_busy s i.core i.slot f hops]
    exact ⟨_, State.hand_setHand_self _ _ _ _, rfl, rfl, rfl, rfl, rfl, (if_neg hops).symm ▸ ⟨f, rfl, hkind, hpc, hresume⟩⟩

/-- An instruction whose accesses or target are at fault raises that fault. -/
theorem issue_atFault {s : State} {i : Issue} {ins : Insn} {sp : IssueSpec} {h : Hand}
    (hcan : CanIssue s i sp.opc sp.unit ins h sp.names) (hlegal : sp.legal h = true) (hmatrix : sp.matrix h = false)
    (hready : sp.ready s (s.core i.core) h = true) {k t a : Nat} (haccess : sp.access s (s.core i.core) h = some (k, t, a)) :
    issue s i ins sp = raiseFault s i.core i.slot h (faultAt s h sp.opc ins k t a) := by
  obtain ⟨hissuer, hbreak, hpoison, hwait⟩ := hcan
  have hbreak' : ¬ (breakMask s i.core i.slot h ≠ 0 ∧ h.skipBp = false) := by
    rintro ⟨hmask, hskip⟩
    rcases hbreak with hzero | hset
    · exact hmask hzero
    · simp [hset] at hskip
  simp only [issue, hissuer, hbreak', hpoison, hlegal, hmatrix, hwait, hready, haccess, if_false, Bool.not_true,
    Bool.false_eq_true, Bool.or_self]

section
variable {cmd : Instr} {s : State} {i : Issue} {ins : Insn} {sp : IssueSpec} {h : Hand}
  (hexec : exec cmd s = .next (issue s i ins sp)) (hcan : CanIssue s i sp.opc sp.unit ins h sp.names)
include hexec hcan

/-- An instruction whose fields are not legal stops its hand with the illegal-instruction fault (R207). -/
theorem stops_of_illegal (hlegal : sp.legal h = false) : Ends cmd s (StopsWith s i h 1) :=
  ⟨_, hexec.trans (congrArg _ (issue_illegal hcan hlegal)), stopsWith_raiseFault s i h rfl rfl rfl⟩

/-- An instruction whose accesses or target are at fault stops its hand with that fault (R187, R196). -/
theorem stops_of_access (hlegal : sp.legal h = true) (hmatrix : sp.matrix h = false) (hready : sp.ready s (s.core i.core) h = true)
    {k t a : Nat} (haccess : sp.access s (s.core i.core) h = some (k, t, a)) : Ends cmd s (StopsWith s i h k) :=
  ⟨_, hexec.trans (congrArg _ (issue_atFault hcan hlegal hmatrix hready haccess)), stopsWith_raiseFault s i h rfl rfl rfl⟩

end

end Sys2Proof.Machine
end
section
/-!
PROOFS. The compare codes (R184).
-/
namespace Sys2Proof.Machine
open Sys2Proof.Safety

/-! ### Codes -/

/-- A FUN field with a bit outside the mask of its class breaks the rule of its opcode (R207). -/
theorem ruleOk_of_fn {r : OpRule} {ins : Insn} (hfn : ins.fn.toNat &&& (0x7FF - r.fnMask) ≠ 0) (vregs nd na nb nc : Nat) :
    ruleOk r vregs nd na nb nc ins = false := by
  simp [ruleOk, hfn]

/-- A compare code of 8 or more has bit 3 of FUN, which only codes below 8 leave 0. -/
theorem fn_and_ne_zero_of_code {fn : BitVec 11} (hcode : 8 ≤ fn.toNat % 16) : fn.toNat &&& (0x7FF - 7) ≠ 0 := by
  intro hzero
  have hbit : (fn.toNat &&& (0x7FF - 7)).testBit 3 = true := by
    rw [Nat.testBit_and, Bool.and_eq_true]
    refine ⟨?_, by decide⟩
    rw [Nat.testBit_eq_decide_div_mod_eq, decide_eq_true_eq]
    omega
  rw [hzero] at hbit
  exact absurd hbit (by decide)

/-! ### Floats -/

section
variable (f : Fmt) {code a b : Nat}

theorem cmpFloat_of_nan (h : (f.decode a).isNan = true ∨ (f.decode b).isNan = true) (hcode : code < 8) :
    (cmpFloat f code a b).1 = decide (code = 1 ∨ code = 7) := by
  have hun : ((f.decode a).isNan || (f.decode b).isNan) = true := Bool.or_eq_true_iff.2 h
  simp only [cmpFloat, hun]
  interval_cases code <;> rfl

theorem cmpFloat_flags (code a b : Nat) :
    (cmpFloat f code a b).2 = if f.decode a = .nan true ∨ f.decode b = .nan true then flInvalid else 0 := by
  simp only [cmpFloat, snanFlag, List.contains_cons, List.contains_nil, Bool.or_false, Bool.or_eq_true, beq_iff_eq,
    eq_comm (a := FV.nan true)]

variable (ha : (f.decode a).isNan = false) (hb : (f.decode b).isNan = false)
include ha hb

/-- Without a NaN the codes are the order of the values. -/
theorem cmpFloat_of_numbers :
    (cmpFloat f 0 a b).1 = (!FV.lt (f.decode a) (f.decode b) && !FV.lt (f.decode b) (f.decode a))
      ∧ (cmpFloat f 1 a b).1 = (FV.lt (f.decode a) (f.decode b) || FV.lt (f.decode b) (f.decode a))
      ∧ (cmpFloat f 2 a b).1 = FV.lt (f.decode a) (f.decode b) ∧ (cmpFloat f 3 a b).1 = !FV.lt (f.decode b) (f.decode a)
      ∧ (cmpFloat f 4 a b).1 = FV.lt (f.decode b) (f.decode a) ∧ (cmpFloat f 5 a b).1 = !FV.lt (f.decode a) (f.decode b)
      ∧ (cmpFloat f 6 a b).1 = true ∧ (cmpFloat f 7 a b).1 = false := by
  simp [cmpFloat, ha, hb]

end

/-- Settles O9: an integer compare is one of values, a float compare one of data; codes from 8 on are not legal. -/
theorem compareCodes : Obligations.CompareCodes := by
  unfold Obligations.CompareCodes
  refine ⟨fun t a b hint => ⟨?int, fun code _ => by rw [aluCmp_int hint]⟩, fun p hp a b code => ?float, by decide,
    fun s i ins h hcode => ⟨fun hcan => ?cmp, fun hcan => ?ucmp⟩⟩
  case int =>
    simp only [aluCmp_int hint]
    exact ⟨rfl, rfl, rfl, rfl, rfl, rfl, rfl, rfl⟩
  case float =>
    have hcmp (code : Nat) : aluCmp p.1 code a b = cmpFloat p.2.1 code (a % 2 ^ p.2.2) (b % 2 ^ p.2.2) := by
      simp only [List.mem_cons, List.not_mem_nil, or_false] at hp
      rcases hp with rfl | rfl | rfl <;> rfl
    simp only [hcmp]
    exact ⟨cmpFloat_of_nan _, cmpFloat_of_numbers _, cmpFloat_flags _ _ _ _⟩
  case cmp =>
    exact stops_of_illegal rfl hcan (ruleOk_of_fn (fn_and_ne_zero_of_code hcode) _ _ _ _ _)
  case ucmp =>
    exact stops_of_illegal rfl hcan (ruleOk_of_fn (fn_and_ne_zero_of_code hcode) _ _ _ _ _)

end Sys2Proof.Machine
end
section
/-!
PROOFS. The instructions that write a uniform register: once for the hand, and nothing else (R151, R181–R185, R200, R205, R206).
-/
namespace Sys2Proof.Machine
open Sys2Proof.Safety

/-- A write of a uniform register leaves the sticky flags alone. -/
theorem Hand.setU_keeps_flags (h : Hand) (n : Nat) (v : DWord) : { h.setU n v with flags := h.flags } = h.setU n v := by
  unfold Hand.setU
  split <;> rfl

theorem State.tileId_congr {s t : State} (hval : t.reg .MGC_TILE_ID_VALID = s.reg .MGC_TILE_ID_VALID)
    (hid : t.reg .MGC_TILE_ID = s.reg .MGC_TILE_ID) : t.tileId = s.tileId := by
  unfold State.tileId State.isSet
  rw [hval, hid]

/-- What a row that writes a uniform register asks of its issue. -/
def uniSpec (r : UniRow) (body : Issue → Insn → State → Core → Hand → State) (i : Issue) (ins : Insn) : IssueSpec :=
  { opc := r.opc, unit := r.unit, names := r.names ins, legal := fun h => r.legal h ins, ready := fun _ _ h => r.ready h,
    body := body i ins }

/-- A row whose instruction, once issued, writes its value and sets the flags. -/
theorem uniEffect_of_spec {r : UniRow} (body : Issue → Insn → State → Core → Hand → State)
    (hexec : ∀ i ins s, exec (r.cmd i ins) s = .next (issue s i ins (uniSpec r body i ins)))
    (hbody : ∀ i ins (s : State) (h : Hand), r.legal h ins = true →
      body i ins (s.issued i r.unit ins h) ((s.core i.core).chosen i r.unit) (h.issued s.coreTime ins) =
        (s.issued i r.unit ins h).setHand i.core i.slot
          { (h.issued s.coreTime ins).setU (ins.dst.toNat % 64) (r.val s i h ins) with flags := r.flags h ins }) :
    UniEffect r := by
  intro s i ins h hcan hlegal hready
  have hcl : Clear s i ins (uniSpec r body i ins) h := ⟨hcan, hlegal, rfl, hready, rfl⟩
  exact ⟨_, (hexec i ins s).trans (congrArg _ ((issue_clear hcl).trans (hbody i ins s h hlegal))), State.hand_setHand_self _ _ _ _,
    OnlyHandRegs.setHand (s.onlyHandRegs_issued i r.unit ins h) _⟩

/-- A row that leaves the flags, whose value is the same before its issue and after. -/
theorem uniEffect_of_value {r : UniRow} (val : Issue → Insn → State → Core → Hand → DWord)
    (hexec : ∀ i ins s, exec (r.cmd i ins) s = .next (issue s i ins (uniSpec r
      (fun i ins s co h => s.setHand i.core i.slot (h.setU (ins.dst.toNat % 64) (val i ins s co h))) i ins)))
    (hval : ∀ i ins (s : State) (h : Hand), r.legal h ins = true →
      val i ins (s.issued i r.unit ins h) ((s.core i.core).chosen i r.unit) (h.issued s.coreTime ins) = r.val s i h ins)
    (hflags : r.flags = fun h _ => h.flags) : UniEffect r :=
  uniEffect_of_spec _ hexec fun i ins s h hlegal => by
    rw [hval i ins s h hlegal, hflags]
    exact congrArg _ ((h.issued s.coreTime ins).setU_keeps_flags _ _).symm

theorem uniEffect_uniRow {cmd : Issue → Insn → Instr} {opc n mask : Nat} {f : Insn → Ty → Nat → Nat → Nat → DWord}
    (hexec : ∀ i ins s, exec (cmd i ins) s = .next (uniOp opc n mask i ins (f ins) s)) : UniEffect (uniRow cmd opc n mask f) :=
  uniEffect_of_value (fun _ ins _ _ h => f ins (insnTy ins) (uniA h ins (insnTy ins)) (if n ≤ 1 then 0 else uniB h ins (insnTy ins))
    (if n ≤ 2 then 0 else h.uTy (insnTy ins) ins.src.toNat)) hexec (fun _ _ _ _ _ => rfl) rfl

theorem uniEffect_testRow {cmd : Issue → Insn → Instr} {opc mask : Nat} {ok : Insn → Bool} {f : Insn → Hand → DWord → DWord}
    (hexec : ∀ i ins s, exec (cmd i ins) s = .next (predToUni opc mask (ok ins) i ins (f ins) s))
    (hread : ∀ ins (h : Hand) now m, f ins (h.issued now ins) m = f ins h m) : UniEffect (testRow cmd opc mask ok f) :=
  uniEffect_of_value (fun _ ins _ _ h => f ins h (h.p (ins.sra.toNat % 8))) hexec (fun _ ins _ h _ => hread ins h _ _) rfl

/-- Settles O12: a row writes its value once the instruction has issued; what it reads, an issue leaves alone. -/
theorem uniformInstructions : Obligations.UniformInstructions := by
  unfold Obligations.UniformInstructions uniRows
  simp only [List.forall_mem_cons, List.not_mem_nil, false_implies, implies_true, and_true]
  refine ⟨?_, ?_, ?_, ?_, ?_, ?_, ?_, ?_, ?_, ?_, ?_, ?_, ?_, ?_, ?_, ?ptest, ?pcnt, ?pmovu, ?sys, ?flg, ?rdlane⟩
  case ptest =>
    refine uniEffect_testRow (fun i ins s => ?_) fun _ _ _ _ => rfl
    refine congrArg Host.Outcome.next (congrArg (fun f => predToUni 0x65 7 _ i ins f s) ?_)
    funext h m
    dsimp only
    congr 2
    split <;> simp_all [anyLive, allLive, bne]
  case pcnt => exact uniEffect_testRow (fun _ _ _ => rfl) fun _ _ _ _ => rfl
  case pmovu => exact uniEffect_testRow (fun _ _ _ => rfl) fun _ _ _ _ => rfl
  case sys =>
    refine uniEffect_of_value _ (fun _ _ _ => rfl) (fun i ins s h hlegal => ?_) rfl
    obtain ⟨hsame, hregs, -, -⟩ := s.onlyHand_issued i .uniform ins h
    have htime : (s.issued i .uniform ins h).coreTime = s.time.now := congrArg TimeSt.now (same_iff.1 hsame .time (by decide))
    have hid := State.tileId_congr (hregs _ _ _ (by decide)) (hregs _ _ _ (by decide))
    have hsel : ins.fn.toNat % 16 ≤ 5 := of_decide_eq_true (Bool.and_eq_true_iff.1 hlegal).2
    dsimp only
    generalize ins.fn.toNat % 16 = n at hsel
    interval_cases n <;> simp only [htime, hid] <;> rfl
  case flg => exact uniEffect_of_spec _ (fun _ _ _ => rfl) fun _ _ _ _ _ => rfl
  case rdlane =>
    exact uniEffect_of_value _ (fun _ _ _ => rfl) (fun i ins s h _ => congrArg (BitVec.ofNat 64) (Core.read_chosen_issued i .vector ins
      (fun co h => srcA co h ins (insnTy ins) (selectorOf co h ins 0)) (fun _ _ _ => rfl) (s.core i.core))) rfl
  all_goals exact uniEffect_uniRow fun _ _ _ => rfl

end Sys2Proof.Machine
end
section
/-!
PROOFS. Illegal instructions, and accesses that are misaligned or unpopulated (R170, R196, R207, R235, R242).
-/
namespace Sys2Proof.Machine
open Sys2Proof.Safety

/-! ### Illegal instructions -/

theorem exec_controlSpecs {i : Issue} {ins : Insn} {p : Instr × IssueSpec} (hp : p ∈ controlSpecs i ins) (s : State) :
    exec p.1 s = .next (issue s i ins p.2) := by
  unfold controlSpecs at hp
  revert p
  simp only [List.forall_mem_cons, List.not_mem_nil, false_implies, implies_true, and_true]
  and_intros <;> rfl

/-- A matrix instruction whose fields are not legal comes to its issue alone. -/
theorem exec_matrixSpecs {s : State} {i : Issue} {ins : Insn} {h : Hand} {p : Instr × IssueSpec} (hp : p ∈ matrixSpecs i ins)
    (hcan : CanIssue s i p.2.opc p.2.unit ins h p.2.names) (hlegal : p.2.legal h = false) :
    exec p.1 s = .next (issue s i ins p.2) := by
  unfold matrixSpecs at hp
  simp only [List.mem_append, List.mem_cons, List.not_mem_nil, or_false] at hp
  rcases hp with (rfl | rfl | rfl | rfl) | hp
  · refine (show exec (.mxLd i ins) s = execMxLd i ins s from rfl).trans ?_
    have hissuer : issuer s i 0xA0 .matrix ins = some (s.core i.core, h) := hcan.1
    dsimp only at hlegal ⊢
    simp only [execMxLd, hissuer, hlegal, Bool.and_false, Bool.false_and, Bool.false_eq_true, if_false]
    rfl
  · rfl
  · rfl
  · rfl
  · split at hp <;> rename_i hmode
    all_goals
      rw [List.mem_singleton] at hp
      subst hp
    · refine (show exec (.mxCvtTile i ins) s = execMxCvtTile i ins s from rfl).trans ?_
      rw [execMxCvtTile, hmode]
      rfl
    · refine (show exec (.mxCvtReg i ins) s = execMxCvtReg i ins s from rfl).trans ?_
      rw [execMxCvtReg, if_neg hmode]
      rfl

/-- Settles O17: an instruction that breaks its opcode's rule is turned away before anything else is looked at. -/
theorem illegalInstructions : Obligations.IllegalInstructions := by
  unfold Obligations.IllegalInstructions
  refine ⟨fun s i opc ins h hopc hcan => ?unassigned, by decide, fun o hlo hhi => ?reserved,
    List.forall_mem_append.2 ⟨?alu, ?move⟩, ?uni, ?pred, ?mem,
    fun s i ins h p hp hcan hlegal => stops_of_illegal ?spec hcan hlegal⟩
  case unassigned =>
    refine stops_of_illegal (sp := unassignedOpcodeSpec opc) ?_ hcan rfl
    refine (show exec (.unassignedOpcode i opc ins) s = execUnassignedOpcode i opc ins s from rfl).trans ?_
    simp [execUnassignedOpcode, hopc, done]
  case reserved =>
    simp only [opcodeAssigned, Bool.or_eq_false_iff, decide_eq_false_iff_not]
    omega
  case alu =>
    unfold vecRows
    simp only [List.forall_mem_cons, List.not_mem_nil, false_implies, implies_true, and_true]
    and_intros <;> exact fun s i ins h hcan hlegal => stops_of_illegal rfl hcan ((Bool.and_true _).symm.trans hlegal)
  case move =>
    unfold moveRows
    simp only [List.forall_mem_cons, List.not_mem_nil, false_implies, implies_true, and_true]
    refine ⟨?_, ?_, ?_, ?_, ?_, ?sel, ?_⟩
    case sel => exact fun s i ins h hcan hlegal => stops_of_illegal rfl hcan ((Bool.and_true _).symm.trans hlegal)
    all_goals exact fun s i ins h hcan hlegal => stops_of_illegal rfl hcan hlegal
  case uni =>
    unfold uniRows
    simp only [List.forall_mem_cons, List.not_mem_nil, false_implies, implies_true, and_true]
    and_intros <;> exact fun s i ins h hcan hlegal => stops_of_illegal rfl hcan hlegal
  case pred =>
    unfold predRows
    simp only [List.forall_mem_cons, List.not_mem_nil, false_implies, implies_true, and_true]
    and_intros <;> exact fun s i ins h hcan hlegal => stops_of_illegal rfl hcan hlegal
  case mem =>
    unfold memRows
    simp only [List.forall_mem_cons, List.not_mem_nil, false_implies, implies_true, and_true]
    and_intros <;> exact fun s i ins h hcan hlegal => stops_of_illegal rfl hcan hlegal
  case spec =>
    simp only [List.mem_append, List.mem_cons, List.not_mem_nil, or_false] at hp
    rcases hp with (hp | hp) | rfl | rfl | rfl | rfl | rfl | rfl
    · exact exec_controlSpecs hp s
    · exact exec_matrixSpecs hp hcan hlegal
    all_goals rfl

/-! ### Accesses at fault -/

section
variable (s : State) (size : Nat) (l : List (Nat × Nat))

theorem accessFault_eq_none_iff :
    accessFault s size l = none ↔ ∀ p ∈ l, p.2 % size = 0 ∧ s.populated (s.normalise p.2) = true := by
  unfold accessFault
  dsimp only
  split
  · next hnone => simpa using hnone
  · next p hsome =>
    have hbad := List.find?_some hsome
    refine ⟨fun h => by simp at h, fun h => ?_⟩
    obtain ⟨halign, hpop⟩ := h p (List.mem_of_find?_eq_some hsome)
    simp [halign, hpop] at hbad

variable {s size l}

/-- The access that the check names is the first at fault; a misaligned one, wherever it stands, decides the kind. -/
theorem accessFault_eq_some {k t a : Nat} (h : accessFault s size l = some (k, t, a)) :
    (k = 2 ↔ ∃ p ∈ l, p.2 % size ≠ 0) ∧ (k = 2 ∨ k = 3)
      ∧ ∃ l1 l2, l = l1 ++ (t, a) :: l2 ∧ ¬ (a % size = 0 ∧ s.populated (s.normalise a) = true)
        ∧ ∀ p ∈ l1, p.2 % size = 0 ∧ s.populated (s.normalise p.2) = true := by
  unfold accessFault at h
  dsimp only at h
  split at h
  · simp at h
  · next p hsome =>
    obtain ⟨hbad, l1, l2, hl, hgood⟩ := List.find?_eq_some_iff_append.1 hsome
    simp only [Option.some.injEq, Prod.mk.injEq] at h
    obtain ⟨hk, rfl, rfl⟩ := h
    refine ⟨?_, ?_, l1, l2, hl, ?_, ?_⟩
    · rw [← hk]
      simp
    · rw [← hk]
      split <;> simp
    · simpa [imp_iff_not_or] using hbad
    · simpa using hgood

end

/-- Where an access of a row's instruction is at fault, it stops its hand with that fault. -/
def StopsAtFault (r : MemRow) : Prop :=
  ∀ (s : State) (i : Issue) (ins : Insn) (h : Hand) (k t a : Nat), CanIssue s i r.opc .memory ins h (r.names ins) →
    r.legal h ins = true → mayAccess h = true → (r.release && isRelease ins → released s i.core h (scopeOf ins) = true) →
    (r.accs (s.core i.core) h ins).any (fun p => s.winHeld (s.normalise p.2)) = false →
    accessFault s (r.size ins) (r.accs (s.core i.core) h ins) = some (k, t, a) → Ends (r.cmd i ins) s (StopsWith s i h k)

theorem stopsAtFault_of_spec {r : MemRow} (rd wr : Bool)
    (hexec : ∀ i ins s, exec (r.cmd i ins) s = .next (issue s i ins (memSpec r rd wr i ins))) : StopsAtFault r := by
  intro s i ins h k t a hcan hlegal hmay hrel hwin hfault
  have hrel' : (!(r.release && isRelease ins) || released s i.core h (scopeOf ins)) = true := by
    by_cases hb : (r.release && isRelease ins) = true
    · simp [hrel hb]
    · simp [hb]
  exact stops_of_access (sp := memSpec r rd wr i ins) (hexec i ins s) hcan hlegal rfl
    (by simp only [memSpec, hmay, hrel', hwin, Bool.and_self, Bool.not_false]) hfault

theorem memRows_stopAtFault : ∀ r ∈ memRows, StopsAtFault r := by
  unfold memRows
  simp only [List.forall_mem_cons, List.not_mem_nil, false_implies, implies_true, and_true]
  refine ⟨?ld, ?st, ?uld, ?ust, ?amo⟩
  case ld => exact stopsAtFault_of_spec true false fun _ _ _ => rfl
  case st => exact stopsAtFault_of_spec false true fun _ _ _ => rfl
  case uld => exact stopsAtFault_of_spec true false fun _ _ _ => rfl
  case ust => exact stopsAtFault_of_spec false true fun _ _ _ => rfl
  case amo => and_intros <;> exact stopsAtFault_of_spec true true fun _ _ _ => rfl

/-- Settles O21: the check runs over the accesses in thread order, before the first of them is made. -/
theorem accessChecks : Obligations.AccessChecks := by
  unfold Obligations.AccessChecks
  exact ⟨fun s size l => ⟨accessFault_eq_none_iff s size l, fun k t a => accessFault_eq_some⟩, memRows_stopAtFault⟩

end Sys2Proof.Machine
end
section
/-!
PROOFS. The transfers of control: when they are made, where they go, and what faults (R186–R188).
-/
namespace Sys2Proof.Machine
open Sys2Proof.Safety

/-! ### Targets -/

theorem ofNat_sext64 {w : Nat} (hw : w ≤ 64) (x : BitVec w) : BitVec.ofNat 64 (sext64 w x.toNat) = x.signExtend 64 := by
  have hpow : 2 ^ w ≤ 2 ^ 64 := Nat.pow_le_pow_right (by decide) hw
  have hx := x.isLt
  refine BitVec.eq_of_toNat_eq ?_
  rw [BitVec.toNat_signExtend, BitVec.toNat_ofNat, BitVec.toNat_setWidth_of_le hw, BitVec.msb_eq_decide]
  unfold sext64
  rw [Nat.mod_eq_of_lt hx]
  by_cases hle : 2 ^ (w - 1) ≤ x.toNat
  · simp only [hle, decide_true, if_true, Nat.not_lt.2 hle, if_false]
    omega
  · simp only [hle, decide_false, Nat.lt_of_not_le hle, if_true, Bool.false_eq_true, if_false]
    omega

theorem toNat_append_eq {v w : Nat} (x : BitVec v) (y : BitVec w) : (x ++ y).toNat = x.toNat * 2 ^ w + y.toNat := by
  rw [BitVec.toNat_append, ← Nat.shiftLeft_add_eq_or_of_lt y.isLt, Nat.shiftLeft_eq]

/-- The target as its instruction spells it is the one that R187 names. -/
theorem targetOf_eq (h : Hand) (ins : Insn) : targetOf h ins = TargetOf h ins := by
  have hwords : ins.sra.toNat * 65536 + imm16 ins = (ins.sra ++ ins.srb ++ ins.src).toNat := by
    rw [toNat_append_eq, toNat_append_eq]
    unfold imm16
    omega
  unfold targetOf TargetOf indirect
  rw [hwords, BitVec.ofNat_mul, ofNat_sext64 (by decide)]
  rfl

/-! ### Conditions -/

/-- The live threads whose predicate bit holds, as bra reduces them (R186). -/
def braMask (h : Hand) (ins : Insn) : DWord := (if ins.piv then ~~~(h.p ins.prd.toNat) else h.p ins.prd.toNat) &&& h.live

theorem getLsbD_braMask (h : Hand) (ins : Insn) {k : Nat} (hk : k < 64) :
    (braMask h ins).getLsbD k = (predBit h ins k && h.live.getLsbD k) := by
  unfold braMask predBit
  rw [BitVec.getLsbD_and]
  cases ins.piv <;> simp [hk]

theorem braTaken_iff (h : Hand) (ins : Insn) : braTaken h ins = true ↔ BraHolds h ins := by
  have hzero (k : Nat) (hk : k < 64) : (braMask h ins).getLsbD k = (0 : DWord).getLsbD k ↔
      (h.live.getLsbD k → ¬ predBit h ins k) := by
    rw [getLsbD_braMask h ins hk]
    cases h.live.getLsbD k <;> simp
  have hlive (k : Nat) (hk : k < 64) : (braMask h ins).getLsbD k = h.live.getLsbD k ↔ (h.live.getLsbD k → predBit h ins k) := by
    rw [getLsbD_braMask h ins hk]
    cases h.live.getLsbD k <;> simp
  unfold braTaken BraHolds
  change (match ins.fn.toNat % 8 with
    | 0 => true
    | 1 => braMask h ins != 0
    | 2 => braMask h ins == h.live
    | 3 => braMask h ins == 0
    | 4 => h.u ins.dst.toNat == 0
    | _ => h.u ins.dst.toNat != 0) = true ↔ _
  rcases ins.fn.toNat % 8 with _ | _ | _ | _ | _ | n
  · simp
  · simp only [bne_iff_ne, ne_eq, BitVec.eq_of_getLsbD_eq_iff (x := braMask h ins) (y := 0)]
    rw [forall₂_congr hzero]
    push Not
    exact Iff.rfl
  · simp only [beq_iff_eq, BitVec.eq_of_getLsbD_eq_iff (x := braMask h ins) (y := h.live)]
    exact forall₂_congr hlive
  · simp only [beq_iff_eq, BitVec.eq_of_getLsbD_eq_iff (x := braMask h ins) (y := 0)]
    exact forall₂_congr hzero
  · simp
  · simp

/-! ### Transfers -/

theorem atPc_issued (h : Hand) (now : Nat) (ins : Insn) : (atPc (h.issued now ins) ins).pc = h.pc := BitVec.add_sub_cancel _ _

theorem targetOf_atPc_issued (h : Hand) (now : Nat) (ins : Insn) : targetOf (atPc (h.issued now ins) ins) ins = TargetOf h ins := by
  rw [← targetOf_eq]
  unfold targetOf
  rw [atPc_issued]
  rfl

/-- A transfer that is made to a target with its low three bits not zero is a misalignment fault (R187). -/
theorem targetFault_eq (taken : Bool) (a : DWord) :
    targetFault taken a = if taken = true ∧ a.toNat % 8 ≠ 0 then some (2, 0xFF, 0) else none := by
  simp [targetFault]

/-- A hand after a jump: at its target, waiting for the words there. -/
theorem hand_jump (s : State) (i : Issue) (h : Hand) (a : DWord) : ∃ w, (w = .waiting .branch ∨ w = .waiting .fetch) ∧
    jump s i h a = s.setHand i.core i.slot { h with pc := a, st := w } := by
  unfold jump
  dsimp only
  split
  · exact ⟨_, .inl rfl, rfl⟩
  · exact ⟨_, .inr rfl, rfl⟩

theorem Hand.setU_keeps (h : Hand) (n : Nat) (v : DWord) : (h.setU n v).preds = h.preds ∧ (h.setU n v).flags = h.flags
    ∧ (h.setU n v).pc = h.pc ∧ (h.setU n v).st = h.st := by
  unfold Hand.setU
  split <;> exact ⟨rfl, rfl, rfl, rfl⟩

theorem Hand.ureg_setU_issued (h : Hand) (now : Nat) (ins : Insn) (n : Nat) (v : DWord) :
    ((h.issued now ins).setU n v).ureg = (h.setU n v).ureg := by
  unfold Hand.setU
  split <;> rfl

section
variable {s : State} {i : Issue} {ins : Insn} {h : Hand}

/-- A transfer made by an instruction that has issued. -/
theorem jump_issued (s : State) (i : Issue) (ins : Insn) (h x : Hand) (a : DWord) :
    ∃ h', (jump (s.issued i .uniform ins h) i x a).hand i.core i.slot = some h' ∧ h'.ureg = x.ureg ∧ h'.preds = x.preds
      ∧ h'.flags = x.flags ∧ h'.live = x.live ∧ GoneTo h' a ∧ OnlyHandRegs i s (jump (s.issued i .uniform ins h) i x a) := by
  obtain ⟨w, hw, hjump⟩ := hand_jump (s.issued i .uniform ins h) i x a
  rw [hjump]
  exact ⟨_, State.hand_setHand_self _ _ _ _, rfl, rfl, rfl, rfl, ⟨rfl, hw⟩, onlyHandRegs_setIssued s i ins h _⟩

theorem bra_ends (hc : Clear s i ins (braSpec i ins) h) : Ends (.bra i ins) s fun t => OnlyHandRegs i s t ∧
    ∃ h', t.hand i.core i.slot = some h' ∧ h'.ureg = h.ureg ∧ h'.preds = h.preds ∧ h'.flags = h.flags ∧ h'.live = h.live
      ∧ (BraHolds h ins → GoneTo h' (TargetOf h ins))
      ∧ (¬ BraHolds h ins → h'.pc = h.pc + (if ins.lng then 16 else 8) ∧ h'.st = .ready) := by
  have hgo : Goes (.bra i ins) s (if braTaken h ins then jump (s.issued i .uniform ins h) i (h.issued s.coreTime ins)
      (targetOf (atPc (h.issued s.coreTime ins) ins) ins) else s.issued i .uniform ins h) := goes_of_clear rfl hc
  rw [targetOf_atPc_issued] at hgo
  by_cases htaken : BraHolds h ins
  · rw [if_pos ((braTaken_iff h ins).2 htaken)] at hgo
    obtain ⟨h', hhand, hureg, hpreds, hflags, hlive, hgone, honly⟩ := jump_issued s i ins h (h.issued s.coreTime ins) (TargetOf h ins)
    exact ⟨_, hgo, honly, h', hhand, hureg, hpreds, hflags, hlive, fun _ => hgone, fun hnot => absurd htaken hnot⟩
  · rw [if_neg fun hb => htaken ((braTaken_iff h ins).1 hb)] at hgo
    exact ⟨_, hgo, s.onlyHandRegs_issued i .uniform ins h, _, s.hand_issued i .uniform ins h, rfl, rfl, rfl, rfl,
      fun hholds => absurd hholds htaken, fun _ => ⟨rfl, rfl⟩⟩

theorem sub_one_ne_zero_iff (v : DWord) : (v - 1 != 0) = true ↔ v ≠ 1 := by
  rw [bne_iff_ne, sub_ne_zero]

theorem loopInsn_ends (hc : Clear s i ins (loopInsnSpec i ins) h) : Ends (.loopInsn i ins) s fun t => OnlyHandRegs i s t ∧
    ∃ h', t.hand i.core i.slot = some h' ∧ h'.ureg = (h.setU ins.dst.toNat (h.u ins.dst.toNat - 1)).ureg ∧ h'.preds = h.preds
      ∧ h'.flags = h.flags ∧ (h.u ins.dst.toNat ≠ 1 → GoneTo h' (TargetOf h ins))
      ∧ (h.u ins.dst.toNat = 1 → h'.pc = h.pc + (if ins.lng then 16 else 8) ∧ h'.st = .ready) := by
  let x := (h.issued s.coreTime ins).setU ins.dst.toNat (h.u ins.dst.toNat - 1)
  have hgo : Goes (.loopInsn i ins) s (if h.u ins.dst.toNat - 1 != 0 then jump (s.issued i .uniform ins h) i x
      (targetOf (atPc (h.issued s.coreTime ins) ins) ins) else (s.issued i .uniform ins h).setHand i.core i.slot x) :=
    goes_of_clear rfl hc
  rw [targetOf_atPc_issued] at hgo
  have hureg : x.ureg = (h.setU ins.dst.toNat (h.u ins.dst.toNat - 1)).ureg :=
    h.ureg_setU_issued _ ins _ _
  obtain ⟨hpreds, hflags, hpc, hst⟩ := (h.issued s.coreTime ins).setU_keeps ins.dst.toNat (h.u ins.dst.toNat - 1)
  by_cases hone : h.u ins.dst.toNat = 1
  · rw [if_neg fun hb => (sub_one_ne_zero_iff _).1 hb hone] at hgo
    exact ⟨_, hgo, onlyHandRegs_setIssued s i ins h x, x, State.hand_setHand_self _ _ _ _, hureg, hpreds, hflags,
      fun hne => absurd hone hne, fun _ => ⟨hpc, hst⟩⟩
  · rw [if_pos ((sub_one_ne_zero_iff _).2 hone)] at hgo
    obtain ⟨h', hhand, hureg', hpreds', hflags', -, hgone, honly⟩ := jump_issued s i ins h x (TargetOf h ins)
    exact ⟨_, hgo, honly, h', hhand, hureg'.trans hureg, hpreds'.trans hpreds, hflags'.trans hflags, fun _ => hgone,
      fun heq => absurd heq hone⟩

theorem callInsn_ends (hc : Clear s i ins (callInsnSpec i ins) h) : Ends (.callInsn i ins) s fun t => OnlyHandRegs i s t ∧
    ∃ h', t.hand i.core i.slot = some h' ∧ h'.ureg = (h.setU ins.dst.toNat (h.pc + (if ins.lng then 16 else 8))).ureg
      ∧ h'.preds = h.preds ∧ h'.flags = h.flags ∧ GoneTo h' (TargetOf h ins) := by
  let x := (h.issued s.coreTime ins).setU ins.dst.toNat (h.pc + (if ins.lng then 16 else 8))
  have hgo : Goes (.callInsn i ins) s (jump (s.issued i .uniform ins h) i x (targetOf (atPc (h.issued s.coreTime ins) ins) ins)) :=
    goes_of_clear rfl hc
  rw [targetOf_atPc_issued] at hgo
  obtain ⟨hpreds, hflags, -, -⟩ := (h.issued s.coreTime ins).setU_keeps ins.dst.toNat (h.pc + (if ins.lng then 16 else 8))
  obtain ⟨h', hhand, hureg', hpreds', hflags', -, hgone, honly⟩ := jump_issued s i ins h x (TargetOf h ins)
  exact ⟨_, hgo, honly, h', hhand, hureg'.trans (h.ureg_setU_issued _ ins _ _), hpreds'.trans hpreds, hflags'.trans hflags, hgone⟩

theorem ret_ends (hc : Clear s i ins (retSpec i ins) h) : Ends (.ret i ins) s fun t => OnlyHandRegs i s t ∧
    ∃ h', t.hand i.core i.slot = some h' ∧ h'.ureg = h.ureg ∧ h'.preds = h.preds ∧ h'.flags = h.flags
      ∧ GoneTo h' (h.u ins.sra.toNat) := by
  have hgo : Goes (.ret i ins) s (jump (s.issued i .uniform ins h) i (h.issued s.coreTime ins) (h.u ins.sra.toNat)) :=
    goes_of_clear rfl hc
  obtain ⟨h', hhand, hureg, hpreds, hflags, -, hgone, honly⟩ :=
    jump_issued s i ins h (h.issued s.coreTime ins) (h.u ins.sra.toNat)
  exact ⟨_, hgo, honly, h', hhand, hureg, hpreds, hflags, hgone⟩

end

/-! ### Fields that break a rule -/

theorem plainCtl_eq_false {ins : Insn} (hp : ins.prd ≠ 0 ∨ ins.piv = true) : plainCtl ins = false := by
  rcases hp with hprd | hpiv
  · rw [plainCtl, beq_eq_false_iff_ne.2 hprd, Bool.and_false, Bool.false_and]
  · rw [plainCtl, hpiv, Bool.not_true, Bool.and_false]

theorem controlSpecs_unit {i : Issue} {ins : Insn} {p : Instr × IssueSpec} (hp : p ∈ controlSpecs i ins) : p.2.unit = .uniform := by
  unfold controlSpecs at hp
  revert p
  simp only [List.forall_mem_cons, List.not_mem_nil, false_implies, implies_true, and_true]
  and_intros <;> rfl

/-- PRD and PIV belong to bra any, all and none alone (R188). -/
theorem controlSpecs_illegal {i : Issue} {ins : Insn} {p : Instr × IssueSpec} (hp : p ∈ controlSpecs i ins)
    (hbra : p.2.opc = 0x70 → ins.fn.toNat % 8 = 0 ∨ 4 ≤ ins.fn.toNat % 8) (hpred : ins.prd ≠ 0 ∨ ins.piv = true) (h : Hand) :
    p.2.legal h = false := by
  have hplain := plainCtl_eq_false hpred
  simp only [controlSpecs, List.mem_cons, List.not_mem_nil, or_false] at hp
  rcases hp with rfl | hp
  · have hcond : decide (1 ≤ ins.fn.toNat % 8 ∧ ins.fn.toNat % 8 ≤ 3) = false := decide_eq_false (by have := hbra rfl; omega)
    simp only [braSpec, hcond, hplain, Bool.or_self, Bool.and_false]
  · rcases hp with rfl | rfl | rfl | rfl | rfl | rfl | rfl | rfl | rfl | rfl <;>
      simp only [loopInsnSpec, callInsnSpec, retSpec, haltSpec, brkSpec, trapSpec, yieldSpec, sleepTicksSpec, noticeInsnSpec,
        nopInsnSpec, bareOk, hplain, Bool.false_and]

/-- In the indirect form the fields that would spell the target are zero (R187). -/
theorem transfers_illegal {i : Issue} {ins : Insn} {p : Instr × IssueSpec} (hp : p ∈ (controlSpecs i ins).take 3)
    (hind : ins.fn.getLsbD 3 = true) (hsrc : ins.srb ≠ 0 ∨ ins.src ≠ 0) (h : Hand) : p.2.legal h = false := by
  have htarget : targetOk ins = false := by
    unfold targetOk indirect
    rw [if_pos hind]
    rcases hsrc with hsrb | hsrc
    · rw [beq_eq_false_iff_ne.2 hsrb, Bool.and_false, Bool.false_and, Bool.and_false]
    · rw [beq_eq_false_iff_ne.2 hsrc, Bool.and_false, Bool.and_false]
  simp only [controlSpecs, List.take_succ_cons, List.take_zero, List.mem_cons, List.not_mem_nil, or_false] at hp
  rcases hp with rfl | rfl | rfl <;> simp [braSpec, loopInsnSpec, callInsnSpec, htarget]

/-- Settles O15: a transfer that nothing holds is a jump, and its target is checked before it is made. -/
theorem controlTransfers : Obligations.ControlTransfers := by
  unfold Obligations.ControlTransfers
  intro s i ins h
  refine ⟨bra_ends, loopInsn_ends, callInsn_ends, ret_ends, fun hcan hlegal hholds halign => ?bra, fun hcan hlegal hone halign => ?loop,
    fun hcan hlegal halign => ?call, fun p hp hcan hbra hpred => ?pred, fun p hp hcan hind hsrc => ?ind⟩
  case bra =>
    refine stops_of_access (sp := braSpec i ins) (t := 0xFF) (a := 0) rfl hcan hlegal rfl rfl ?_
    exact (targetFault_eq _ _).trans (if_pos ⟨(braTaken_iff h ins).2 hholds, by rwa [targetOf_eq]⟩)
  case loop =>
    refine stops_of_access (sp := loopInsnSpec i ins) (t := 0xFF) (a := 0) rfl hcan hlegal rfl rfl ?_
    exact (targetFault_eq _ _).trans (if_pos ⟨(sub_one_ne_zero_iff _).2 hone, by rwa [targetOf_eq]⟩)
  case call =>
    refine stops_of_access (sp := callInsnSpec i ins) (t := 0xFF) (a := 0) rfl hcan hlegal rfl rfl ?_
    exact (targetFault_eq _ _).trans (if_pos ⟨rfl, by rwa [targetOf_eq]⟩)
  case pred =>
    rw [← controlSpecs_unit hp] at hcan
    exact stops_of_illegal (exec_controlSpecs hp s) hcan (controlSpecs_illegal hp hbra hpred h)
  case ind =>
    have hp' := List.mem_of_mem_take hp
    rw [← controlSpecs_unit hp'] at hcan
    exact stops_of_illegal (exec_controlSpecs hp' s) hcan (transfers_illegal hp hind hsrc h)

end Sys2Proof.Machine
end
section
/-!
PROOFS. scan and red: prefixes in ascending thread order, and six rounds of pairs (R200–R202).
-/
namespace Sys2Proof.Machine
open Sys2Proof.Safety

/-! ### Prefixes in order -/

/-- The values met so far, combined in order; nothing where there is none. -/
def orderedTotal (f : Nat → Nat → Nat) : List Nat → Option Nat
  | [] => none
  | v :: t => some (t.foldl f v)

theorem orderedTotal_concat (f : Nat → Nat → Nat) (vs : List Nat) (v : Nat) : orderedTotal f (vs ++ [v]) =
    some (match orderedTotal f vs with
      | none => v
      | some a => f a v) := by
  cases vs with
  | nil => rfl
  | cons w t => simp [orderedTotal, List.foldl_append]

theorem inOrderOf_eq (f : Nat → Nat → Nat) (ident : Nat) (vs : List Nat) : inOrderOf f ident vs = (orderedTotal f vs).getD ident := by
  cases vs <;> rfl

/-- The combination of a scan's two running values: `acc`, and the last value not yet combined. -/
def scanTotal (f : Nat → Nat → Nat × FFlags) (acc pend : Option Nat) : Option Nat × FFlags :=
  match acc, pend with
  | some a, some p => let x := f a p; (some x.1, x.2)
  | some a, none => (some a, 0)
  | none, p => (p, 0)

/-- What an inclusive scan gives a thread with value `v`, and the flags. -/
def scanWith (f : Nat → Nat → Nat × FFlags) (v : Nat) : Option Nat → Nat × FFlags
  | none => (v, 0)
  | some a => f a v

section
variable (f : Nat → Nat → Nat × FFlags) (ident : Nat) (excl : Bool)

/-- A step of a scan at a thread with a value: `vs` are the values met before it. -/
theorem scanList_some {acc pend : Option Nat} {vs : List Nat} (hvs : (scanTotal f acc pend).1 = orderedTotal (fun a b => (f a b).1) vs)
    (k v : Nat) (t : List (Nat × Option Nat)) : ∃ acc' pend' fl,
      (scanTotal f acc' pend').1 = orderedTotal (fun a b => (f a b).1) (vs ++ [v]) ∧ ((∀ a b, (f a b).2 = 0) → fl = 0)
      ∧ scanList f ident excl ((k, some v) :: t) acc pend =
        ((k, inOrderOf (fun a b => (f a b).1) ident (if excl then vs else vs ++ [v])) :: (scanList f ident excl t acc' pend').1,
          fl ||| (scanList f ident excl t acc' pend').2) := by
  have hflags (hf : ∀ a b, (f a b).2 = 0) : (scanTotal f acc pend).2 = 0 := by
    unfold scanTotal
    split <;> simp only [hf]
  rw [inOrderOf_eq, orderedTotal_concat, ← hvs]
  cases excl with
  | true =>
    refine ⟨(scanTotal f acc pend).1, some v, (scanTotal f acc pend).2, ?_, hflags, ?_⟩
    · cases (scanTotal f acc pend).1 <;> rfl
    · rw [if_pos rfl, ← hvs]
      rfl
  | false =>
    have hstep : scanList f ident false ((k, some v) :: t) acc pend =
        ((k, (scanWith f v (scanTotal f acc pend).1).1)
            :: (scanList f ident false t (some (scanWith f v (scanTotal f acc pend).1).1) none).1,
          (scanWith f v (scanTotal f acc pend).1).2
            ||| (scanList f ident false t (some (scanWith f v (scanTotal f acc pend).1).1) none).2) := rfl
    refine ⟨some (scanWith f v (scanTotal f acc pend).1).1, none, (scanWith f v (scanTotal f acc pend).1).2, ?_, fun hf => ?_, ?_⟩
    · cases (scanTotal f acc pend).1 <;> rfl
    · cases (scanTotal f acc pend).1
      · rfl
      · exact hf _ _
    · rw [hstep, if_neg (by decide), orderedTotal_concat, ← hvs]
      cases (scanTotal f acc pend).1 <;> rfl

/-- A thread without a value takes nothing. -/
theorem find?_scanList_none {k : Nat} {xs : List (Nat × Option Nat)} (hk : ∀ x ∈ xs, x.1 = k → x.2 = none) {acc pend : Option Nat}
    {vs : List Nat} (hvs : (scanTotal f acc pend).1 = orderedTotal (fun a b => (f a b).1) vs) :
    NMap.find? (scanList f ident excl xs acc pend).1 k = none := by
  induction xs generalizing acc pend vs with
  | nil => rfl
  | cons x xs ih =>
    have hxs : ∀ y ∈ xs, y.1 = k → y.2 = none := fun y hy => hk y (List.mem_cons_of_mem x hy)
    obtain ⟨j, _ | v⟩ := x
    · exact ih hxs hvs
    · have hj : j ≠ k := fun he => by simpa using hk (j, some v) List.mem_cons_self he
      obtain ⟨acc', pend', fl, htotal, -, hstep⟩ := scanList_some f ident excl hvs j v xs
      rw [hstep]
      simp only [NMap.find?, hj, if_false, ih hxs htotal]

/-- A thread with a value takes the combination of those before it, and of its own where the scan is inclusive. -/
theorem find?_scanList {k v : Nat} {l r : List (Nat × Option Nat)} (hk : ∀ x ∈ l, x.1 ≠ k) {acc pend : Option Nat} {vs : List Nat}
    (hvs : (scanTotal f acc pend).1 = orderedTotal (fun a b => (f a b).1) vs) :
    NMap.find? (scanList f ident excl (l ++ (k, some v) :: r) acc pend).1 k =
      some (inOrderOf (fun a b => (f a b).1) ident (vs ++ l.filterMap Prod.snd ++ if excl then [] else [v])) := by
  induction l generalizing acc pend vs with
  | nil =>
    obtain ⟨acc', pend', fl, -, -, hstep⟩ := scanList_some f ident excl hvs k v r
    rw [List.nil_append, hstep]
    cases excl <;> simp [NMap.find?]
  | cons x l ih =>
    have hl : ∀ y ∈ l, y.1 ≠ k := fun y hy => hk y (List.mem_cons_of_mem x hy)
    obtain ⟨j, _ | w⟩ := x
    · exact ih hl hvs
    · obtain ⟨acc', pend', fl, htotal, -, hstep⟩ := scanList_some f ident excl hvs j w (l ++ (k, some v) :: r)
      have hj : j ≠ k := hk _ List.mem_cons_self
      rw [List.cons_append, hstep]
      simp only [NMap.find?, hj, if_false, ih hl htotal]
      simp

theorem scanList_flags (hf : ∀ a b, (f a b).2 = 0) (xs : List (Nat × Option Nat)) {acc pend : Option Nat} {vs : List Nat}
    (hvs : (scanTotal f acc pend).1 = orderedTotal (fun a b => (f a b).1) vs) : (scanList f ident excl xs acc pend).2 = 0 := by
  induction xs generalizing acc pend vs with
  | nil => rfl
  | cons x xs ih =>
    obtain ⟨j, _ | v⟩ := x
    · exact ih hvs
    · obtain ⟨acc', pend', fl, htotal, hfl, hstep⟩ := scanList_some f ident excl hvs j v xs
      rw [hstep, hfl hf, ih htotal]
      rfl

end

/-! ### Rounds of pairs -/

section
variable (f : Nat → Nat → Nat × FFlags)

theorem redRound_map (x : Nat → Nat) (n : Nat) : (redRound f ((List.range (2 * n)).map x)).1 =
    (List.range n).map fun k => (f (x (2 * k)) (x (2 * k + 1))).1 := by
  induction n generalizing x with
  | zero => rfl
  | succ n ih =>
    rw [show 2 * (n + 1) = 2 * n + 1 + 1 by ring, List.range_succ_eq_map, List.range_succ_eq_map, List.range_succ_eq_map]
    have hrest := ih fun k => x (k + 2)
    simp only [List.map_cons, List.map_map, redRound]
    refine congrArg₂ List.cons rfl (hrest.trans ?_)
    exact List.map_congr_left fun k _ => rfl

/-- One round first, then the others: the same pairs. -/
theorem pairUp_succ (g : Nat → Nat → Nat) (x : Nat → Nat) (n k : Nat) :
    pairUp g x (n + 1) k = pairUp g (fun k => g (x (2 * k)) (x (2 * k + 1))) n k := by
  induction n generalizing k with
  | zero => rfl
  | succ n ih => rw [pairUp, ih, ih, pairUp]

theorem redTree_map (x : Nat → Nat) (n : Nat) :
    (redTree f n ((List.range (2 ^ n)).map x)).1 = pairUp (fun a b => (f a b).1) x n 0 := by
  induction n generalizing x with
  | zero => rfl
  | succ n ih =>
    rw [pairUp_succ, ← ih, Nat.pow_succ, Nat.mul_comm, ← redRound_map f x]
    rfl

variable (hf : ∀ a b, (f a b).2 = 0)
include hf

theorem redRound_flags (l : List Nat) : (redRound f l).2 = 0 := by
  induction l using redRound.induct f with
  | case1 a b t ih => rw [redRound, ih, hf]; rfl
  | case2 l hl =>
    unfold redRound
    split
    · exact (hl _ _ _ rfl).elim
    · rfl

theorem redTree_flags (n : Nat) (l : List Nat) : (redTree f n l).2 = 0 := by
  induction n generalizing l with
  | zero => rfl
  | succ n ih => rw [redTree, ih, redRound_flags f hf]; rfl

end

/-! ### The instructions -/

theorem combineOf_flags {ins : Insn} (hint : (insnTy ins).isInt = true) (a b : Nat) : (combineOf ins a b).2 = 0 := by
  unfold combineOf combine aluMinMax
  split <;> simp only [hint, if_true]

/-- The values of the enabled threads, as a scan or reduction of the instruction meets them. -/
def laneValues (ins : Insn) (co : Core) (h : Hand) : List (Nat × Option Nat) :=
  (List.range 64).map fun k => (k, if h.enabled ins k then some (srcA co h ins (insnTy ins) k) else none)

/-- What a scan gives each thread, and the flags. -/
def scanOut (ins : Insn) (co : Core) (h : Hand) : NMap Nat × FFlags :=
  scanList (combineOf ins) (combineId (insnTy ins) (ins.fn.toNat % 8)) (ins.fn.getLsbD 3) (laneValues ins co h) none none

theorem range_split {n k : Nat} (hk : k < n) : List.range n = List.range k ++ k :: List.range' (k + 1) (n - k - 1) := by
  rw [← List.range'_succ, List.range_eq_range', List.range_eq_range']
  have happend := List.range'_append (s := 0) (m := k) (n := n - k - 1 + 1) (step := 1)
  rw [Nat.one_mul, Nat.zero_add, show k + (n - k - 1 + 1) = n by omega] at happend
  exact happend.symm

theorem filterMap_ite {α β : Type} (p : α → Bool) (g : α → β) (l : List α) :
    l.filterMap (fun a => if p a then some (g a) else none) = (l.filter p).map g := by
  induction l with
  | nil => rfl
  | cons a l ih => cases hp : p a <;> simp [hp, ih]

theorem find?_scanOut (ins : Insn) (co : Core) (h : Hand) {k : Nat} (hk : k < 64) : NMap.find? (scanOut ins co h).1 k =
    if h.enabled ins k then some (inOrderOf (fun a b => (combineOf ins a b).1) (combineId (insnTy ins) (ins.fn.toNat % 8))
      (((List.range (if ins.fn.getLsbD 3 then k else k + 1)).filter (h.enabled ins)).map (srcA co h ins (insnTy ins)))) else none := by
  unfold scanOut
  split
  · next hen =>
    have hsplit : laneValues ins co h = _ := congrArg (List.map _) (range_split hk)
    rw [List.map_append, List.map_cons, if_pos hen] at hsplit
    have hbefore : ∀ x ∈ (List.range k).map (fun j => (j, if h.enabled ins j then some (srcA co h ins (insnTy ins) j) else none)),
        x.1 ≠ k := by
      intro x hx
      obtain ⟨j, hj, rfl⟩ := List.mem_map.1 hx
      exact (List.mem_range.1 hj).ne
    rw [hsplit, find?_scanList _ _ _ (vs := []) hbefore rfl, List.nil_append, List.filterMap_map]
    refine congrArg (fun vs => some (inOrderOf _ _ vs)) ?_
    refine (congrArg (· ++ _) (filterMap_ite (h.enabled ins) (srcA co h ins (insnTy ins)) (List.range k))).trans ?_
    cases ins.fn.getLsbD 3 <;> simp [List.range_succ, hen]
  · next hen =>
    refine find?_scanList_none _ _ _ (vs := []) (fun x hx he => ?_) rfl
    obtain ⟨j, -, rfl⟩ := List.mem_map.1 hx
    subst he
    exact if_neg hen

theorem Core.vTy_congr {co co' : Core} (hvrf : co'.vrf = co.vrf) (h : Hand) (t : Ty) (r k : Nat) : co'.vTy h t r k = co.vTy h t r k := by
  simp only [Core.vTy, Core.v_congr hvrf]

section
variable {s : State} {i : Issue} {ins : Insn} {h : Hand}

theorem scanSpec_body (x : State) (co : Core) (y : Hand) : (scanSpec i ins).body x co y =
    (x.setCore i.core (co.setVTy y (insnTy ins) ins.dst.toNat fun k => NMap.find? (scanOut ins co y).1 k)).setHand i.core i.slot
      { y with flags := y.flags ||| (scanOut ins co y).2 } := rfl

theorem scan_ends (hc : Clear s i ins (scanSpec i ins) h) : Ends (.scan i ins) s fun t =>
    (∀ k < 64, (t.core i.core).vTy h (insnTy ins) ins.dst.toNat k = match NMap.find? (scanOut ins (s.core i.core) h).1 k with
      | some v => v % 2 ^ (insnTy ins).width
      | none => (s.core i.core).vTy h (insnTy ins) ins.dst.toNat k)
    ∧ t.hand i.core i.slot =
      some { h.issued s.coreTime ins with flags := h.flags ||| (scanOut ins (s.core i.core) h).2 }
    ∧ OnlyHand i s t := by
  have heven : (insnTy ins).wide = true → ins.dst.toNat % 2 = 0 :=
    even_dst_of_ruleOk rfl (Bool.and_eq_true_iff.1 hc.2.1).1
  have hgo : Goes (.scan i ins) s _ := goes_of_clear (sp := scanSpec i ins) rfl hc
  rw [scanSpec_body, show (scanSpec i ins).unit = .vector from rfl,
    Core.read_chosen_issued i .vector ins (scanOut ins) (fun _ _ _ => rfl) (s.core i.core)] at hgo
  have hvrf : ((s.core i.core).chosen i .vector).vrf = (s.core i.core).vrf := Core.read_chosen i .vector Core.vrf (fun _ _ _ => rfl) _
  have hslots : ((s.core i.core).chosen i .vector).slots = (s.core i.core).slots :=
    Core.read_chosen i .vector Core.slots (fun _ _ _ => rfl) _
  refine ⟨_, hgo, fun k hk => ?_, State.hand_setHand_self _ _ _ _, ?_⟩
  · rw [Core.vTy_congr (State.vrf_setHand _ _ _ _ _), State.core_setCore_self]
    refine (Core.vTy_setVTy _ (h.issued s.coreTime ins) _ _ _ _ hk heven).trans ?_
    rw [Core.vTy_congr hvrf]
    rfl
  · exact OnlyHand.setHand (OnlyHand.setCore (s.onlyHand_issued i .vector ins h) fun n _ => by rw [Core.setVTy_slots, hslots]; rfl) _

/-- What a reduction of the enabled threads gives, and the flags. -/
def redOut (ins : Insn) (co : Core) (h : Hand) : Nat × FFlags :=
  redTree (combineOf ins) 6 ((List.range 64).map fun k =>
    if h.enabled ins k then srcA co h ins (insnTy ins) k else combineId (insnTy ins) (ins.fn.toNat % 8))

/-- The uniform register that red writes: for S32 its upper half is a free value (log entry 9). -/
def redWord (ins : Insn) (v free : Nat) : DWord :=
  BitVec.ofNat 64 (if insnTy ins = .s32 then v + Config.freeValue free 0 % 2 ^ 32 * 2 ^ 32 else v)

theorem ofNat_low_half (v w : Nat) : (BitVec.ofNat 64 (v + w * 2 ^ 32)).extractLsb' 0 32 = BitVec.ofNat 32 v := by
  refine BitVec.eq_of_toNat_eq ?_
  rw [BitVec.extractLsb'_toNat, BitVec.toNat_ofNat, BitVec.toNat_ofNat, Nat.shiftRight_zero,
    Nat.mod_mod_of_dvd _ (Nat.pow_dvd_pow 2 (by decide)), Nat.add_mul_mod_self_right]

theorem redWord_spec (ins : Insn) (v free : Nat) : if insnTy ins = .s32 then
    (redWord ins v free).extractLsb' 0 32 = BitVec.ofNat 32 v else redWord ins v free = BitVec.ofNat 64 v := by
  unfold redWord
  by_cases ht : insnTy ins = .s32
  · rw [if_pos ht, if_pos ht]
    exact ofNat_low_half _ _
  · rw [if_neg ht, if_neg ht]

/-- A state whose counter of free values has moved on, where the result of red takes one. -/
def State.drawn (s : State) (ins : Insn) : State := if insnTy ins = .s32 then { s with free := s.free + 1 } else s

theorem State.alters_drawn (s : State) (ins : Insn) : Alters [.free] [] s (s.drawn ins) := by
  unfold State.drawn
  split
  · exact .of_regs (by simp [Same]) rfl
  · exact .refl _ _ s

theorem redSpec_body (x : State) (co : Core) (y : Hand) : (redSpec i ins).body x co y = (x.drawn ins).setHand i.core i.slot
    { y.setU (ins.dst.toNat % 64) (redWord ins (redOut ins co y).1 x.free) with flags := y.flags ||| (redOut ins co y).2 } := by
  simp only [redSpec, redOut, redWord, State.drawn]

theorem red_ends (hc : Clear s i ins (redSpec i ins) h) : Ends (.red i ins) s fun t =>
    t.hand i.core i.slot = some { (h.issued s.coreTime ins).setU (ins.dst.toNat % 64) (redWord ins (redOut ins (s.core i.core) h).1 s.free)
        with flags := h.flags ||| (redOut ins (s.core i.core) h).2 }
    ∧ Same [.cores, .regs, .free] s t ∧ SameRegs issueFields s t ∧ (insnTy ins ≠ .s32 → t.free = s.free)
    ∧ (∀ d, d ≠ i.core.val → t.core d = s.core d) ∧ (∀ n, n ≠ i.slot.val → t.hand i.core n = s.hand i.core n)
    ∧ (t.core i.core).vrf = (s.core i.core).vrf := by
  have hgo : Goes (.red i ins) s _ := goes_of_clear (sp := redSpec i ins) rfl hc
  obtain ⟨⟨hsame, hregs, hcores, hhands⟩, hvrf⟩ := s.onlyHandRegs_issued i .vector ins h
  have hfree : (s.issued i .vector ins h).free = s.free := same_iff.1 hsame .free (by decide)
  have hdrawn := (s.issued i .vector ins h).alters_drawn ins
  have hdrawn' := hdrawn.agree .cores (by decide)
  rw [redSpec_body, show (redSpec i ins).unit = .vector from rfl,
    Core.read_chosen_issued i .vector ins (redOut ins) (fun _ _ _ => rfl) (s.core i.core), hfree] at hgo
  have hset := ((s.issued i .vector ins h).drawn ins).alters_setHand i.core i.slot
  refine ⟨_, hgo, State.hand_setHand_self _ _ _ _, ?_, ?_, fun hne => ?_, fun d hd => ?_, fun n hn => ?_, ?_⟩
  · exact ((hsame.mono (by decide)).trans (hdrawn.1.mono (by decide))).trans ((hset _).1.mono (by decide))
  · exact (hregs.trans (hdrawn.2.mono (by simp))).trans ((hset _).2.mono (by simp))
  · change ((s.issued i .vector ins h).drawn ins).free = s.free
    rw [State.drawn, if_neg hne, hfree]
  · rw [State.core_setHand_ne _ _ _ hd, State.core_congr hdrawn', hcores d hd]
  · rw [State.hand_setHand_ne _ _ fun he => hn he.2, State.hand_congr hdrawn', hhands n hn]
  · rw [State.vrf_setHand, State.core_congr hdrawn', hvrf]

end

/-- Settles O14: a scan is a fold over the lanes, red a tree of pairs; the flags are those of the combinations. -/
theorem scanGivesPrefixes : Obligations.ScanGivesPrefixes := by
  unfold Obligations.ScanGivesPrefixes
  refine ⟨fun s i ins h hc => ?scan, fun s i ins h hc => ?red, by decide, rfl, rfl, rfl⟩
  case scan =>
    obtain ⟨t, hgo, hval, hhand, honly⟩ := scan_ends hc
    refine ⟨t, hgo, fun k hk => ?_, ⟨_, hhand, fun hint => scanList_flags _ _ _ (combineOf_flags hint) _ (vs := []) rfl⟩, honly⟩
    rw [hval k hk, find?_scanOut ins _ h hk]
    by_cases hen : h.enabled ins k = true
    · simp only [hen, if_true]
    · simp only [hen, Bool.false_eq_true, if_false]
  case red =>
    obtain ⟨t, hgo, hhand, hsame, hregs, hfree, hcores, hhands, hvrf⟩ := red_ends hc
    refine ⟨t, hgo, ⟨_, _, hhand, fun hint => redTree_flags _ (combineOf_flags hint) _ _, _, rfl, ?_⟩, hsame, hregs, hfree, hcores,
      hhands, hvrf⟩
    have hval : (redOut ins (s.core i.core) h).1 = _ := redTree_map (combineOf ins) _ 6
    rw [← hval]
    exact redWord_spec ins _ _

end Sys2Proof.Machine
end
section
/-!
PROOFS. The poison trap, and instruction fetch from the cluster cache (R189, R239, R241, R309, R314, R317).
-/
namespace Sys2Proof.Machine
open Sys2Proof.Safety

/-! ### The poison trap -/

theorem poisonTrap_goes {s : State} {x : HandId} {h : Hand} {f : FaultRec} (hclk : s.clocked (x.core.val / 4) = true)
    (hh : s.hand x.core x.slot = some h) (hpoison : h.poison = some f) (hcan : h.canIssue = true) :
    Goes (.poisonTrap x) s (raiseFault s x.core x.slot h { f with resume := h.pc }) := by
  refine (show exec (.poisonTrap x) s = execPoisonTrap x s from rfl).trans ?_
  unfold execPoisonTrap clusterOf
  simp only [hclk, hh, hpoison, hcan, Bool.not_true, Bool.false_eq_true, if_false, if_true]
  rfl

/-! ### The instruction cache -/

theorem firstWhere_lt {n w : Nat} {p : Nat → Bool} (h : firstWhere n p = some w) : w < n :=
  List.mem_range.1 (List.mem_of_find?_eq_some h)

/-- From a node with enough levels below it the search goes down to one of eight ways. -/
theorem plruPick_some (bits : Nat) {fuel node : Nat} (hnode : node < 16) (hfuel : 8 ≤ node * 2 ^ fuel) :
    ∃ w < 8, plruPick 8 bits (fun _ => true) (fuel + 1) node = some w := by
  induction fuel generalizing node with
  | zero =>
    refine ⟨node - 8, by omega, ?_⟩
    rw [plruPick, if_pos (by omega), if_pos rfl]
  | succ fuel ih =>
    by_cases hleaf : 8 ≤ node
    · refine ⟨node - 8, by omega, ?_⟩
      rw [plruPick, if_pos hleaf, if_pos rfl]
    · have hbit : bit (bits.testBit node) ≤ 1 := by
        unfold bit
        split <;> omega
      have hdeep : 8 ≤ (2 * node + bit (bits.testBit node)) * 2 ^ fuel := by
        refine hfuel.trans ?_
        rw [Nat.pow_succ, Nat.mul_comm (2 ^ fuel), ← Nat.mul_assoc, Nat.mul_comm node]
        exact Nat.mul_le_mul_right _ (by omega)
      obtain ⟨w, hlt, hw⟩ := ih (by omega) hdeep
      refine ⟨w, hlt, ?_⟩
      rw [plruPick, if_neg hleaf]
      simp only [hw]

theorem pickWay_some {α : Type} (m : NMap α) (lru : NMap Nat) (set : Nat) :
    ∃ w < 8, pickWay m lru 8 set (fun _ => true) = some w := by
  unfold pickWay
  split
  · next w hw => exact ⟨w, firstWhere_lt hw, rfl⟩
  · exact plruPick_some _ (by decide) (by decide)

/-- A line that fills the instruction cache stands in one of the eight ways of its set. -/
theorem State.fillIc_eq (s : State) (core line : Nat) (d : LineData) : ∃ w < 8, ∃ lru, s.fillIc core line d =
    s.setCore core { s.core core with ic := NMap.insert (s.core core).ic (l1Set line * 8 + w) { line := line, st := .s, data := d },
                                      iclru := lru } := by
  unfold State.fillIc
  dsimp only
  cases hway : wayOf (s.core core).ic 8 (l1Set line) line with
  | some w => exact ⟨w, firstWhere_lt hway, _, rfl⟩
  | none =>
    obtain ⟨w, hlt, hw⟩ := pickWay_some (s.core core).ic (s.core core).iclru (l1Set line)
    exact ⟨w, hlt, touchWay (s.core core).iclru 8 (l1Set line) w false, by simp only [hw]; rfl⟩

theorem State.fillIc_mem (s : State) (core line : Nat) (d : LineData) : (s.fillIc core line d).mem = s.mem := by
  obtain ⟨w, -, lru, heq⟩ := s.fillIc_eq core line d
  rw [heq, State.setCore_mem]

theorem State.hand_fillIc (s : State) (core line n : Nat) (d : LineData) : (s.fillIc core line d).hand core n = s.hand core n := by
  obtain ⟨w, -, lru, heq⟩ := s.fillIc_eq core line d
  rw [heq, State.hand, State.core_setCore_self]
  rfl

/-- A line stands in the instruction cache of a core, in its own set. -/
def InIc (s : State) (core line : Nat) (d : LineData) : Prop :=
  ∃ w y, NMap.find? (s.core core).ic (l1Set line * 8 + w) = some y ∧ w < 8 ∧ y.line = line ∧ y.data = d

theorem inIc_fillIc (s : State) (core line : Nat) (d : LineData) : InIc (s.fillIc core line d) core line d := by
  obtain ⟨w, hlt, lru, heq⟩ := s.fillIc_eq core line d
  refine ⟨w, { line := line, st := .s, data := d }, ?_, hlt, rfl, rfl⟩
  rw [heq, State.core_setCore_self]
  exact NMap.find?_insert_self _ _ _

/-- The next line goes into another set. -/
theorem InIc.fillIc_next {s : State} {core line : Nat} {d : LineData} (h : InIc s core line d) (d' : LineData) :
    InIc (s.fillIc core (line + 1) d') core line d := by
  obtain ⟨w, y, hfind, hlt, hy⟩ := h
  obtain ⟨w', hlt', lru, heq⟩ := s.fillIc_eq core (line + 1) d'
  refine ⟨w, y, ?_, hlt, hy⟩
  rw [heq, State.core_setCore_self]
  refine (NMap.find?_insert_ne _ _ ?_).trans hfind
  unfold l1Set
  omega

/-! ### Prefetch -/

theorem State.sendReq_keeps (s : State) (c : Nat) (r : Req) (data : Option LineData) (runs : List (Nat × List Byte)) (entry : Nat)
    (carry : GState) : (s.sendReq c r data runs entry carry).mem = s.mem ∧ (s.sendReq c r data runs entry carry).cores = s.cores := by
  unfold State.sendReq
  split
  · exact ⟨rfl, rfl⟩
  · split
    · exact ⟨rfl, rfl⟩
    · simp [State.onClu]

theorem State.sendRead_keeps (s : State) (c line hint : Nat) (use : ReqUse) (waiters : List Waiter) :
    (s.sendRead c line hint use waiters).mem = s.mem ∧ (s.sendRead c line hint use waiters).cores = s.cores := by
  unfold State.sendRead
  exact s.sendReq_keeps _ _ _ _ _ _

/-- The prefetch of an instruction cache fills it with the next line, or leaves every core alone. -/
theorem State.prefetchL1_ic (s : State) (core line hint : Nat) :
    (∃ d, s.prefetchL1 core line hint true = s.fillIc core (line + 1) d)
      ∨ (s.prefetchL1 core line hint true).mem = s.mem ∧ (s.prefetchL1 core line hint true).cores = s.cores := by
  simp only [State.prefetchL1, if_true]
  split
  · exact .inr ⟨rfl, rfl⟩
  · split
    · next x _ => exact .inl ⟨x.data, rfl⟩
    · refine .inr ?_
      split
      · split <;> exact ⟨rfl, rfl⟩
      · split
        · exact ⟨rfl, rfl⟩
        · exact s.sendRead_keeps _ _ _ _ _

/-! ### Fetch -/

theorem fetchLine_hit {s : State} {c slot line key : Nat} {x : CLine} (hmem : s.memTy (128 * line) = .coherent)
    (hfind : (s.clu (c / 4)).find line = some (key, x)) :
    ∃ u : State, u.mem = s.mem ∧ u.cores = s.cores ∧ fetchLine s c slot line = (u.fillIc c line x.data).prefetchL1 c line 0 true := by
  unfold fetchLine clusterOf
  simp only [hmem, hfind]
  exact ⟨(s.setCc (c / 4) key { x with pfUnused := false }).touchCc (c / 4) key false, rfl, rfl, rfl⟩

theorem fetchLine_hit_spec {s : State} {c slot line key : Nat} {x : CLine} (hmem : s.memTy (128 * line) = .coherent)
    (hfind : (s.clu (c / 4)).find line = some (key, x)) : InIc (fetchLine s c slot line) c line x.data
      ∧ (∀ n, (fetchLine s c slot line).hand c n = s.hand c n) ∧ (fetchLine s c slot line).mem = s.mem := by
  obtain ⟨u, humem, hucores, heq⟩ := fetchLine_hit (slot := slot) hmem hfind
  have hin := inIc_fillIc u c line x.data
  have hhand (n : Nat) : (u.fillIc c line x.data).hand c n = s.hand c n := (u.hand_fillIc c line n _).trans (State.hand_congr hucores c n)
  rw [heq]
  rcases (u.fillIc c line x.data).prefetchL1_ic c line 0 with ⟨d, hfill⟩ | ⟨hmem', hcores⟩
  · rw [hfill]
    exact ⟨hin.fillIc_next d, fun n => (State.hand_fillIc _ _ _ _ _).trans (hhand n),
      (State.fillIc_mem _ _ _ _).trans ((State.fillIc_mem _ _ _ _).trans humem)⟩
  · refine ⟨?_, fun n => (State.hand_congr hcores c n).trans (hhand n), hmem'.trans ((State.fillIc_mem _ _ _ _).trans humem)⟩
    unfold InIc
    rw [State.core_congr hcores]
    exact hin

section
variable {s : State} {x : HandId} {h : Hand} (hclk : s.clocked (x.core.val / 4) = true) (hic : (s.core x.core).icinit = false)
  (hcc : (s.clu (x.core.val / 4)).ccinit = false) (hh : s.hand x.core x.slot = some h) (hcan : h.canIssue = true)
include hclk hic hcc hh hcan

theorem instructionFetch_goes_ready (hneed : fetchNeed s (s.core x.core) h = none) (hst : h.st = .waiting .fetch) :
    Goes (.instructionFetch x) s (s.setHand x.core x.slot { h with st := .ready }) := by
  refine (show exec (.instructionFetch x) s = execInstructionFetch x s from rfl).trans ?_
  simp [execInstructionFetch, clusterOf, hclk, hic, hcc, hh, hcan, hneed, hst, done]

theorem instructionFetch_goes_unpopulated {a : DWord} (hneed : fetchNeed s (s.core x.core) h = some a)
    (hpop : s.populated (s.normalise a.toNat) = false) : Goes (.instructionFetch x) s
      (raiseFault s x.core x.slot h { kind := 3, pc := a, resume := a, time := s.coreTime }) := by
  refine (show exec (.instructionFetch x) s = execInstructionFetch x s from rfl).trans ?_
  simp [execInstructionFetch, clusterOf, hclk, hic, hcc, hh, hcan, hneed, hpop, done]

theorem instructionFetch_goes_line {a : DWord} (hneed : fetchNeed s (s.core x.core) h = some a)
    (hpop : s.populated (s.normalise a.toNat) = true) (hfetch : fetching s x.core x.slot (lineOf (s.normalise a.toNat)) = false)
    (hwin : s.winHeld (s.normalise a.toNat) = false) : Goes (.instructionFetch x) s
      (fetchLine (s.setHand x.core x.slot { h with st := .waiting .fetch }) x.core x.slot (lineOf (s.normalise a.toNat))) := by
  refine (show exec (.instructionFetch x) s = execInstructionFetch x s from rfl).trans ?_
  simp [execInstructionFetch, clusterOf, hclk, hic, hcc, hh, hcan, hneed, hpop, hfetch, hwin, done]

end

/-- Settles O24: the trap and an unpopulated address are faults at the boundary; a line that the cluster cache holds is copied. -/
theorem poisonTrapAndFetch : Obligations.PoisonTrapAndFetch := by
  unfold Obligations.PoisonTrapAndFetch
  refine ⟨fun s x h f hclk hh hpoison hcan => ?trap, fun s x h hclk hic hcc hh hcan => ⟨instructionFetch_goes_ready hclk hic hcc hh hcan,
    fun a hneed hpop => ?unpopulated, fun a key l hneed hpop hfetch hwin hmem hfind => ?line⟩⟩
  case trap =>
    refine ⟨_, poisonTrap_goes hclk hh hpoison hcan, ?_⟩
    have hmem := (keepsStorage_raiseFault s x.core x.slot h { f with resume := h.pc }).1
    by_cases hops : h.ops = []
    · obtain ⟨b, hhand⟩ := raiseFault_idle s x.core x.slot { f with resume := h.pc } hops
      exact ⟨_, hhand, rfl, rfl, rfl, hmem, (if_pos hops).symm ▸ rfl⟩
    · rw [raiseFault_busy s x.core x.slot _ hops] at hmem ⊢
      exact ⟨_, State.hand_setHand_self _ _ _ _, rfl, rfl, rfl, hmem, (if_neg hops).symm ▸ rfl⟩
  case unpopulated =>
    refine ⟨_, instructionFetch_goes_unpopulated hclk hic hcc hh hcan hneed hpop, ?_⟩
    have hmem := (keepsStorage_raiseFault s x.core x.slot h { kind := 3, pc := a, resume := a, time := s.coreTime }).1
    by_cases hops : h.ops = []
    · obtain ⟨b, hhand⟩ := raiseFault_idle s x.core x.slot { kind := 3, pc := a, resume := a, time := s.coreTime } hops
      exact ⟨_, hhand, hmem, (if_pos hops).symm ▸ ⟨rfl, rfl⟩⟩
    · rw [raiseFault_busy s x.core x.slot _ hops] at hmem ⊢
      exact ⟨_, State.hand_setHand_self _ _ _ _, hmem, (if_neg hops).symm ▸ ⟨_, rfl, rfl, rfl⟩⟩
  case line =>
    obtain ⟨hin, hhand, hmem'⟩ := fetchLine_hit_spec (s := s.setHand x.core x.slot { h with st := .waiting .fetch }) (slot := x.slot)
      hmem hfind
    exact ⟨_, instructionFetch_goes_line hclk hic hcc hh hcan hneed hpop hfetch hwin, hin,
      (hhand _).trans (State.hand_setHand_self _ _ _ _), hmem'⟩

end Sys2Proof.Machine
end
section
/-!
PROOFS. The issue of enq and fsig: kitty slots reserved, and signals recorded with the hand (R203, R204).
-/
namespace Sys2Proof.Machine
open Sys2Proof.Safety

/-! ### enq -/

/-- The state once an `enq` of core and slot `i` has reserved a kitty slot for each of `n` records, and `full` found no room. -/
def State.reserves (s : State) (i : Issue) (op n full : Nat) : State :=
  (((s.count .KIT_ENQ_CNT 0 0 n).count .KIT_FULL_CNT 0 0 full).onCp fun cp =>
    { cp with kitty := cp.kitty ++ (List.range n).map fun j => KSlot.reserved i.core i.slot op j }).issue 7 0 n

section
variable (s : State) (i : Issue) (op n full : Nat)

theorem State.alters_reserves : Alters [.cp, .mgc, .regs] [.KIT_ENQ_CNT, .KIT_FULL_CNT] s (s.reserves i op n full) := by
  have hcp (t : State) (f : CpSt → CpSt) : Alters [.cp] [] t (t.onCp f) := .of_regs (by simp [Same, State.onCp]) rfl
  have hcount := (s.alters_count .KIT_ENQ_CNT 0 0 n).comp
    ((s.count .KIT_ENQ_CNT 0 0 n).alters_count .KIT_FULL_CNT 0 0 full) (ch := [.regs]) (fs := [.KIT_ENQ_CNT, .KIT_FULL_CNT])
    (by decide) (by decide)
  exact (hcount.comp (hcp _ _) (ch := [.cp, .regs]) (fs := [.KIT_ENQ_CNT, .KIT_FULL_CNT]) (by decide) (by decide)).comp
    (State.alters_issue _ 7 0 n) (by decide) (by decide)

theorem State.reserves_kitty : (s.reserves i op n full).cp.kitty =
    s.cp.kitty ++ (List.range n).map fun j => KSlot.reserved i.core i.slot op j := by
  simp [State.reserves, State.onCp]

theorem State.reserves_enqCnt : (s.reserves i op n full).reg .KIT_ENQ_CNT = satAdd32 (s.reg .KIT_ENQ_CNT) n := by
  refine (State.reg_congr (State.issue_regs _ _ _ _) _ _ _).trans ?_
  change ((s.count .KIT_ENQ_CNT 0 0 n).count .KIT_FULL_CNT 0 0 full).reg .KIT_ENQ_CNT = _
  simp [State.reg_count]

theorem State.reserves_fullCnt : (s.reserves i op n full).reg .KIT_FULL_CNT = satAdd32 (s.reg .KIT_FULL_CNT) full := by
  refine (State.reg_congr (State.issue_regs _ _ _ _) _ _ _).trans ?_
  change ((s.count .KIT_ENQ_CNT 0 0 n).count .KIT_FULL_CNT 0 0 full).reg .KIT_FULL_CNT = _
  simp [State.reg_count]

end

/-- The records that find room in a kitty of so many. -/
def enqGot (co : Core) (h : Hand) (ins : Insn) (kitty : Nat) : List (Nat × Nat) := (threadAccesses co h ins).take (8192 - kitty)

/-- The reads of the records that an `enq` hands over. -/
def enqParts (s : State) (got : List (Nat × Nat)) : List Part :=
  got.map fun p => { thread := p.1, addr := s.normalise p.2, size := 64, op := .load }

/-- A hand once its `enq` has told each of its threads whether it got a slot. -/
def Hand.enqueued (h : Hand) (ins : Insn) (got : List (Nat × Nat)) : Hand :=
  h.setP ins.dst.toNat (h.enabled ins) fun k => got.any fun p => p.1 == k

/-- What an issue leaves alone does not enter what the threads are told. -/
theorem Hand.enqueued_issued (h : Hand) (now : Nat) (ins : Insn) (got : List (Nat × Nat)) :
    (h.issued now ins).enqueued ins got = { h.issued now ins with preds := (h.enqueued ins got).preds } := by
  unfold Hand.enqueued Hand.setP Hand.setPRaw
  split <;> rfl

theorem Hand.enqueued_p (h : Hand) (ins : Insn) (got : List (Nat × Nat)) {k : Nat} (hk : k < 64) (p : Nat) :
    ((h.enqueued ins got).p p).getLsbD k = if p = ins.dst.toNat ∧ p ≠ 0 then
      h.live.getLsbD k && (if h.enabled ins k then decide (k ∈ got.map (·.1)) else (h.p p).getLsbD k) else (h.p p).getLsbD k := by
  have hany : (got.any fun q => q.1 == k) = decide (k ∈ got.map (·.1)) := by
    rw [Bool.eq_iff_iff]
    simp
  refine (h.p_setP ins.dst.toNat p k (h.enabled ins) _ hk).trans ?_
  by_cases hp : p = ins.dst.toNat
  · rw [hp, hany]
  · simp only [hp, false_and, if_false]

theorem enqBody_eq (i : Issue) (ins : Insn) (s : State) (co : Core) (h : Hand) : enqBody i ins s co h =
    let got := enqGot co h ins s.cp.kitty.length
    let t := s.reserves i h.nextOp got.length ((threadAccesses co h ins).length - got.length)
    beginOp (t.setHand i.core i.slot (h.enqueued ins got)) i (h.enqueued ins got) 0xC0 ins true false (enqParts t got) := rfl

section
variable {s : State} {i : Issue} {ins : Insn} {h : Hand}

/-- What an `enq` that nothing holds has waited for, and found. -/
theorem enq_clear (hc : Clear s i ins (enqSpec i ins) h) : released s i.core h 3 = true
    ∧ ∀ p ∈ threadAccesses (s.core i.core) h ins, p.2 % 64 = 0 ∧ s.populated (s.normalise p.2) = true := by
  obtain ⟨-, -, -, hready, haccess⟩ := hc
  simp only [enqSpec, Bool.and_eq_true] at hready
  exact ⟨hready.1.2, (accessFault_eq_none_iff _ _ _).1 haccess⟩

/-- The state in which the slots of an `enq` are reserved and its hand has gone on, before its reads move on. -/
theorem enq_goes (hc : Clear s i ins (enqSpec i ins) h) :
    let got := enqGot (s.core i.core) h ins s.cp.kitty.length
    let full := (threadAccesses (s.core i.core) h ins).length - got.length
    let t := (s.issued i .memory ins h).reserves i h.nextOp got.length full
    let y := { h.issued s.coreTime ins with preds := (h.enqueued ins got).preds }
    Goes (.enq i ins) s (beginOp (t.setHand i.core i.slot y) i y 0xC0 ins true false (enqParts t got)) := by
  have hgo : Goes (.enq i ins) s _ := goes_of_clear (sp := enqSpec i ins) rfl hc
  have hcp : (s.issued i .memory ins h).cp = s.cp := same_iff.1 (s.onlyHand_issued i .memory ins h).1 .cp (by decide)
  have haccs : threadAccesses ((s.core i.core).chosen i .memory) (h.issued s.coreTime ins) ins = threadAccesses (s.core i.core) h ins :=
    Core.read_chosen_issued i .memory ins (fun co h => threadAccesses co h ins) (fun _ _ _ => rfl) (s.core i.core)
  rw [show (enqSpec i ins).body = enqBody i ins from rfl, show (enqSpec i ins).unit = .memory from rfl, enqBody_eq] at hgo
  simp only [enqGot, haccs, hcp, Hand.enqueued_issued] at hgo
  exact hgo

/-- How an `enq` issues (R203). -/
theorem enq_issues (hc : Clear s i ins (enqSpec i ins) h) :
    let got := enqGot (s.core i.core) h ins s.cp.kitty.length
    ∃ x h', Same [.cores, .regs, .cp, .mgc] s x ∧ SameRegs (.KIT_ENQ_CNT :: .KIT_FULL_CNT :: issueFields) s x
      ∧ Goes (.enq i ins) s (if got = [] then x else pumpOp x i.core i.slot h.nextOp)
      ∧ x.cp.kitty = s.cp.kitty ++ (List.range got.length).map (fun j => KSlot.reserved i.core i.slot h.nextOp j)
      ∧ x.reg .KIT_ENQ_CNT = satAdd32 (s.reg .KIT_ENQ_CNT) got.length
      ∧ x.reg .KIT_FULL_CNT =
        satAdd32 (s.reg .KIT_FULL_CNT) ((threadAccesses (s.core i.core) h ins).length - got.length)
      ∧ x.hand i.core i.slot = some h' ∧ h'.ureg = h.ureg ∧ h'.flags = h.flags ∧ h'.pc = (h.issued s.coreTime ins).pc
      ∧ h'.preds = (h.enqueued ins got).preds
      ∧ (got ≠ [] → ∃ o, h'.ops = h.ops ++ [o] ∧ o.opc = 0xC0 ∧ o.parts = enqParts s got)
      ∧ (x.core i.core).vrf = (s.core i.core).vrf := by
  intro got
  have hgo := enq_goes hc
  let full := (threadAccesses (s.core i.core) h ins).length - got.length
  let t := (s.issued i .memory ins h).reserves i h.nextOp got.length full
  let y : Hand := { h.issued s.coreTime ins with preds := (h.enqueued ins got).preds }
  change Goes (.enq i ins) s (beginOp (t.setHand i.core i.slot y) i y 0xC0 ins true false (enqParts t got)) at hgo
  obtain ⟨⟨hsame, hregs, -, -⟩, hvrf⟩ := s.onlyHandRegs_issued i .memory ins h
  have halters := (s.issued i .memory ins h).alters_reserves i h.nextOp got.length full
  have hstate (u : State) (hu : Alters [.cores] [] t u) : Same [.cores, .regs, .cp, .mgc] s u
      ∧ SameRegs (.KIT_ENQ_CNT :: .KIT_FULL_CNT :: issueFields) s u
      ∧ u.cp.kitty = s.cp.kitty ++ (List.range got.length).map (fun j => KSlot.reserved i.core i.slot h.nextOp j)
      ∧ u.reg .KIT_ENQ_CNT = satAdd32 (s.reg .KIT_ENQ_CNT) got.length
      ∧ u.reg .KIT_FULL_CNT = satAdd32 (s.reg .KIT_FULL_CNT) full := by
    have hall := (halters.comp hu (ch := [.cores, .cp, .mgc, .regs]) (fs := [.KIT_ENQ_CNT, .KIT_FULL_CNT]) (by decide) (by decide))
    have hcp : u.cp = t.cp := hu.agree .cp (by decide)
    have hcp' : (s.issued i .memory ins h).cp = s.cp := same_iff.1 hsame .cp (by decide)
    refine ⟨(hsame.mono (by decide)).trans (hall.1.mono (by decide)), (hregs.mono (by simp)).trans (hall.2.mono (by simp)), ?_, ?_, ?_⟩
    · rw [hcp, State.reserves_kitty, hcp']
    · rw [hu.reg _ _ _ (by decide), State.reserves_enqCnt, hregs _ _ _ (by decide)]
    · rw [hu.reg _ _ _ (by decide), State.reserves_fullCnt, hregs _ _ _ (by decide)]
  have hcores : t.cores = (s.issued i .memory ins h).cores := halters.agree .cores (by decide)
  have hset := t.alters_setHand i.core i.slot y
  have hparts : enqParts t got = enqParts s got := by
    have hnorm (a : Nat) : t.normalise a = s.normalise a :=
      (State.normalise_congr (halters.reg _ _ _ (by decide)) (halters.reg _ _ _ (by decide)) a).trans (s.normalise_issued i .memory ins h a)
    simp only [enqParts, hnorm]
  rw [hparts] at hgo
  by_cases hgot : got = []
  · rw [hgot, show enqParts s [] = [] from rfl, beginOp_nil] at hgo
    obtain ⟨hsame', hregs', hkitty, henq, hfull⟩ := hstate _ hset
    refine ⟨t.setHand i.core i.slot y, y, hsame', hregs', ?_, hkitty, henq, hfull, State.hand_setHand_self _ _ _ _, rfl, rfl, rfl, rfl,
      fun hne => absurd hgot hne, ?_⟩
    · rw [if_pos hgot]
      exact hgo
    · rw [State.vrf_setHand, State.core_congr hcores, hvrf]
  · have hne : enqParts s got ≠ [] := by simpa [enqParts] using hgot
    rw [beginOp_of_ne_nil _ i y 0xC0 ins true false hne] at hgo
    obtain ⟨hsame', hregs', hkitty, henq, hfull⟩ := hstate _ (hset.trans ((t.setHand i.core i.slot y).alters_setHand i.core i.slot
      (y.recorded (t.setHand i.core i.slot y) i 0xC0 ins true false (enqParts s got))))
    refine ⟨_, _, hsame', hregs', ?_, hkitty, henq, hfull, State.hand_setHand_self _ _ _ _, rfl, rfl, rfl, rfl,
      fun _ => ⟨issuedOp y 0xC0 ins (enqParts s got), rfl, rfl, rfl⟩, ?_⟩
    · rw [if_neg hgot]
      exact hgo
    · rw [State.vrf_setHand, State.vrf_setHand, State.core_congr hcores, hvrf]

/-! ### fsig -/

/-- Where fences lie depends on the fence base and the tile's ID alone. -/
theorem State.fenceAddr_issued (s : State) (i : Issue) (u : ExecUnit) (ins : Insn) (h : Hand) (n : Nat) :
    (s.issued i u ins h).fenceAddr n = s.fenceAddr n := by
  obtain ⟨-, hregs, -⟩ := s.onlyHand_issued i u ins h
  have hbase : (s.issued i u ins h).fenceBase = s.fenceBase := by
    unfold State.fenceBase State.reg64
    rw [hregs _ _ _ (by decide), hregs _ _ _ (by decide)]
  unfold State.fenceAddr State.fenceOffset
  rw [hbase, State.normalise_issued]

/-- The signals of an `fsig`, one for each enabled thread in ascending order (R204). -/
def fsigParts (s : State) (co : Core) (h : Hand) (ins : Insn) : List Part :=
  (numsWhere 64 (h.enabled ins)).map fun k =>
    { thread := k, addr := s.fenceAddr (fsigFence co h ins k), size := 16,
      op := .signal (if ins.fn.getLsbD 0 then .add (srcB co h ins .u64 k) else .set (srcB co h ins .u64 k)) false }

theorem fsigParts_issued (s : State) (i : Issue) (ins : Insn) (h : Hand) :
    fsigParts (s.issued i .memory ins h) ((s.core i.core).chosen i .memory) (h.issued s.coreTime ins) ins =
      fsigParts s (s.core i.core) h ins := by
  refine (Core.read_chosen_issued i .memory ins (fun co h' => fsigParts (s.issued i .memory ins h) co h' ins) (fun _ _ _ => rfl)
    (s.core i.core)).trans ?_
  unfold fsigParts
  simp only [State.fenceAddr_issued]

theorem fsig_goes (hc : Clear s i ins (fsigSpec i ins) h) : Goes (.fsig i ins) s
    (beginOp (s.issued i .memory ins h) i (h.issued s.coreTime ins) 0xC1 ins false true (fsigParts s (s.core i.core) h ins)) := by
  rw [← fsigParts_issued]
  exact goes_of_clear rfl hc

/-- The fences that an `fsig` that nothing holds names. -/
theorem fsig_clear (hc : Clear s i ins (fsigSpec i ins) h) :
    ∀ k ∈ numsWhere 64 (h.enabled ins), fsigFence (s.core i.core) h ins k < 4096 := by
  obtain ⟨-, -, -, -, haccess⟩ := hc
  simpa [fsigSpec] using haccess

theorem fsig_issues (hc : Clear s i ins (fsigSpec i ins) h) : if numsWhere 64 (h.enabled ins) = [] then
      Ends (.fsig i ins) s fun t => OnlyHandRegs i s t ∧ t.hand i.core i.slot = some (h.issued s.coreTime ins)
    else ∃ x, Began s i h 0xC1 ins (fsigParts s (s.core i.core) h ins) x
      ∧ Goes (.fsig i ins) s (pumpOp x i.core i.slot h.nextOp) := by
  have hgo := fsig_goes hc
  split
  · next hnone =>
    rw [fsigParts, hnone, List.map_nil, beginOp_nil] at hgo
    exact ⟨_, hgo, s.onlyHandRegs_issued i .memory ins h, s.hand_issued i .memory ins h⟩
  · next hsome =>
    have hne : fsigParts s (s.core i.core) h ins ≠ [] := by simpa [fsigParts] using hsome
    rw [beginOp_of_ne_nil _ i _ 0xC1 ins false true hne] at hgo
    obtain ⟨⟨hsame, hregs, -, -⟩, -⟩ := OnlyHandRegs.setHand (s.onlyHandRegs_issued i .memory ins h)
      ((h.issued s.coreTime ins).recorded (s.issued i .memory ins h) i 0xC1 ins false true (fsigParts s (s.core i.core) h ins))
    exact ⟨_, ⟨hsame, hregs, issuedOp (h.issued s.coreTime ins) 0xC1 ins (fsigParts s (s.core i.core) h ins), _,
      State.hand_setHand_self _ _ _ _, rfl, rfl, rfl, rfl, rfl, rfl, rfl, rfl⟩, hgo⟩

/-- A fence of 4,096 or more that an enabled thread names is at an unpopulated address. -/
theorem fsig_access {k : Nat} (hk : k < 64) (hen : h.enabled ins k = true) (hfence : 4096 ≤ fsigFence (s.core i.core) h ins k) :
    ∃ t a, (fsigSpec i ins).access s (s.core i.core) h = some (3, t, a) := by
  have hsome : ((numsWhere 64 (h.enabled ins)).find? fun k => decide (4096 ≤ fsigFence (s.core i.core) h ins k)).isSome = true := by
    rw [List.find?_isSome]
    exact ⟨k, List.mem_filter.2 ⟨List.mem_range.2 hk, hen⟩, decide_eq_true hfence⟩
  obtain ⟨j, hj⟩ := Option.isSome_iff_exists.1 hsome
  refine ⟨j, fsigFence (s.core i.core) h ins j, ?_⟩
  simp only [fsigSpec, hj, Option.map_some]

end

/-- Settles O25: an `enq` takes slots for the records that find room, and reads them; an `fsig` records its signals. -/
theorem taskInstructionsIssue : Obligations.TaskInstructionsIssue := by
  unfold Obligations.TaskInstructionsIssue
  refine ⟨fun s i ins h hc => ?enq, fun s i ins h hc => ⟨fsig_clear hc, fsig_issues hc⟩,
    fun s i ins h k hcan hlegal hready hk hen hfence => ?unpopulated⟩
  case enq =>
    obtain ⟨hreleased, haccs⟩ := enq_clear hc
    obtain ⟨x, h', hsame, hregs, hgo, hkitty, henq, hfull, hhand, hureg, hflags, hpc, hpreds, hops, hvrf⟩ := enq_issues hc
    refine ⟨hreleased, haccs, x, h', hsame, hregs, hgo, hkitty, henq, hfull, hhand, hureg, hflags, hpc, fun k hk p => ?_, fun hgot => ?_,
      hvrf⟩
    · have hp : h'.p p = (h.enqueued ins (enqGot (s.core i.core) h ins s.cp.kitty.length)).p p := by
        unfold Hand.p
        rw [hpreds]
      rw [hp]
      exact h.enqueued_p ins _ hk p
    · obtain ⟨o, hadd, hopc, hparts⟩ := hops hgot
      refine ⟨o, hadd, hopc, ?_⟩
      rw [hparts, enqParts, List.map_map]
      rfl
  case unpopulated =>
    obtain ⟨t, a, haccess⟩ := fsig_access (s := s) (i := i) hk hen hfence
    exact stops_of_access (sp := fsigSpec i ins) rfl hcan hlegal rfl hready haccess

end Sys2Proof.Machine
end
section
/-!
PROOFS. The matrix engine's INT8 summation (R224).
-/
namespace Sys2Proof.Machine
open Sys2Proof.Safety

/-! ### Clamped addition -/

/-- The nearest INT32 value. -/
def clamp32 (v : Int) : Int := max (-2147483648) (min 2147483647 v)

/-- The clamped sum of the first groups, added in ascending order. -/
def clampedSum (start : Int) (group : Nat → Int) (n : Nat) : Int :=
  (List.range n).foldl (fun c g => clamp32 (c + group g)) start

/-- The flags once the first groups have been added: overflow where an addition has left the range. -/
def clampedFlags (start : Int) (group : Nat → Int) (n : Nat) : FFlags :=
  if ∃ g < n, clampedSum start group g + group g ≠ clamp32 (clampedSum start group g + group g) then flOverflow else 0

theorem clampedSum_succ (start : Int) (group : Nat → Int) (n : Nat) :
    clampedSum start group (n + 1) = clamp32 (clampedSum start group n + group n) := by
  simp [clampedSum, List.range_succ]

theorem clampedFlags_succ (start : Int) (group : Nat → Int) (n : Nat) : clampedFlags start group (n + 1) =
    if clampedSum start group n + group n ≠ clamp32 (clampedSum start group n + group n) then clampedFlags start group n ||| flOverflow
    else clampedFlags start group n := by
  by_cases hclip : clampedSum start group n + group n ≠ clamp32 (clampedSum start group n + group n)
  · have hset : clampedFlags start group n ||| flOverflow = flOverflow := by
      unfold clampedFlags
      split <;> decide
    rw [if_pos hclip, hset]
    exact if_pos ⟨n, Nat.lt_succ_self n, hclip⟩
  · rw [if_neg hclip]
    simp only [clampedFlags, Nat.exists_lt_succ_right, hclip, or_false]

theorem addGroupInt_eq (acc : Int × FFlags) (g : Int) : addGroupInt acc g =
    (clamp32 (acc.1 + g), if acc.1 + g ≠ clamp32 (acc.1 + g) then acc.2 ||| flOverflow else acc.2) := by
  unfold addGroupInt
  dsimp only
  split
  · next hhigh =>
    have hclamp : clamp32 (acc.1 + g) = 2147483647 := by unfold clamp32; omega
    rw [hclamp, if_pos (by omega)]
  · split
    · next hlow =>
      have hclamp : clamp32 (acc.1 + g) = -2147483648 := by unfold clamp32; omega
      rw [hclamp, if_pos (by omega)]
    · have hclamp : clamp32 (acc.1 + g) = acc.1 + g := by unfold clamp32; omega
      rw [hclamp, if_neg (by simp)]

theorem foldl_addGroupInt (start : Int) (group : Nat → Int) (n : Nat) :
    (List.range n).foldl (fun acc g => addGroupInt acc (group g)) (start, 0) =
      (clampedSum start group n, clampedFlags start group n) := by
  induction n with
  | zero => simp [clampedSum, clampedFlags]
  | succ n ih => rw [List.range_succ, List.foldl_concat, ih, addGroupInt_eq, clampedSum_succ, clampedFlags_succ]

/-- A clamped sum that starts in the INT32 range stays there, so its pattern reads back as the sum. -/
theorem toInt_ofNat_clampedSum (start : BitVec 32) (group : Nat → Int) (n : Nat) :
    (BitVec.ofNat 32 (BitVec.ofInt 32 (clampedSum start.toInt group n)).toNat).toInt = clampedSum start.toInt group n := by
  have hrange : -2147483648 ≤ clampedSum start.toInt group n ∧ clampedSum start.toInt group n ≤ 2147483647 := by
    cases n with
    | zero =>
      have hlo := BitVec.le_toInt start
      have hhi := BitVec.toInt_lt (x := start)
      simp only [clampedSum, List.range_zero, List.foldl_nil]
      omega
    | succ n =>
      rw [clampedSum_succ, clamp32]
      omega
  rw [BitVec.ofNat_toNat, BitVec.setWidth_eq, BitVec.toInt_ofInt]
  exact Int.bmod_eq_of_le (by omega) (by omega)

/-! ### One element of an accumulator -/

/-- The exact sum of the 16 products of a group of INT8 elements. -/
def int8Group (a b : Array Byte) (i j g : Nat) : Int :=
  ((List.range 16).map fun k => (a.getD (128 * i + (16 * g + k)) 0).toInt * (b.getD (128 * j + (16 * g + k)) 0).toInt).sum

theorem ofNat_element_int8 (page : Array Byte) (v k : Nat) : BitVec.ofNat 8 (element 4 page v k) = page.getD (128 * v + k) 0 :=
  (BitVec.ofNat_toNat ..).trans (BitVec.setWidth_eq _)

theorem foldl_products_int8 (a b : Array Byte) (i j g : Nat) : ((List.range 16).map (16 * g + ·)).foldl (fun acc k =>
      acc + (BitVec.ofNat 8 (element 4 a i k)).toInt * (BitVec.ofNat 8 (element 4 b j k)).toInt) 0 = int8Group a b i j g := by
  simp only [ofNat_element_int8]
  rw [List.foldl_map, int8Group, List.sum_eq_foldl, List.foldl_map]

/-- An INT8 element of an accumulator is the clamped sum of its eight groups. -/
theorem mmaElement_int8 (a b sa sb : Array Byte) (i j start : Nat) : mmaElement 4 4 a b sa sb i j start =
    ((BitVec.ofInt 32 (clampedSum (BitVec.ofNat 32 start).toInt (int8Group a b i j) 8)).toNat,
      clampedFlags (BitVec.ofNat 32 start).toInt (int8Group a b i j) 8) := by
  have hgroups : fmtK 4 / 16 = 8 := rfl
  simp only [mmaElement, hgroups, if_true, foldl_products_int8, foldl_addGroupInt]

/-- Settles O29: the engine's clamped fold over the eight groups, and its flag, are the stated ones. -/
theorem intSummationClamps : Obligations.IntSummationClamps := by
  unfold Obligations.IntSummationClamps
  intro a b sa sb i j start
  dsimp only
  rw [mmaElement_int8]
  refine ⟨toInt_ofNat_clampedSum _ _ _, ?_, ?_⟩
  · exact ite_eq_left_iff.trans ⟨fun h => by_contra fun hno => absurd (h hno) (by decide), fun h hno => absurd h hno⟩
  · unfold clampedFlags
    split
    · exact .inl rfl
    · exact .inr rfl

end Sys2Proof.Machine
end
section
/-!
PROOFS. Matrix instructions join their port's queue, or fault (R214, R215, R227, R232, R235).
-/
namespace Sys2Proof.Machine
open Sys2Proof.Safety

/-! ### Acceptance -/

/-- The operation that joins those of a hand as its matrix instruction is accepted. -/
def mxOpOf (h : Hand) (opc : Nat) (ins : Insn) (parts : List Part) (res : NMap PartRes) : MemOp :=
  { issuedOp h opc ins parts with res := res }

/-- A hand with its accepted instruction; a watchpoint that its rows meet asks for a debug stop (R260). -/
def Hand.accepted (h : Hand) (s : State) (i : Issue) (opc : Nat) (ins : Insn) (parts : List Part) (res : NMap PartRes)
    (rd wr : Bool) : Hand :=
  { h with ops := h.ops ++ [mxOpOf h opc ins parts res], nextOp := h.nextOp + 1,
           stop := watchStop s i.core.val i.slot.val rd wr (parts.map fun p => (p.thread, p.addr, p.size)) h }

/-- A core whose port for an opcode has one more entry: `mx.ld` and `mx.st` have one queue, the others another (R227). -/
def Core.enqueues (co : Core) (opc : Nat) (e : Nat × Nat) : Core :=
  if opc = 0xA0 ∨ opc = 0xA2 then { co with lsq := co.lsq ++ [e] } else { co with cq := co.cq ++ [e] }

/-- The state in which an instruction is accepted and its rows have not moved on. -/
def State.accepts (s : State) (i : Issue) (h : Hand) (opc : Nat) (ins : Insn) (parts : List Part) (res : NMap PartRes)
    (rd wr : Bool) : State :=
  (s.setHand i.core i.slot (h.accepted s i opc ins parts res rd wr)).onCore i.core fun co => co.enqueues opc (i.slot.val, h.nextOp)

theorem acceptMx_eq (s : State) (i : Issue) (h : Hand) (opc : Nat) (ins : Insn) (parts : List Part) (res : NMap PartRes)
    (rd wr : Bool) : acceptMx s i h opc ins parts res rd wr =
      pumpOp (s.accepts i h opc ins parts res rd wr) i.core i.slot h.nextOp := rfl

theorem Core.enqueues_eq (co : Core) (opc : Nat) (e : Nat × Nat) : co.enqueues opc e =
    { co with lsq := if opc = 0xA0 ∨ opc = 0xA2 then co.lsq ++ [e] else co.lsq,
              cq := if opc = 0xA0 ∨ opc = 0xA2 then co.cq else co.cq ++ [e] } := by
  unfold Core.enqueues
  split <;> rfl

theorem State.alters_onCore (s : State) (c : Nat) (f : Core → Core) : Alters [.cores] [] s (s.onCore c f) := s.alters_setCore c _

theorem State.core_onCore_self (s : State) (c : Nat) (f : Core → Core) : (s.onCore c f).core c = f (s.core c) :=
  s.core_setCore_self c _

section
variable (s : State) (i : Issue) (h : Hand) (opc : Nat) (ins : Insn) (parts : List Part) (res : NMap PartRes) (rd wr : Bool)

theorem State.alters_accepts : Alters [.cores] [] s (s.accepts i h opc ins parts res rd wr) :=
  (s.alters_setHand _ _ _).trans (State.alters_onCore _ _ _)

theorem State.hand_accepts :
    (s.accepts i h opc ins parts res rd wr).hand i.core i.slot = some (h.accepted s i opc ins parts res rd wr) := by
  rw [State.hand, State.accepts, State.core_onCore_self, Core.enqueues_eq]
  exact State.hand_setHand_self _ _ _ _

/-- The core of the issue: its port's queue has one more entry, and its storage is the same. -/
theorem State.core_accepts : ∃ slots, (s.accepts i h opc ins parts res rd wr).core i.core =
    { (s.core i.core).enqueues opc (i.slot.val, h.nextOp) with slots := slots } := by
  refine ⟨NMap.insert (s.core i.core).slots i.slot (h.accepted s i opc ins parts res rd wr), ?_⟩
  rw [State.accepts, State.core_onCore_self, State.core_setHand_self, Core.enqueues_eq, Core.enqueues_eq]

end

/-! ### The issue of each instruction -/

/-- The loads that a memory-form `mx.ld` makes, one for each 64-byte piece of its rows. -/
def mxLdParts (s : State) (h : Hand) (ins : Insn) : List Part :=
  (if ins.fn.getLsbD 3 then [] else rowPieces h ins (ldRows ins).1 (ldRows ins).2).map fun p =>
    { thread := p.1, addr := s.normalise p.2, size := 64, op := .load, hint := fnBits ins 7 6 }

theorem mem_matrixSpecs {i : Issue} {ins : Insn} {p : Instr × IssueSpec} : p ∈ matrixSpecs i ins ↔
    p = (.mxLd i ins, mxLdSpec i ins) ∨ p = (.mma i ins, mmaSpec i ins) ∨ p = (.mxSt i ins, mxStSpec i ins)
      ∨ p = (.mxClr i ins, mxClrSpec i ins) ∨ (ins.fn.getLsbD 10 = true ∧ p = (.mxCvtTile i ins, mxCvtTileSpec i ins))
      ∨ (ins.fn.getLsbD 10 = false ∧ p = (.mxCvtReg i ins, mxCvtRegSpec i ins)) := by
  unfold matrixSpecs
  cases ins.fn.getLsbD 10 <;> simp

/-- Each matrix instruction's effect is that it is accepted; an `mx.cvt` may take from what the spec leaves free. -/
theorem matrixSpecs_body {i : Issue} {ins : Insn} {p : Instr × IssueSpec} (hp : p ∈ matrixSpecs i ins) (s : State) (co : Core)
    (h : Hand) : p.2.unit = .matrix ∧
      ∃ free parts res rd wr, p.2.body s co h = acceptMx { s with free := free } i h p.2.opc ins parts res rd wr
        ∧ (p.2.opc = 0xA0 → parts = mxLdParts s h ins) := by
  rcases mem_matrixSpecs.1 hp with rfl | rfl | rfl | rfl | ⟨-, rfl⟩ | ⟨-, rfl⟩
  case inl => exact ⟨rfl, s.free, _, _, _, _, rfl, fun _ => rfl⟩
  case inr.inr.inr.inr.inr =>
    have hbody : ∃ res, (mxCvtRegSpec i ins).body s co h =
        acceptMx (if fnBits ins 2 0 = 4 then { s with free := s.free + 1 } else s) i h 0xA4 ins [] res false false := ⟨_, rfl⟩
    obtain ⟨res, hbody⟩ := hbody
    split at hbody
    · exact ⟨rfl, s.free + 1, [], res, false, false, hbody, nofun⟩
    · exact ⟨rfl, s.free, [], res, false, false, hbody, nofun⟩
  all_goals exact ⟨rfl, s.free, _, _, _, _, rfl, nofun⟩

/-- A matrix instruction comes to its issue alone, but for a scale load whose stride is not 0 and that would be accepted (R8). -/
theorem exec_matrixSpecs_issue {s : State} {i : Issue} {ins : Insn} {h : Hand} {p : Instr × IssueSpec} (hp : p ∈ matrixSpecs i ins)
    (hissuer : issuer s i p.2.opc p.2.unit ins = some (s.core i.core, h))
    (hmx : p.2.opc = 0xA0 → ins.fn.getLsbD 5 = true → ins.fn.getLsbD 3 = false → strideOf h ins ≠ 0 → p.2.matrix h = true) :
    exec p.1 s = .next (issue s i ins p.2) := by
  rcases mem_matrixSpecs.1 hp with rfl | rfl | rfl | rfl | ⟨hmode, rfl⟩ | ⟨hmode, rfl⟩
  case inl =>
    refine (show exec (.mxLd i ins) s = execMxLd i ins s from rfl).trans ?_
    have hissuer' : issuer s i 0xA0 .matrix ins = some (s.core i.core, h) := hissuer
    unfold execMxLd
    simp only [hissuer']
    refine if_neg fun hstop => ?_
    simp only [Bool.and_eq_true, Bool.not_eq_true', bne_iff_ne] at hstop
    obtain ⟨⟨⟨⟨⟨⟨⟨⟨hpart, hform⟩, hstride⟩, -⟩, hmatrix⟩, -⟩, -⟩, -⟩, -⟩ := hstop
    exact Bool.false_ne_true (hmatrix.symm.trans (hmx rfl hpart hform hstride))
  case inr.inr.inr.inr.inl =>
    refine (show exec (.mxCvtTile i ins) s = execMxCvtTile i ins s from rfl).trans ?_
    rw [execMxCvtTile, hmode]
    rfl
  case inr.inr.inr.inr.inr =>
    refine (show exec (.mxCvtReg i ins) s = execMxCvtReg i ins s from rfl).trans ?_
    rw [execMxCvtReg, hmode]
    rfl
  all_goals rfl

/-- An instruction with a cause of the matrix fault raises it (R235, R242). -/
theorem issue_matrix {s : State} {i : Issue} {ins : Insn} {sp : IssueSpec} {h : Hand}
    (hcan : CanIssue s i sp.opc sp.unit ins h sp.names) (hlegal : sp.legal h = true) (hmatrix : sp.matrix h = true) :
    issue s i ins sp = raiseFault s i.core i.slot h (faultAt s h sp.opc ins 4 0xFF 0) := by
  obtain ⟨hissuer, hbreak, hpoison, -⟩ := hcan
  have hbreak' : ¬ (breakMask s i.core i.slot h ≠ 0 ∧ h.skipBp = false) := by
    rintro ⟨hmask, hskip⟩
    rcases hbreak with hzero | hset
    · exact hmask hzero
    · simp [hset] at hskip
  simp only [issue, hissuer, hbreak', hpoison, hlegal, hmatrix, if_false, if_true, Bool.not_true, Bool.false_eq_true]

/-- A scale load that would be accepted, with a stride that is not 0, stops the run (R8). -/
theorem exec_mxLd_strided {s : State} {i : Issue} {ins : Insn} {h : Hand} (hc : Clear s i ins (mxLdSpec i ins) h)
    (hpart : ins.fn.getLsbD 5 = true) (hform : ins.fn.getLsbD 3 = false) (hstride : strideOf h ins ≠ 0) :
    exec (.mxLd i ins) s = .fault .notDefined := by
  obtain ⟨⟨hissuer, hbreak, hpoison, hwait⟩, hlegal, hmatrix, hready, -⟩ := hc
  have hissuer' : issuer s i 0xA0 .matrix ins = some (s.core i.core, h) := hissuer
  have hbreak' : (breakMask s i.core i.slot h == 0 || h.skipBp) = true := by simpa using hbreak
  refine (show exec (.mxLd i ins) s = execMxLd i ins s from rfl).trans ?_
  unfold execMxLd
  simp only [hissuer']
  refine if_pos ?_
  simp only [hpart, hform, hlegal, hmatrix, hwait, hready, hpoison, hbreak', bne_iff_ne.2 hstride, Option.isNone_none, Bool.not_false,
    Bool.and_self]

/-! ### Rows -/

/-- The rows of a memory-form `mx.ld` into a page: 64 rows of 128 bytes, in two pieces each. -/
theorem mxLdParts_page (s : State) (h : Hand) {ins : Insn} (hform : ins.fn.getLsbD 3 = false) (htrans : ins.fn.getLsbD 4 = false)
    (hpart : ins.fn.getLsbD 5 = false) :
    (mxLdParts s h ins).map (fun q => (q.thread, q.addr, q.size, q.op)) =
      (List.range 64).flatMap fun r => (List.range 2).map fun j =>
        (r, s.normalise (((h.u (ins.sra.toNat % 64)).toNat + r * strideOf h ins + 64 * j) % 2 ^ 64), 64, PartOp.load) := by
  have hrows : ldRows ins = (64, 128) := by simp only [ldRows, hpart, htrans, Bool.false_eq_true, if_false]
  rw [mxLdParts, hform, if_neg Bool.false_ne_true, hrows]
  simp only [rowPieces, rowAddr, List.map_flatMap, List.map_map, Function.comp_def, Nat.mod_add_mod]

theorem mxLdParts_issued (s : State) (i : Issue) (u : ExecUnit) (ins : Insn) (h : Hand) :
    mxLdParts (s.issued i u ins h) (h.issued s.coreTime ins) ins = mxLdParts s h ins := by
  unfold mxLdParts
  simp only [State.normalise_issued]
  rfl

/-! ### Acceptance of an instruction that nothing holds -/

section
variable {s : State} {i : Issue} {ins : Insn} {h : Hand} {p : Instr × IssueSpec}

theorem matrix_goes (hp : p ∈ matrixSpecs i ins) (hc : Clear s i ins p.2 h)
    (hstride : p.2.opc = 0xA0 → ins.fn.getLsbD 5 = true → ins.fn.getLsbD 3 = false → strideOf h ins = 0) :
    ∃ free parts res rd wr, (p.2.opc = 0xA0 → parts = mxLdParts s h ins) ∧
      Goes p.1 s (pumpOp (({ s.issued i .matrix ins h with free := free } : State).accepts i (h.issued s.coreTime ins) p.2.opc ins
        parts res rd wr) i.core i.slot h.nextOp) := by
  have hgo := goes_of_clear
    (exec_matrixSpecs_issue hp hc.1.1 fun hopc hpart hform hne => absurd (hstride hopc hpart hform) hne) hc
  obtain ⟨hunit, free, parts, res, rd, wr, hbody, hparts⟩ := matrixSpecs_body hp (s.issued i .matrix ins h)
    ((s.core i.core).chosen i .matrix) (h.issued s.coreTime ins)
  rw [hunit, hbody, acceptMx_eq] at hgo
  exact ⟨free, parts, res, rd, wr, fun hopc => (hparts hopc).trans (mxLdParts_issued s i .matrix ins h), hgo⟩

end

/-- Settles O26: an instruction that nothing holds is accepted by its port; a cause of the matrix fault raises it, and the
stride that the spec leaves without an outcome stops the run. -/
theorem matrixInstructionsIssue : Obligations.MatrixInstructionsIssue := by
  unfold Obligations.MatrixInstructionsIssue
  refine ⟨fun s i ins h p hp hc hstride => ?accepted, fun s i ins h p hp hcan hlegal hmatrix => ?fault,
    fun s i ins h hc hpart hform hstride => exec_mxLd_strided hc hpart hform hstride⟩
  case fault =>
    exact ⟨_, (exec_matrixSpecs_issue hp hcan.1 fun _ _ _ _ => hmatrix).trans (congrArg _ (issue_matrix hcan hlegal hmatrix)),
      stopsWith_raiseFault s i h rfl rfl rfl⟩
  case accepted =>
    obtain ⟨free, parts, res, rd, wr, hparts, hgo⟩ := matrix_goes hp hc hstride
    let y : State := { s.issued i .matrix ins h with free := free }
    have hfree : Alters [.free] [] (s.issued i .matrix ins h) y := .of_regs (by simp [Same, y]) rfl
    obtain ⟨hsame, hregs, -, -⟩ := s.onlyHand_issued i .matrix ins h
    have haccept := y.alters_accepts i (h.issued s.coreTime ins) p.2.opc ins parts res rd wr
    obtain ⟨slots, hcore⟩ := y.core_accepts i (h.issued s.coreTime ins) p.2.opc ins parts res rd wr
    have hread {α : Type} (f : Core → α) (hf : ∀ co last rot slots, f { co with last := last, rot := rot, slots := slots } = f co) :
        f (y.core i.core) = f (s.core i.core) :=
      (congrArg f (State.core_congr (s := s.issued i .matrix ins h) (t := y) rfl i.core)).trans (s.read_issued i .matrix ins h f hf)
    have hcq : (y.core i.core).cq = (s.core i.core).cq := hread Core.cq fun _ _ _ _ => rfl
    have hlsq : (y.core i.core).lsq = (s.core i.core).lsq := hread Core.lsq fun _ _ _ _ => rfl
    refine ⟨_, _, mxOpOf (h.issued s.coreTime ins) p.2.opc ins parts res, hgo,
      ((hsame.mono (by decide)).trans (hfree.1.mono (by decide))).trans (haccept.1.mono (by decide)),
      hregs.trans ((hfree.2.mono (by simp)).trans (haccept.2.mono (by simp))),
      State.hand_accepts _ _ _ _ _ _ _ _ _, rfl, rfl, rfl, rfl, rfl, rfl, rfl, rfl, rfl, ?_, ?_, ?_, ?_,
      fun hopc hform htrans hpart => ?_⟩
    · rw [hcore, Core.enqueues_eq]
      exact hread Core.vrf fun _ _ _ _ => rfl
    · rw [hcore, Core.enqueues_eq]
      exact hread Core.osb fun _ _ _ _ => rfl
    · rw [hcore, Core.enqueues_eq]
      exact hread Core.acc fun _ _ _ _ => rfl
    · rw [hcore, Core.enqueues_eq, hcq, hlsq]
      split <;> exact ⟨rfl, rfl⟩
    · rw [show (mxOpOf (h.issued s.coreTime ins) p.2.opc ins parts res).parts = parts from rfl, hparts hopc]
      exact mxLdParts_page s h hform htrans hpart

end Sys2Proof.Machine
end
section
/-!
PROOFS. An access of a hand that moves on, and what its operations keep: each stays with its hand, under its own number (R198, R292).
-/
namespace Sys2Proof.Machine
open Sys2Proof.Safety

/-- The numbers of the operations that the hand in a slot has outstanding. -/
def State.opIds (s : State) (c n : Nat) : Option (List Nat) := (s.hand c n).map fun h => h.ops.map MemOp.id

/-- Every slot's hand has the same operations outstanding. -/
def KeepsOps (s t : State) : Prop := ∀ c n, t.opIds c n = s.opIds c n

theorem KeepsOps.refl (s : State) : KeepsOps s s := fun _ _ => rfl

theorem KeepsOps.trans {s t u : State} (h : KeepsOps s t) (h' : KeepsOps t u) : KeepsOps s u :=
  fun c n => (h' c n).trans (h c n)

theorem KeepsOps.of_cores {s t : State} (h : t.cores = s.cores) : KeepsOps s t := fun c n => by
  rw [State.opIds, State.hand_congr h, State.opIds]

theorem KeepsOps.ite {p : Prop} [Decidable p] {s t u : State} (h : KeepsOps s t) (h' : KeepsOps s u) :
    KeepsOps s (if p then t else u) := by
  split
  · exact h
  · exact h'

theorem KeepsOps.foldState {α : Type} {f : State → α → State} (hf : ∀ s a, KeepsOps s (f s a)) (l : List α) (s : State) :
    KeepsOps s (foldState f l s) :=
  foldState_keeps (p := KeepsOps s) f l s (.refl s) fun t a h => h.trans (hf t a)

/-- A change of a core's caches or storage. -/
theorem keepsOps_setCore {s : State} {c : Nat} {co : Core} (hco : co.slots = (s.core c).slots) : KeepsOps s (s.setCore c co) := by
  intro d n
  rw [State.opIds, State.hand, State.core_setCore]
  split
  · next hd => rw [hco, ← hd, State.opIds, State.hand]
  · rfl

theorem keepsOps_onCore (s : State) (c : Nat) {f : Core → Core} (hf : ∀ co, (f co).slots = co.slots) : KeepsOps s (s.onCore c f) :=
  keepsOps_setCore (hf _)

theorem keepsOps_setHand {s : State} {c n : Nat} {h x : Hand} (hh : s.hand c n = some h)
    (hx : x.ops.map MemOp.id = h.ops.map MemOp.id) : KeepsOps s (s.setHand c n x) := by
  intro d m
  rw [State.opIds, State.hand_setHand]
  split
  · next hd =>
    obtain ⟨rfl, rfl⟩ := hd
    rw [State.opIds, hh, Option.map_some, Option.map_some, hx]
  · rfl

/-- What an access returned joins its operation. -/
theorem keepsOps_setRes (s : State) (w : Waiter) (r : PartRes) : KeepsOps s (s.setRes w r) := by
  unfold State.setRes
  split
  · exact .refl s
  · next h hh =>
    refine keepsOps_setHand hh ?_
    rw [List.map_map]
    refine List.map_congr_left fun o _ => ?_
    dsimp only [Function.comp_apply]
    split <;> rfl

/-! ### Requests and assembly buffers -/

theorem keepsOps_onClu (s : State) (c : Nat) (f : Cluster → Cluster) : KeepsOps s (s.onClu c f) := .of_cores rfl

theorem keepsOps_sendReq (s : State) (c : Nat) (r : Req) (data : Option LineData) (runs : List (Nat × List Byte)) (entry : Nat)
    (carry : GState) : KeepsOps s (s.sendReq c r data runs entry carry) :=
  .of_cores (s.sendReq_keeps c r data runs entry carry).2

theorem State.encodeFor_cores (s : State) (slot : Nat) (bytes : List Byte) : (s.encodeFor slot bytes).2.cores = s.cores := by
  unfold State.encodeFor
  dsimp only
  split
  · split <;> simp
  · split
    · simp [State.addHist]
    · simp

theorem keepsOps_flushAsm (s : State) (c block : Nat) : KeepsOps s (s.flushAsm c block) := by
  unfold State.flushAsm
  dsimp only
  split
  · exact .refl s
  · split
    · exact .refl s
    · split_ifs
      all_goals refine .trans ?_ (keepsOps_sendReq _ _ _ _ _ _ _)
      · exact keepsOps_onClu s c _
      · exact .of_cores rfl
      · exact .of_cores (State.encodeFor_cores _ _ _)
      · exact .of_cores rfl

theorem keepsOps_storeAsm {s t : State} {c a : Nat} {bs : List Byte} (h : s.storeAsm c a bs = some t) : KeepsOps s t := by
  unfold State.storeAsm at h
  dsimp only at h
  rw [Option.ite_none_left_eq_some, Option.some.injEq] at h
  obtain ⟨-, rfl⟩ := h
  have hfree : KeepsOps s (if (s.clu c).hasAsm (blockOf a) = true ∨ (s.clu c).asm.length < 16 then s else
      match (s.clu c).asm with
      | b :: _ => s.flushAsm c b.block
      | [] => s) := by
    split
    · exact .refl s
    · split
      · exact keepsOps_flushAsm s c _
      · exact .refl s
  refine hfree.trans (.ite (.trans ?_ (keepsOps_flushAsm _ c _)) (.of_cores rfl))
  exact .of_cores rfl

theorem keepsOps_hostReq (s : State) (use : HostUse) (m : Nat → HostMsg) : KeepsOps s ((s.hostReq use m).getD s) := by
  unfold State.hostReq
  split
  · exact .refl s
  · exact .of_cores (State.issue_cores _ _ _ _)

/-! ### Caches -/

theorem keepsOps_dropL1 (s : State) (core line : Nat) : KeepsOps s (s.dropL1 core line) := by
  unfold State.dropL1
  split
  · exact .refl s
  · dsimp only
    split
    · exact keepsOps_onCore s core fun _ => rfl
    · refine .trans ?_ (keepsOps_onClu _ _ _)
      exact keepsOps_onCore s core fun _ => rfl

theorem keepsOps_dropL1s (s : State) (c line : Nat) (keep : Option Nat) : KeepsOps s (s.dropL1s c line keep) :=
  KeepsOps.foldState (fun s i => by
    split
    · exact .refl s
    · exact keepsOps_dropL1 s _ line) _ s

theorem keepsOps_filterSub (s : State) (line : Nat) (st : CState) : KeepsOps s (s.filterSub line st) := by
  unfold State.filterSub
  split <;> exact .of_cores rfl

theorem keepsOps_dropCc (s : State) (c line : Nat) : KeepsOps s (s.dropCc c line) := by
  unfold State.dropCc
  dsimp only
  have hbelow := keepsOps_dropL1s s c line none
  split
  · exact hbelow
  · exact .trans (hbelow.trans (keepsOps_onClu _ _ _)) (keepsOps_filterSub _ _ _)

theorem keepsOps_updateL1 (s : State) (core line : Nat) (d : LineData) : KeepsOps s (s.updateL1 core line d) := by
  unfold State.updateL1
  split
  · exact .refl s
  · exact keepsOps_onCore s core fun _ => rfl

theorem keepsOps_fillL1 (s : State) (core line : Nat) (st : CState) (d : LineData) (lru : Bool) :
    KeepsOps s (s.fillL1 core line st d lru) := by
  unfold State.fillL1
  dsimp only
  split
  · exact .refl s
  · next w _ =>
    have hroom : KeepsOps s (match NMap.find? (s.core core).l1 (l1Set line * 8 + w) with
        | some old => if old.line = line then s else s.dropL1 core old.line
        | none => s) := by
      split
      · split
        · exact .refl s
        · exact keepsOps_dropL1 s core _
      · exact .refl s
    split
    · refine hroom.trans ?_
      exact keepsOps_onCore _ core fun _ => rfl
    · refine .trans (hroom.trans ?_) (keepsOps_onClu _ _ _)
      exact keepsOps_onCore _ core fun _ => rfl

theorem keepsOps_fillIc (s : State) (core line : Nat) (d : LineData) : KeepsOps s (s.fillIc core line d) := by
  unfold State.fillIc
  dsimp only
  split
  · exact .refl s
  · exact keepsOps_onCore s core fun _ => rfl

theorem keepsOps_sendRead (s : State) (c line hint : Nat) (use : ReqUse) (waiters : List Waiter) :
    KeepsOps s (s.sendRead c line hint use waiters) := .of_cores (s.sendRead_keeps c line hint use waiters).2

theorem keepsOps_prefetchCc (s : State) (c line hint : Nat) : KeepsOps s (s.prefetchCc c line hint) := by
  unfold State.prefetchCc
  split_ifs
  · exact .refl s
  · exact .of_cores rfl
  · exact .refl s
  · refine .trans (keepsOps_sendRead s c (line + 1) hint (.prefetch none) []) ?_
    exact .of_cores (by simp)

theorem keepsOps_prefetchL1 (s : State) (core line hint : Nat) (ic : Bool) : KeepsOps s (s.prefetchL1 core line hint ic) := by
  unfold State.prefetchL1
  dsimp only
  refine .ite (.refl s) ?_
  split
  · exact .ite (keepsOps_fillIc s core _ _) (keepsOps_fillL1 s core _ _ _ _)
  · split
    · exact .ite (keepsOps_onClu s _ _) (.refl s)
    · exact .ite (.refl s) (keepsOps_sendRead s _ _ _ _ _)

theorem keepsOps_missRead (s : State) (core line hint : Nat) (use : ReqUse) (waiters : List Waiter) :
    KeepsOps s (s.missRead core line hint use waiters) := by
  unfold State.missRead
  dsimp only
  split
  · exact keepsOps_onClu s _ _
  · split
    · exact .refl s
    · exact (keepsOps_sendRead s _ line hint use waiters).trans (keepsOps_prefetchCc _ _ line hint)

/-! ### Accesses -/

theorem keepsOps_updateCopies (s : State) (core : Nat) (p : Part) : KeepsOps s (s.updateCopies core p) := by
  unfold State.updateCopies
  dsimp only
  have hcc : KeepsOps s (match (s.clu (clusterOf core)).find (lineOf p.addr) with
      | some (key, x) => s.setCc (clusterOf core) key { x with data := (applyPart x.data p).2 }
      | none => s) := by
    split
    · exact .of_cores rfl
    · exact .refl s
  split
  · exact hcc.trans (keepsOps_updateL1 _ core _ _)
  · exact hcc

theorem keepsOps_tryLoad (s : State) (w : Waiter) (p : Part) (mode : Nat) : KeepsOps s (tryLoad s w p mode) := by
  unfold tryLoad
  dsimp only
  split
  · refine .trans ?_ (keepsOps_setRes _ w _)
    exact keepsOps_onCore s w.core fun _ => rfl
  · split
    · refine .trans ?_ (keepsOps_prefetchL1 _ _ _ _ _)
      refine .trans ?_ (keepsOps_setRes _ w _)
      refine .trans ?_ (keepsOps_fillL1 _ w.core _ _ _ _)
      exact .of_cores rfl
    · split_ifs
      · exact keepsOps_flushAsm s _ _
      · exact .refl s
      · exact (keepsOps_missRead s _ _ _ _ _).trans (keepsOps_prefetchL1 _ _ _ _ _)
      · exact keepsOps_missRead s _ _ _ _ _

theorem keepsOps_tryOwn (s : State) (w : Waiter) (p : Part) : KeepsOps s (tryOwn s w p) := by
  unfold tryOwn
  extract_lets c line ask
  have hask (held : Bool) : KeepsOps s (ask s held) := by
    dsimp only [ask]
    split
    · exact .ite (keepsOps_onClu s _ _) (.refl s)
    · refine .ite (.refl s) (.trans ?_ (keepsOps_sendReq _ _ _ _ _ _ _))
      exact .ite (.refl s) (keepsOps_dropCc s _ _)
  split
  · refine .ite ?_ (hask _)
    refine .trans ?_ (keepsOps_setRes _ w _)
    refine .trans ?_ (keepsOps_updateL1 _ w.core _ _)
    exact .trans (keepsOps_dropL1s s c line (some w.core)) (.of_cores rfl)
  · exact hask _

theorem keepsOps_tryHome (s : State) (w : Waiter) (p : Part) (kind : MsgKind) (mode : Nat) : KeepsOps s (tryHome s w p kind mode) := by
  unfold tryHome
  exact keepsOps_sendReq _ _ _ _ _ _ _

theorem keepsOps_stopFillsOf (s : State) (c line : Nat) : KeepsOps s (s.stopFillsOf c line) := keepsOps_onClu s c _

theorem keepsOps_tryStaged (s : State) (w : Waiter) (p : Part) (mode : Nat) : KeepsOps s (tryStaged s w p mode) := by
  unfold tryStaged
  dsimp only
  split
  · split
    · split
      · exact .refl s
      · next t ht =>
        refine .trans ?_ (keepsOps_setRes _ w _)
        exact ((keepsOps_storeAsm ht).trans (keepsOps_stopFillsOf t _ _)).trans (keepsOps_updateCopies _ _ p)
    · split
      · exact .refl s
      · exact ((keepsOps_stopFillsOf s _ _).trans (keepsOps_updateCopies _ _ p)).trans (keepsOps_tryHome _ w p _ _)
  · split_ifs
    · exact keepsOps_flushAsm s _ _
    · exact .refl s
    · exact ((keepsOps_stopFillsOf s _ _).trans (keepsOps_dropCc _ _ _)).trans (keepsOps_tryHome _ w p _ _)

theorem keepsOps_tryHost (s : State) (w : Waiter) (p : Part) : KeepsOps s (tryHost s w p) := by
  have hcount (t : State) (f : Field) : KeepsOps t (t.count f) := .of_cores rfl
  unfold tryHost
  dsimp only
  split
  · exact .trans (.of_cores ((s.alters_hostWrite _ _ _).agree .cores (by decide))) (keepsOps_setRes _ w _)
  · split
    · exact (hcount s _).trans (keepsOps_setRes _ w _)
    · exact keepsOps_hostReq s _ _
  · split_ifs
    · exact ((hcount s _).trans (hcount _ _)).trans (keepsOps_setRes _ w _)
    · exact (hcount s _).trans (keepsOps_setRes _ w _)
    · exact keepsOps_hostReq s _ _
  · exact keepsOps_setRes s w _

theorem keepsOps_tryPart (s : State) (w : Waiter) (p : Part) : KeepsOps s (tryPart s w p) := by
  unfold tryPart
  dsimp only
  split
  · exact .refl s
  · split
    · exact keepsOps_tryHome s w p _ _
    · split
      · exact keepsOps_tryHost s w p
      · split <;> exact keepsOps_tryHome s w p _ _
      · split
        · exact keepsOps_tryLoad s w p _
        · exact keepsOps_tryOwn s w p
      · split
        · exact keepsOps_tryLoad s w p _
        · exact keepsOps_tryStaged s w p _

theorem keepsOps_pumpOp (s : State) (c n op : Nat) : KeepsOps s (pumpOp s c n op) := by
  unfold pumpOp
  split
  · exact .refl s
  · refine KeepsOps.foldState (fun s q => ?_) _ s
    dsimp only
    split
    · exact .refl s
    · split
      · exact .refl s
      · split
        · exact .refl s
        · exact keepsOps_tryPart s _ _

theorem keepsOps_pumpHand (s : State) (c n : Nat) : KeepsOps s (pumpHand s c n) := by
  unfold pumpHand
  split
  · exact .refl s
  · exact KeepsOps.foldState (fun s (o : MemOp) => keepsOps_pumpOp s c n o.id) _ s

/-! ### Stops -/

theorem opIds_settle (s : State) (c n : Nat) : (settle s c n).opIds c n = s.opIds c n := by
  cases hh : s.hand c n with
  | none => rw [settle, hh]
  | some h =>
    by_cases hops : h.ops = []
    · cases hstop : h.stop with
      | none => simp [settle, hh, hstop]
      | some x => cases x with
        | halt =>
          rw [settle_halt hh hops hstop, State.opIds, hand_finishHalt, State.opIds, hh]
          rfl
        | fault f =>
          obtain ⟨b, hfin⟩ := hand_finishFault s c n h f
          rw [settle_fault hh hops hstop, State.opIds, hfin, State.opIds, hh]
          rfl
        | debug f => simp [settle, hh, hstop]
    · rw [settle_busy hh hops]

end Sys2Proof.Machine
end
section
/-!
PROOFS. The notice gate, and the head of the compute queue (R227, R228, R233, R234).
-/
namespace Sys2Proof.Machine
open Sys2Proof.Safety

/-! ### The gate -/

section
variable {s : State} {core : Fin 256} {sl id : Nat} {rest : List (Nat × Nat)} {h : Hand} {o : MemOp}
  (hclk : s.clocked (core.val / 4) = true) (hcq : (s.core core).cq = (sl, id) :: rest) (hh : s.hand core sl = some h)
  (hop : h.ops.find? (fun o => o.id == id) = some o) (hopc : o.opc = 0xA1)

/-- An operation that starts, where it is the one with this number. -/
def MemOp.startedAt (id : Nat) (o : MemOp) : MemOp := if o.id = id then { o with started := true } else o

theorem MemOp.startedAt_id (id : Nat) (o : MemOp) : (o.startedAt id).id = o.id := by
  unfold MemOp.startedAt
  split <;> rfl

/-- A hand with an operation that has started. -/
def Hand.starts (h : Hand) (id : Nat) : Hand := { h with ops := h.ops.map (MemOp.startedAt id) }

include hop in
theorem Hand.find?_starts : (h.starts id).ops.find? (fun o => o.id == id) = some { o with started := true } := by
  have hid : o.id = id := by simpa using List.find?_some hop
  unfold Hand.starts
  rw [List.find?_map, show ((fun o : MemOp => o.id == id) ∘ MemOp.startedAt id) = fun o => o.id == id from
    funext fun x => by rw [Function.comp_apply, MemOp.startedAt_id], hop, Option.map_some, MemOp.startedAt, if_pos hid]

include hclk hcq hh hop hopc

theorem mmaStart_goes_open (hgate : (s.core core).gate = true) : Goes (.mmaStart core) s
    ((s.setHand core sl (h.starts id)).onCore core fun co => { co with cq := rest, mmaAt := s.time.bnd }) := by
  refine (show exec (.mmaStart core) s = execMmaStart core s from rfl).trans ?_
  simp only [execMmaStart, clusterOf, hclk, hcq, hh, hop, hopc, hgate, Bool.not_true, Bool.false_eq_true, if_false, ne_eq,
    not_true_eq_false]
  rfl

theorem mmaStart_goes_shut (hgate : (s.core core).gate = false) : Goes (.mmaStart core) s
    (if (s.pwr.notices.any fun n => n.1 == core.val / 4) || s.isSet .CRG_NOTICE_PEND (core.val / 4) then s
      else s.sendNotice (core.val / 4) 3) := by
  refine (show exec (.mmaStart core) s = execMmaStart core s from rfl).trans ?_
  simp only [execMmaStart, clusterOf, hclk, hcq, hh, hop, hopc, hgate, Bool.not_true, Bool.false_eq_true, if_false, ne_eq,
    not_true_eq_false, Bool.not_false, if_true]
  rfl

theorem mmaStart_ends_open (hgate : (s.core core).gate = true) : Ends (.mmaStart core) s fun t =>
    Same [.cores] s t ∧ (t.core core).cq = rest ∧ (t.core core).gate = true ∧ (t.core core).mmaAt = s.time.bnd
      ∧ ∃ h', t.hand core sl = some h' ∧ h'.ops.find? (fun o => o.id == id) = some { o with started := true } := by
  refine ⟨_, mmaStart_goes_open hclk hcq hh hop hopc hgate,
    (s.alters_setHand core sl (h.starts id)).1.trans (State.alters_setCore _ core _).1, ?_⟩
  rw [State.hand, State.onCore, State.core_setCore_self, State.core_setHand_self]
  exact ⟨rfl, hgate, rfl, h.starts id, NMap.find?_insert_self _ _ _, Hand.find?_starts hop⟩

end

/-- Once the engine has started no `mma` for 1,024 cycles its gate shuts (R233). -/
theorem noticeGateShut_ends {s : State} {core : Fin 256} (hclk : s.clocked (core.val / 4) = true) (hgate : (s.core core).gate = true)
    (hdue : (s.core core).mmaAt + shutTicks s (core.val / 4) ≤ s.time.bnd) : Ends (.noticeGateShut core) s fun t =>
      (t.core core).gate = false ∧ Same [.cores, .regs] s t ∧ SameRegs [.CRG_GATE_OPEN, .CRG_PRERAISE] s t
        ∧ ∀ d, d ≠ core.val → t.core d = s.core d := by
  let x := s.onCore core fun co => { co with gate := false }
  have hgo : Goes (.noticeGateShut core) s (if (List.range 4).any fun i => (x.core (4 * (core.val / 4) + i)).gate then x
      else (x.setReg .CRG_GATE_OPEN 0 (core.val / 4)).setReg .CRG_PRERAISE 0 (core.val / 4)) := by
    refine (show exec (.noticeGateShut core) s = execNoticeGateShut core s from rfl).trans ?_
    simp only [execNoticeGateShut, clusterOf, hclk, hgate, Nat.not_lt.2 hdue, decide_false, Bool.not_true, Bool.or_self,
      Bool.false_eq_true, if_false]
    rfl
  have hx : Alters [.cores] [] s x := s.alters_setCore core _
  have hself : (x.core core).gate = false := by rw [show x = s.setCore core _ from rfl, State.core_setCore_self]
  have hother (d : Nat) (hd : d ≠ core.val) : x.core d = s.core d := (s.core_setCore core d _).trans (if_neg hd)
  refine ⟨_, hgo, ?_⟩
  split
  · exact ⟨hself, hx.1.mono (by decide), hx.2.mono (by simp), hother⟩
  · have hregs : Alters [.regs] [.CRG_GATE_OPEN, .CRG_PRERAISE] x
        ((x.setReg .CRG_GATE_OPEN 0 (core.val / 4)).setReg .CRG_PRERAISE 0 (core.val / 4)) :=
      (x.alters_setReg .CRG_GATE_OPEN 0 (core.val / 4) 0).comp (State.alters_setReg _ .CRG_PRERAISE 0 (core.val / 4) 0)
        (by decide) (by decide)
    have hall := hx.comp hregs (ch := [.cores, .regs]) (fs := [.CRG_GATE_OPEN, .CRG_PRERAISE]) (by decide) (by decide)
    exact ⟨hself, hall.1, hall.2, hother⟩

/-! ### The head of the compute queue -/

/-- The state in which a completed instruction has left its hand and its queue. -/
def State.leaves (s : State) (x : HandId) (op : Nat) (h : Hand) : State :=
  let u := s.onCore x.core fun co =>
    { co with lsq := co.lsq.filter (· ≠ (x.slot.val, op)), cq := co.cq.filter (· ≠ (x.slot.val, op)) }
  u.setHand x.core x.slot (h.without op)

/-- What a completed instruction does to tiles, pages and registers, unless its hand has been removed (R228, R247). -/
def State.finished (s : State) (x : HandId) (h : Hand) (o : MemOp) : State :=
  if h.removed then s else match o.opc with
    | 0xA0 => finishMxLd s x.core x.slot h o
    | 0xA1 => finishMma s x.core x.slot h o
    | 0xA2 => finishMxSt s x.core x.slot h o
    | 0xA3 => s.onCore x.core fun co => co.setTile h o.insn.dst.toNat (List.replicate 4096 0)
    | _ => if o.insn.fn.getLsbD 10 then finishCvtTile s x.core x.slot h o else finishCvtReg s x.core x.slot h o

section
variable {s : State} {x : HandId} {op : Nat} {h : Hand} {o : MemOp} (hclk : s.clocked (x.core.val / 4) = true)
  (hh : s.hand x.core x.slot = some h) (hop : h.ops.find? (fun o => o.id == op) = some o)

include hclk hh hop in
theorem matrixInsnComplete_goes (hlo : 0xA0 ≤ o.opc) (hhi : o.opc ≤ 0xA4) (hdone : mxDone (s.core x.core) x.slot h o = true) :
    Goes (.matrixInsnComplete x op) s
      (settle (pumpHand ((s.leaves x op h).finished x (h.without op) o) x.core x.slot) x.core x.slot) := by
  refine (show exec (.matrixInsnComplete x op) s = execMatrixInsnComplete x op s from rfl).trans ?_
  simp only [execMatrixInsnComplete, clusterOf, hclk, hh, hop, hdone, Nat.not_lt.2 hlo, Nat.not_lt.2 hhi, Bool.not_true,
    Bool.false_eq_true, or_self, if_false]
  rfl

include hclk hh hop in
theorem matrixInsnComplete_waits (hdone : mxDone (s.core x.core) x.slot h o = false) : Goes (.matrixInsnComplete x op) s s := by
  refine (show exec (.matrixInsnComplete x op) s = execMatrixInsnComplete x op s from rfl).trans ?_
  simp only [execMatrixInsnComplete, clusterOf, hclk, hh, hop, hdone, Bool.not_true, Bool.not_false, Bool.false_eq_true, if_false,
    or_true, if_true]
  rfl

include hop in
/-- `mx.clr` and `mx.cvt` wait for nothing but the head of the compute queue: no gate holds them. -/
theorem mxDone_of_compute (hopc : o.opc = 0xA3 ∨ o.opc = 0xA4) :
    mxDone (s.core x.core) x.slot h o = ((s.core x.core).cq.head? == some (x.slot.val, op)) := by
  have hid : o.id = op := by simpa using List.find?_some hop
  rcases hopc with hopc | hopc <;> simp only [mxDone, hopc, hid]

end

/-! ### The operation that has left -/

theorem hand_leaves (s : State) (x : HandId) (op : Nat) (h : Hand) :
    (s.leaves x op h).hand x.core x.slot = some (h.without op) := State.hand_setHand_self _ _ _ _

/-- Writing storage of the core and the flags of the hand leaves its operations alone. -/
theorem keepsOps_finish {s : State} {c n : Nat} {h y : Hand} {co : Core} (hh : s.hand c n = some h)
    (hslots : co.slots = (s.core c).slots) (hops : y.ops = h.ops) : KeepsOps s ((s.setCore c co).setHand c n y) := by
  refine (keepsOps_setCore hslots).trans (keepsOps_setHand (h := h) ?_ (by rw [hops]))
  rw [State.hand, State.core_setCore_self, hslots]
  exact hh

theorem Core.slots_setSlotBytes_ite (co : Core) (h : Hand) (p : Prop) [Decidable p] (n : Nat) (l : List Byte) :
    (if p then co.setSlotBytes h n l else co).slots = co.slots := by
  split <;> rfl

theorem keepsOps_finished {s : State} {x : HandId} {h : Hand} {o : MemOp} (hh : s.hand x.core x.slot = some h)
    (hopc : o.opc = 0xA3 ∨ o.opc = 0xA4) : KeepsOps s (s.finished x h o) := by
  unfold State.finished
  refine .ite (.refl s) ?_
  rcases hopc with hopc | hopc <;> rw [hopc]
  · exact keepsOps_onCore s x.core fun _ => rfl
  · exact .ite (keepsOps_finish hh (Core.slots_setSlotBytes_ite _ _ _ _ _) rfl) (keepsOps_finish hh (Core.setRun_slots _ _ _ _ _) rfl)

section
variable {s : State} {x : HandId} {op : Nat} {h : Hand} {o : MemOp} (hclk : s.clocked (x.core.val / 4) = true)
  (hh : s.hand x.core x.slot = some h) (hop : h.ops.find? (fun o => o.id == op) = some o) (hopc : o.opc = 0xA3 ∨ o.opc = 0xA4)
include hclk hh hop hopc

theorem matrixInsnComplete_ends_head (hhead : (s.core x.core).cq.head? = some (x.slot.val, op)) :
    Ends (.matrixInsnComplete x op) s fun t => ∀ h', t.hand x.core x.slot = some h' → ∀ q ∈ h'.ops, q.id ≠ op := by
  have hdone : mxDone (s.core x.core) x.slot h o = true := by rw [mxDone_of_compute hop hopc, hhead, beq_self_eq_true]
  refine ⟨_, matrixInsnComplete_goes hclk hh hop (by omega) (by omega) hdone, fun h' hh' q hq hid => ?_⟩
  have hleft := hand_leaves s x op h
  have hops := (keepsOps_finished hleft hopc).trans (keepsOps_pumpHand _ x.core x.slot) x.core x.slot
  rw [← opIds_settle, State.opIds, hh', State.opIds, hleft, Option.map_some, Option.map_some, Option.some.injEq] at hops
  have hmem : op ∈ (h.without op).ops.map MemOp.id := hops ▸ List.mem_map.2 ⟨q, hq, hid⟩
  obtain ⟨r, hr, hrid⟩ := List.mem_map.1 hmem
  have hkept := (List.mem_filter.1 hr).2
  rw [hrid, bne_self_eq_false] at hkept
  exact Bool.false_ne_true hkept

theorem matrixInsnComplete_waits_behind (hhead : (s.core x.core).cq.head? ≠ some (x.slot.val, op)) :
    Goes (.matrixInsnComplete x op) s s :=
  matrixInsnComplete_waits hclk hh hop ((mxDone_of_compute hop hopc).trans (beq_eq_false_iff_ne.2 hhead))

end

/-- Settles O27: the gate alone holds an `mma` at the head, the other compute instructions wait for the head alone, and the gate
shuts once no `mma` has started for long enough. -/
theorem gateHoldsMma : Obligations.GateHoldsMma := by
  unfold Obligations.GateHoldsMma
  refine ⟨fun s core sl id rest h o hclk hcq hh hop hopc => ⟨mmaStart_ends_open hclk hcq hh hop hopc, fun hgate hpend hnone => ?notice,
      fun hgate hsent => ?sent⟩,
    fun s x op h o hclk hh hop hopc => ⟨matrixInsnComplete_ends_head hclk hh hop hopc,
      matrixInsnComplete_waits_behind hclk hh hop hopc⟩,
    fun s core => noticeGateShut_ends⟩
  case notice =>
    have hany : (s.pwr.notices.any fun n => n.1 == core.val / 4) = false := by simpa using hnone
    have hgo := mmaStart_goes_shut hclk hcq hh hop hopc hgate
    rwa [hany, hpend, Bool.or_self, if_neg Bool.false_ne_true] at hgo
  case sent =>
    have hany : ((s.pwr.notices.any fun n => n.1 == core.val / 4) || s.isSet .CRG_NOTICE_PEND (core.val / 4)) = true := by
      simpa [or_comm] using hsent
    have hgo := mmaStart_goes_shut hclk hcq hh hop hopc hgate
    rwa [if_pos hany] at hgo

end Sys2Proof.Machine
end
section
/-!
PROOFS. The state after a cold reset (R29), and how a debug request waits for its tick (R251, R252).
-/
namespace Sys2Proof.Machine
open Sys2Proof.Safety

/-! ### The state after a cold reset (R29) -/

/-- Settles O40: every part of the reset state is empty, and a register there holds the reset value of its table. -/
theorem registersAtReset : Obligations.RegistersAtReset := by
  unfold Obligations.RegistersAtReset
  refine ⟨?regs, fun _ _ => rfl, rfl, rfl, rfl, rfl, rfl, rfl, rfl, rfl, rfl, rfl, rfl⟩
  case regs =>
    simp only [State.reg_reset]
    decide

/-! ### A request waits for its tick (R251, R252) -/

/-- The debug level that a request needs (R251). -/
def leastLevel (cmd : Nat) : Nat := if cmd = 5 then 3 else 2

/-- The event by which a request acts (R252). -/
def State.debugEvt (s : State) (cmd : Nat) : TickEvt :=
  ⟨7, s.reg .DBG_CORE * 16 + s.reg .DBG_SLOT,
    .debugCmd cmd (s.reg .DBG_CORE) (s.reg .DBG_SLOT) (s.reg .DBG_SCOPE) (s.reg64 .DBG_TASK_LO .DBG_TASK_HI)⟩

theorem debugRequest_braked {s : State} (hbrk : s.isSet .BRK_BRAKED = true) (cmd : Nat) : debugRequest cmd s = s := by
  simp [debugRequest, hbrk]

theorem debugRequest_denied {s : State} {cmd : Nat} (hbrk : s.isSet .BRK_BRAKED = false) (hlevel : s.level < leastLevel cmd) :
    debugRequest cmd s = s.setReg .DBG_RESULT 1 := by
  rw [leastLevel] at hlevel
  simp [debugRequest, hbrk, hlevel]

section
variable {s : State} {cmd : Nat} (hbrk : s.isSet .BRK_BRAKED = false) (hlevel : leastLevel cmd ≤ s.level)
include hbrk hlevel

theorem debugRequest_busy (hpend : s.isSet .DBG_PENDING = true) : debugRequest cmd s = s.setReg .DBG_RESULT 5 := by
  rw [leastLevel] at hlevel
  simp [debugRequest, hbrk, Nat.not_lt.2 hlevel, hpend]

theorem debugRequest_queued (hpend : s.isSet .DBG_PENDING = false) : debugRequest cmd s =
    (s.setReg .DBG_PENDING 1).later (s.debugEvt cmd).cls (s.debugEvt cmd).src (s.debugEvt cmd).act := by
  rw [leastLevel] at hlevel
  simp [debugRequest, hbrk, Nat.not_lt.2 hlevel, hpend, State.debugEvt]

end

/-- The commands of the five requests (R251). -/
theorem goes_debugRequest {p : Instr × Nat}
    (hp : p ∈ ([(.dbgHalt, 1), (.dbgRun, 2), (.dbgStep, 3), (.dbgKill, 4), (.dbgBrake, 5)] : List (Instr × Nat))) (s : State) :
    Goes p.1 s (debugRequest p.2 s) := by
  simp only [List.mem_cons, List.not_mem_nil, or_false] at hp
  rcases hp with rfl | rfl | rfl | rfl | rfl <;> rfl

/-- Settles O33, by the four outcomes of a request. -/
theorem debugRequestsQueue : Obligations.DebugRequestsQueue := by
  unfold Obligations.DebugRequestsQueue
  intro p hp s
  have hgo := goes_debugRequest hp s
  refine ⟨fun hbrk => ?braked, fun hbrk hlevel => ?denied, fun hbrk hlevel hpend => ?busy, fun hbrk hlevel hpend => ?queued⟩
  case braked => rwa [debugRequest_braked hbrk] at hgo
  case denied =>
    rw [debugRequest_denied hbrk hlevel] at hgo
    exact ⟨_, hgo, State.reg_setReg_self _ _ _ _ _, s.alters_setReg .DBG_RESULT 1 0 0⟩
  case busy =>
    rw [debugRequest_busy hbrk hlevel hpend] at hgo
    exact ⟨_, hgo, State.reg_setReg_self _ _ _ _ _, s.alters_setReg .DBG_RESULT 5 0 0⟩
  case queued =>
    rw [debugRequest_queued hbrk hlevel hpend] at hgo
    obtain ⟨hsame, htime⟩ := (s.setReg .DBG_PENDING 1).queues_later (s.debugEvt p.2).cls (s.debugEvt p.2).src (s.debugEvt p.2).act
    have hregs := same_iff.1 hsame .regs (by decide)
    obtain ⟨hset, hkeep⟩ := s.alters_setReg .DBG_PENDING 1 0 0
    exact ⟨_, hgo, (State.reg_congr hregs _ _ _).trans (State.reg_setReg_self _ _ _ _ _),
      hkeep.trans (sameRegs_of_regs hregs), (hset.mono (by decide)).trans (hsame.mono (by decide)), htime⟩

end Sys2Proof.Machine
end
section
/-!
PROOFS. What debug requests do to a hand at their tick (R253–R256).
-/
namespace Sys2Proof.NMap
variable {α : Type}

theorem mem_of_find? {m : NMap α} {k : Nat} {v : α} (h : find? m k = some v) : (k, v) ∈ m := by
  induction m with
  | nil => simp at h
  | cons x t ih =>
    obtain ⟨j, w⟩ := x
    rw [find?] at h
    split at h
    · next hj =>
      obtain rfl := Option.some.inj h
      exact hj ▸ List.mem_cons_self
    · exact List.mem_cons_of_mem _ (ih h)

end Sys2Proof.NMap
namespace Sys2Proof.Machine
open Sys2Proof.Safety

/-! ### The result of a request (R252) -/

theorem State.alters_dbgResult (s : State) (r : Nat) : Alters [.regs] [.DBG_RESULT, .DBG_PENDING] s (s.dbgResult r) :=
  (s.alters_setReg .DBG_RESULT r 0 0).comp (State.alters_setReg _ .DBG_PENDING 0 0 0) (by decide) (by decide)

@[simp] theorem State.dbgResult_result (s : State) (r : Nat) : (s.dbgResult r).reg .DBG_RESULT = r :=
  (State.reg_setReg_ne _ _ _ _ _ _ (by decide)).trans (State.reg_setReg_self _ _ _ _ _)

@[simp] theorem State.dbgResult_pending (s : State) (r : Nat) : (s.dbgResult r).reg .DBG_PENDING = 0 := State.reg_setReg_self _ _ _ _ _

/-- A request that only completes with a result. -/
theorem State.dbgResult_only (s : State) (r : Nat) : (s.dbgResult r).reg .DBG_RESULT = r ∧ (s.dbgResult r).reg .DBG_PENDING = 0
    ∧ Same [.regs] s (s.dbgResult r) ∧ SameRegs [.DBG_RESULT, .DBG_PENDING] s (s.dbgResult r) :=
  ⟨s.dbgResult_result r, s.dbgResult_pending r, s.alters_dbgResult r⟩

/-! ### One hand -/

/-- One hand has become `h`, and nothing else has changed. -/
def HandBecomes (s : State) (c n : Nat) (h : Hand) (t : State) : Prop :=
  OnlyHandAt c n s t ∧ t.hand c n = some h ∧ (t.core c).vrf = (s.core c).vrf

theorem handBecomes_setHand (s : State) (c n : Nat) (h : Hand) : HandBecomes s c n h (s.setHand c n h) :=
  ⟨(OnlyHandAt.refl c n s).setHand h, s.hand_setHand_self c n h, s.vrf_setHand c n c h⟩

theorem HandBecomes.setHand {s t : State} {c n : Nat} {h : Hand} (ht : HandBecomes s c n h t) :
    HandBecomes s c n h (t.setHand c n h) := by
  obtain ⟨honly, -, hvrf⟩ := ht
  exact ⟨honly.setHand h, t.hand_setHand_self c n h, (t.vrf_setHand c n c h).trans hvrf⟩

/-- A request on one hand completes OK. -/
theorem HandBecomes.dbgResult {s t : State} {c n : Nat} {h : Hand} (ht : HandBecomes s c n h t) :
    (t.dbgResult 0).hand c n = some h ∧ (t.dbgResult 0).reg .DBG_RESULT = 0 ∧ (t.dbgResult 0).reg .DBG_PENDING = 0
      ∧ Same [.regs, .cores] s (t.dbgResult 0) ∧ SameRegs [.DBG_RESULT, .DBG_PENDING] s (t.dbgResult 0)
      ∧ (∀ m, m ≠ n → (t.dbgResult 0).hand c m = s.hand c m) ∧ (∀ d, d ≠ c → (t.dbgResult 0).core d = s.core d)
      ∧ ((t.dbgResult 0).core c).vrf = (s.core c).vrf := by
  obtain ⟨⟨hsame, hcores, hhands⟩, hhand, hvrf⟩ := ht
  obtain ⟨hset, hkeep⟩ := t.alters_dbgResult 0
  have hregs : SameRegs [.DBG_RESULT, .DBG_PENDING] s t := sameRegs_of_regs (same_iff.1 hsame .regs (by decide))
  exact ⟨hhand, t.dbgResult_result 0, t.dbgResult_pending 0, (hsame.mono (by decide)).trans (hset.mono (by decide)),
    hregs.trans hkeep, hhands, hcores, hvrf⟩

/-! ### The hands of slot scope (R253) -/

theorem mem_handsWhere {s : State} {c n : Nat} {h : Hand} (hh : s.hand c n = some h) {p : Nat → Nat → Hand → Bool}
    (hp : p c n h = true) : (c, n) ∈ handsWhere s p := by
  obtain ⟨co, hco, hslot⟩ : ∃ co, NMap.find? s.cores c = some co ∧ NMap.find? co.slots n = some h := by
    unfold State.hand State.core NMap.get at hh
    cases hco : NMap.find? s.cores c with
    | none => simp [hco] at hh
    | some co => exact ⟨co, rfl, by simpa [hco] using hh⟩
  refine List.mem_flatMap.2 ⟨(c, co), NMap.mem_of_find? hco, List.mem_map.2 ⟨(n, h), ?_, rfl⟩⟩
  exact List.mem_filter.2 ⟨NMap.mem_of_find? hslot, hp⟩

theorem mem_scopeHands_slot {s : State} {c n : Nat} {h : Hand} (hh : s.hand c n = some h) (task : Nat) :
    (c, n) ∈ scopeHands s c n 0 task :=
  mem_handsWhere hh (by simp)

theorem eq_of_mem_scopeHands_slot {s : State} {c n task : Nat} {x : Nat × Nat} (hx : x ∈ scopeHands s c n 0 task) : x = (c, n) := by
  obtain ⟨co, -, hx⟩ := List.mem_flatMap.1 hx
  obtain ⟨y, hy, rfl⟩ := List.mem_map.1 hx
  simpa [Prod.ext_iff] using (List.mem_filter.1 hy).2

theorem foldState_keeps_of_mem {σ α : Type} {p : σ → Prop} (f : σ → α → σ) (l : List α) (s : σ) (h : p s)
    (hf : ∀ t, ∀ a ∈ l, p t → p (f t a)) : p (foldState f l s) := by
  induction l generalizing s with
  | nil => exact h
  | cons a t ih => exact ih _ (hf s a List.mem_cons_self h) fun u b hb => hf u b (List.mem_cons_of_mem _ hb)

/-- A fold over copies of one element, which must be there: the first time sets up what the further times keep. -/
theorem foldState_repeats {σ α : Type} {p : σ → Prop} {f : σ → α → σ} {a : α} {l : List α} {s : σ} (hall : ∀ x ∈ l, x = a)
    (hne : l ≠ []) (hfirst : p (f s a)) (hagain : ∀ t, p t → p (f t a)) : p (foldState f l s) := by
  cases l with
  | nil => exact absurd rfl hne
  | cons x l =>
    obtain rfl := hall x List.mem_cons_self
    refine foldState_keeps_of_mem f l _ hfirst fun t y hy ht => ?_
    exact hall y (List.mem_cons_of_mem _ hy) ▸ hagain t ht

/-- What `g` does to the one hand of slot scope, where it does no more when it is done again. -/
theorem slotScope_of {s : State} {c n : Nat} {h : Hand} (hh : s.hand c n = some h) (task : Nat) {p : State → Prop}
    {g : State → Nat → Nat → State} (hfirst : p (g s c n)) (hagain : ∀ t, p t → p (g t c n)) :
    p (foldState (fun s x => g s x.1 x.2) (scopeHands s c n 0 task) s) :=
  foldState_repeats (fun _ => eq_of_mem_scopeHands_slot) (List.ne_nil_of_mem (mem_scopeHands_slot hh task)) hfirst hagain

/-! ### HALT, RUN, STEP and KILL (R253–R256) -/

/-- A running hand that is told to halt, with code bit 12. -/
def Hand.toldToHalt (h : Hand) (now : Nat) : Hand :=
  { h with stop := some (.debug { kind := 0x10, pc := h.pc, resume := h.pc, code := 0x1000, time := now }) }

/-- A halted hand that resumes: into its sleep where that has not ended. -/
def Hand.resumed (h : Hand) (now : Nat) : Hand :=
  let asleep := decide (now < h.sleepEnd)
  { h with st := if asleep then .sleeping else .ready, sleepEnd := if asleep then h.sleepEnd else 0, skipBp := true, stop := none }

/-- A halted hand that is to issue one instruction. -/
def Hand.steps (h : Hand) : Hand := { h with st := .ready, sleepEnd := 0, skipBp := true, stepping := true, stop := none }

/-- A task that a hand is removed from. -/
def Task.losesHand (t : Task) : Task := { t with lost := t.lost + 1, faulted := true }

theorem Hand.resumed_asleep {h : Hand} {now : Nat} (hsleep : now < h.sleepEnd) :
    h.resumed now = { h with st := .sleeping, skipBp := true, stop := none } := by
  simp [Hand.resumed, hsleep]

theorem Hand.resumed_awake {h : Hand} {now : Nat} (hsleep : h.sleepEnd ≤ now) :
    h.resumed now = { h with st := .ready, sleepEnd := 0, skipBp := true, stop := none } := by
  simp [Hand.resumed, Nat.not_lt.2 hsleep]

theorem Hand.not_halted_resumed (h : Hand) (now : Nat) : (h.resumed now).halted = false := by
  unfold Hand.resumed Hand.halted
  dsimp only
  split <;> rfl

theorem Hand.halted_iff {h : Hand} : h.halted = true ↔ h.st = .debug ∨ h.st = .faulted := by
  simp [Hand.halted]

theorem Hand.not_halted_iff {h : Hand} : h.halted = false ↔ h.st ≠ .debug ∧ h.st ≠ .faulted := by
  simp [Hand.halted]

section
variable {s : State} {c n : Nat} {h : Hand} (hh : s.hand c n = some h)
include hh

theorem haltHand_running (hrun : h.halted = false) (hrel : h.st ≠ .releasing) (hrem : h.removed = false) (hstop : h.stop = none) :
    haltHand s c n = s.setHand c n (h.toldToHalt s.coreTime) := by
  obtain ⟨hd, hf⟩ := Hand.not_halted_iff.1 hrun
  simp [haltHand, hh, hd, hf, hrel, hrem, hstop, Hand.toldToHalt]

theorem runHand_halted (hhalt : h.halted = true) (hrem : h.removed = false) :
    runHand s c n = s.setHand c n (h.resumed s.coreTime) := by
  simp [runHand, hh, hhalt, hrem, Hand.resumed]

theorem runHand_running (hrun : h.halted = false) : runHand s c n = s := by
  simp [runHand, hh, hrun]

theorem stepHand_eq : stepHand s c n = s.setHand c n h.steps := by
  simp [stepHand, hh, Hand.steps]

theorem removeHand_removed (hrem : h.removed = true) : removeHand s c n = s := by
  simp [removeHand, hh, hrem]

theorem removeHand_kept (hrem : h.removed = false) : removeHand s c n =
    (s.setHand c n { h with removed := true }).onTask h.task Task.losesHand := by
  simp only [removeHand, hh, hrem, Bool.false_eq_true, if_false]
  rfl

/-- A hand that has been told to halt is told the same again. -/
theorem haltHand_again {x : Hand} {now : Nat} (hx : h = x.toldToHalt now) (hrun : x.halted = false) (hrel : x.st ≠ .releasing)
    (hrem : x.removed = false) : haltHand s c n = s.setHand c n h := by
  obtain ⟨hd, hf⟩ := Hand.not_halted_iff.1 hrun
  subst hx
  simp [haltHand, hh, Hand.toldToHalt, hd, hf, hrel, hrem]

end

/-- One hand is marked for removal, and its task counts it as lost. -/
def HandKilled (s : State) (c n : Nat) (h : Hand) (t : State) : Prop :=
  t.hand c n = some { h with removed := true } ∧ Alters [.cores, .tasks] [] s t
    ∧ ∀ tk, s.task h.task = some tk → t.task h.task = some tk.losesHand

theorem handKilled_removeHand {s : State} {c n : Nat} {h : Hand} (hh : s.hand c n = some h) (hrem : h.removed = false) :
    HandKilled s c n h (removeHand s c n) := by
  rw [removeHand_kept hh hrem]
  have htasks := State.alters_onTask (s.setHand c n { h with removed := true }) h.task Task.losesHand
  exact ⟨(State.hand_congr (htasks.agree .cores (by decide)) c n).trans (s.hand_setHand_self c n _),
    (s.alters_setHand c n _).comp htasks (by decide) (by decide), fun tk htk => State.task_onTask_self (s := s.setHand c n _) htk _⟩

/-! ### Requests of slot scope -/

section
variable {s : State} {c n : Nat}

theorem applyDebug_none (hnone : s.hand c n = none) (task : Nat) {cmd : Nat} (hcmd : cmd ∈ [1, 2, 3, 4]) :
    applyDebug cmd c n 0 task s = s.dbgResult 3 := by
  simp only [List.mem_cons, List.not_mem_nil, or_false] at hcmd
  rcases hcmd with rfl | rfl | rfl | rfl <;> simp [applyDebug, hnone]

variable {h : Hand} (hh : s.hand c n = some h) (task : Nat)
include hh

theorem applyDebug_running (hrun : h.halted = false) {cmd : Nat} (hcmd : cmd = 2 ∨ cmd = 3) :
    applyDebug cmd c n 0 task s = s.dbgResult 2 := by
  rcases hcmd with rfl | rfl <;> simp [applyDebug, hh, hrun]

theorem applyDebug_halt (hrun : h.halted = false) (hrel : h.st ≠ .releasing) (hrem : h.removed = false) (hstop : h.stop = none) :
    ∃ t, applyDebug 1 c n 0 task s = t.dbgResult 0 ∧ HandBecomes s c n (h.toldToHalt s.coreTime) t := by
  refine ⟨foldState (fun s x => haltHand s x.1 x.2) (scopeHands s c n 0 task) s, by simp [applyDebug, hh],
    slotScope_of hh task ?first fun t ht => ?again⟩
  case first =>
    rw [haltHand_running hh hrun hrel hrem hstop]
    exact handBecomes_setHand s c n _
  case again =>
    rw [haltHand_again ht.2.1 rfl hrun hrel hrem]
    exact ht.setHand

theorem applyDebug_run (hhalt : h.halted = true) (hrem : h.removed = false) :
    ∃ t, applyDebug 2 c n 0 task s = t.dbgResult 0 ∧ HandBecomes s c n (h.resumed s.coreTime) t := by
  refine ⟨foldState (fun s x => runHand s x.1 x.2) (scopeHands s c n 0 task) s, by simp [applyDebug, hh, hhalt],
    slotScope_of hh task ?first fun t ht => ?again⟩
  case first =>
    rw [runHand_halted hh hhalt hrem]
    exact handBecomes_setHand s c n _
  case again => rwa [runHand_running ht.2.1 (h.not_halted_resumed _)]

theorem applyDebug_step (hhalt : h.halted = true) (hrem : h.removed = false) :
    ∃ t, applyDebug 3 c n 0 task s = t.dbgResult 0 ∧ HandBecomes s c n h.steps t := by
  refine ⟨stepHand s c n, by simp [applyDebug, hh, hhalt, hrem], ?_⟩
  rw [stepHand_eq hh]
  exact handBecomes_setHand s c n _

theorem applyDebug_kill (hrem : h.removed = false) :
    ∃ t, applyDebug 4 c n 0 task s = t.dbgResult 0 ∧ HandKilled s c n h t :=
  ⟨foldState (fun s x => removeHand s x.1 x.2) (scopeHands s c n 0 task) s, by simp [applyDebug, hh],
    slotScope_of hh task (handKilled_removeHand hh hrem) fun t ht => (removeHand_removed ht.1 rfl).symm ▸ ht⟩

end

/-- Settles O34, by what each request does to the one hand of slot scope. -/
theorem debugCommandsAct : Obligations.DebugCommandsAct := by
  unfold Obligations.DebugCommandsAct
  intro s core slot task
  dsimp only
  have hact (cmd : Nat) : applyAct (.debugCmd cmd core slot 0 task) s = applyDebug cmd core slot 0 task s := rfl
  simp only [hact]
  refine ⟨fun hnone => ?none, fun h hh => ⟨fun hd hf => ?running, fun hd hf hrel hrem hstop => ?halt,
    fun hst hrem => ⟨?step, fun hsleep => ?asleep, fun hsleep => ?awake⟩, fun hrem => ?kill⟩⟩
  case none =>
    have hnohand (cmd : Nat) (hcmd : cmd ∈ [1, 2, 3, 4]) : applyDebug cmd core slot 0 task s = s.dbgResult 3 :=
      applyDebug_none hnone task hcmd
    rw [hnohand 1 (by decide), hnohand 2 (by decide), hnohand 3 (by decide), hnohand 4 (by decide)]
    exact ⟨s.dbgResult_only 3, s.dbgResult_only 3, s.dbgResult_only 3, s.dbgResult_only 3⟩
  case running =>
    have hrun := Hand.not_halted_iff.2 ⟨hd, hf⟩
    rw [applyDebug_running hh task hrun (.inl rfl), applyDebug_running hh task hrun (.inr rfl)]
    exact ⟨s.dbgResult_only 2, s.dbgResult_only 2⟩
  case halt =>
    obtain ⟨t, ht, hbecomes⟩ := applyDebug_halt hh task (Hand.not_halted_iff.2 ⟨hd, hf⟩) hrel hrem hstop
    exact ht ▸ hbecomes.dbgResult
  case step =>
    obtain ⟨t, ht, hbecomes⟩ := applyDebug_step hh task (Hand.halted_iff.2 hst) hrem
    exact ht ▸ hbecomes.dbgResult
  case asleep =>
    obtain ⟨t, ht, hbecomes⟩ := applyDebug_run hh task (Hand.halted_iff.2 hst) hrem
    rw [Hand.resumed_asleep hsleep] at hbecomes
    exact ht ▸ hbecomes.dbgResult
  case awake =>
    obtain ⟨t, ht, hbecomes⟩ := applyDebug_run hh task (Hand.halted_iff.2 hst) hrem
    rw [Hand.resumed_awake hsleep] at hbecomes
    exact ht ▸ hbecomes.dbgResult
  case kill =>
    obtain ⟨t, ht, hhand, ⟨hsame, hregs⟩, htask⟩ := applyDebug_kill hh task hrem
    obtain ⟨hset, hkeep⟩ := t.alters_dbgResult 0
    rw [ht]
    exact ⟨hhand, t.dbgResult_result 0, (hsame.mono (by decide)).trans (hset.mono (by decide)),
      (hregs.mono (by decide)).trans hkeep, htask⟩

end Sys2Proof.Machine
end
section
/-!
PROOFS. A hand that enters DEBUG (R253, R259–R261).
-/
namespace Sys2Proof.Machine
open Sys2Proof.Safety

theorem exec_debugStop (x : HandId) (s : State) : exec (.debugStop x) s = execDebugStop x s := rfl

theorem State.onlyPosts_postDebug (s : State) (f : FaultRec) (action c n task : Nat) :
    OnlyPosts [] s (postDebug s f action c n task) := by
  unfold postDebug
  split
  · exact s.onlyPosts_postEvent _ _
  · exact OnlyPosts.refl [] s

/-- A hand in DEBUG. -/
def Hand.inDebug (h : Hand) : Hand := { h with st := .debug, stop := none, stepping := false }

/-- The state in which a hand has entered DEBUG and has posted its event; ACTION is what the event reports. -/
def State.entersDebug (s : State) (c n : Nat) (h : Hand) (f : FaultRec) (action : Nat) : State :=
  postDebug (s.setHand c n h.inDebug) { f with pc := h.pc, insn := insnAtPc s c h } action c n h.task

section
variable (s : State) (c n : Nat) (h : Hand) (f : FaultRec) (action : Nat)

theorem State.entersDebug_cores : (s.entersDebug c n h f action).cores = (s.setHand c n h.inDebug).cores :=
  same_iff.1 (State.onlyPosts_postDebug _ _ _ _ _ _).1 .cores (by decide)

theorem State.entersDebug_hand (d m : Nat) :
    (s.entersDebug c n h f action).hand d m = if d = c ∧ m = n then some h.inDebug else s.hand d m :=
  (State.hand_congr (s.entersDebug_cores c n h f action) d m).trans (s.hand_setHand c d n m _)

theorem State.alters_entersDebug : Alters (.cores :: postParts) postRegs s (s.entersDebug c n h f action) :=
  (s.alters_setHand c n h.inDebug).comp (State.onlyPosts_postDebug _ _ _ _ _ _) (by decide) (by decide)

end

section
variable {s : State} {x : HandId} {h : Hand} {f : FaultRec} (hclk : s.clocked (x.core.val / 4) = true)
  (hh : s.hand x.core x.slot = some h) (hstop : h.stop = some (.debug f))
include hclk hh hstop

theorem debugStop_waits (hops : h.ops ≠ []) : Goes (.debugStop x) s s := by
  have hclk' : s.clocked (clusterOf x.core) = true := hclk
  simp [Goes, exec_debugStop, execDebugStop, hclk', hh, hstop, hops, done]

variable (hrem : h.removed = false) (hops : h.ops = [])
include hrem hops

theorem debugStop_goes (hpol : f.policy = false) : Goes (.debugStop x) s (s.entersDebug x.core x.slot h f 0xFF) := by
  have hclk' : s.clocked (clusterOf x.core) = true := hclk
  simp [Goes, exec_debugStop, execDebugStop, hclk', hh, hstop, hops, hrem, hpol, done, State.entersDebug, Hand.inDebug]

theorem debugStop_goes_policy (hpol : f.policy = true) : Goes (.debugStop x) s
    (applyPolicy (s.entersDebug x.core x.slot h f (s.reg .CTX_FP_TRAP)) (s.reg .CTX_FP_TRAP) x.core x.slot h.task) := by
  have hclk' : s.clocked (clusterOf x.core) = true := hclk
  have htrap : (s.setHand x.core x.slot h.inDebug).reg .CTX_FP_TRAP = s.reg .CTX_FP_TRAP := rfl
  rw [← htrap]
  simp [Goes, exec_debugStop, execDebugStop, hclk', hh, hstop, hops, hrem, hpol, done, State.entersDebug, Hand.inDebug]

end

/-- A hand with a debug stop waits for what it issued, and then enters DEBUG. -/
theorem debugStop_ends {s : State} {x : HandId} {h : Hand} {f : FaultRec} (hclk : s.clocked (x.core.val / 4) = true)
    (hh : s.hand x.core x.slot = some h) (hstop : h.stop = some (.debug f)) (hrem : h.removed = false) (hops : h.ops = []) :
    (f.policy = false → Ends (.debugStop x) s fun t => t.hand x.core x.slot = some h.inDebug
        ∧ (∀ d, d ≠ x.core.val → t.core d = s.core d) ∧ (∀ n, n ≠ x.slot.val → t.hand x.core n = s.hand x.core n)
        ∧ Alters (.cores :: postParts) postRegs s t)
    ∧ (f.policy = true → s.reg .CTX_FP_TRAP = 0 → Ends (.debugStop x) s fun t =>
        t.hand x.core x.slot = some h.inDebug ∧ t.tasks = s.tasks)
    ∧ (f.policy = true → s.reg .CTX_FP_TRAP = 1 → Ends (.debugStop x) s fun t =>
        t.hand x.core x.slot = some { h.inDebug with removed := true }) := by
  have hself (action : Nat) : (s.entersDebug x.core x.slot h f action).hand x.core x.slot = some h.inDebug := by
    rw [State.entersDebug_hand, if_pos ⟨rfl, rfl⟩]
  refine ⟨fun hpol => ?plain, fun hpol htrap => ?report, fun hpol htrap => ?remove⟩
  case plain =>
    refine ⟨_, debugStop_goes hclk hh hstop hrem hops hpol, hself _, fun d hd => ?_, fun n hn => ?_, s.alters_entersDebug _ _ h f _⟩
    · exact (State.core_congr (s.entersDebug_cores _ _ h f _) d).trans (s.core_setHand_ne _ _ hd)
    · rw [State.entersDebug_hand, if_neg fun he => hn he.2]
  case report =>
    have hgo := debugStop_goes_policy hclk hh hstop hrem hops hpol
    rw [htrap] at hgo
    exact ⟨_, hgo, hself 0, (s.alters_entersDebug _ _ h f 0).agree .tasks (by decide)⟩
  case remove =>
    have hgo := debugStop_goes_policy hclk hh hstop hrem hops hpol
    rw [htrap] at hgo
    exact ⟨_, hgo, (handKilled_removeHand (hself 1) hrem).1⟩

end Sys2Proof.Machine
end
section
/-!
PROOFS. DBG_ACC (R257, R258): what a space and INDEX name in a hand, and reading back what a write stored there.
-/
namespace Sys2Proof.Machine
open Sys2Proof.Safety

/-! ### Doublewords of a page -/

theorem leNat_leBytes (n v : Nat) : leNat (leBytes n v) = v % 256 ^ n := by
  induction n generalizing v with
  | zero => simp [leBytes, leNat, Nat.mod_one]
  | succ n ih =>
    rw [leBytes, leNat, ih, BitVec.toNat_ofNat]
    exact (Nat.pow_succ' (m := 256) ▸ Nat.mod_mul (x := v) (a := 256) (b := 256 ^ n)).symm

/-- Memory after a list of bytes is written at consecutive addresses. -/
theorem get_putList (a k n : Nat) (l : List Byte) (m : NMap Byte) :
    NMap.get 0 ((l.zipIdx n).foldl (fun m b => NMap.set 0 m (a + b.2) b.1) m) (a + k) =
      if n ≤ k then (l[k - n]?).getD (NMap.get 0 m (a + k)) else NMap.get 0 m (a + k) := by
  induction l generalizing n m with
  | nil => simp
  | cons x t ih =>
    rw [List.zipIdx_cons, List.foldl_cons, ih, NMap.get_set]
    rcases Nat.lt_trichotomy k n with hk | rfl | hk
    · rw [if_neg (by omega), if_neg (by omega), if_neg (by omega)]
    · simp
    · rw [if_pos (by omega), if_neg (by omega), if_pos (by omega), show k - n = (k - (n + 1)) + 1 by omega,
        List.getElem?_cons_succ]

theorem accBytes_putBytes (m : NMap Byte) (a v : Nat) : accBytes (putBytes m a v) a = v % 2 ^ 64 := by
  have hlist : ((List.range 8).map fun i => NMap.get 0 (putBytes m a v) (a + i)) = leBytes 8 v := by
    refine List.ext_getElem (by simp) fun i hi hi' => ?_
    rw [List.getElem_map, List.getElem_range, putBytes, get_putList, if_pos (Nat.zero_le i), Nat.sub_zero,
      List.getElem?_eq_getElem hi', Option.getD_some]
  rw [accBytes, hlist, leNat_leBytes]
  norm_num

/-! ### What a space and INDEX name (R257) -/

theorem Hand.setU_eq (h : Hand) (n : Nat) (v : DWord) : ∃ ureg, h.setU n v = { h with ureg := ureg } := by
  unfold Hand.setU
  split
  · exact ⟨h.ureg, rfl⟩
  · exact ⟨_, rfl⟩

/-- The address of a doubleword of a hand's OSB pages. -/
def Hand.osbAt (h : Hand) (i : Nat) : Nat := 8192 * h.osbPages.getD (i / 1024) 0 + 8 * (i % 1024)

section
variable (s : State) (c n : Nat) (h : Hand) (th : Nat)

theorem accSlot_uniform {i : Nat} (hi : i < 64) : accSlot s c n h 1 th i = some {
    value := (h.u i).toNat, store := some fun v => some (s.setHand c n (h.setU i (BitVec.ofNat 64 v))) } := by
  simp [accSlot, hi]

theorem accSlot_pc : accSlot s c n h 3 th 0 = some {
    value := h.pc.toNat,
    store := some fun v => if v % 8 = 0 then some (s.setHand c n { h with pc := BitVec.ofNat 64 v }) else none } := by
  simp [accSlot]

theorem accSlot_osb {i : Nat} (hi : i < 1024 * h.osbPages.length) : accSlot s c n h 7 th i = some {
    value := accBytes (s.core c).osb (h.osbAt i),
    store := some fun v => some (s.setCore c { s.core c with osb := putBytes (s.core c).osb (h.osbAt i) v }) } := by
  have hi' : ¬ h.osbPages.length * 1024 ≤ i := by omega
  simp [accSlot, hi', Hand.osbAt]

theorem accSlot_sleep : accSlot s c n h 9 th 0 = some {
    value := h.sleepEnd, store := some fun v => some (s.setHand c n { h with sleepEnd := v % 2 ^ 64 }) } := by
  simp [accSlot]

/-- Nothing can be stored: INDEX is out of range or the value is not one, or the space is read-only or none (R257). -/
def BadAccess (s : State) (c n : Nat) (h : Hand) (sp th i v : Nat) : Prop :=
  ∀ a, accSlot s c n h sp th i = some a → (a.store.bind fun f => f v) = none

theorem badAccess_of {sp i v : Nat} (hbad : (sp = 1 ∧ 64 ≤ i) ∨ (sp = 2 ∧ 8 ≤ i) ∨ (sp = 3 ∧ (i ≠ 0 ∨ v % 8 ≠ 0)) ∨ sp = 5
      ∨ sp = 6 ∨ (sp = 0 ∧ h.vregs ≤ i) ∨ (sp = 7 ∧ 1024 * h.osbPages.length ≤ i) ∨ 10 ≤ sp) : BadAccess s c n h sp th i v := by
  intro a ha
  rcases hbad with ⟨rfl, hi⟩ | ⟨rfl, hi⟩ | ⟨rfl, hi⟩ | rfl | rfl | ⟨rfl, hi⟩ | ⟨rfl, hi⟩ | hsp
  · simp [accSlot, hi] at ha
  · simp [accSlot, hi] at ha
  · rcases hi with hi | hv
    · simp [accSlot, hi] at ha
    · by_cases hi : i = 0
      · subst hi
        rw [accSlot_pc, Option.some.injEq] at ha
        simp [← ha, hv]
      · simp [accSlot, hi] at ha
  · simp only [accSlot, ite_not, Option.ite_none_right_eq_some, Option.some.injEq] at ha
    simp [← ha.2]
  · simp only [accSlot, ite_not, Option.ite_none_right_eq_some, Option.some.injEq] at ha
    simp [← ha.2]
  · simp [accSlot, hi] at ha
  · have hi' : ¬ i < h.osbPages.length * 1024 := by omega
    simp [accSlot, hi'] at ha
  · obtain ⟨k, rfl⟩ := Nat.exists_eq_add_of_le' hsp
    simp [accSlot] at ha

end

/-! ### The access (R257, R258) -/

theorem exec_dbgAccRead (s : State) : exec .dbgAccRead s = execDbgAccRead s := rfl

theorem exec_dbgAccWrite (lo : Option Word) (hi : Word) (s : State) : exec (.dbgAccWrite lo hi) s = execDbgAccWrite lo hi s := rfl

/-- A hand that an access may reach at once: halted, with no matrix instruction outstanding. -/
def Hand.reachable (h : Hand) : Prop := h.halted = true ∧ ∀ o ∈ h.ops, o.opc < 0xA0 ∨ 0xA4 < o.opc

theorem Hand.reachable.accWaits {h : Hand} (hr : h.reachable) (sp : Nat) : accWaits h sp = false := by
  have hops : (h.ops.any fun o => decide (0xA0 ≤ o.opc ∧ o.opc ≤ 0xA4)) = false := by
    rw [List.any_eq_false]
    intro o ho
    have := hr.2 o ho
    rw [decide_eq_true_eq]
    omega
  rw [Machine.accWaits, hops, Bool.and_false]

/-- What the registers of DBG_ACC select in a hand. -/
def State.accSlot (s : State) (h : Hand) : Option AccSlot :=
  Machine.accSlot s (s.reg .DBG_CORE) (s.reg .DBG_SLOT) h (s.reg .DBG_SPACE) (s.reg .DBG_THREAD) (s.reg .DBG_INDEX)

section
variable {s : State} {h : Hand} (hh : s.hand (s.reg .DBG_CORE) (s.reg .DBG_SLOT) = some h) (hr : h.reachable)
include hh hr

theorem dbgAccess_some {a : AccSlot} (ha : s.accSlot h = some a) (f : AccSlot → State) : dbgAccess s f = f a := by
  rw [State.accSlot] at ha
  simp [dbgAccess, hh, hr.1, hr.accWaits, ha]

theorem dbgAccess_none (ha : s.accSlot h = none) (f : AccSlot → State) : dbgAccess s f = s.dbgResult 4 := by
  rw [State.accSlot] at ha
  simp [dbgAccess, hh, hr.1, hr.accWaits, ha]

/-- A read gives the value that is there. -/
theorem dbgAccRead_goes (hbrk : s.isSet .BRK_BRAKED = false) {a : AccSlot} (ha : s.accSlot h = some a) :
    Goes .dbgAccRead s ((s.setReg64 .DBG_ACC_DATA_LO .DBG_ACC_DATA_HI a.value).dbgResult 0) := by
  simp [Goes, exec_dbgAccRead, execDbgAccRead, hbrk, dbgAccess_some hh hr ha, done]

end

/-- The data registers hold the value of a 64-bit write. -/
def State.accData (s : State) (lo hi : Word) : State := (s.setReg .DBG_ACC_DATA_LO lo.toNat).setReg .DBG_ACC_DATA_HI hi.toNat

theorem State.alters_accData (s : State) (lo hi : Word) : Alters [.regs] [.DBG_ACC_DATA_LO, .DBG_ACC_DATA_HI] s (s.accData lo hi) :=
  (s.alters_setReg .DBG_ACC_DATA_LO _ 0 0).comp (State.alters_setReg _ .DBG_ACC_DATA_HI _ 0 0) (by decide) (by decide)

theorem State.accData_value (s : State) (lo hi : Word) :
    (s.accData lo hi).reg64 .DBG_ACC_DATA_LO .DBG_ACC_DATA_HI = (hi ++ lo).toNat := by
  rw [toNat_append_eq, State.reg64, State.accData, State.reg_setReg_self, State.reg_setReg_ne _ _ _ _ _ _ (by decide),
    State.reg_setReg_self, Nat.add_comm]
  rfl

/-- The data registers after a read that gives `v`. -/
theorem State.readAcc_value (s : State) {v : Nat} (hv : v < 2 ^ 64) :
    ((s.setReg64 .DBG_ACC_DATA_LO .DBG_ACC_DATA_HI v).dbgResult 0).reg64 .DBG_ACC_DATA_LO .DBG_ACC_DATA_HI = v := by
  have hlo : (Field.DBG_ACC_DATA_LO).spec.lo = 0 := rfl
  rw [State.reg64, (State.alters_dbgResult _ 0).reg .DBG_ACC_DATA_LO 0 0 (by decide),
    (State.alters_dbgResult _ 0).reg .DBG_ACC_DATA_HI 0 0 (by decide), State.reg_setReg64, State.reg_setReg64,
    if_neg (by decide), if_pos ⟨rfl, rfl, rfl⟩, if_pos ⟨rfl, rfl, rfl⟩, hlo, Nat.shiftRight_zero, Nat.shiftLeft_zero]
  omega

/-- The registers in which an access leaves its value and its result. -/
def accResults : List Field := [.DBG_RESULT, .DBG_PENDING, .DBG_ACC_DATA_LO, .DBG_ACC_DATA_HI]

theorem State.accData_frame (s : State) (lo hi : Word) : Alters [.regs] accResults s (s.accData lo hi) :=
  (s.alters_accData lo hi).mono (by decide) (by decide)

theorem State.dbgResult_frame (s : State) (r : Nat) : Alters [.regs] accResults s (s.dbgResult r) :=
  (s.alters_dbgResult r).mono (by decide) (by decide)

/-- An access leaves the registers alone that say which hand it is for, and which of its state. -/
theorem State.accSlot_congr {s t : State} (hregs : SameRegs accResults s t) (h : Hand) : t.accSlot h =
    Machine.accSlot t (s.reg .DBG_CORE) (s.reg .DBG_SLOT) h (s.reg .DBG_SPACE) (s.reg .DBG_THREAD) (s.reg .DBG_INDEX) := by
  rw [State.accSlot, hregs .DBG_CORE 0 0 (by decide), hregs .DBG_SLOT 0 0 (by decide), hregs .DBG_SPACE 0 0 (by decide),
    hregs .DBG_THREAD 0 0 (by decide), hregs .DBG_INDEX 0 0 (by decide)]

theorem State.selectedHand_congr {s t : State} (hregs : SameRegs accResults s t) :
    t.hand (t.reg .DBG_CORE) (t.reg .DBG_SLOT) = t.hand (s.reg .DBG_CORE) (s.reg .DBG_SLOT) := by
  rw [hregs .DBG_CORE 0 0 (by decide), hregs .DBG_SLOT 0 0 (by decide)]

/-- A write that finds a place for its value stores it there; another changes nothing but its result. -/
def State.storesAcc (s : State) (a : AccSlot) (v : Nat) : State :=
  match a.store.bind fun f => f v with
  | some t => t.dbgResult 0
  | none => s.dbgResult 4

section
variable {s : State} {h : Hand} {lo hi : Word} (hbrk : s.isSet .BRK_BRAKED = false) (hlevel : 2 ≤ s.level)
  (hh : s.hand (s.reg .DBG_CORE) (s.reg .DBG_SLOT) = some h) (hr : h.reachable)
include hbrk hlevel

theorem exec_dbgAccWrite_allowed : exec (.dbgAccWrite (some lo) hi) s =
    .next (dbgAccess (s.accData lo hi) fun a => (s.accData lo hi).storesAcc a (hi ++ lo).toNat) := by
  rw [← s.accData_value lo hi]
  simp only [exec_dbgAccWrite, execDbgAccWrite, hbrk, Nat.not_lt.2 hlevel, done, if_false, Bool.false_eq_true]
  rfl

include hh hr

theorem dbgAccWrite_bad (hbad : BadAccess (s.accData lo hi) (s.reg .DBG_CORE) (s.reg .DBG_SLOT) h (s.reg .DBG_SPACE)
      (s.reg .DBG_THREAD) (s.reg .DBG_INDEX) (hi ++ lo).toNat) :
    Goes (.dbgAccWrite (some lo) hi) s ((s.accData lo hi).dbgResult 4) := by
  have hregs := (s.accData_frame lo hi).2
  have hsel := (State.selectedHand_congr hregs).trans hh
  unfold Goes
  rw [exec_dbgAccWrite_allowed hbrk hlevel]
  cases ha : (s.accData lo hi).accSlot h with
  | none => rw [dbgAccess_none hsel hr ha]
  | some a =>
    rw [State.accSlot_congr hregs] at ha
    rw [dbgAccess_some hsel hr ((State.accSlot_congr hregs h).trans ha), State.storesAcc, hbad a ha]

end

/-- Storing a value where a space and INDEX say changes one hand to `h'`, or storage of its core, and the value is there then. -/
def Stores (s : State) (c n : Nat) (h : Hand) (sp th i v : Nat) (h' : Hand) (t : State) : Prop :=
  (∃ a, accSlot s c n h sp th i = some a ∧ (a.store.bind fun f => f v) = some t) ∧ OnlyHandAt c n s t ∧ t.hand c n = some h'
    ∧ ∀ u : State, u.cores = t.cores → ∃ a, accSlot u c n h' sp th i = some a ∧ a.value = v

section
variable {s : State} {h h' : Hand} {lo hi : Word} {t : State} (hbrk : s.isSet .BRK_BRAKED = false) (hlevel : 2 ≤ s.level)
  (hh : s.hand (s.reg .DBG_CORE) (s.reg .DBG_SLOT) = some h) (hr : h.reachable)
  (hst : Stores (s.accData lo hi) (s.reg .DBG_CORE) (s.reg .DBG_SLOT) h (s.reg .DBG_SPACE) (s.reg .DBG_THREAD) (s.reg .DBG_INDEX)
    (hi ++ lo).toNat h' t)
include hst

theorem Stores.frame : Alters [.cores, .regs] accResults s (t.dbgResult 0) := by
  obtain ⟨-, ⟨hsame, -, -⟩, -, -⟩ := hst
  have hstore : Alters [.cores] [] (s.accData lo hi) t := ⟨hsame, sameRegs_of_regs (same_iff.1 hsame .regs (by decide))⟩
  have hwrite : Alters [.cores, .regs] accResults s t := (s.accData_frame lo hi).comp hstore (by decide) (by decide)
  exact hwrite.comp (t.dbgResult_frame 0) (by decide) (by decide)

include hbrk hlevel hh hr

theorem Stores.write_goes : Goes (.dbgAccWrite (some lo) hi) s (t.dbgResult 0) := by
  obtain ⟨⟨a, ha, hstore⟩, -, -, -⟩ := hst
  have hregs := (s.accData_frame lo hi).2
  unfold Goes
  rw [exec_dbgAccWrite_allowed hbrk hlevel, dbgAccess_some ((State.selectedHand_congr hregs).trans hh) hr
    ((State.accSlot_congr hregs h).trans ha), State.storesAcc, hstore]

/-- A write that stores a value completes OK, and a read then gives that value. -/
theorem Stores.round_trip (hr' : h'.reachable) : ∃ t' u, Goes (.dbgAccWrite (some lo) hi) s t' ∧ t'.reg .DBG_RESULT = 0
    ∧ Same [.cores, .regs] s t' ∧ SameRegs accResults s t' ∧ (∀ d, d ≠ s.reg .DBG_CORE → t'.core d = s.core d)
    ∧ t'.hand (s.reg .DBG_CORE) (s.reg .DBG_SLOT) = some h'
    ∧ Goes .dbgAccRead t' u ∧ u.reg64 .DBG_ACC_DATA_LO .DBG_ACC_DATA_HI = (hi ++ lo).toNat ∧ u.reg .DBG_RESULT = 0
    ∧ u.cores = t'.cores := by
  have hgo := hst.write_goes hbrk hlevel hh hr
  obtain ⟨hsame, hregs⟩ := hst.frame
  obtain ⟨-, ⟨-, hcores, -⟩, hhand, hread⟩ := hst
  obtain ⟨a, ha, hvalue⟩ := hread (t.dbgResult 0) rfl
  have hbrk' : (t.dbgResult 0).isSet .BRK_BRAKED = false := by
    rw [State.isSet, hregs .BRK_BRAKED 0 0 (by decide)]
    exact hbrk
  have hgoes := dbgAccRead_goes ((State.selectedHand_congr hregs).trans hhand) hr' hbrk' ((State.accSlot_congr hregs h').trans ha)
  rw [hvalue] at hgoes
  refine ⟨_, _, hgo, t.dbgResult_result 0, hsame, hregs, hcores, hhand, hgoes, ?_, State.dbgResult_result _ 0, rfl⟩
  exact State.readAcc_value _ (hi ++ lo).isLt

end

/-! ### The spaces in which a value is stored -/

/-- What a write of `v` to a register space changes in a hand: a uniform register, the program counter, or the tick at which its
sleep ends (R257). -/
def Hand.TakesAcc (h : Hand) (sp i : Nat) (v : DWord) (h' : Hand) : Prop :=
  (∀ n, h'.u n = if sp = 1 ∧ n = i then v else h.u n) ∧ h'.pc = (if sp = 3 then v else h.pc)
    ∧ h'.sleepEnd = (if sp = 9 then v.toNat else h.sleepEnd) ∧ h'.preds = h.preds ∧ h'.flags = h.flags

section
variable {s : State} {c n : Nat} {h : Hand} (th : Nat) {i : Nat} (v : DWord)

theorem stores_uniform (hi : i < 64) (h0 : 0 < i) :
    Stores s c n h 1 th i v.toNat (h.setU i v) (s.setHand c n (h.setU i v)) := by
  refine ⟨⟨_, accSlot_uniform s c n h th hi, by simp⟩, (OnlyHandAt.refl c n s).setHand _,
    s.hand_setHand_self c n _, fun u _ => ⟨_, accSlot_uniform u c n _ th hi, ?_⟩⟩
  rw [Hand.u_setU, if_pos ⟨rfl, Nat.ne_of_gt h0⟩]

theorem stores_pc (hv : v.toNat % 8 = 0) :
    Stores s c n h 3 th 0 v.toNat { h with pc := v } (s.setHand c n { h with pc := v }) :=
  ⟨⟨_, accSlot_pc s c n h th, by simp [hv]⟩, (OnlyHandAt.refl c n s).setHand _, s.hand_setHand_self c n _,
    fun u _ => ⟨_, accSlot_pc u c n _ th, rfl⟩⟩

theorem stores_osb (hh : s.hand c n = some h) (hi : i < 1024 * h.osbPages.length) : Stores s c n h 7 th i v.toNat h
    (s.setCore c { s.core c with osb := putBytes (s.core c).osb (h.osbAt i) v.toNat }) := by
  have hhand : (s.setCore c { s.core c with osb := putBytes (s.core c).osb (h.osbAt i) v.toNat }).hand c n = s.hand c n := by
    rw [State.hand, State.core_setCore_self, State.hand]
  refine ⟨⟨_, accSlot_osb s c n h th hi, rfl⟩, (OnlyHandAt.refl c n s).setCore fun m _ => rfl, hhand.trans hh,
    fun u hu => ⟨_, accSlot_osb u c n h th hi, ?_⟩⟩
  rw [State.core_congr hu, State.core_setCore_self, accBytes_putBytes, Nat.mod_eq_of_lt v.isLt]

theorem stores_sleep :
    Stores s c n h 9 th 0 v.toNat { h with sleepEnd := v.toNat } (s.setHand c n { h with sleepEnd := v.toNat }) := by
  have hv : v.toNat % 2 ^ 64 = v.toNat := Nat.mod_eq_of_lt v.isLt
  exact ⟨⟨_, accSlot_sleep s c n h th, by simp only [Option.bind_some, hv]⟩, (OnlyHandAt.refl c n s).setHand _,
    s.hand_setHand_self c n _, fun u _ => ⟨_, accSlot_sleep u c n _ th, rfl⟩⟩

/-- A 64-bit write of a uniform register other than u0, the program counter, a doubleword of an owned OSB page, or the end of a
sleep finds a place for its value. -/
theorem stores_of (hh : s.hand c n = some h) (hr : h.reachable) {sp : Nat} (hok : (sp = 1 ∧ 0 < i ∧ i < 64)
      ∨ (sp = 3 ∧ i = 0 ∧ v.toNat % 8 = 0) ∨ (sp = 7 ∧ i < 1024 * h.osbPages.length) ∨ (sp = 9 ∧ i = 0)) :
    ∃ h' t, Stores s c n h sp th i v.toNat h' t ∧ h'.reachable ∧ h.TakesAcc sp i v h' := by
  rcases hok with ⟨rfl, h0, hi⟩ | ⟨rfl, rfl, hv⟩ | ⟨rfl, hi⟩ | ⟨rfl, rfl⟩
  · refine ⟨_, _, stores_uniform th v hi h0, ?_, fun m => ?_, ?_⟩
    · obtain ⟨ureg, he⟩ := h.setU_eq i v
      exact he ▸ hr
    · simp [Hand.u_setU, Nat.ne_of_gt h0]
    · obtain ⟨ureg, he⟩ := h.setU_eq i v
      rw [he]
      exact ⟨rfl, rfl, rfl, rfl⟩
  · exact ⟨_, _, stores_pc th v hv, hr, fun _ => rfl, rfl, rfl, rfl, rfl⟩
  · exact ⟨h, _, stores_osb th v hh hi, hr, fun _ => rfl, rfl, rfl, rfl, rfl⟩
  · exact ⟨_, _, stores_sleep th v, hr, fun _ => rfl, rfl, rfl, rfl, rfl⟩

end

/-- Settles O35: a hand enters DEBUG once nothing of it is outstanding, and an access reads what it wrote or is refused. -/
theorem handsEnterDebug : Obligations.HandsEnterDebug := by
  unfold Obligations.HandsEnterDebug
  refine ⟨fun s x h f hclk hh hstop hrem => ?enters, fun s h lo hi hbrk hlevel hh hst hops => ⟨fun hok => ?stores, fun hbad => ?bad⟩⟩
  case enters =>
    exact ⟨debugStop_waits hclk hh hstop, fun hops => (debugStop_ends hclk hh hstop hrem hops).1,
      fun hops => (debugStop_ends hclk hh hstop hrem hops).2.1, fun hops => (debugStop_ends hclk hh hstop hrem hops).2.2⟩
  case stores =>
    have hr : h.reachable := ⟨Hand.halted_iff.2 hst, hops⟩
    obtain ⟨h', t, hstores, hr', htakes⟩ := stores_of (s := s.accData lo hi) (s.reg .DBG_THREAD) (hi ++ lo) hh hr hok
    obtain ⟨t', u, hwrite, hok', hsame, hregs, hcores, hhand, hread, hvalue, hresult, hkept⟩ :=
      hstores.round_trip hbrk hlevel hh hr hr'
    exact ⟨t', u, hwrite, hok', hsame, hregs, hcores, ⟨h', hhand, htakes⟩, hread, hvalue, hresult, hkept⟩
  case bad =>
    have hr : h.reachable := ⟨Hand.halted_iff.2 hst, hops⟩
    exact ⟨_, dbgAccWrite_bad hbrk hlevel hh hr (badAccess_of _ _ _ _ _ hbad), State.dbgResult_result _ 4,
      (s.accData_frame lo hi).trans (State.dbgResult_frame _ 4)⟩

end Sys2Proof.Machine
end
section
/-!
PROOFS. What a coupler that leaves a link state, and the choice of a parent, change: no register that has a shadow (R105, R111, R441).
-/
namespace Sys2Proof.Safety
open Sys2Proof.Machine

theorem Alters.ite {ch : List Comp} {fs : List Field} {p : Prop} [Decidable p] {s t u : State} (h : Alters ch fs s t)
    (h' : Alters ch fs s u) : Alters ch fs s (if p then t else u) := by
  split
  · exact h
  · exact h'

end Sys2Proof.Safety
namespace Sys2Proof.Machine
open Sys2Proof.Safety

/-- The registers that show the tile's place in the time tree (R104, R106). -/
def treeRegs : List Field :=
  [.TIK_JOINED, .TIK_IS_ROOT, .TIK_HOLDOVER, .TIK_ROOT_VALID, .TIK_DEPTH, .TIK_PARENT, .TIK_ROOT_ID, .TIK_ROOT_CONFLICT]

/-- The registers that a coupler changes when it leaves a link state, with those of the time tree and of events (R111, R441, R463). -/
def linkChangeRegs : List Field :=
  [.CPL_DROP_PKT_CNT, .CPL_WIDTH, .CPL_LOCK, .CPL_LP, .CPL_LINK_STATE, .CPL_DOWN_CAUSE, .CPL_TRAIN_FAIL_CNT] ++ treeRegs ++ postRegs

/-- The parts of the state in which a coupler leaves a link state. -/
def linkChangeParts : List Comp := [.time, .cpls] ++ postParts

/-- What a coupler changes when it leaves a link state. -/
abbrev LinkChanges (s t : State) : Prop := Alters linkChangeParts linkChangeRegs s t

theorem State.linkChanges_setReg (s : State) {f : Field} (v i n : Nat) (hf : f ∈ linkChangeRegs) : LinkChanges s (s.setReg f v i n) :=
  (s.alters_setReg f v i n).mono (by decide) (by simpa using hf)

theorem State.linkChanges_onCpl (s : State) (n : Nat) (f : CplSt → CplSt) : LinkChanges s (s.onCpl n f) :=
  (s.alters_onCpl n f).mono (by decide) (by decide)

theorem State.linkChanges_time (s : State) (t : TimeSt) : LinkChanges s { s with time := t } :=
  (s.alters_time t).mono (by decide) (by decide)

theorem State.linkChanges_showTime (s : State) : LinkChanges s s.showTime := by
  have hshow (joined isRoot hold valid depth parent root : Nat) : LinkChanges s
      (((((((s.setReg .TIK_JOINED joined).setReg .TIK_IS_ROOT isRoot).setReg .TIK_HOLDOVER hold).setReg .TIK_ROOT_VALID valid).setReg
        .TIK_DEPTH depth).setReg .TIK_PARENT parent).setReg .TIK_ROOT_ID root) := by
    iterate 7 refine Alters.trans ?_ (State.linkChanges_setReg _ _ 0 0 (by decide))
    exact Alters.refl _ _ s
  unfold State.showTime
  dsimp only
  split
  · exact hshow ..
  · split_ifs <;> exact hshow ..

theorem State.linkChanges_chooseParent (s : State) : LinkChanges s s.chooseParent := by
  unfold State.chooseParent
  dsimp only
  refine Alters.trans ?_ (State.linkChanges_showTime _)
  refine Alters.trans ?_ (State.linkChanges_time _ _)
  split_ifs
  · exact s.linkChanges_setReg _ 0 0 (by decide)
  · exact Alters.refl _ _ s

theorem State.linkChanges_parentLost (s : State) (n : Nat) : LinkChanges s (s.parentLost n) :=
  (s.linkChanges_time _).trans (State.linkChanges_showTime _)

theorem State.linkChanges_dropRollipor (s : State) (n : Nat) : LinkChanges s (s.dropRollipor n) :=
  (s.linkChanges_setReg _ n 0 (by decide)).trans (State.linkChanges_onCpl _ n _)

theorem State.linkChanges_linkLeaves (s : State) (n : Nat) : LinkChanges s (s.linkLeaves n) := by
  refine Alters.trans ?_ (State.linkChanges_onCpl _ n _)
  refine Alters.trans ?_ (State.linkChanges_parentLost _ n)
  refine Alters.trans ?_ (State.linkChanges_setReg _ _ n 0 (by decide))
  exact (s.linkChanges_setReg _ n 0 (by decide)).trans (State.linkChanges_setReg _ _ n 0 (by decide))

theorem State.linkChanges_setLink (s : State) (n st : Nat) : LinkChanges s (s.setLink n st) :=
  (s.linkChanges_setReg _ n 0 (by decide)).trans (State.linkChanges_onCpl _ n _)

theorem State.linkChanges_toDetect (s : State) (n : Nat) : LinkChanges s (s.toDetect n) :=
  (((s.linkChanges_dropRollipor n).trans (State.linkChanges_linkLeaves _ n)).trans (State.linkChanges_setLink _ n 0)).trans
    (State.linkChanges_onCpl _ n _)

theorem State.linkChanges_mgc (s : State) (m : MgcSt) : LinkChanges s { s with mgc := m } :=
  Alters.mono (ch := [.mgc]) (fs := []) (.of_regs (by simp [Same]) rfl) (by decide) (by decide)

theorem State.linkChanges_fallDue (s : State) (kind unit : Nat) : LinkChanges s (s.fallDue kind unit) := by
  unfold State.fallDue
  extract_lets e same
  split
  · exact Alters.refl _ _ s
  · exact s.linkChanges_mgc _

theorem State.linkChanges_linkEvent (s : State) (n kind cause : Nat) : LinkChanges s (s.linkEvent n kind cause) :=
  Alters.mono (s.onlyPosts_postEvent _ _) (by decide) (by decide)

theorem State.linkChanges_toDown (s : State) (n cause : Nat) : LinkChanges s (s.toDown n cause) := by
  have hdown : LinkChanges s ((((s.dropRollipor n).linkLeaves n).setReg .CPL_DOWN_CAUSE cause n).setLink n 6) :=
    (((s.linkChanges_dropRollipor n).trans (State.linkChanges_linkLeaves _ n)).trans
      (State.linkChanges_setReg _ cause n 0 (by decide))).trans (State.linkChanges_setLink _ n 6)
  unfold State.toDown
  dsimp only
  refine Alters.trans ?_ (State.linkChanges_linkEvent _ n _ cause)
  refine Alters.trans ?_ (State.linkChanges_onCpl _ n _)
  refine hdown.trans ?_
  split_ifs
  · exact Alters.refl _ _ _
  · exact (State.linkChanges_mgc _ _).trans (State.linkChanges_fallDue _ 2 n)
  · exact State.linkChanges_mgc _ _

theorem State.linkChanges_attemptFails (s : State) (n : Nat) : LinkChanges s (s.attemptFails n) := by
  have hcount : LinkChanges s ((s.count .CPL_TRAIN_FAIL_CNT n).onCpl n fun c => { c with failRun := c.failRun + 1 }) :=
    (s.linkChanges_setReg _ n 0 (by decide)).trans (State.linkChanges_onCpl _ n _)
  unfold State.attemptFails
  dsimp only
  split_ifs
  · exact hcount.trans (State.linkChanges_toDown _ n 1)
  · exact hcount.trans (State.linkChanges_toDetect _ n)

end Sys2Proof.Machine
end
section
/-!
PROOFS. Shadows (R262, R676, R677): what waits, what a commit puts into force, and what becomes of a commit made moot.
-/
namespace Sys2Proof.Machine
open Sys2Proof.Safety

/-! ### The entries that wait -/

theorem mem_waiting {s : State} {b : Block} {inst : Nat} {x : Field × Nat × Nat} (hx : x ∈ s.waiting b inst) :
    x.1.spec.shadowed = true ∧ ∃ v, NMap.find? s.shadow (regKey x.1 x.2.1 x.2.2) = some v := by
  unfold State.waiting at hx
  split at hx
  · simp at hx
  · obtain ⟨f, hf, hx⟩ := List.mem_flatMap.1 hx
    obtain ⟨i, -, hx⟩ := List.mem_flatMap.1 hx
    obtain ⟨n, hn, rfl⟩ := List.mem_map.1 hx
    constructor
    · unfold Block.shadows at hf
      split at hf
      · simp at hf
      · have hfilter := (List.mem_filter.1 hf).2
        simp only [Bool.and_eq_true] at hfilter
        exact hfilter.1.1
    · have hwaits := (List.mem_filter.1 hn).2
      cases hv : NMap.find? s.shadow (regKey f i n) with
      | none => simp [hv] at hwaits
      | some v => exact ⟨v, rfl⟩

/-- A field that has a shadow is not among fields that have none. -/
theorem not_mem_of_shadowed {f : Field} {fs : List Field} (hfs : ∀ g ∈ fs, g.spec.shadowed = false) (hf : f.spec.shadowed = true) :
    f ∉ fs :=
  fun hmem => Bool.false_ne_true ((hfs f hmem).symm.trans hf)

theorem State.regS_of_shadow {s : State} {f : Field} {i n v : Nat} (h : NMap.find? s.shadow (regKey f i n) = some v) :
    s.regS f i n = v := by
  simp [State.regS, h]

theorem State.regS_of_none {s : State} {f : Field} {i n : Nat} (h : NMap.find? s.shadow (regKey f i n) = none) :
    s.regS f i n = s.reg f i n := by
  simp [State.regS, h]

/-! ### Shadows that are dropped -/

/-- No shadow of an entry that is dropped is left, whatever is dropped beside it. -/
theorem find?_dropShadows (s : State) {l : List (Field × Nat × Nat)} {x : Field × Nat × Nat} (hx : x ∈ l) :
    NMap.find? (s.dropShadows l).shadow (regKey x.1 x.2.1 x.2.2) = none := by
  unfold State.dropShadows
  dsimp only
  generalize s.shadow = m
  induction l generalizing m with
  | nil => simp at hx
  | cons y t ih =>
    rcases List.mem_cons.1 hx with rfl | hx
    · refine foldState_keeps (p := fun m => NMap.find? m (regKey x.1 x.2.1 x.2.2) = none) _ t _ (NMap.find?_erase_self _ _) ?_
      intro m y hm
      by_cases hk : regKey x.1 x.2.1 x.2.2 = regKey y.1 y.2.1 y.2.2
      · rw [hk]
        exact NMap.find?_erase_self _ _
      · rwa [NMap.find?_erase_ne _ hk]
    · exact ih hx _

/-! ### Values put into force -/

/-- Puts the values that wait into force. -/
def State.putForce (s : State) (l : List (Field × Nat × Nat)) : State :=
  foldState (fun s (x : Field × Nat × Nat) => s.setReg x.1 (s.regS x.1 x.2.1 x.2.2) x.2.1 x.2.2) l s

/-- The entries listed then hold what a read of their shadows gave; every other register keeps its value. -/
theorem State.reg_putForce {s t : State} (hshadow : t.shadow = s.shadow) {l : List (Field × Nat × Nat)}
    (hl : ∀ y ∈ l, ∃ v, NMap.find? s.shadow (regKey y.1 y.2.1 y.2.2) = some v) {x : Field × Nat × Nat} :
    (t.putForce l).reg x.1 x.2.1 x.2.2 = if x ∈ l then s.regS x.1 x.2.1 x.2.2 else t.reg x.1 x.2.1 x.2.2 := by
  induction l generalizing t with
  | nil => simp [State.putForce, foldState]
  | cons y l ih =>
    obtain ⟨v, hv⟩ := hl y List.mem_cons_self
    have hy : t.regS y.1 y.2.1 y.2.2 = s.regS y.1 y.2.1 y.2.2 :=
      (State.regS_of_shadow (hshadow ▸ hv)).trans (State.regS_of_shadow hv).symm
    have hrest : (t.putForce (y :: l)) = (t.setReg y.1 (s.regS y.1 y.2.1 y.2.2) y.2.1 y.2.2).putForce l := by
      rw [← hy]
      rfl
    have hsplit : (x.1 = y.1 ∧ x.2.1 = y.2.1 ∧ x.2.2 = y.2.2) ↔ x = y := by simp only [Prod.ext_iff]
    rw [hrest, ih (t := t.setReg y.1 _ y.2.1 y.2.2) hshadow fun z hz => hl z (List.mem_cons_of_mem _ hz), State.reg_setReg]
    simp only [hsplit, List.mem_cons]
    by_cases hxl : x ∈ l
    · simp [hxl]
    · by_cases hxy : x = y <;> simp [hxl, hxy]

/-! ### The commit (R262, R676) -/

/-- Where every length-map base lies in its stack, none is dropped. -/
theorem State.dropBadBases_ok {s : State} (hok : ∀ k < 8, s.mapBaseOk k = true) : s.dropBadBases = s := by
  refine foldState_keeps_of_mem (p := (· = s)) _ _ s rfl fun t k hk ht => ?_
  subst ht
  simp [hok k (List.mem_range.1 hk)]

theorem State.alters_mirrorsChanged (s : State) (l : List (Field × Nat × Nat)) : Alters [.cp] [] s (s.mirrorsChanged l) := by
  refine Alters.foldState (fun t x => ?_) l s
  split
  · exact .of_regs (by simp [Same, State.onCp]) rfl
  · exact Alters.refl _ _ t

/-- What follows from a commit in the same tick. -/
theorem State.alters_afterCommit (s : State) (b : Block) (inst : Nat) :
    Alters linkChangeParts linkChangeRegs s (s.afterCommit b inst) := by
  unfold State.afterCommit
  split
  · refine Alters.trans ?_ (State.linkChanges_chooseParent _)
    split
    · exact Alters.refl _ _ s
    · exact s.linkChanges_time _
  · have hfails : LinkChanges s (if s.link inst = 1 ∨ s.link inst = 2 ∨ s.link inst = 3 then s.attemptFails inst else s) :=
      Alters.ite (s.linkChanges_attemptFails inst) (Alters.refl _ _ s)
    exact Alters.ite (Alters.refl _ _ s) (Alters.ite hfails (hfails.trans (State.linkChanges_toDetect _ inst)))
  · exact Alters.refl _ _ s

/-- The state in which a commit puts its values into force. -/
def State.beforeForce (s : State) (b : Block) (inst : Nat) : State := if b = .FEN then s.mirrorsChanged (s.waiting b inst) else s

theorem State.alters_beforeForce (s : State) (b : Block) (inst : Nat) : Alters [.cp] [] s (s.beforeForce b inst) := by
  unfold State.beforeForce
  split
  · exact s.alters_mirrorsChanged _
  · exact Alters.refl _ _ s

theorem applyShadowCommit_eq {s : State} {b : Block} (hdbg : b = .DBG → 2 ≤ s.level)
    (hbase : b = .CDC → ∀ k < 8, s.mapBaseOk k = true) (inst : Nat) : applyShadowCommit b inst s =
      (((s.beforeForce b inst).putForce (s.waiting b inst)).dropShadows (s.waiting b inst)).afterCommit b inst := by
  have hdrop : (if b = .CDC then s.dropBadBases else s) = s := by
    split
    · next hb => exact State.dropBadBases_ok (hbase hb)
    · rfl
  have hlevel : ¬(b = .DBG ∧ s.level < 2) := fun h => Nat.not_lt.2 (hdbg h.1) h.2
  unfold applyShadowCommit
  simp only [hdrop, if_neg hlevel]
  rfl

/-- A commit puts the values that wait into force, and no shadow of them is left (R676). -/
theorem applyShadowCommit_spec {s : State} {b : Block} {inst : Nat} (hdbg : b = .DBG → 2 ≤ s.level)
    (hbase : b = .CDC → ∀ k < 8, s.mapBaseOk k = true) {x : Field × Nat × Nat} (hx : x ∈ s.waiting b inst) :
    (applyShadowCommit b inst s).reg x.1 x.2.1 x.2.2 = s.regS x.1 x.2.1 x.2.2
      ∧ NMap.find? (applyShadowCommit b inst s).shadow (regKey x.1 x.2.1 x.2.2) = none := by
  obtain ⟨hsh, -⟩ := mem_waiting hx
  have hpre := s.alters_beforeForce b inst
  have hpost := State.alters_afterCommit
    (((s.beforeForce b inst).putForce (s.waiting b inst)).dropShadows (s.waiting b inst)) b inst
  rw [applyShadowCommit_eq hdbg hbase]
  constructor
  · rw [hpost.reg x.1 x.2.1 x.2.2 (not_mem_of_shadowed (by decide) hsh), State.reg_congr (State.dropShadows_regs _ _),
      State.reg_putForce (hpre.agree .shadow (by decide)) fun y hy => (mem_waiting hy).2, if_pos hx]
  · have hshadow := hpost.agree .shadow (by decide)
    exact (congrArg (NMap.find? · _) hshadow).trans (find?_dropShadows _ hx)

/-! ### A commit made moot (R676, R677) -/

theorem State.discardMoot_commit {s : State} (hcold : s.time.cur.reset ≠ some .cold) (src : Nat) (b : Block) (inst : Nat) :
    s.discardMoot 9 src (.shadowCommit b inst) =
      ((s.count .TIK_MOOT_CNT 0 9).dropShadows (s.waiting b inst)).journal 9 src 2 (.shadowCommit b inst) := by
  unfold State.discardMoot
  rw [if_neg hcold]
  rfl

theorem discardMoot_commit_spec {s : State} (hcold : s.time.cur.reset ≠ some .cold) (src : Nat) {b : Block} {inst : Nat}
    {x : Field × Nat × Nat} (hx : x ∈ s.waiting b inst) :
    (s.discardMoot 9 src (.shadowCommit b inst)).regS x.1 x.2.1 x.2.2 = s.reg x.1 x.2.1 x.2.2 := by
  obtain ⟨hsh, -⟩ := mem_waiting hx
  have hcount := s.alters_count .TIK_MOOT_CNT 0 9 1
  have hjournal := State.alters_journal ((s.count .TIK_MOOT_CNT 0 9).dropShadows (s.waiting b inst)) 9 src 2 (.shadowCommit b inst)
  rw [State.discardMoot_commit hcold, State.regS_of_none, hjournal.reg x.1 _ _ (not_mem_of_shadowed (by decide) hsh),
    State.reg_congr (State.dropShadows_regs _ _), hcount.reg x.1 _ _ (not_mem_of_shadowed (by decide) hsh)]
  exact (congrArg (NMap.find? · _) (hjournal.agree .shadow (by decide))).trans (find?_dropShadows _ hx)

/-! ### The command -/

theorem exec_shadowCommit (b : Block) (inst : Nat) (s : State) : exec (.shadowCommit b inst) s = execShadowCommit b inst s := rfl

theorem shadowCommit_waits {s : State} {b : Block} {inst : Nat} (hstop : s.stopped 4 = false) (hpin : b ≠ .PIN)
    (hnone : s.waiting b inst = []) : Goes (.shadowCommit b inst) s s := by
  simp [Goes, exec_shadowCommit, execShadowCommit, hstop, hpin, hnone, done]

theorem shadowCommit_queues {s : State} {b : Block} {inst : Nat} (hstop : s.stopped 4 = false) (hpin : b ≠ .PIN)
    (hsome : s.waiting b inst ≠ []) : ∃ src, Goes (.shadowCommit b inst) s (s.later 9 src (.shadowCommit b inst)) := by
  obtain ⟨x, t, hwaits⟩ := List.exists_cons_of_ne_nil hsome
  simp only [Goes, exec_shadowCommit, execShadowCommit, hstop, hpin, hwaits, done, if_false, Bool.false_eq_true]
  exact ⟨_, rfl⟩

/-- Settles O38, by what the commit and its being moot do to the entries that wait. -/
theorem shadowsCommit : Obligations.ShadowsCommit := by
  unfold Obligations.ShadowsCommit
  refine ⟨fun s b inst hstop => ⟨fun hsome hpin => ?_, fun hnone hpin => shadowCommit_waits hstop hpin hnone⟩,
    fun s b inst hdbg hbase x hx => applyShadowCommit_spec hdbg hbase hx,
    fun s b inst src hcold x hx => discardMoot_commit_spec hcold src hx⟩
  obtain ⟨src, hgo⟩ := shadowCommit_queues hstop hpin hsome
  exact ⟨src, _, hgo, s.queues_later 9 src _⟩

end Sys2Proof.Machine
end
section
/-!
PROOFS. Homes after they are written, and the granules of a line as they are read and written (R353, R358–R363).
-/
namespace Sys2Proof.NMap
variable {α : Type}

/-- Dropping an entry that was just put in is dropping what stood there. -/
theorem erase_insert_self (m : NMap α) (k : Nat) (v : α) : erase (insert m k v) k = erase m k := by
  induction m with
  | nil => simp [insert, erase]
  | cons q t ih =>
    obtain ⟨j, w⟩ := q
    simp only [insert]
    split
    · simp [erase]
    · split
      · next hkj => simp [erase, hkj]
      · simp only [erase, ih]

end Sys2Proof.NMap
namespace Sys2Proof.Safety
open Sys2Proof.Machine

theorem OnlyGrans.refl (gs : List Nat) (s : State) : OnlyGrans gs s s := ⟨rfl, fun _ _ => rfl⟩

theorem OnlyGrans.trans {gs : List Nat} {s t u : State} (h : OnlyGrans gs s t) (h' : OnlyGrans gs t u) : OnlyGrans gs s u :=
  ⟨by rw [h'.1, h.1], fun g hg => (h'.2 g hg).trans (h.2 g hg)⟩

theorem OnlyGrans.mono {gs gs' : List Nat} {s t : State} (h : OnlyGrans gs s t) (hsub : gs ⊆ gs') : OnlyGrans gs' s t :=
  ⟨h.1, fun g hg => h.2 g fun hm => hg (hsub hm)⟩

/-- The granules that change are told from the memories alone. -/
theorem OnlyGrans.congr {gs : List Nat} {s t s' t' : State} (h : OnlyGrans gs s t) (hs : s'.mem = s.mem) (ht : t'.mem = t.mem) :
    OnlyGrans gs s' t' := by
  unfold OnlyGrans
  rw [hs, ht]
  exact h

end Sys2Proof.Safety
namespace Sys2Proof.Machine
open Sys2Proof.Safety

/-! ### Homes -/

theorem State.home_congr {s t : State} (h : t.homes = s.homes) (k : Nat) : t.home k = s.home k := by
  simp [State.home, h]

theorem State.home_onHome (s : State) (k j : Nat) (f : HomeSt → HomeSt) :
    (s.onHome k f).home j = if j = k then f (s.home k) else s.home j :=
  s.home_setHome k j _

@[simp] theorem State.home_onHome_self (s : State) (k : Nat) (f : HomeSt → HomeSt) : (s.onHome k f).home k = f (s.home k) := by
  simp [State.home_onHome]

theorem State.alters_onHome (s : State) (k : Nat) (f : HomeSt → HomeSt) : Alters [.homes] [] s (s.onHome k f) :=
  .of_regs (by simp [Same, State.onHome]) rfl

/-- Nothing changes but the home `k` and the parts listed. -/
def WithinHome (fs : List Comp) (k : Nat) (s t : State) : Prop := Same (.homes :: fs) s t ∧ ∀ j, j ≠ k → t.home j = s.home j

theorem WithinHome.refl (fs : List Comp) (k : Nat) (s : State) : WithinHome fs k s s := ⟨.refl _ s, fun _ _ => rfl⟩

theorem WithinHome.trans {fs : List Comp} {k : Nat} {s t u : State} (h : WithinHome fs k s t) (h' : WithinHome fs k t u) :
    WithinHome fs k s u :=
  ⟨h.1.trans h'.1, fun j hj => (h'.2 j hj).trans (h.2 j hj)⟩

theorem WithinHome.mono {fs fs' : List Comp} {k : Nat} {s t : State} (h : WithinHome fs k s t) (hsub : fs ⊆ fs') :
    WithinHome fs' k s t :=
  ⟨h.1.mono (List.cons_subset_cons _ hsub), h.2⟩

theorem WithinHome.of_same {fs : List Comp} {s t : State} (h : Same fs s t) (hfs : .homes ∉ fs) (k : Nat) : WithinHome fs k s t :=
  ⟨h.mono (List.subset_cons_self _ _), fun j _ => State.home_congr (same_iff.1 h .homes hfs) j⟩

theorem State.withinHome_onHome (s : State) (k : Nat) (f : HomeSt → HomeSt) : WithinHome [] k s (s.onHome k f) :=
  ⟨(s.alters_onHome k f).1, fun j hj => by rw [State.home_onHome, if_neg hj]⟩

theorem HomeSt.find_entry {hs : HomeSt} {ls key : Nat} {e : DirEntry} (h : hs.find ls = some (key, e)) :
    NMap.find? hs.dir key = some e := by
  unfold HomeSt.find at h
  dsimp only at h
  split at h
  · cases h
  · obtain ⟨e', hfind, heq⟩ := Option.map_eq_some_iff.1 h
    cases heq
    exact hfind

theorem HomeSt.find_congr {hs hs' : HomeSt} (h : ∀ j, NMap.find? hs'.dir j = NMap.find? hs.dir j) (ls : Nat) :
    hs'.find ls = hs.find ls := by
  simp [HomeSt.find, h]

/-- Writing an entry over itself changes no entry. -/
theorem HomeSt.find?_insert_entry {hs : HomeSt} {key : Nat} {e : DirEntry} (h : NMap.find? hs.dir key = some e) (j : Nat) :
    NMap.find? (NMap.insert hs.dir key e) j = NMap.find? hs.dir j := by
  rw [NMap.find?_insert]
  split
  · next hj => rw [hj, h]
  · rfl

/-- A home at which nothing waits that could go on: no request, and no PENDING line without an agent still to answer. -/
def HomeSt.Idle (hs : HomeSt) : Prop := hs.inbound = [] ∧ ∀ t ∈ hs.txns, t.wait ≠ []

theorem homeRun_of_idle {s : State} {k : Nat} (h : (s.home k).Idle) (fuel : Nat) : State.homeRun fuel k s = s := by
  obtain ⟨hin, htx⟩ := h
  cases fuel with
  | zero => rfl
  | succ fuel =>
    have hnone : (s.home k).txns.find? (fun t => t.wait.isEmpty) = none := by simpa using htx
    simp [State.homeRun, hnone, hin, State.serveFirst]

/-- An idle home is not moved on. -/
theorem State.pumpHome_of_idle {s : State} {k : Nat} (h : (s.home k).Idle) : s.pumpHome k = s := homeRun_of_idle h _

/-! ### Granules -/

@[simp] theorem length_rawBytes (m : MemSt) (g : Nat) : (rawBytes m g).length = 32 := by simp [rawBytes]

/-- A granule without an error reads as it stands. -/
theorem decodeGran_of_sound {m : MemSt} {g : Nat} (h : NMap.get [] m.err g = []) :
    decodeGran m g = some ⟨NMap.get .good m.gran g, rawBytes m g, false⟩ := by
  simp [decodeGran, h]

/-- A granule written with 32 bytes reads back as those bytes, or as zeros where it is not GOOD. -/
theorem decodeGran_putGran_full (s : State) (g : Nat) (st : GState) {bs : List Byte} (h : bs.length = 32) :
    decodeGran (s.putGran g st bs).mem g = some ⟨st, if st = .good then bs else List.replicate 32 0, false⟩ := by
  rw [decodeGran_putGran]
  congr 2
  refine List.ext_getElem (by split <;> simp [h]) fun i hi _ => ?_
  have hi' : i < bs.length := by simpa [h] using hi
  split
  · simp [List.getElem?_eq_getElem hi']
  · simp

theorem rawBytes_putGran_ne (s : State) {g j : Nat} (st : GState) (bs : List Byte) (h : j ≠ g) :
    rawBytes (s.putGran g st bs).mem j = rawBytes s.mem j := by
  unfold rawBytes
  refine List.map_congr_left fun i hi => ?_
  have hi' : i < 32 := List.mem_range.1 hi
  simp only [State.putGran, rawByte_fold, List.mem_range]
  have hout : 32 * j + i < 32 * g ∨ ¬ 32 * j + i - 32 * g < 32 := by omega
  rcases hout with hlow | hhigh
  · rw [if_pos hlow]
  · rw [if_neg hhigh, ite_self]

/-- Writing a granule leaves what every other one reads as. -/
theorem decodeGran_putGran_ne (s : State) {g j : Nat} (st : GState) (bs : List Byte) (h : j ≠ g) :
    decodeGran (s.putGran g st bs).mem j = decodeGran s.mem j := by
  have herr : NMap.get [] (s.putGran g st bs).mem.err j = NMap.get [] s.mem.err j := by
    simp [State.putGran, NMap.get, NMap.find?_erase_ne _ h]
  have hgran : NMap.get .good (s.putGran g st bs).mem.gran j = NMap.get .good s.mem.gran j := NMap.get_set_ne _ _ _ h
  unfold decodeGran
  rw [herr, hgran, rawBytes_putGran_ne s st bs h]

theorem State.alters_putGran (s : State) (g : Nat) (st : GState) (bs : List Byte) : Alters [.mem] [] s (s.putGran g st bs) :=
  .of_regs (by simp [Same, State.putGran]) rfl

theorem onlyGrans_putGran (s : State) (g : Nat) (st : GState) (bs : List Byte) : OnlyGrans [g] s (s.putGran g st bs) :=
  ⟨rfl, fun _ hj => decodeGran_putGran_ne s st bs (List.ne_of_not_mem_cons hj)⟩

/-! ### Lines -/

/-- The bytes of a line lie in one channel (R353). -/
theorem State.retiredAt_line (s : State) {o o' : Nat} (h : o / 128 = o' / 128) : s.retiredAt o = s.retiredAt o' := by
  have hctl : ctlOf o = ctlOf o' := by unfold ctlOf stackBytes; omega
  have hls : lsOfOffset o = lsOfOffset o' := by unfold lsOfOffset stackBytes; omega
  unfold State.retiredAt
  rw [hctl, hls]

theorem State.retiredAt_congr {s t : State} (h : t.regs = s.regs) (o : Nat) : t.retiredAt o = s.retiredAt o := by
  simp [State.retiredAt, State.chRetired, State.reg_congr h]

theorem sound_congr {s t : State} (hmem : t.mem = s.mem) (hregs : t.regs = s.regs) {g : Nat} (h : Sound s g) : Sound t g := by
  unfold Sound at h ⊢
  rwa [hmem, State.retiredAt_congr hregs]

theorem not_retired_of_sound {s : State} {o : Nat} (h : Sound s (o / 32)) : s.retiredAt o = false :=
  (s.retiredAt_line (by omega)).trans h.2

theorem readGran_of_sound {s : State} {g : Nat} (h : Sound s g) (src : MemSrc) :
    s.readGran g src = (⟨NMap.get .good s.mem.gran g, rawBytes s.mem g, false⟩, s) := by
  simp [State.readGran, decodeGran_of_sound h.1]

/-- A line without an error reads as it stands, and the read changes nothing. -/
theorem readLine_of_sound {s : State} {o : Nat} (h : ∀ i < 4, Sound s (o / 128 * 4 + i)) (src : MemSrc) :
    s.readLine o src = (memLine s.mem o, s) := by
  have hret : s.retiredAt o = false := (s.retiredAt_line (by omega)).trans (h 0 (by decide)).2
  have h0 := readGran_of_sound (h 0 (by decide)) src
  have h1 := readGran_of_sound (h 1 (by decide)) src
  have h2 := readGran_of_sound (h 2 (by decide)) src
  have h3 := readGran_of_sound (h 3 (by decide)) src
  rw [Nat.add_zero] at h0
  simp [State.readLine, hret, h0, h1, h2, h3, memLine, List.range_succ]

theorem State.alters_writeLine (s : State) {o : Nat} (h : s.retiredAt o = false) (d : LineData) :
    Alters [.mem] [] s (s.writeLine o d) := by
  unfold State.writeLine
  rw [if_neg (by simp [h])]
  exact Alters.foldState (fun s i => s.alters_putGran _ _ _) _ s

/-- A line that is written reads back granule by granule, and every other granule stays. -/
theorem writeLine_spec (s : State) {o : Nat} (h : s.retiredAt o = false) {d : LineData} (hd : d.bytes.length = 128) :
    OnlyGrans ((List.range 4).map (o / 128 * 4 + ·)) s (s.writeLine o d)
    ∧ ∀ i < 4, decodeGran (s.writeLine o d).mem (o / 128 * 4 + i) = some ⟨d.gran.getD i .good,
        if d.gran.getD i .good = .good then (d.bytes.drop (32 * i)).take 32 else List.replicate 32 0, false⟩ := by
  unfold State.writeLine
  rw [if_neg (by simp [h])]
  refine foldState_range (p := fun n t => OnlyGrans ((List.range n).map (o / 128 * 4 + ·)) s t
    ∧ ∀ i < n, decodeGran t.mem (o / 128 * 4 + i) = some ⟨d.gran.getD i .good,
        if d.gran.getD i .good = .good then (d.bytes.drop (32 * i)).take 32 else List.replicate 32 0, false⟩)
    _ s ⟨.refl _ s, fun i hi => absurd hi (Nat.not_lt_zero i)⟩ 4 fun n hn t ht => ⟨?_, fun i hi => ?_⟩
  · refine (ht.1.mono ?_).trans ((onlyGrans_putGran t _ _ _).mono ?_) <;> simp [List.range_succ]
  · rcases Nat.lt_succ_iff_lt_or_eq.1 hi with hlt | rfl
    · rw [decodeGran_putGran_ne _ _ _ (by omega), ht.2 i hlt]
    · exact decodeGran_putGran_full _ _ _ (by simp [hd]; omega)

/-! ### Writes and atomics within one granule -/

theorem length_overlay {old new : List Byte} {at' : Nat} (h : at' + new.length ≤ old.length) :
    (overlay old at' new).length = old.length := by
  simp [overlay]; omega

theorem overlay_whole {old new : List Byte} {at' : Nat} (h : at' + new.length ≤ old.length) (hn : new.length = old.length) :
    overlay old at' new = new := by
  obtain rfl : at' = 0 := by omega
  simp [overlay, hn]

/-- Bytes within one granule are one piece. -/
theorem granPieces_within {o : Nat} {bs : List Byte} (hne : bs ≠ []) (hfit : o % 32 + bs.length ≤ 32) :
    granPieces (bs.length + 1) o bs = [(o, bs)] := by
  have hlen : bs.length ≤ 32 - o % 32 := by omega
  simp [granPieces, hne, hlen]

/-- A write of GOOD bytes within a sound GOOD granule overlays them (R363). -/
theorem writeGran_good {s : State} {o : Nat} (hs : Sound s (o / 32)) (hgood : NMap.get .good s.mem.gran (o / 32) = .good)
    {bs : List Byte} (hfit : o % 32 + bs.length ≤ 32) :
    s.writeGran o bs .good = s.putGran (o / 32) .good (overlay (rawBytes s.mem (o / 32)) (o % 32) bs) := by
  unfold State.writeGran
  split
  · next hfull => rw [overlay_whole (by simpa using hfit) (by simpa using hfull)]
  · simp [decodeGran_of_sound hs.1, hgood]

theorem writeBytes_good {s : State} {o : Nat} (hs : Sound s (o / 32)) (hgood : NMap.get .good s.mem.gran (o / 32) = .good)
    {bs : List Byte} (hne : bs ≠ []) (hfit : o % 32 + bs.length ≤ 32) :
    s.writeBytes o bs .good = s.putGran (o / 32) .good (overlay (rawBytes s.mem (o / 32)) (o % 32) bs) := by
  rw [← writeGran_good hs hgood hfit, State.writeBytes, if_neg (by simp [not_retired_of_sound hs]), granPieces_within hne hfit]
  rfl

/-- An atomic within a sound GOOD granule returns its old bytes and writes its result (R293). -/
theorem memAmo_good {s : State} {o : Nat} {p : Part} {op : AmoOp} {typ x new : Nat} (hs : Sound s (o / 32))
    (hgood : NMap.get .good s.mem.gran (o / 32) = .good) (hop : p.op = .amo op typ x new) (hfit : o % 32 + p.size ≤ 32) :
    s.memAmo o p = ({ bytes := ((rawBytes s.mem (o / 32)).drop (o % 32)).take p.size, gran := .good },
      s.putGran (o / 32) .good (overlay (rawBytes s.mem (o / 32)) (o % 32) (leBytes p.size (amoValue op ((Ty.ofCode typ).getD .u32)
        (leNat (((rawBytes s.mem (o / 32)).drop (o % 32)).take p.size)) x new)))) := by
  unfold State.memAmo
  rw [if_neg (by simp [not_retired_of_sound hs]), hop]
  simp only [readGran_of_sound hs, hgood, if_true]
  rw [writeGran_good hs hgood (by simpa using hfit)]

/-- The granule that a GOOD overlay wrote. -/
theorem decodeGran_overlay (s : State) (g : Nat) {at' : Nat} {bs : List Byte} (hfit : at' + bs.length ≤ 32) :
    decodeGran (s.putGran g .good (overlay (rawBytes s.mem g) at' bs)).mem g
      = some ⟨.good, overlay (rawBytes s.mem g) at' bs, false⟩ := by
  rw [decodeGran_putGran_full _ _ _ (by simp [length_overlay, hfit]), if_pos rfl]

end Sys2Proof.Machine
end
section
/-!
PROOFS. A request arrives at an idle home and is served at once (R331).
-/
namespace Sys2Proof.Safety
open Sys2Proof.Machine

theorem Ends.imp {c : Instr} {s : State} {p q : State → Prop} (h : Ends c s p) (hpq : ∀ t, p t → q t) : Ends c s q := by
  obtain ⟨t, hgo, ht⟩ := h
  exact ⟨t, hgo, hpq t ht⟩

theorem Answered.congr {s t u : State} {m r : Msg} {tile : Option Nat} (h : Answered s m tile r t) (hmesh : u.mesh = t.mesh)
    (hxmit : u.xmit = t.xmit) : Answered s m tile r u :=
  ⟨hmesh.trans h.1, hxmit.trans h.2⟩

end Sys2Proof.Safety
namespace Sys2Proof.Machine
open Sys2Proof.Safety

/-! ### Messages -/

theorem State.sendTo_mesh (s : State) (tile : Option Nat) (m : Msg) :
    (s.sendTo tile m).mesh = s.mesh ++ if tile = none then [m] else [] := by
  cases tile <;> simp [State.sendTo]

theorem State.sendTo_xmit (s : State) (tile : Option Nat) (m : Msg) :
    (s.sendTo tile m).xmit = s.xmit ++ match tile with
      | none => []
      | some d => [(d, m)] := by
  cases tile <;> simp [State.sendTo]

theorem State.alters_sendTo (s : State) (tile : Option Nat) (m : Msg) : Alters [.mesh, .xmit] [] s (s.sendTo tile m) :=
  .of_regs (by simp [Same]) (by simp)

/-- A message is taken off the mesh, and a state with the same messages otherwise sends the answer. -/
theorem answered_sendTo {s x : State} {m : Msg} (hmesh : x.mesh = dropFirst m s.mesh) (hxmit : x.xmit = s.xmit)
    (tile : Option Nat) (r : Msg) : Answered s m tile r (x.sendTo tile r) :=
  ⟨by rw [State.sendTo_mesh, hmesh], by cases tile <;> simp [State.sendTo_xmit, hxmit]⟩

/-! ### The request is accepted -/

/-- A command that hands a request to its home. -/
def Requests (c : Instr) (m : Msg) : Prop :=
  ∃ ok : MsgKind → Bool, ok m.kind = true ∧ ∀ s, exec c s = .next (receiveAtHome m ok s)

/-- The request has been taken off the mesh and counted at its home, which then is `hs`. -/
def Accepted (s : State) (m : Msg) (k : Nat) (hs : HomeSt) (x : State) : Prop :=
  Alters [.mesh, .homes, .mgc] [] s x ∧ x.mesh = dropFirst m s.mesh ∧ x.mgc = (s.issue 1 k).mgc ∧ x.home k = hs
    ∧ ∀ j, j ≠ k → x.home j = s.home j

theorem Accepted.onHome {s x : State} {m : Msg} {k : Nat} {hs : HomeSt} (hx : Accepted s m k hs x) (f : HomeSt → HomeSt) :
    Accepted s m k (f hs) (x.onHome k f) := by
  obtain ⟨hsame, hmesh, hmgc, hk, hne⟩ := hx
  refine ⟨hsame.trans ((x.alters_onHome k f).mono (by decide) (by decide)), hmesh, hmgc, by rw [State.home_onHome_self, hk], fun j hj => ?_⟩
  rw [State.home_onHome, if_neg hj, hne j hj]

theorem Accepted.home {s x : State} {m : Msg} {k : Nat} {hs : HomeSt} (hx : Accepted s m k hs x) : x.home k = hs := by
  obtain ⟨-, -, -, hk, -⟩ := hx
  exact hk

/-- A request as its home keeps it: with the time at which it arrived (R350). -/
def arriving (s : State) (m : Msg) : Msg := { m with arrived := s.time.now }

@[simp] theorem arriving_line (s : State) (m : Msg) : (arriving s m).line = m.line := rfl

/-- The entry of a line, if it has one, is first reclaimed from dead agents (R340). -/
def State.reclaimed (s : State) (k ls : Nat) : State :=
  match (s.home k).find ls with
  | some (key, e) => s.reclaimEntry k key e
  | none => s

theorem HomeSt.not_pending {hs : HomeSt} (h : hs.txns = []) (ls : Nat) : hs.isPending ls = false := by
  simp [HomeSt.isPending, h]

/-- A single request that nothing keeps waiting is the one that is served. -/
theorem serveFirst_single {s : State} {k : Nat} {m : Msg} (htx : (s.home k).txns = [])
    (hheld : s.heldByRetire k (lsOf m.line) = false) {x : State}
    (hx : x = s.onHome k fun hs => { hs with inbound := dropFirst m hs.inbound })
    (hfree : ((x.reclaimed k (lsOf m.line)).home k).isPending (lsOf m.line) = false) :
    s.serveFirst k [m] [] = (x.reclaimed k (lsOf m.line)).serve k m := by
  subst hx
  unfold State.reclaimed at hfree ⊢
  cases hfind : ((s.onHome k fun hs => { hs with inbound := dropFirst m hs.inbound }).home k).find (lsOf m.line) with
  | none =>
    simp only [State.serveFirst, HomeSt.not_pending htx, hheld, hfind]
    cases (s.onHome k fun hs => { hs with inbound := dropFirst m hs.inbound }).serve k m <;> rfl
  | some x =>
    obtain ⟨key, e⟩ := x
    simp only [hfind] at hfree
    simp only [State.serveFirst, HomeSt.not_pending htx, hheld, hfind, hfree]
    cases ((s.onHome k fun hs => { hs with inbound := dropFirst m hs.inbound }).reclaimEntry k key e).serve k m <;> rfl

/-- The run of a home whose next request is served. -/
theorem pumpHome_of_serve {s y : State} {k : Nat} (htx : (s.home k).txns = [])
    (hserve : s.serveFirst k (s.home k).inbound [] = some y) (hidle : (y.home k).Idle) : s.pumpHome k = y := by
  unfold State.pumpHome State.homeRun
  simp only [htx, List.find?_nil, hserve]
  exact homeRun_of_idle hidle _

/-- A request that its home can serve at once is accepted, and the answer of `serve` is the answer of the arrival. -/
theorem receive_accepted {s : State} {m : Msg} {k : Nat} {ok : MsgKind → Bool} (hat : AtHome s m k) (hkind : ok m.kind = true)
    {sig : Bool} (hsig : isSignalMsg m = sig) : ∃ x, Accepted s m k (s.home k) x ∧
      ∀ y, ((x.reclaimed k (lsOf m.line)).home k).isPending (lsOf m.line) = false →
        (x.reclaimed k (lsOf m.line)).serve k (arriving s m) = some y → (y.home k).Idle →
        receiveAtHome m ok s sig = y := by
  obtain ⟨hhome, hk, hrec, hready, hin, htx, hretire, hdead, -, hpop⟩ := hat
  let m' := arriving s m
  let a := ((s.takeMsg m).onHome k fun hs => { hs with inbound := hs.inbound ++ [m'] }).issue 1 k
  have htake : ∀ j, (s.takeMsg m).home j = s.home j := State.home_congr rfl
  have ha : ∀ j, a.home j = if j = k then { s.home k with inbound := [m'] } else s.home j := fun j => by
    rw [State.home_congr (State.issue_homes _ _ _ _) j, State.home_onHome, htake k, htake j, hin]
    rfl
  have hak : a.home k = { s.home k with inbound := [m'] } := (ha k).trans (if_pos rfl)
  let x := a.onHome k fun hs => { hs with inbound := dropFirst m' hs.inbound }
  have hsame : Alters [.mesh, .homes, .mgc] [] s x :=
    .of_regs (by simp [Same, x, a, State.onHome]) (by simp [x, a, State.onHome])
  refine ⟨x, ⟨hsame, ?_, ?_, ?_, fun j hj => ?_⟩, fun y hfree hserve hidle => ?_⟩
  · simp [x, a, State.onHome, State.takeMsg]
  · simp [x, a, State.onHome, State.issue]
  · simp [x, hak, dropFirst, ← hin]
  · rw [State.home_onHome, if_neg hj, ha, if_neg hj]
  · have harrives : receiveAtHome m ok s sig = a.pumpHome k := by
      have hroom : (s.home k).hasRoom m.kind = true := by
        simp only [HomeSt.hasRoom, hin, htx]
        split <;> rfl
      have hlive : s.isDead m.agent = false := by simp [State.isDead, hdead]
      have hlive' : (s.takeMsg m).isDead m.agent = false := hlive
      unfold receiveAtHome
      simp [hhome, hkind, hsig, hrec, hready, hroom, hpop, hlive', Nat.not_le.2 hk, a, m', arriving]
    have htxa : (a.home k).txns = [] := by rw [hak]; exact htx
    have hheld : a.heldByRetire k (lsOf m'.line) = false := by
      simp [State.heldByRetire, a, State.onHome, hretire]
    rw [harrives]
    refine pumpHome_of_serve htxa ?_ hidle
    rw [hak]
    exact (serveFirst_single htxa hheld rfl hfree).trans hserve

section
variable {s : State} {m : Msg} {k : Nat} {c : Instr} {p : State → Prop}

/-- What an arriving request does, by what serving it does. -/
theorem ends_of_serve (hc : Requests c m) (hat : AtHome s m k) (hsig : isSignalMsg m = false)
    (h : ∀ x, Accepted s m k (s.home k) x → ((x.reclaimed k (lsOf m.line)).home k).isPending (lsOf m.line) = false ∧
      ∃ y, (x.reclaimed k (lsOf m.line)).serve k (arriving s m) = some y ∧ (y.home k).Idle ∧ p y) :
    Ends c s p := by
  obtain ⟨ok, hkind, hexec⟩ := hc
  obtain ⟨x, hx, hreceive⟩ := receive_accepted hat hkind hsig
  obtain ⟨hfree, y, hserve, hidle, hy⟩ := h x hx
  exact ⟨y, by rw [hexec, hreceive y hfree hserve hidle], hy⟩

/-- A request for a line with no entry. -/
theorem ends_of_serve_fresh (hc : Requests c m) (hat : AtHome s m k) (hsig : isSignalMsg m = false)
    (hfind : (s.home k).find (lsOf m.line) = none)
    (h : ∀ x, Accepted s m k (s.home k) x → ∃ y, x.serve k (arriving s m) = some y ∧ (y.home k).Idle ∧ p y) :
    Ends c s p := by
  refine ends_of_serve hc hat hsig fun x hx => ?_
  obtain ⟨-, -, -, -, -, htx, -⟩ := hat
  have hhome : x.home k = s.home k := hx.home
  have hsame : x.reclaimed k (lsOf m.line) = x := by simp [State.reclaimed, hhome, hfind]
  rw [hsame, hhome]
  exact ⟨HomeSt.not_pending htx _, h x hx⟩

/-- The entry of a line that one living agent holds alone. -/
def heldAlone (ls : Nat) (a : Agent) : DirEntry := { ls := ls, st := .excl, owner := some a }

/-- Reclamation leaves the entry of a living owner as it is. -/
theorem reclaimEntry_heldAlone {x : State} {key ls : Nat} {a : Agent} (htx : (x.home k).txns = []) (hdead : x.dead = [])
    (hreclaim : (x.home k).reclaim = []) : x.reclaimEntry k key (heldAlone ls a) = x.setEntry k key (heldAlone ls a) := by
  have hlive : ∀ b, x.deadOf k b = none := fun b => by simp [State.deadOf, hdead, hreclaim]
  have hnone : natOfBits 64 (fun _ => false) = 0 := by decide
  unfold State.reclaimEntry
  simp [HomeSt.not_pending htx, hlive, heldAlone, hnone]

/-- A home after it has written the entry of a line that one agent holds alone. -/
def HomeSt.holds (hs : HomeSt) (key ls : Nat) (a : Agent) : HomeSt := { hs with dir := NMap.insert hs.dir key (heldAlone ls a) }

/-- A request for a line that a living agent holds alone: its entry, reclaimed, stands as it stood. -/
theorem ends_of_serve_held {key : Nat} {a : Agent} (hc : Requests c m) (hat : AtHome s m k) (hsig : isSignalMsg m = false)
    (hfind : (s.home k).find (lsOf m.line) = some (key, heldAlone (lsOf m.line) a))
    (h : ∀ x, Accepted s m k ((s.home k).holds key (lsOf m.line) a) x →
      (x.home k).find (lsOf m.line) = some (key, heldAlone (lsOf m.line) a) →
      ∃ y, x.serve k (arriving s m) = some y ∧ (y.home k).Idle ∧ p y) : Ends c s p := by
  refine ends_of_serve hc hat hsig fun x hx => ?_
  obtain ⟨-, -, -, -, -, htx, -, hdead, hreclaim, -⟩ := hat
  have hsame : x.reclaimed k (lsOf m.line) = x.onHome k (HomeSt.holds · key (lsOf m.line) a) := by
    have hdead' : x.dead = s.dead := hx.1.agree .dead (by decide)
    simp only [State.reclaimed, hx.home, hfind]
    exact reclaimEntry_heldAlone (by rw [hx.home, htx]) (hdead'.trans hdead) (by rw [hx.home, hreclaim])
  have hx' := hx.onHome (HomeSt.holds · key (lsOf m.line) a)
  rw [hsame]
  refine ⟨HomeSt.not_pending (by rw [hx'.home]; exact htx) _, h _ hx' ?_⟩
  rw [hx'.home, ← hfind]
  exact HomeSt.find_congr (HomeSt.find?_insert_entry (HomeSt.find_entry hfind)) _

end

end Sys2Proof.Machine
end
section
/-!
PROOFS. What a home does with each request that it serves at once: reads, writes and atomics of a line with no entry, and the
line of one owner (R284, R293, R322, R327, R331, R363).
-/
namespace Sys2Proof.Machine
open Sys2Proof.Safety

/-! ### Serving -/

section
variable {s : State} {m : Msg} {k key : Nat}

theorem serve_grants (hkind : m.kind = .rdS ∨ ∃ held, m.kind = .rdX held) (hfind : (s.home k).find (lsOf m.line) = none)
    (hplace : (s.home k).place (lsOf m.line) = some key) (hfree : NMap.find? (s.home k).dir key = none) :
    s.serve k m = some (s.grantFresh k key m) := by
  have hfresh : s.fromUncached k m = some (s.grantFresh k key m) := by simp only [State.fromUncached, hplace, hfree]
  rcases hkind with hkind | ⟨held, hkind⟩ <;> simp only [State.serve, hkind, hfind, hfresh]

theorem serve_stale (hkind : m.kind = .wb ∨ m.kind = .ce) (hfind : (s.home k).find (lsOf m.line) = none) :
    s.serve k m = some ((s.count .MEM_STALE_WB_CNT k).reply m .ack) := by
  rcases hkind with hkind | hkind <;> simp only [State.serve, hkind, hfind]

theorem serve_ncRd (hkind : m.kind = .ncRd) (hfind : (s.home k).find (lsOf m.line) = none) :
    s.serve k m = some (readReply (s.readLine (offsetOfLs k (lsOf m.line))).2 m (s.readLine (offsetOfLs k (lsOf m.line))).1) := by
  simp only [State.serve, hkind, hfind, Option.bind_none]

theorem serve_stRd (hkind : m.kind = .stRd) (hmode : m.cmode = 0) :
    s.serve k m = some ((s.readLine (offsetOfLs k (lsOf m.line))).2.reply m (.data .staged)
      (some (s.readLine (offsetOfLs k (lsOf m.line))).1)) := by
  simp only [State.serve, hkind, State.stagedRead, hmode, if_true]

theorem serve_write (hkind : m.kind = .ncWr ∨ m.kind = .stWr) (hfind : (s.home k).find (lsOf m.line) = none) :
    s.serve k m = some ((s.performWrite k m).reply m .ack) := by
  rcases hkind with hkind | hkind <;> simp only [State.serve, hkind, hfind]

theorem serve_atomic (hkind : m.kind = .ncAtom) (hfind : (s.home k).find (lsOf m.line) = none) :
    s.serve k m = some (s.performAtomic k m) := by
  simp only [State.serve, hkind, hfind]

theorem readReply_part {p : Part} (hpart : m.part = some p) (d : LineData) : readReply s m d =
    s.reply m (.data .copy) (if p.size = 128 then some d else none) (some (partOf d (p.addr % 128) p.size)) := by
  simp only [readReply, hpart]

theorem performWrite_store {p : Part} {bs : List Byte} (hmode : m.cmode = 0) (hcarry : m.carry = .good) (hpart : m.part = some p)
    (hop : p.op = .store bs) : s.performWrite k m = s.writeBytes (offsetOf p.addr) bs .good := by
  simp only [State.performWrite, hpart, hop, hmode, hcarry, if_true]

theorem performAtomic_amo {p : Part} {op : AmoOp} {typ v new : Nat} (hmode : m.cmode = 0) (hpart : m.part = some p)
    (hop : p.op = .amo op typ v new) : s.performAtomic k m =
      (s.memAmo (offsetOf p.addr) p).2.reply m .atomRsp none (some (s.memAmo (offsetOf p.addr) p).1) := by
  simp only [State.performAtomic, hpart, hop, hmode, if_true]

variable {a : Agent} (hfind : (s.home k).find (lsOf m.line) = some (key, heldAlone (lsOf m.line) a))
include hfind

theorem State.freeEntry_found : s.freeEntry k (lsOf m.line) = s.onHome k fun hs => { hs with dir := NMap.erase hs.dir key } := by
  simp only [State.freeEntry, hfind]

theorem serve_rdS_held (hkind : m.kind = .rdS) (hne : a ≠ m.agent) :
    s.serve k m = some ((s.snoop k (lsOf m.line) .snpS a).addTxn k
      { ls := lsOf m.line, req := m, goal := .request, wait := [a], due := s.snoopDue k }) := by
  simp only [State.serve, hkind, hfind]
  simp [heldAlone, hne]

theorem serve_ce_held (hkind : m.kind = .ce) (ha : a = m.agent) (hlive : s.isDead m.agent = false) :
    s.serve k m = some ((s.onHome k fun hs => { hs with dir := NMap.erase hs.dir key }).reply m .ack) := by
  simp only [State.serve, hkind, hfind]
  simp [heldAlone, ha, hlive, State.freeEntry_found hfind]

theorem serve_wb_held (hkind : m.kind = .wb) (ha : a = m.agent) (hlive : s.isDead m.agent = false) {d : LineData}
    (hdata : m.data = some d) (hret : s.retiredAt (offsetOfLs k (lsOf m.line)) = false) :
    s.serve k m = some (((s.writeLine (offsetOfLs k (lsOf m.line)) d).onHome k fun hs =>
      { hs with dir := NMap.erase hs.dir key }).reply m .ack) := by
  have hhome : (s.writeLine (offsetOfLs k (lsOf m.line)) d).home k = s.home k :=
    State.home_congr ((s.alters_writeLine hret d).agree .homes (by decide)) k
  have hfree := State.freeEntry_found (s := s.writeLine (offsetOfLs k (lsOf m.line)) d) (hhome ▸ hfind)
  simp only [State.serve, hkind, hfind, hdata]
  simp [heldAlone, ha, hlive, hfree]

end

/-! ### Answers -/

section
variable {s x : State} {m : Msg} {k : Nat} {hs : HomeSt}

/-- What a home does in between and its answer, as the requests' statements have them. -/
theorem Accepted.answers (hx : Accepted s m k hs x) {fs : List Comp} {z : State} (hz : WithinHome fs k x z)
    (hfs : .mesh ∉ fs ∧ .xmit ∉ fs ∧ .mgc ∉ fs) (tile : Option Nat) (r : Msg) :
    Answered s m tile r (z.sendTo tile r) ∧ OnlyHome fs k s (z.sendTo tile r) := by
  obtain ⟨hsame, hmesh, hmgc, -, hhome⟩ := hx
  have hzmesh : z.mesh = x.mesh := same_iff.1 hz.1 .mesh (by simp [hfs.1])
  have hzxmit : z.xmit = x.xmit := same_iff.1 hz.1 .xmit (by simp [hfs.2.1])
  have hzmgc : z.mgc = x.mgc := same_iff.1 hz.1 .mgc (by simp [hfs.2.2])
  have hxmit : x.xmit = s.xmit := hsame.agree .xmit (by decide)
  refine ⟨answered_sendTo (hzmesh.trans hmesh) (hzxmit.trans hxmit) tile r, ?_, ?_, fun j hj => ?_⟩
  · refine ((hsame.1.mono ?_).trans (hz.1.mono ?_)).trans ((z.alters_sendTo tile r).1.mono ?_) <;>
      intro c hc <;> simp only [List.mem_cons, List.mem_append, List.not_mem_nil, or_false] at hc ⊢ <;> tauto
  · rw [State.sendTo_mgc, hzmgc, hmgc]
  · rw [State.home_congr (State.sendTo_homes _ _ _) j, hz.2 j hj, hhome j hj]

theorem Accepted.mem (hx : Accepted s m k hs x) : x.mem = s.mem := hx.1.agree .mem (by decide)

theorem Accepted.regs (hx : Accepted s m k hs x) : x.regs = s.regs := hx.1.agree .regs (by decide)

theorem Accepted.time (hx : Accepted s m k hs x) : x.time = s.time := hx.1.agree .time (by decide)

theorem Accepted.isDead (hx : Accepted s m k hs x) (a : Agent) : x.isDead a = s.isDead a := by
  have hdead : x.dead = s.dead := hx.1.agree .dead (by decide)
  rw [State.isDead, State.isDead, hdead]

theorem Accepted.sound (hx : Accepted s m k hs x) {g : Nat} (h : Sound s g) : Sound x g := sound_congr hx.mem hx.regs h

theorem Accepted.readLine (hx : Accepted s m k hs x) {o : Nat} (h : ∀ i < 4, Sound s (o / 128 * 4 + i)) :
    x.readLine o = (memLine s.mem o, x) := by
  rw [readLine_of_sound fun i hi => hx.sound (h i hi), hx.mem]

end

end Sys2Proof.Machine
end
section
/-!
PROOFS. The requests of R331 at an idle home (R284, R293, R322, R327, R363).
-/
namespace Sys2Proof.Safety
open Sys2Proof.Machine

theorem AtHome.waits_for_none {s : State} {m : Msg} {k : Nat} (hat : AtHome s m k) :
    (s.home k).inbound = [] ∧ (s.home k).txns = [] := by
  obtain ⟨-, -, -, -, hin, htx, -⟩ := hat
  exact ⟨hin, htx⟩

theorem AtHome.none_dead {s : State} {m : Msg} {k : Nat} (hat : AtHome s m k) (a : Agent) : s.isDead a = false := by
  obtain ⟨-, -, -, -, -, -, -, hdead, -⟩ := hat
  simp [State.isDead, hdead]

theorem OnlyHome.onHome {fs : List Comp} {k : Nat} {s t : State} (h : OnlyHome fs k s t) (f : HomeSt → HomeSt) :
    OnlyHome fs k s (t.onHome k f) := by
  obtain ⟨hsame, hmgc, hhome⟩ := h
  refine ⟨hsame.trans ((t.alters_onHome k f).1.mono (by simp)), hmgc, fun j hj => ?_⟩
  rw [State.home_onHome, if_neg hj, hhome j hj]

end Sys2Proof.Safety
namespace Sys2Proof.Machine
open Sys2Proof.Safety

theorem requests_rds {m : Msg} (h : m.kind = .rdS) : Requests (.rds m) m := ⟨(· == .rdS), by simp [h], fun _ => rfl⟩

theorem requests_rdx {m : Msg} {held : Bool} (h : m.kind = .rdX held) : Requests (.rdx m) m := ⟨isRdX, by simp [h, isRdX], fun _ => rfl⟩

theorem requests_wb {m : Msg} (h : m.kind = .wb) : Requests (.wb m) m := ⟨(· == .wb), by simp [h], fun _ => rfl⟩

theorem requests_ce {m : Msg} (h : m.kind = .ce) : Requests (.ce m) m := ⟨(· == .ce), by simp [h], fun _ => rfl⟩

theorem requests_ncrd {m : Msg} (h : m.kind = .ncRd) : Requests (.ncrd m) m := ⟨(· == .ncRd), by simp [h], fun _ => rfl⟩

theorem requests_strd {m : Msg} (h : m.kind = .stRd) : Requests (.strd m) m := ⟨(· == .stRd), by simp [h], fun _ => rfl⟩

theorem requests_ncwr {m : Msg} (h : m.kind = .ncWr) : Requests (.ncwr m) m := ⟨(· == .ncWr), by simp [h], fun _ => rfl⟩

theorem requests_stwr {m : Msg} (h : m.kind = .stWr) : Requests (.stwr m) m := ⟨(· == .stWr), by simp [h], fun _ => rfl⟩

theorem requests_ncatom {m : Msg} (h : m.kind = .ncAtom) : Requests (.ncatom m) m := ⟨(· == .ncAtom), by simp [h], fun _ => rfl⟩

section
variable {s : State} {m : Msg} {k key : Nat} {c : Instr}

/-- A request that is answered at once: its home comes to `z` and sends the answer, and nothing comes to wait. -/
theorem Accepted.completes {x z : State} {fs : List Comp} {h₀ hs : HomeSt} (hx : Accepted s m k h₀ x) (hat : AtHome s m k)
    (hz : WithinHome fs k x z) (hfs : .mesh ∉ fs ∧ .xmit ∉ fs ∧ .mgc ∉ fs) (hhome : z.home k = hs)
    (hin : hs.inbound = (s.home k).inbound) (htx : hs.txns = (s.home k).txns) (tile : Option Nat) (r : Msg) :
    ((z.sendTo tile r).home k).Idle ∧ Answered s m tile r (z.sendTo tile r) ∧ OnlyHome fs k s (z.sendTo tile r)
      ∧ (z.sendTo tile r).home k = hs := by
  obtain ⟨hans, honly⟩ := hx.answers hz hfs tile r
  have hy : (z.sendTo tile r).home k = hs := (State.home_congr (State.sendTo_homes _ _ _) k).trans hhome
  refine ⟨?_, hans, honly, hy⟩
  rw [hy]
  exact ⟨hin.trans hat.waits_for_none.1, by simp [htx, hat.waits_for_none.2]⟩

/-! ### A line with no entry -/

section
variable (hat : AtHome s m k) (hsig : isSignalMsg m = false) (hfind : (s.home k).find (lsOf m.line) = none) (hc : Requests c m)
include hat hsig hfind hc

theorem ends_grant (hkind : m.kind = .rdS ∨ ∃ held, m.kind = .rdX held) (hplace : (s.home k).place (lsOf m.line) = some key)
    (hfree : NMap.find? (s.home k).dir key = none)
    (hsound : ∀ i < 4, Sound s (offsetOfLs k (lsOf m.line) / 128 * 4 + i)) : Ends c s fun t =>
      Answered s m m.agent.tile { answerOf m (.data .e) with data := some (memLine s.mem (offsetOfLs k (lsOf m.line))) } t
      ∧ OnlyHome [] k s t
      ∧ t.home k = ({ s.home k with dir := NMap.insert (s.home k).dir key (heldAlone (lsOf m.line) m.agent) } : HomeSt).touch key := by
  refine ends_of_serve_fresh hc hat hsig hfind fun x hx => ?_
  have hhome : x.home k = s.home k := hx.home
  let hs : HomeSt := { s.home k with dir := NMap.insert (s.home k).dir key (heldAlone (lsOf m.line) m.agent) }
  let z := (x.setEntry k key (heldAlone (lsOf m.line) m.agent)).onHome k (·.touch key)
  have hz : WithinHome [] k x z := (x.withinHome_onHome k _).trans (State.withinHome_onHome _ k _)
  have hzk : z.home k = hs.touch key := by simp [z, hs, State.setEntry, hhome]
  have hserve : x.serve k (arriving s m) = some (z.reply (arriving s m) (.data .e) (some (memLine s.mem (offsetOfLs k (lsOf m.line))))) := by
    rw [serve_grants (m := arriving s m) hkind (hhome ▸ hfind) (hhome ▸ hplace) (hhome ▸ hfree), State.grantFresh, arriving_line,
      hx.readLine hsound]
    rfl
  exact ⟨_, hserve, hx.completes hat hz (by decide) hzk rfl rfl m.agent.tile
    { answerOf m (.data .e) with data := some (memLine s.mem (offsetOfLs k (lsOf m.line))) }⟩

theorem ends_stale (hkind : m.kind = .wb ∨ m.kind = .ce) : Ends c s fun t =>
    Answered s m m.agent.tile (answerOf m .ack) t ∧ OnlyHome [.regs] k s t ∧ t.home k = s.home k
      ∧ t.regs = (s.count .MEM_STALE_WB_CNT k).regs := by
  refine ends_of_serve_fresh hc hat hsig hfind fun x hx => ?_
  have hhome : x.home k = s.home k := hx.home
  let z := x.count .MEM_STALE_WB_CNT k
  obtain ⟨hidle, hans, honly, hyk⟩ := hx.completes hat (z := z) (.of_same (x.alters_count _ k 0 1).1 (by decide) k) (by decide)
    ((State.home_congr (State.count_homes _ _ _ _ _) k).trans hhome) rfl rfl m.agent.tile (answerOf m .ack)
  have hregs : (z.sendTo m.agent.tile (answerOf m .ack)).regs = (s.count .MEM_STALE_WB_CNT k).regs := by
    simp [z, State.count, State.setReg, State.reg, hx.regs]
  exact ⟨_, serve_stale (m := arriving s m) hkind (hhome ▸ hfind), hidle, hans, honly, hyk, hregs⟩

/-- The answer of an uncached read: the bytes it asked for, and the line where it asked for all of it. -/
def readAnswer (m : Msg) (p : Part) (d : LineData) : Msg :=
  { answerOf m (.data .copy) with data := if p.size = 128 then some d else none, res := some (partOf d (p.addr % 128) p.size) }

theorem ends_ncRd {p : Part} (hkind : m.kind = .ncRd) (hpart : m.part = some p)
    (hsound : ∀ i < 4, Sound s (offsetOfLs k (lsOf m.line) / 128 * 4 + i)) : Ends c s fun t =>
      Answered s m m.agent.tile (readAnswer m p (memLine s.mem (offsetOfLs k (lsOf m.line)))) t
      ∧ OnlyHome [] k s t ∧ t.home k = s.home k := by
  refine ends_of_serve_fresh hc hat hsig hfind fun x hx => ?_
  have hhome : x.home k = s.home k := hx.home
  have hserve := serve_ncRd (m := arriving s m) hkind (hhome ▸ hfind)
  rw [arriving_line, hx.readLine hsound, readReply_part (m := arriving s m) hpart] at hserve
  exact ⟨_, hserve, hx.completes hat (.refl [] k x) (by decide) hhome rfl rfl m.agent.tile (readAnswer m p _)⟩

theorem ends_stRd (hkind : m.kind = .stRd) (hmode : m.cmode = 0)
    (hsound : ∀ i < 4, Sound s (offsetOfLs k (lsOf m.line) / 128 * 4 + i)) : Ends c s fun t =>
      Answered s m m.agent.tile { answerOf m (.data .staged) with data := some (memLine s.mem (offsetOfLs k (lsOf m.line))) } t
      ∧ OnlyHome [] k s t ∧ t.home k = s.home k := by
  refine ends_of_serve_fresh hc hat hsig hfind fun x hx => ?_
  have hserve := serve_stRd (s := x) (k := k) (m := arriving s m) hkind hmode
  rw [arriving_line, hx.readLine hsound] at hserve
  exact ⟨_, hserve, hx.completes hat (.refl [] k x) (by decide) (hx.home) rfl rfl m.agent.tile
    { answerOf m (.data .staged) with data := some (memLine s.mem (offsetOfLs k (lsOf m.line))) }⟩

variable {p : Part} {g : Nat} (hmode : m.cmode = 0) (hpart : m.part = some p) (hg : offsetOf p.addr / 32 = g)
  (hsound : Sound s g) (hgood : NMap.get .good s.mem.gran g = .good)
include hmode hpart hg hsound hgood

omit hsig hfind hc hmode hpart hg hsound hgood in
/-- A home overlays bytes of a GOOD granule and answers. -/
theorem Accepted.overlays {x : State} (hx : Accepted s m k (s.home k) x) {at' : Nat} {bs : List Byte} (hfit : at' + bs.length ≤ 32) (r : Msg) :
    let y := (x.putGran g .good (overlay (rawBytes s.mem g) at' bs)).sendTo m.agent.tile r
    (y.home k).Idle ∧ Answered s m m.agent.tile r y ∧ OnlyHome [.mem] k s y ∧ y.home k = s.home k
      ∧ OnlyGrans [g] s y ∧ decodeGran y.mem g = some ⟨.good, overlay (rawBytes s.mem g) at' bs, false⟩ := by
  have hput := x.alters_putGran g .good (overlay (rawBytes s.mem g) at' bs)
  obtain ⟨hidle, hans, honly, hyk⟩ := hx.completes hat (.of_same hput.1 (by decide) k) (by decide)
    ((State.home_congr (hput.agree .homes (by decide)) k).trans hx.home) rfl rfl m.agent.tile r
  refine ⟨hidle, hans, honly, hyk, ?_, ?_⟩
  · exact (onlyGrans_putGran x _ _ _).congr hx.mem.symm (State.sendTo_mem _ _ _)
  · rw [State.sendTo_mem, ← hx.mem, decodeGran_overlay x g hfit]

theorem ends_write {bs : List Byte} (hkind : m.kind = .ncWr ∨ m.kind = .stWr) (hcarry : m.carry = .good) (hop : p.op = .store bs)
    (hne : bs ≠ []) (hfit : offsetOf p.addr % 32 + bs.length ≤ 32) : Ends c s fun t =>
      Answered s m m.agent.tile (answerOf m .ack) t ∧ OnlyHome [.mem] k s t ∧ t.home k = s.home k
      ∧ OnlyGrans [g] s t ∧ decodeGran t.mem g = some ⟨.good, overlay (rawBytes s.mem g) (offsetOf p.addr % 32) bs, false⟩ := by
  subst hg
  refine ends_of_serve_fresh hc hat hsig hfind fun x hx => ?_
  have hserve := serve_write (m := arriving s m) hkind (hx.home ▸ hfind)
  rw [performWrite_store (m := arriving s m) hmode hcarry hpart hop, writeBytes_good (hx.sound hsound) (hx.mem ▸ hgood) hne hfit,
    hx.mem] at hserve
  exact ⟨_, hserve, hx.overlays hat hfit (answerOf m .ack)⟩

/-- The bytes that an atomic finds, and the answer that returns them. -/
def oldBytes (mem : MemSt) (p : Part) : List Byte :=
  ((rawBytes mem (offsetOf p.addr / 32)).drop (offsetOf p.addr % 32)).take p.size

/-- The bytes that an atomic writes. -/
def newBytes (mem : MemSt) (p : Part) (op : AmoOp) (typ v new : Nat) : List Byte :=
  leBytes p.size (amoValue op ((Ty.ofCode typ).getD .u32) (leNat (oldBytes mem p)) v new)

theorem ends_atomic {op : AmoOp} {typ v new : Nat} (hkind : m.kind = .ncAtom) (hop : p.op = .amo op typ v new)
    (hfit : offsetOf p.addr % 32 + p.size ≤ 32) : Ends c s fun t =>
      Answered s m m.agent.tile { answerOf m .atomRsp with res := some { bytes := oldBytes s.mem p, gran := .good } } t
      ∧ OnlyHome [.mem] k s t ∧ t.home k = s.home k ∧ OnlyGrans [g] s t
      ∧ decodeGran t.mem g = some ⟨.good, overlay (rawBytes s.mem g) (offsetOf p.addr % 32) (newBytes s.mem p op typ v new), false⟩ := by
  subst hg
  refine ends_of_serve_fresh hc hat hsig hfind fun x hx => ?_
  have hserve := serve_atomic (m := arriving s m) hkind (hx.home ▸ hfind)
  rw [performAtomic_amo (m := arriving s m) hmode hpart hop, memAmo_good (hx.sound hsound) (hx.mem ▸ hgood) hop hfit, hx.mem] at hserve
  have hfit' : offsetOf p.addr % 32 + (newBytes s.mem p op typ v new).length ≤ 32 := by simpa [newBytes] using hfit
  exact ⟨_, hserve, hx.overlays hat hfit' { answerOf m .atomRsp with res := some { bytes := oldBytes s.mem p, gran := .good } }⟩

end

/-! ### A line that one agent owns -/

section
variable {a : Agent} (hat : AtHome s m k) (hfind : (s.home k).find (lsOf m.line) = some (key, heldAlone (lsOf m.line) a))
  (hsig : isSignalMsg m = false) (hc : Requests c m)
include hat hfind hsig hc

theorem ends_snoop (hkind : m.kind = .rdS) (hne : a ≠ m.agent) : Ends c s fun t =>
    Answered s m a.tile { kind := .snpS, agent := a, home := ⟨none, k⟩, line := s.lineAt k (lsOf m.line) } t ∧ OnlyHome [] k s t
    ∧ (t.home k).inbound = [] ∧ (t.home k).find (lsOf m.line) = (s.home k).find (lsOf m.line)
    ∧ (t.home k).txns = [{ ls := lsOf m.line, req := arriving s m, goal := .request, wait := [a], due := s.snoopDue k }] := by
  refine ends_of_serve_held hc hat hsig hfind fun x hx hfind' => ?_
  have hline : x.lineAt k (lsOf m.line) = s.lineAt k (lsOf m.line) := by
    simp [State.lineAt, State.tileId, State.isSet, State.reg_congr hx.regs]
  have hdue : x.snoopDue k = s.snoopDue k := by simp [State.snoopDue, State.reg_congr hx.regs, hx.time]
  obtain ⟨hans, honly⟩ := hx.answers (.refl [] k x) (by decide) a.tile
    { kind := .snpS, agent := a, home := ⟨none, k⟩, line := s.lineAt k (lsOf m.line) }
  have hserve := serve_rdS_held (m := arriving s m) hfind' hkind hne
  rw [arriving_line, State.snoop, hline, hdue] at hserve
  obtain ⟨hin, htx⟩ := hat.waits_for_none
  refine ⟨_, hserve, ?_, hans, honly.onHome _, ?_⟩ <;>
    simp only [State.addTxn, State.home_onHome_self, State.home_congr (State.sendTo_homes _ _ _) k]
  · rw [hx.home]
    exact ⟨hin, by simp [HomeSt.holds, htx]⟩
  · refine ⟨by rw [hx.home]; exact hin, hfind'.trans hfind.symm, ?_⟩
    rw [hx.home]
    simp [HomeSt.holds, htx]

theorem ends_ce (hkind : m.kind = .ce) (ha : a = m.agent) : Ends c s fun t =>
    Answered s m m.agent.tile (answerOf m .ack) t ∧ OnlyHome [] k s t
    ∧ t.home k = { s.home k with dir := NMap.erase (s.home k).dir key } := by
  refine ends_of_serve_held hc hat hsig hfind fun x hx hfind' => ?_
  have hlive : x.isDead m.agent = false := (hx.isDead _).trans (hat.none_dead _)
  have hzk : (x.onHome k fun hs => { hs with dir := NMap.erase hs.dir key }).home k =
      { s.home k with dir := NMap.erase (s.home k).dir key } := by
    rw [State.home_onHome_self, hx.home, HomeSt.holds, NMap.erase_insert_self]
  exact ⟨_, serve_ce_held (m := arriving s m) hfind' hkind ha hlive,
    hx.completes hat (x.withinHome_onHome k _) (by decide) hzk rfl rfl m.agent.tile (answerOf m .ack)⟩

theorem ends_wb (hkind : m.kind = .wb) (ha : a = m.agent) {d : LineData} (hdata : m.data = some d) (hlen : d.bytes.length = 128)
    (hret : s.retiredAt (offsetOfLs k (lsOf m.line)) = false) : Ends c s fun t =>
      Answered s m m.agent.tile (answerOf m .ack) t ∧ OnlyHome [.mem] k s t
      ∧ t.home k = { s.home k with dir := NMap.erase (s.home k).dir key }
      ∧ OnlyGrans ((List.range 4).map (offsetOfLs k (lsOf m.line) / 128 * 4 + ·)) s t
      ∧ ∀ i < 4, decodeGran t.mem (offsetOfLs k (lsOf m.line) / 128 * 4 + i) = some ⟨d.gran.getD i .good,
          if d.gran.getD i .good = .good then (d.bytes.drop (32 * i)).take 32 else List.replicate 32 0, false⟩ := by
  refine ends_of_serve_held hc hat hsig hfind fun x hx hfind' => ?_
  have hlive : x.isDead m.agent = false := (hx.isDead _).trans (hat.none_dead _)
  have hret' : x.retiredAt (offsetOfLs k (lsOf m.line)) = false := (State.retiredAt_congr hx.regs _).trans hret
  have hserve := serve_wb_held (m := arriving s m) hfind' hkind ha hlive hdata hret'
  rw [arriving_line, State.reply] at hserve
  have hwrite := x.alters_writeLine hret' d
  obtain ⟨hgrans, hnew⟩ := writeLine_spec x hret' hlen
  generalize x.writeLine (offsetOfLs k (lsOf m.line)) d = w at hserve hwrite hgrans hnew
  have hwithin : WithinHome [.mem] k x (w.onHome k fun hs => { hs with dir := NMap.erase hs.dir key }) :=
    (WithinHome.of_same hwrite.1 (by decide) k).trans ((w.withinHome_onHome k _).mono (List.nil_subset _))
  have hzk : (w.onHome k fun hs => { hs with dir := NMap.erase hs.dir key }).home k =
      { s.home k with dir := NMap.erase (s.home k).dir key } := by
    rw [State.home_onHome_self, State.home_congr (hwrite.agree .homes (by decide)) k, hx.home, HomeSt.holds, NMap.erase_insert_self]
  obtain ⟨hidle, hans, honly, hyk⟩ := hx.completes hat hwithin (by decide) hzk rfl rfl m.agent.tile (answerOf m .ack)
  have hmem : (w.onHome k fun hs => { hs with dir := NMap.erase hs.dir key }).mem = w.mem := (w.alters_onHome k _).agree .mem (by decide)
  refine ⟨_, hserve, hidle, hans, honly, hyk, hgrans.congr hx.mem.symm ((State.sendTo_mem _ _ _).trans hmem), fun i hi => ?_⟩
  rw [State.sendTo_mem, hmem]
  exact hnew i hi

end

end

/-! ### Requests that are turned away -/

/-- Outside an ACTIVE context no event is posted (R533). -/
theorem State.postEvent_inactive {s : State} (h : s.reg .CTX_STATE ≠ 1) (source : Nat) (pay : List Byte) : s.postEvent source pay = s := by
  unfold State.postEvent
  rw [if_pos (Or.inl h)]

section
variable {s : State} {m : Msg} {k : Nat} (hkind : m.kind = .rdS) (hsig : isSignalMsg m = false) (hhome : m.home = ⟨none, k⟩) (hk : k < 8)
  (hrec : receivable m s.mesh = true) (hready : s.homeReady k = true)
  (hidle : (s.home k).inbound = [] ∧ (s.home k).txns = [])
include hkind hsig hhome hk hrec hready hidle

/-- A read that reaches its home is answered at once where the home does not take it in. -/
theorem rds_goes_away (haway : populatedOffset (offsetOf (128 * m.line)) = true → s.isDead m.agent = true)
    (hremote : populatedOffset (offsetOf (128 * m.line)) = false → m.agent.tile ≠ none) : Goes (.rds m) s
      (if populatedOffset (offsetOf (128 * m.line)) then (s.takeMsg m).refuse m .dead else (s.takeMsg m).remoteUnpop m) := by
  have hroom : (s.home k).hasRoom m.kind = true := by simp [HomeSt.hasRoom, hidle, hkind]
  have hexec : exec (.rds m) s = .next (receiveAtHome m (· == .rdS) s) := rfl
  unfold Goes
  rw [hexec]
  unfold receiveAtHome
  cases hpop : populatedOffset (offsetOf (128 * m.line)) with
  | true =>
    have hdead : (s.takeMsg m).isDead m.agent = true := haway hpop
    simp [hkind, hsig, hhome, hk, hrec, hready, hkind ▸ hroom, hdead]
  | false =>
    have htile := Option.isSome_iff_ne_none.2 (hremote hpop)
    simp [hkind, hsig, hhome, hk, hrec, hready, hkind ▸ hroom, htile]

theorem rds_ends_unpopulated (hremote : m.agent.tile ≠ none) (hpop : populatedOffset (offsetOf (128 * m.line)) = false)
    (hctx : s.reg .CTX_STATE ≠ 1) : Ends (.rds m) s fun t =>
      Answered s m m.agent.tile { answerOf m (.data .copy) with status := .poison } t
      ∧ Same [.mesh, .xmit, .regs] s t ∧ SameRegs [.TILE_UNPOP_REMOTE_CNT] s t
      ∧ t.reg .TILE_UNPOP_REMOTE_CNT = satAdd32 (s.reg .TILE_UNPOP_REMOTE_CNT) 1 := by
  have hgo := rds_goes_away hkind hsig hhome hk hrec hready hidle (by simp [hpop]) fun _ => hremote
  let y := (s.takeMsg m).count .TILE_UNPOP_REMOTE_CNT
  have hquiet : ∀ source pay, y.postEvent source pay = y := fun source pay => State.postEvent_inactive
    (((s.takeMsg m).alters_count .TILE_UNPOP_REMOTE_CNT 0 0 1).reg .CTX_STATE 0 0 (by decide) ▸ hctx) source pay
  have hy : (s.takeMsg m).remoteUnpop m = y.reply m (.data .copy) none none .poison := by
    simp only [State.remoteUnpop, State.refuse, hkind]
    rw [hquiet]
  rw [hpop, if_neg Bool.false_ne_true, hy] at hgo
  have hregs : (y.reply m (.data .copy) none none .poison).regs = (s.count .TILE_UNPOP_REMOTE_CNT).regs := State.sendTo_regs _ _ _
  have hcount := s.alters_count .TILE_UNPOP_REMOTE_CNT 0 0 1
  refine ⟨_, hgo, answered_sendTo (x := y) rfl rfl _ _, ?_, fun f i n hf => ?_, ?_⟩
  · simp [Same, State.reply, y]
  · rw [State.reg_congr hregs, hcount.reg f i n hf]
  · rw [State.reg_congr hregs]
    exact State.reg_setReg_self _ _ _ _ _

theorem rds_ends_dead (hpop : populatedOffset (offsetOf (128 * m.line)) = true) (hdead : s.isDead m.agent = true) :
    Ends (.rds m) s fun t =>
      Answered s m m.agent.tile { answerOf m (.data .copy) with status := .dead } t ∧ Same [.mesh, .xmit] s t := by
  have hgo := rds_goes_away hkind hsig hhome hk hrec hready hidle (fun _ => hdead) (by simp [hpop])
  have hy : (s.takeMsg m).refuse m .dead = (s.takeMsg m).reply m (.data .copy) none none .dead := by
    simp only [State.refuse, hkind]
  rw [hpop, if_pos rfl, hy] at hgo
  exact ⟨_, hgo, answered_sendTo (x := s.takeMsg m) rfl rfl _ _, by simp [Same, State.reply]⟩

end

end Sys2Proof.Machine
end
section
/-!
PROOFS. The statement about a home's requests, from what each of them does.
-/
namespace Sys2Proof.Machine
open Sys2Proof.Safety

/-- Settles O46, by the case of each request at an idle home. -/
theorem homesServeRequests : Obligations.HomesServeRequests := by
  unfold Obligations.HomesServeRequests
  refine ⟨fun s m k key hat hsig hfind => ⟨?_, ?_, ?_, ?_, ?_, ?_⟩, fun s m k key a hat hsig hfind => ⟨?_, ?_, ?_⟩,
    fun s m k hkind hsig hhome hk hrec hready hin htx => ⟨?_, ?_⟩⟩
  · intro c hc hkind hplace hfree hsound
    have hreq : Requests c.1 m ∧ (m.kind = .rdS ∨ ∃ held, m.kind = .rdX held) := by
      simp only [List.mem_cons, List.not_mem_nil, or_false] at hc
      obtain rfl | rfl | rfl := hc
      · exact ⟨requests_rds hkind, .inl hkind⟩
      · exact ⟨requests_rdx hkind, .inr ⟨_, hkind⟩⟩
      · exact ⟨requests_rdx hkind, .inr ⟨_, hkind⟩⟩
    exact (ends_grant hat hsig hfind hreq.1 hreq.2 hplace hfree hsound).imp fun t ⟨hans, honly, hk⟩ => ⟨hans, hk, honly⟩
  · intro c hc hkind
    have hreq : Requests c.1 m ∧ (m.kind = .wb ∨ m.kind = .ce) := by
      simp only [List.mem_cons, List.not_mem_nil, or_false] at hc
      obtain rfl | rfl := hc
      · exact ⟨requests_wb hkind, .inl hkind⟩
      · exact ⟨requests_ce hkind, .inr hkind⟩
    refine (ends_stale hat hsig hfind hreq.1 hreq.2).imp fun t ⟨hans, honly, hk, hregs⟩ => ⟨hans, hk, honly, ?_, fun f i n hne => ?_⟩
    · rw [State.reg_congr hregs, State.reg_count, if_pos ⟨rfl, rfl, rfl⟩]
    · rw [State.reg_congr hregs, State.reg_count, if_neg (by rintro ⟨rfl, rfl, rfl⟩; exact hne rfl)]
  · intro p hkind hpart hsound
    exact (ends_ncRd hat hsig hfind (requests_ncrd hkind) hkind hpart hsound).imp fun t ⟨hans, honly, hk⟩ => ⟨honly, hk, hans⟩
  · intro hkind hmode hsound
    exact (ends_stRd hat hsig hfind (requests_strd hkind) hkind hmode hsound).imp fun t ⟨hans, honly, hk⟩ => ⟨honly, hk, hans⟩
  · intro c hc p bs hkind hmode hcarry hpart hop hne hfit g hsound hgood
    have hreq : Requests c.1 m ∧ (m.kind = .ncWr ∨ m.kind = .stWr) := by
      simp only [List.mem_cons, List.not_mem_nil, or_false] at hc
      obtain rfl | rfl := hc
      · exact ⟨requests_ncwr hkind, .inl hkind⟩
      · exact ⟨requests_stwr hkind, .inr hkind⟩
    exact ends_write hat hsig hfind hreq.1 hmode hpart rfl hsound hgood hreq.2 hcarry hop hne hfit
  · intro p op typ x new hkind hmode hpart hop _ hfit g old hsound hgood
    exact ends_atomic hat hsig hfind (requests_ncatom hkind) hmode hpart rfl hsound hgood hkind hop hfit
  · exact fun hkind hne => ends_snoop hat hfind hsig (requests_rds hkind) hkind hne
  · exact fun hkind ha => ha ▸ ends_ce hat hfind hsig (requests_ce hkind) hkind ha
  · exact fun d hkind ha hdata hlen hret => ha ▸ ends_wb hat hfind hsig (requests_wb hkind) hkind ha hdata hlen hret
  · exact fun hremote hpop hctx => rds_ends_unpopulated hkind hsig hhome hk hrec hready ⟨hin, htx⟩ hremote hpop hctx
  · exact fun hpop hdead => rds_ends_dead hkind hsig hhome hk hrec hready ⟨hin, htx⟩ hpop hdead

end Sys2Proof.Machine
end
section
/-!
PROOFS. Clusters after they are written, hands whose accesses all have their answers, the ends of overdue requests and of
quarantined tags (R344), and reset invalidation (R320).
-/
namespace Sys2Proof.Machine
open Sys2Proof.Safety

/-! ### Clusters -/

theorem State.clu_congr {s t : State} (h : t.clus = s.clus) (c : Nat) : t.clu c = s.clu c := by
  simp [State.clu, h]

theorem State.clu_onClu (s : State) (c d : Nat) (f : Cluster → Cluster) :
    (s.onClu c f).clu d = if d = c then f (s.clu c) else s.clu d :=
  s.clu_setClu c d _

@[simp] theorem State.clu_onClu_self (s : State) (c : Nat) (f : Cluster → Cluster) : (s.onClu c f).clu c = f (s.clu c) := by
  simp [State.clu_onClu]

theorem State.clu_onClu_ne (s : State) {c d : Nat} (f : Cluster → Cluster) (h : d ≠ c) : (s.onClu c f).clu d = s.clu d := by
  simp [State.clu_onClu, h]

theorem State.alters_onClu (s : State) (c : Nat) (f : Cluster → Cluster) : Alters [.clus] [] s (s.onClu c f) :=
  .of_regs (by simp [Same, State.onClu, State.setClu]) rfl

/-! ### Hands that nothing can move on -/

/-- A fold whose steps all leave the start alone. -/
theorem foldState_fixed {σ α : Type} {f : σ → α → σ} {l : List α} {s : σ} (h : ∀ a ∈ l, f s a = s) : foldState f l s = s :=
  foldState_keeps_of_mem (p := (· = s)) f l s rfl fun _ a ha ht => ht ▸ h a ha

/-- Every access of what a hand has issued has its answer. -/
def Hand.Served (h : Hand) : Prop := ∀ o ∈ h.ops, ∀ n < o.parts.length, (NMap.find? o.res n).isSome

theorem Hand.served_of_no_ops {h : Hand} (hops : h.ops = []) : h.Served := by
  simp [Hand.Served, hops]

theorem pumpOp_of_served {s : State} {c slot : Nat} (hserved : ∀ h, s.hand c slot = some h → h.Served) (op : Nat) :
    pumpOp s c slot op = s := by
  unfold pumpOp
  cases hh : s.hand c slot with
  | none => rfl
  | some h =>
    cases ho : h.ops.find? (fun o => o.id == op) with
    | none => simp [ho]
    | some o =>
      simp only [Option.bind_some, ho]
      refine foldState_fixed fun q hq => ?_
      have hlt : q.2 < o.parts.length := by simpa using List.snd_lt_of_mem_zipIdx hq
      simp [hh, ho, hserved h hh o (List.mem_of_find?_eq_some ho) q.2 hlt]

/-- No hand of a cluster has an access that still needs its answer. -/
def State.Served (s : State) (c : Nat) : Prop := ∀ i < 4, ∀ n < 16, ∀ h, s.hand (4 * c + i) n = some h → h.Served

theorem State.served_of_no_ops {s : State} {c : Nat} (h : ∀ i < 4, ∀ n < 16, ∀ h, s.hand (4 * c + i) n = some h → h.ops = []) :
    s.Served c :=
  fun i hi n hn hd hh => Hand.served_of_no_ops (h i hi n hn hd hh)

theorem State.Served.congr {s t : State} {c : Nat} (h : s.Served c) (ht : ∀ i < 4, ∀ n, t.hand (4 * c + i) n = s.hand (4 * c + i) n) :
    t.Served c :=
  fun i hi n hn hd hh => h i hi n hn hd (ht i hi n ▸ hh)

/-- A cluster whose hands are served is not moved on. -/
theorem pumpCluster_of_served {s : State} {c : Nat} (h : s.Served c) : pumpCluster s c = s := by
  unfold pumpCluster
  split
  · rfl
  · refine foldState_fixed fun i hi => foldState_fixed fun n hn => ?_
    unfold pumpHand
    split
    · rfl
    · exact foldState_fixed fun o _ => pumpOp_of_served (h i (List.mem_range.1 hi) n (List.mem_range.1 hn)) o.id

theorem leavePump_of_staying {s : State} {c : Nat} (h : (s.clu c).leaving = false) : leavePump s c = s := by
  simp [leavePump, h]

/-! ### The answers that reach hands -/

/-- The one access of a hand's one instruction has its answer. -/
theorem State.setRes_of_only {s : State} {w : Waiter} {h : Hand} {o : MemOp} (hh : s.hand w.core w.slot = some h)
    (hops : h.ops = [o]) (hid : o.id = w.op) (r : PartRes) :
    s.setRes w r = s.setHand w.core w.slot { h with ops := [{ o with res := NMap.insert o.res w.part r }] } := by
  simp [State.setRes, hh, hops, hid]

/-- A load that fails returns poison. -/
theorem failWaiter_of_load {s : State} {w : Waiter} {h : Hand} {o : MemOp} {p : Part} (hh : s.hand w.core w.slot = some h)
    (hops : h.ops = [o]) (hid : o.id = w.op) (hpart : o.parts[w.part]? = some p) (hload : p.op = .load) :
    failWaiter s w = s.setHand w.core w.slot { h with ops := [{ o with res := NMap.insert o.res w.part (poisonRes p.size) }] } := by
  have hp : s.partOfWaiter w = some p := by simp [State.partOfWaiter, hh, hops, hid, hpart]
  simp [failWaiter, hp, hload, State.setRes_of_only hh hops hid]

/-! ### Overdue requests and quarantined tags -/

/-- A quarantined tag whose time is over is freed. -/
theorem tagQuarantineEnd_goes {s : State} {c : Fin 64} {tag : Nat} {r : Req} (hclk : s.clocked c = true)
    (hreq : NMap.find? (s.clu c).reqs tag = some r) (hdue : r.since + 100 * s.reg .CLU_REQ_TIMEOUT_US c ≤ s.time.bnd)
    (hquar : r.quar = true) (hserved : s.Served c) : Goes (.tagQuarantineEnd c tag) s (s.endReq c tag) := by
  have hdue' : r.since + ticksOfUs (s.reg .CLU_REQ_TIMEOUT_US c) ≤ s.time.bnd := by unfold ticksOfUs; omega
  have hend : pumpCluster (s.endReq c tag) c = s.endReq c tag :=
    pumpCluster_of_served (hserved.congr fun i _ n => State.hand_congr (s.alters_onClu c _ |>.agree .cores (by decide)) _ n)
  change (.next _ : Host.Outcome State Fault Refusal) = .next _
  simp [hclk, hreq, hquar, hdue', hend]

/-- An overdue request is counted, its tag is quarantined and a writeback's buffer entry is freed. -/
def State.timedOut (s : State) (c tag : Nat) (r : Req) : State :=
  (s.count .CLU_TIMEOUT_CNT c).onClu c fun cl => { cl with
    reqs := NMap.insert cl.reqs tag { r with quar := true, since := s.time.bnd, waiters := [] },
    wbuf := if r.kind = .wb ∨ r.kind = .ce then cl.wbuf.filter fun x => x.line != r.line else cl.wbuf }

theorem State.alters_timedOut (s : State) (c tag : Nat) (r : Req) :
    Alters [.clus, .regs] [.CLU_TIMEOUT_CNT] s (s.timedOut c tag r) :=
  (s.alters_count .CLU_TIMEOUT_CNT c 0 1).comp (State.alters_onClu _ c _) (by decide) (by decide)

theorem State.clu_timedOut (s : State) (c tag : Nat) (r : Req) : (s.timedOut c tag r).clu c = { s.clu c with
    reqs := NMap.insert (s.clu c).reqs tag { r with quar := true, since := s.time.bnd, waiters := [] },
    wbuf := if r.kind = .wb ∨ r.kind = .ce then (s.clu c).wbuf.filter fun x => x.line != r.line else (s.clu c).wbuf } :=
  (State.clu_onClu_self _ c _).trans rfl

theorem State.clu_timedOut_ne (s : State) {c d : Nat} (tag : Nat) (r : Req) (h : d ≠ c) : (s.timedOut c tag r).clu d = s.clu d :=
  State.clu_onClu_ne _ _ h

theorem State.reg_timedOut (s : State) (c tag : Nat) (r : Req) (f : Field) (i n : Nat) : (s.timedOut c tag r).reg f i n =
    if f = .CLU_TIMEOUT_CNT ∧ i = c ∧ n = 0 then satAdd32 (s.reg .CLU_TIMEOUT_CNT c) 1 else s.reg f i n :=
  s.reg_count _ f c i 0 n 1

theorem State.hand_timedOut (s : State) (c tag : Nat) (r : Req) (d n : Nat) : (s.timedOut c tag r).hand d n = s.hand d n :=
  State.hand_congr ((s.alters_timedOut c tag r).agree .cores (by decide)) d n

/-- An overdue request ends, in a cluster that stays and whose hands wait for nothing more. -/
theorem reqTimeout_goes {s u : State} {c : Fin 64} {tag : Nat} {r : Req} (hclk : s.clocked c = true)
    (hreq : NMap.find? (s.clu c).reqs tag = some r) (hdue : r.since + 100 * s.reg .CLU_REQ_TIMEOUT_US c ≤ s.time.bnd)
    (hquar : r.quar = false) (hfail : failUse (s.timedOut c tag r) r = u) (hstay : (u.clu c).leaving = false) (hserved : u.Served c) :
    Goes (.reqTimeout c tag) s u := by
  have hdue' : ¬ s.time.bnd < r.since + ticksOfUs (s.reg .CLU_REQ_TIMEOUT_US c) := by unfold ticksOfUs; omega
  have hend : pumpCluster (leavePump (failUse (s.timedOut c tag r) r) c) c = u := by
    rw [hfail, leavePump_of_staying hstay, pumpCluster_of_served hserved]
  refine .trans ?_ (congrArg Host.Outcome.next hend)
  change (.next _ : Host.Outcome State Fault Refusal) = .next _
  simp only [hclk, hreq, hquar, hdue', Bool.not_true, Bool.false_or, decide_false, Bool.false_eq_true, if_false]
  rfl

/-- An overdue writeback that nothing waits for. -/
theorem reqTimeout_goes_wb {s : State} {c : Fin 64} {tag : Nat} {r : Req} (hclk : s.clocked c = true)
    (hstay : (s.clu c).leaving = false) (hreq : NMap.find? (s.clu c).reqs tag = some r)
    (hdue : r.since + 100 * s.reg .CLU_REQ_TIMEOUT_US c ≤ s.time.bnd) (hquar : r.quar = false) (huse : r.use = .demand)
    (hwait : r.waiters = []) (hserved : s.Served c) : Goes (.reqTimeout c tag) s (s.timedOut c tag r) := by
  refine reqTimeout_goes hclk hreq hdue hquar ?_ ?_ (hserved.congr fun i _ n => s.hand_timedOut c tag r _ n)
  · simp [failUse, huse, hwait, foldState]
  · rw [s.clu_timedOut]; exact hstay

/-- An overdue read that one load waits for. -/
theorem reqTimeout_goes_load {s : State} {c : Fin 64} {tag : Nat} {r : Req} {w : Waiter} {h : Hand} {o : MemOp} {p : Part}
    (hclk : s.clocked c = true) (hstay : (s.clu c).leaving = false) (hreq : NMap.find? (s.clu c).reqs tag = some r)
    (hdue : r.since + 100 * s.reg .CLU_REQ_TIMEOUT_US c ≤ s.time.bnd) (hquar : r.quar = false) (huse : r.use = .demand)
    (hwait : r.waiters = [w]) (hh : s.hand w.core w.slot = some h) (hops : h.ops = [o]) (hid : o.id = w.op) (hparts : o.parts = [p])
    (hpart : w.part = 0) (hload : p.op = .load)
    (hrest : ∀ i < 4, ∀ n < 16, ∀ h, (4 * c.val + i, n) ≠ (w.core, w.slot) → s.hand (4 * c + i) n = some h → h.ops = []) :
    Goes (.reqTimeout c tag) s ((s.timedOut c tag r).setHand w.core w.slot
      { h with ops := [{ o with res := NMap.insert o.res 0 (poisonRes p.size) }] }) := by
  have hfail := failWaiter_of_load ((s.hand_timedOut c tag r w.core w.slot).trans hh) hops hid (by rw [hparts, hpart]; rfl) hload
  rw [hpart] at hfail
  refine reqTimeout_goes hclk hreq hdue hquar ?_ ?_ fun i hi n hn hd hhd => ?_
  · simp [failUse, huse, hwait, foldState, hfail]
  · rw [State.clu_congr ((State.alters_setHand _ _ _ _).agree .clus (by decide)), s.clu_timedOut]; exact hstay
  · rw [State.hand_setHand, s.hand_timedOut] at hhd
    split at hhd
    · cases hhd
      simp [Hand.Served, hparts]
    · next hne => exact Hand.served_of_no_ops (hrest i hi n hn hd (fun e => hne (Prod.mk.inj e)) hhd)

/-! ### Reset invalidation -/

/-- An L1 is invalidated, in a cluster whose hands wait for nothing. -/
theorem cacheInitDone_l1 {s : State} {c : Fin 256} (hboot : s.booted = true) (hinv : s.invalidates (c.val / 4) = true)
    (hserved : s.Served (c.val / 4)) : Goes (.cacheInitDone (.l1 c)) s (s.onCore c fun co => { co with l1init := false }) := by
  have hslots : ∀ d n, (s.onCore c fun co => { co with l1init := false }).hand d n = s.hand d n := fun d n => by
    unfold State.hand State.onCore
    rw [State.core_setCore]
    split
    · next hd => rw [hd]
    · rfl
  have hpump := pumpCluster_of_served (hserved.congr fun i _ n => hslots _ n)
  change (.next _ : Host.Outcome State Fault Refusal) = .next _
  simp only [hboot, clusterOf, hinv, hpump, Bool.not_true, Bool.false_eq_true, if_false, if_true]

/-- A cluster cache is invalidated, in a cluster whose hands wait for nothing. -/
theorem cacheInitDone_cc {s : State} {c : Fin 64} (hboot : s.booted = true) (hinv : s.invalidates c = true) (hserved : s.Served c) :
    Goes (.cacheInitDone (.cc c)) s (s.onClu c fun cl => { cl with ccinit := false }) := by
  have hpump := pumpCluster_of_served (hserved.congr fun i _ n =>
    State.hand_congr ((s.alters_onClu c fun cl => { cl with ccinit := false }).agree .cores (by decide)) _ n)
  change (.next _ : Host.Outcome State Fault Refusal) = .next _
  simp only [hboot, hinv, hpump, Bool.not_true, Bool.false_eq_true, if_false, if_true]

/-- The structures whose invalidation nothing waits for. -/
theorem cacheInitDone_ic {s : State} {c : Fin 256} (hboot : s.booted = true) (hinv : s.invalidates (c.val / 4) = true) :
    Goes (.cacheInitDone (.ic c)) s (s.onCore c fun co => { co with icinit := false }) := by
  change (.next _ : Host.Outcome State Fault Refusal) = .next _
  simp only [hboot, clusterOf, hinv, Bool.not_true, Bool.false_eq_true, if_false, if_true]

theorem cacheInitDone_dir {s : State} (hboot : s.booted = true) (hrun : s.stopped 2 = false) (k : Fin 8) :
    Goes (.cacheInitDone (.dir k)) s (s.onHome k fun hs => { hs with dirinit := false }) := by
  change (.next _ : Host.Outcome State Fault Refusal) = .next _
  simp only [hboot, hrun, Bool.not_true, Bool.false_eq_true, if_false]

theorem cacheInitDone_lmap {s : State} (hboot : s.booted = true) (hrun : s.stopped 2 = false) (k : Fin 8) :
    Goes (.cacheInitDone (.lmap k)) s (s.onHome k fun hs => { hs with lmapinit := false }) := by
  change (.next _ : Host.Outcome State Fault Refusal) = .next _
  simp only [hboot, hrun, Bool.not_true, Bool.false_eq_true, if_false]

theorem cacheInitDone_filter {s : State} (hboot : s.booted = true) (hrun : s.stopped 2 = false) :
    Goes (.cacheInitDone .filter) s { s with filterInit := false } := by
  change (.next _ : Host.Outcome State Fault Refusal) = .next _
  simp only [hboot, hrun, Bool.not_true, Bool.false_eq_true, if_false]

end Sys2Proof.Machine
end
section
/-!
PROOFS. The commit of the window table (R290): what a write of TILE_WIN_COMMIT starts, what the commit holds at its tick, and what
takes effect once its ranges are drained.
-/
namespace Sys2Proof.NMap
variable {α : Type}

theorem find?_foldl_insert_of_not_mem {l : List (Nat × α)} {k : Nat} (h : ∀ v, (k, v) ∉ l) (m : NMap α) :
    find? (l.foldl (fun m x => insert m x.1 x.2) m) k = find? m k := by
  induction l generalizing m with
  | nil => rfl
  | cons x t ih =>
    have hk : k ≠ x.1 := by rintro rfl; exact h x.2 List.mem_cons_self
    rw [List.foldl_cons, ih fun v hv => h v (List.mem_cons_of_mem _ hv), find?_insert_ne _ _ hk]

/-- Entries put in one after the other, of which all with the key agree, over a map that may hold the value already. -/
theorem find?_foldl_insert {l : List (Nat × α)} {k : Nat} {v : α} (h : ∀ w, (k, w) ∈ l → w = v) {m : NMap α}
    (hv : (k, v) ∈ l ∨ find? m k = some v) : find? (l.foldl (fun m x => insert m x.1 x.2) m) k = some v := by
  induction l generalizing m with
  | nil => simpa using hv
  | cons x t ih =>
    obtain ⟨j, u⟩ := x
    refine ih (fun w hw => h w (List.mem_cons_of_mem _ hw)) ?_
    by_cases hk : k = j
    · subst hk
      exact .inr (by rw [h u List.mem_cons_self, find?_insert_self])
    · rw [find?_insert_ne _ _ hk]
      exact hv.imp_left fun hmem => (List.mem_cons.1 hmem).resolve_left fun he => hk (congrArg Prod.fst he)

/-- From nothing, what is put in is what is found. -/
theorem find?_foldl_insert_nil {l : List (Nat × α)} {k : Nat} (h : ∀ v w, (k, v) ∈ l → (k, w) ∈ l → w = v) (v : α) :
    find? (l.foldl (fun m x => insert m x.1 x.2) []) k = some v ↔ (k, v) ∈ l := by
  refine ⟨fun hfind => ?_, fun hv => find?_foldl_insert (fun w hw => h v w hv hw) (.inl hv)⟩
  by_cases hex : ∃ w, (k, w) ∈ l
  · obtain ⟨w, hw⟩ := hex
    rw [find?_foldl_insert (fun u hu => h w u hw hu) (.inl hw)] at hfind
    exact Option.some.inj hfind ▸ hw
  · rw [find?_foldl_insert_of_not_mem fun w hw => hex ⟨w, hw⟩] at hfind
    cases hfind

end Sys2Proof.NMap
namespace Sys2Proof.Machine
open Sys2Proof.Safety

/-! ### The commit starts -/

theorem tileWinCommit_queues {s : State} (hrun : s.isSet .BRK_BRAKED = false) (hidle : s.isSet .TILE_WIN_BUSY = false) :
    Ends .tileWinCommit s (Queues ⟨9, deckIndex .TILE 0 * 2 ^ 20 + Field.TILE_WIN_COMMIT.spec.off, .windowCommit⟩ s) := by
  refine ⟨_, ?_, s.queues_later _ _ _⟩
  change (.next _ : Host.Outcome State Fault Refusal) = .next _
  simp only [hrun, hidle, Bool.false_eq_true, if_false]
  rfl

theorem tileWinCommit_counts {s : State} (hrun : s.isSet .BRK_BRAKED = false) (hbusy : s.isSet .TILE_WIN_BUSY = true) :
    Goes .tileWinCommit s (s.cfgErr .TILE) := by
  change (.next _ : Host.Outcome State Fault Refusal) = .next _
  simp only [hrun, hbusy, Bool.false_eq_true, if_false, if_true]

/-! ### The commit at its tick -/

/-- The shadow of a field of window `n` holds `v`, which is not the value in force. -/
def State.WinDiffers (s : State) (f : Field) (n v : Nat) : Prop := NMap.find? s.shadow (regKey f 0 n) = some v ∧ v ≠ s.reg f 0 n

/-- The fields of window `n` whose shadows differ, by key. -/
def State.winDiffs (s : State) (n : Nat) : NMap Nat := winFields.filterMap fun f =>
  (NMap.find? s.shadow (regKey f 0 n)).bind fun v => if v = s.reg f 0 n then none else some (regKey f 0 n, v)

/-- The windows with such fields. -/
def State.winChanged (s : State) : List Nat := (List.range 256).filter fun n => !(s.winDiffs n).isEmpty

theorem State.applyWindowCommit_eq (s : State) : applyAct .windowCommit s = { s.setReg .TILE_WIN_BUSY 1 with
    winEntries := s.winChanged,
    winNew := s.winChanged.foldl (fun m n => (s.winDiffs n).foldl (fun m x => NMap.insert m x.1 x.2) m) [] } := rfl

theorem State.mem_winDiffs {s : State} {n k v : Nat} :
    (k, v) ∈ s.winDiffs n ↔ ∃ f ∈ winFields, regKey f 0 n = k ∧ s.WinDiffers f n v := by
  simp only [State.winDiffs, List.mem_filterMap, Option.bind_eq_some_iff, Option.ite_none_left_eq_some, Option.some.injEq,
    Prod.mk.injEq, State.WinDiffers]
  constructor
  · rintro ⟨f, hf, w, hw, hne, hk, rfl⟩
    exact ⟨f, hf, hk, hw, hne⟩
  · rintro ⟨f, hf, hk, hw, hne⟩
    exact ⟨f, hf, v, hw, hne, hk, rfl⟩

theorem State.mem_winChanged {s : State} {n : Nat} : n ∈ s.winChanged ↔ n < 256 ∧ ∃ f ∈ winFields, ∃ v, s.WinDiffers f n v := by
  have hne : (!(s.winDiffs n).isEmpty) = true ↔ ∃ x, x ∈ s.winDiffs n := by
    rw [Bool.not_eq_true', List.isEmpty_eq_false_iff_exists_mem]
  rw [State.winChanged, List.mem_filter, List.mem_range, hne]
  refine and_congr_right fun _ => ⟨?_, ?_⟩
  · rintro ⟨⟨k, v⟩, hx⟩
    obtain ⟨f, hf, -, hd⟩ := State.mem_winDiffs.1 hx
    exact ⟨f, hf, v, hd⟩
  · rintro ⟨f, hf, v, hd⟩
    exact ⟨_, State.mem_winDiffs.2 ⟨f, hf, rfl, hd⟩⟩

/-- The new values that a commit holds are those of the shadows that differ. -/
theorem State.find?_winNew (s : State) {f : Field} (hf : f ∈ winFields) {n : Nat} (hn : n < 256) (v : Nat) :
    NMap.find? (applyAct .windowCommit s).winNew (regKey f 0 n) = some v ↔ s.WinDiffers f n v := by
  have hshadow : ∀ k w, (k, w) ∈ s.winChanged.flatMap s.winDiffs → NMap.find? s.shadow k = some w := fun k w hw => by
    obtain ⟨m, -, hm⟩ := List.mem_flatMap.1 hw
    obtain ⟨g, -, rfl, hd⟩ := State.mem_winDiffs.1 hm
    exact hd.1
  rw [s.applyWindowCommit_eq]
  change NMap.find? (s.winChanged.foldl (fun m n => (s.winDiffs n).foldl (fun m x => NMap.insert m x.1 x.2) m) []) _ = _ ↔ _
  rw [← List.foldl_flatMap, NMap.find?_foldl_insert_nil
    fun v w hv hw => Option.some.inj ((hshadow _ w hw).symm.trans (hshadow _ v hv))]
  constructor
  · intro hmem
    obtain ⟨m, -, hm⟩ := List.mem_flatMap.1 hmem
    obtain ⟨g, -, hk, hd⟩ := State.mem_winDiffs.1 hm
    obtain ⟨rfl, -, rfl⟩ := regKey_inj.1 hk
    exact hd
  · exact fun hd => List.mem_flatMap.2 ⟨n, State.mem_winChanged.2 ⟨hn, f, hf, v, hd⟩, State.mem_winDiffs.2 ⟨f, hf, rfl, hd⟩⟩

/-! ### The drain -/

theorem foldState_flatMap {σ α β : Type} (f : σ → β → σ) (g : α → List β) (l : List α) (s : σ) :
    foldState f (l.flatMap g) s = foldState (fun s a => foldState f (g a) s) l s := by
  induction l generalizing s with
  | nil => rfl
  | cons a l ih => rw [List.flatMap_cons, foldState_append, ih]; rfl

theorem foldState_map {σ α β : Type} (f : σ → β → σ) (g : α → β) (l : List α) (s : σ) :
    foldState f (l.map g) s = foldState (fun s a => f s (g a)) l s := by
  induction l generalizing s with
  | nil => rfl
  | cons a l ih => exact ih _

/-- The new value of a field of a window, where the commit has one, takes effect and is no longer a shadow. -/
def State.installField (s : State) (x : Nat × Field) : State := match NMap.find? s.winNew (regKey x.2 0 x.1) with
  | some v => { s.setReg x.2 v 0 x.1 with shadow := NMap.erase s.shadow (regKey x.2 0 x.1) }
  | none => s

/-- The fields of the windows listed, in the order in which they take effect. -/
def winPlaces (l : List Nat) : List (Nat × Field) := l.flatMap fun n => winFields.map fun f => (n, f)

theorem mem_winPlaces {l : List Nat} {n : Nat} {f : Field} : (n, f) ∈ winPlaces l ↔ n ∈ l ∧ f ∈ winFields := by
  simp [winPlaces]

@[simp] theorem State.winNew_installField (s : State) (x : Nat × Field) : (s.installField x).winNew = s.winNew := by
  unfold State.installField
  split <;> rfl

theorem State.reg_installField (s : State) (x : Nat × Field) (f : Field) (n : Nat) : (s.installField x).reg f 0 n =
    if (n, f) = x then (NMap.find? s.winNew (regKey f 0 n)).getD (s.reg f 0 n) else s.reg f 0 n := by
  obtain ⟨m, g⟩ := x
  cases hnew : NMap.find? s.winNew (regKey g 0 m) with
  | none =>
    simp only [State.installField, hnew]
    split
    · next he => cases he; simp [hnew]
    · rfl
  | some v =>
    have hreg : (s.installField (m, g)).reg f 0 n = (s.setReg g v 0 m).reg f 0 n := by
      simp only [State.installField, hnew]; rfl
    rw [hreg, State.reg_setReg]
    by_cases he : (n, f) = (m, g)
    · cases he; simp [hnew]
    · rw [if_neg he, if_neg (by rintro ⟨rfl, -, rfl⟩; exact he rfl)]

theorem State.shadow_installField (s : State) (x : Nat × Field) (k : Nat) : NMap.find? (s.installField x).shadow k =
    if k = regKey x.2 0 x.1 ∧ NMap.find? s.winNew k ≠ none then none else NMap.find? s.shadow k := by
  cases hnew : NMap.find? s.winNew (regKey x.2 0 x.1) with
  | none =>
    simp only [State.installField, hnew]
    rw [if_neg (by rintro ⟨rfl, hne⟩; exact hne hnew)]
  | some v =>
    simp only [State.installField, hnew]
    by_cases hk : k = regKey x.2 0 x.1
    · subst hk; simp [hnew]
    · simp [hk, NMap.find?_erase_ne _ hk]

theorem State.alters_installField (s : State) {x : Nat × Field} (hx : x.2 ∈ winFields) :
    Alters [.regs, .shadow] winFields s (s.installField x) := by
  unfold State.installField
  split
  · next v _ =>
    exact (s.alters_setReg x.2 v 0 x.1).comp (.of_regs (ch := [.shadow]) (by simp [Same]) rfl) (by simp) (by simp [hx])
  · exact .refl _ _ s

/-- The new values of the places listed are in force, and the other values are those of before. -/
theorem State.reg_installed (s : State) (l : List (Nat × Field)) (f : Field) (n : Nat) : (foldState State.installField l s).reg f 0 n =
    if (n, f) ∈ l then (NMap.find? s.winNew (regKey f 0 n)).getD (s.reg f 0 n) else s.reg f 0 n := by
  induction l generalizing s with
  | nil => simp [foldState]
  | cons x l ih =>
    rw [foldState, ih, State.winNew_installField, s.reg_installField]
    by_cases hx : (n, f) = x
    · cases NMap.find? s.winNew (regKey f 0 n) <;> simp [hx]
    · simp [hx]

theorem State.shadow_installed (s : State) {l : List (Nat × Field)} {f : Field} {n : Nat} (hmem : (n, f) ∈ l)
    (hnew : NMap.find? s.winNew (regKey f 0 n) ≠ none) : NMap.find? (foldState State.installField l s).shadow (regKey f 0 n) = none := by
  induction l generalizing s with
  | nil => cases hmem
  | cons x l ih =>
    rcases List.mem_cons.1 hmem with rfl | hmem
    · refine (foldState_keeps (p := fun t : State => t.winNew = s.winNew ∧ NMap.find? t.shadow (regKey f 0 n) = none) _ l _ ?_ ?_).2
      · exact ⟨s.winNew_installField _, by rw [s.shadow_installField, if_pos ⟨rfl, hnew⟩]⟩
      · exact fun t y ⟨hwin, hnone⟩ => ⟨(t.winNew_installField y).trans hwin, by rw [t.shadow_installField, hnone, ite_self]⟩
    · exact ih (s.installField x) hmem (by rwa [s.winNew_installField])

theorem State.alters_installed (s : State) (l : List Nat) :
    Alters [.regs, .shadow] winFields s (foldState State.installField (winPlaces l) s) :=
  foldState_keeps_of_mem (p := Alters _ _ s) _ _ s (.refl _ _ s) fun t x hx h =>
    h.trans (t.alters_installField (mem_winPlaces.1 (show (x.1, x.2) ∈ winPlaces l from hx)).2)

/-- The slot of a codec that a window names, where it is Staged through one. -/
def State.winSlot (s : State) (n : Nat) : Option Nat :=
  if s.isSet .TILE_WIN_VALID 0 n ∧ s.reg .TILE_WIN_TYPE 0 n = 2 ∧ s.reg .TILE_WIN_CMODE 0 n = 1 then some (s.reg .TILE_WIN_CSEL 0 n)
  else none

/-- A window that names a slot which it did not name before is an allocation of that slot (R671). -/
def State.nameSlot (old s : State) (n : Nat) : State := match s.winSlot n with
  | some slot => if old.winSlot n = some slot then s else s.issue 10 slot
  | none => s

theorem State.alters_nameSlot (old s : State) (n : Nat) : Alters [.mgc] [] s (State.nameSlot old s n) := by
  unfold State.nameSlot
  split
  · split
    · exact .refl _ _ s
    · exact s.alters_issue _ _ _
  · exact .refl _ _ s

/-- A core without the lines of its instruction cache that `hit` picks. -/
def Core.dropFetched (hit : Nat → Bool) (co : Core) : Core := { co with ic := co.ic.filter fun x => !hit x.2.line }

def State.dropFetched (s : State) (hit : Nat → Bool) : State := { s with cores := s.cores.map fun c => (c.1, c.2.dropFetched hit) }

theorem State.core_dropFetched (s : State) (hit : Nat → Bool) (c : Nat) : (s.dropFetched hit).core c = (s.core c).dropFetched hit := by
  unfold State.core State.dropFetched NMap.get
  rw [NMap.find?_map]
  cases NMap.find? s.cores c <;> rfl

theorem State.alters_dropFetched (s : State) (hit : Nat → Bool) : Alters [.cores] [] s (s.dropFetched hit) :=
  .of_regs (by simp [Same, State.dropFetched]) rfl

/-- Where no cluster cache holds a line of the ranges, cleaning drops fetched lines alone. -/
theorem State.cleanLines_of_miss {s : State} {hit : Nat → Bool} (h : ∀ c ∈ s.clus, ∀ x ∈ c.2.cc, hit x.2.line = false) :
    s.cleanLines hit = s.dropFetched hit := by
  unfold State.cleanLines
  rw [foldState_fixed (l := s.clus) fun c hc => foldState_fixed fun x hx => by simp [h c hc x hx]]
  rfl

theorem State.winBusy_dropFetched (s : State) (hit : Nat → Bool) : (s.dropFetched hit).winBusy = s.winBusy := by
  unfold State.winBusy State.dropFetched
  simp only [List.any_map]
  rfl

/-- All changed windows take effect. -/
def State.installWindows (s : State) : State :=
  foldState (fun s n => foldState (fun s f => s.installField (n, f)) winFields s) s.winEntries s

theorem State.installWindows_eq (s : State) : s.installWindows = foldState State.installField (winPlaces s.winEntries) s := by
  rw [winPlaces, foldState_flatMap]
  simp only [foldState_map]
  rfl

/-- The commit ends: the slots named are counted, and so is the commit. -/
def State.commitWindows (s : State) : State :=
  { ((foldState (State.nameSlot s) s.winEntries s.installWindows).setReg .TILE_WIN_BUSY 0).count .TILE_WIN_COMMITS with
    winEntries := [], winNew := [] }

theorem exec_windowDrainDone (s : State) : exec .windowDrainDone s = .next (
    if !s.isSet .TILE_WIN_BUSY || s.stopped 2 then s else
    let hit (line : Nat) : Bool := s.winHeld (s.normalise (128 * line))
    let clean := s.cleanLines hit
    if clean.winBusy || clean.clus.any fun c => c.2.cc.any fun x => hit x.2.line then clean else clean.commitWindows) := rfl

theorem windowDrainDone_goes {s : State} (hbusy : s.isSet .TILE_WIN_BUSY = true) (hrun : s.stopped 2 = false) (hidle : s.winBusy = false)
    {hit : Nat → Bool} (hhit : (fun line => s.winHeld (s.normalise (128 * line))) = hit)
    (hmiss : ∀ c ∈ s.clus, ∀ x ∈ c.2.cc, hit x.2.line = false) : Goes .windowDrainDone s (s.dropFetched hit).commitWindows := by
  have hleft : ((s.dropFetched hit).clus.any fun c => c.2.cc.any fun x => hit x.2.line) = false := by
    simpa [State.dropFetched] using hmiss
  have hwait := (s.winBusy_dropFetched hit).trans hidle
  rw [Goes, exec_windowDrainDone]
  simp only [congrFun hhit, hbusy, hrun, State.cleanLines_of_miss hmiss, hwait, hleft, Bool.not_true, Bool.or_false,
    Bool.false_eq_true, if_false]

/-! ### What the drain leaves -/

theorem State.alters_commitWindows (s : State) : Alters [.regs, .shadow, .mgc, .winEntries, .winNew]
    (.TILE_WIN_BUSY :: .TILE_WIN_COMMITS :: winFields) s s.commitWindows := by
  have hinst : Alters [.regs, .shadow] winFields s s.installWindows := s.installWindows_eq ▸ s.alters_installed s.winEntries
  have hname := Alters.foldState (State.alters_nameSlot s) s.winEntries s.installWindows
  have hcount := ((State.alters_setReg (foldState (State.nameSlot s) s.winEntries s.installWindows) .TILE_WIN_BUSY 0 0 0).mono
    (fs' := [.TILE_WIN_BUSY, .TILE_WIN_COMMITS]) (List.Subset.refl _) (by decide)).trans
    ((State.alters_count _ .TILE_WIN_COMMITS 0 0 1).mono (List.Subset.refl _) (by decide))
  have hend : Alters [.winEntries, .winNew] [] _ s.commitWindows :=
    .of_regs (s := ((foldState (State.nameSlot s) s.winEntries s.installWindows).setReg .TILE_WIN_BUSY 0).count .TILE_WIN_COMMITS)
      (by simp [Same, State.commitWindows]) rfl
  exact (((hinst.comp hname (ch := [.regs, .shadow, .mgc]) (fs := winFields) (by decide) (by decide)).comp hcount
    (ch := [.regs, .shadow, .mgc]) (fs := .TILE_WIN_BUSY :: .TILE_WIN_COMMITS :: winFields) (by decide) (by decide)).comp hend
    (by decide) (by decide))

/-- A field of a window after the drain. -/
theorem State.reg_commitWindows (s : State) {f : Field} (hf : f ∈ winFields) (n : Nat) : s.commitWindows.reg f 0 n =
    if n ∈ s.winEntries then (NMap.find? s.winNew (regKey f 0 n)).getD (s.reg f 0 n) else s.reg f 0 n := by
  have hne : f ≠ .TILE_WIN_BUSY ∧ f ≠ .TILE_WIN_COMMITS := by
    constructor <;> rintro rfl <;> exact absurd hf (by decide)
  have hname := Alters.foldState (State.alters_nameSlot s) s.winEntries s.installWindows
  calc s.commitWindows.reg f 0 n
      = (foldState (State.nameSlot s) s.winEntries s.installWindows).reg f 0 n :=
        ((State.alters_count _ .TILE_WIN_COMMITS 0 0 1).reg f 0 n (by simpa using hne.2)).trans
          ((State.alters_setReg _ .TILE_WIN_BUSY 0 0 0).reg f 0 n (by simpa using hne.1))
    _ = s.installWindows.reg f 0 n := hname.reg f 0 n (by simp)
    _ = _ := by rw [s.installWindows_eq, State.reg_installed]; simp [mem_winPlaces, hf]

theorem State.shadow_commitWindows (s : State) {f : Field} (hf : f ∈ winFields) {n : Nat} (hn : n ∈ s.winEntries)
    (hnew : NMap.find? s.winNew (regKey f 0 n) ≠ none) : NMap.find? s.commitWindows.shadow (regKey f 0 n) = none := by
  have hname : (foldState (State.nameSlot s) s.winEntries s.installWindows).shadow = s.installWindows.shadow :=
    (Alters.foldState (State.alters_nameSlot s) s.winEntries s.installWindows).agree .shadow (by decide)
  change NMap.find? (foldState (State.nameSlot s) s.winEntries s.installWindows).shadow _ = none
  rw [hname, s.installWindows_eq]
  exact s.shadow_installed (mem_winPlaces.2 ⟨hn, hf⟩) hnew

theorem State.busy_commitWindows (s : State) : s.commitWindows.reg .TILE_WIN_BUSY = 0 :=
  ((State.alters_count _ .TILE_WIN_COMMITS 0 0 1).reg .TILE_WIN_BUSY 0 0 (by decide)).trans (State.reg_setReg_self _ _ _ _ _)

theorem State.commits_commitWindows (s : State) : s.commitWindows.reg .TILE_WIN_COMMITS = satAdd32 (s.reg .TILE_WIN_COMMITS) 1 := by
  have hbefore : ((foldState (State.nameSlot s) s.winEntries s.installWindows).setReg .TILE_WIN_BUSY 0).reg .TILE_WIN_COMMITS
      = s.reg .TILE_WIN_COMMITS := by
    have hinst : Alters [.regs, .shadow] winFields s s.installWindows := s.installWindows_eq ▸ s.alters_installed s.winEntries
    rw [State.reg_setReg_ne _ _ _ _ _ _ (by decide),
      (Alters.foldState (State.alters_nameSlot s) s.winEntries s.installWindows).reg _ _ _ (by decide), hinst.reg _ _ _ (by decide)]
  calc s.commitWindows.reg .TILE_WIN_COMMITS
      = (((foldState (State.nameSlot s) s.winEntries s.installWindows).setReg .TILE_WIN_BUSY 0).count .TILE_WIN_COMMITS).reg
          .TILE_WIN_COMMITS := rfl
    _ = _ := by rw [State.reg_count, if_pos ⟨rfl, rfl, rfl⟩, hbefore]

end Sys2Proof.Machine
end
section
/-!
PROOFS. Dead agents (R338–R341): a declaration reaches the dead-agent table and every home, a walk gives up a dead owner's line, and
losses are reported.
-/
namespace Sys2Proof.Machine
open Sys2Proof.Safety

/-! ### A declaration -/

/-- Whether a declaration concerns an agent. -/
def DeadEntry.hits (d : DeadEntry) (x : Agent) : Bool := d.names x || (d.all && x.tile == d.agent.tile)

/-- A PENDING line of a home without the agents that a declaration concerns. -/
def HomeSt.unhang (hs : HomeSt) (d : DeadEntry) (t : Txn) : Txn :=
  foldState (fun t x => if d.hits x then dropWaiter (hs.ownerOf t.ls) x t else t) t.wait t

/-- A home that is told of a declaration. -/
def HomeSt.told (d : DeadEntry) (hs : HomeSt) : HomeSt :=
  { hs with inbound := hs.inbound.filter (fun m => !d.hits m.agent),
            txns := hs.txns.map (hs.unhang d), walks := if hs.walks = 0 then 1 else 2, reclaim := hs.reclaim ++ [d] }

/-- The declaration of an agent, or of all agents of its tile, made now. -/
def State.declaration (s : State) (a : Agent) (all : Bool) : DeadEntry :=
  { agent := if all then ⟨a.tile, 0⟩ else a, all := all, time := s.time.now }

theorem State.home_foldHomes (s : State) (f : HomeSt → HomeSt) (n j : Nat) :
    (foldState (fun s j => s.onHome j f) (List.range n) s).home j = if j < n then f (s.home j) else s.home j := by
  refine foldState_range (p := fun n t => ∀ j, t.home j = if j < n then f (s.home j) else s.home j) _ s (fun _ => rfl) n
    (fun i _ t ht j => ?_) j
  rw [State.home_onHome, ht, ht]
  rcases Nat.lt_trichotomy j i with hlt | rfl | hgt
  · simp [hlt, hlt.ne, hlt.trans (Nat.lt_succ_self i)]
  · simp
  · simp [hgt.ne', Nat.not_lt_of_gt hgt, Nat.not_lt.2 hgt]

/-- A new agent enters a table that has room, and every home is told. -/
theorem State.declareDead_new {s : State} {a : Agent} {all : Bool} {d : DeadEntry} (hd : s.declaration a all = d)
    (hnew : ∀ x ∈ s.dead, ¬(x.agent = d.agent ∧ x.all = d.all)) (hroom : s.dead.length < 1024) (k : Nat) : s.declareDead k a all =
      foldState (fun s j => s.onHome j (HomeSt.told d)) (List.range 8) { s with dead := s.dead ++ [d] } := by
  have hunknown : (s.dead.any fun x => x.agent == d.agent && x.all == d.all) = false := by simpa using hnew
  have htile : ∀ x : Agent, (d.names x || (all && x.tile == a.tile)) = d.hits x := fun x => by
    subst hd
    cases all <;> rfl
  subst hd
  unfold State.declareDead
  dsimp only
  simp only [State.declaration] at hunknown htile
  rw [hunknown, if_neg Bool.false_ne_true, if_pos hroom]
  simp only [htile]
  rfl

/-- What a declaration leaves, with nothing that waits at a home: the agent is in the table and in every home's next walk. -/
def Dies (s : State) (d : DeadEntry) (t : State) : Prop := t.dead = s.dead ++ [d] ∧ Same [.dead, .homes] s t
  ∧ ∀ j < 8, (t.home j).walks = (if (s.home j).walks = 0 then 1 else 2) ∧ (t.home j).reclaim = (s.home j).reclaim ++ [d]
    ∧ (t.home j).dir = (s.home j).dir

/-- What a declaration leaves does not depend on a home that is written over itself. -/
theorem Dies.onHome {s t : State} {d : DeadEntry} (h : Dies s d t) {k : Nat} {f : HomeSt → HomeSt}
    (hf : ∀ j, (t.onHome k f).home j = t.home j) : Dies s d (t.onHome k f) := by
  obtain ⟨hdead, hsame, hhomes⟩ := h
  refine ⟨hdead, hsame.trans ((t.alters_onHome k f).1.mono (by decide)), fun j hj => ?_⟩
  rw [hf]
  exact hhomes j hj

section
variable {s : State} {a : Agent} {all : Bool} {d : DeadEntry} (hd : s.declaration a all = d)
  (hnew : ∀ x ∈ s.dead, ¬(x.agent = d.agent ∧ x.all = d.all)) (hroom : s.dead.length < 1024)
include hd hnew hroom

theorem State.home_declareDead (k : Nat) {j : Nat} (hj : j < 8) : (s.declareDead k a all).home j = (s.home j).told d := by
  rw [State.declareDead_new hd hnew hroom, State.home_foldHomes, if_pos hj]
  rfl

theorem dies_declareDead (k : Nat) : Dies s d (s.declareDead k a all) := by
  have hfold := Alters.foldState (fun s j => State.alters_onHome s j (HomeSt.told d)) (List.range 8) { s with dead := s.dead ++ [d] }
  refine ⟨?_, ?_, fun j hj => ?_⟩
  · rw [State.declareDead_new hd hnew hroom]
    exact hfold.agree .dead (by decide)
  · rw [State.declareDead_new hd hnew hroom]
    exact Same.trans (t := { s with dead := s.dead ++ [d] }) (by simp [Same]) (hfold.1.mono (by decide))
  · rw [State.home_declareDead hd hnew hroom k hj]
    exact ⟨rfl, rfl, rfl⟩

end

/-- Homes at which nothing can go on are not moved on. -/
theorem pumpHomes_of_idle {s : State} (h : ∀ j < 8, (s.home j).Idle) : foldState (fun s (j : Nat) => s.pumpHome j) (List.range 8) s = s :=
  foldState_fixed fun j hj => State.pumpHome_of_idle (h j (List.mem_range.1 hj))

theorem HomeSt.told_idle {hs : HomeSt} (hin : hs.inbound = []) (htx : hs.txns = []) (d : DeadEntry) : (hs.told d).Idle := by
  simp [HomeSt.Idle, HomeSt.told, hin, htx]

/-! ### What declares an agent dead -/

/-- A home with a PENDING line replaced. -/
def HomeSt.replace (hs : HomeSt) (t t' : Txn) : HomeSt := { hs with txns := hs.txns.map fun x => if x = t then t' else x }

theorem HomeSt.replace_absent {hs : HomeSt} {t : Txn} (h : t ∉ hs.txns) (t' : Txn) : hs.replace t t' = hs := by
  unfold HomeSt.replace
  have hmap : (hs.txns.map fun x => if x = t then t' else x) = hs.txns :=
    (List.map_congr_left fun x hx => if_neg (ne_of_mem_of_not_mem hx h)).trans (List.map_id' _)
  rw [hmap]

/-- An agent that owes an overdue answer is declared dead, and the home then goes on without it. -/
theorem exec_snoopDeadline {s : State} {k : Fin 8} {ls : Nat} {a : Agent} {t : Txn} (hrun : s.stopped 2 = false)
    (hfind : (s.home k).txns.find? (fun t => t.ls == ls && t.wait.contains a) = some t) (hdue : t.due ≤ s.time.bnd)
    (hunit : a.unit < 64) : exec (.snoopDeadline k ls a) s = .next (foldState (fun s (j : Nat) => s.pumpHome j) (List.range 8)
      ((s.declareDead k a false).onHome k fun hs =>
        hs.replace t (dropWaiter (((s.declareDead k a false).home k).ownerOf ls) a t))) := by
  have hone : (a.unit == 64) = false := by simp; omega
  change (.next _ : Host.Outcome State Fault Refusal) = .next _
  simp only [hrun, hfind, hone, Bool.false_eq_true, if_false, if_neg (Nat.not_lt.2 hdue)]
  rfl

/-- Of two agents that a PENDING line waits for, the one declared dead is waited for no more. -/
theorem HomeSt.unhang_first (hs : HomeSt) {a b : Agent} {t : Txn} (hwait : t.wait = [a, b]) (hne : a ≠ b) (time : Nat) :
    hs.unhang { agent := a, all := false, time := time } t = { t with wait := [b], lost := t.lost || hs.ownerOf t.ls == some a } := by
  simp [HomeSt.unhang, hwait, foldState, DeadEntry.hits, DeadEntry.names, dropWaiter, hne, hne.symm]

section
variable {s : State} (hrun : s.stopped 2 = false) (hroom : s.dead.length < 1024) (hin : ∀ j < 8, (s.home j).inbound = [])
include hrun hroom hin

/-- A tile without a route. -/
theorem routeLossTimeout_ends (htx : ∀ j < 8, (s.home j).txns = []) {d : Fin 65536} {e : Nat} (hlive : s.isDead ⟨some d, 0⟩ = false)
    (hent : s.routeEnt (s.reg .RTE_ACTIVE) d = some e)
    (hdown : ∀ n < 64, e.testBit n → s.linkUp n = false ∧ (s.cpl n).downAt + 100000 ≤ s.time.bnd) :
    Ends (.routeLossTimeout d) s (Dies s { agent := ⟨some d, 0⟩, all := true, time := s.time.now }) := by
  have hnew : ∀ x ∈ s.dead, ¬(x.agent = ⟨some d.val, 0⟩ ∧ x.all = true) := fun x hx ⟨hag, hall⟩ => by
    have := List.any_eq_false.1 hlive x hx
    simp [DeadEntry.names, hag] at this
  have hall : (numsWhere 64 e.testBit).all
      (fun n => !s.linkUp n && decide ((s.cpl n).downAt + ticksOfUs 1000 ≤ s.time.bnd)) = true := by
    simp only [numsWhere, List.all_eq_true, List.mem_filter, List.mem_range]
    intro n ⟨hn, hbit⟩
    obtain ⟨hdn, hlong⟩ := hdown n hn hbit
    simp [hdn, ticksOfUs, hlong]
  have hidle := pumpHomes_of_idle (s := s.declareDead 0 ⟨some d, 0⟩ true) fun j hj => by
    rw [State.home_declareDead rfl hnew hroom 0 hj]
    exact HomeSt.told_idle (hin j hj) (htx j hj) _
  refine ⟨_, ?_, dies_declareDead (a := ⟨some d, 0⟩) (all := true) rfl hnew hroom 0⟩
  refine .trans ?_ (congrArg Host.Outcome.next hidle)
  change (.next _ : Host.Outcome State Fault Refusal) = .next _
  simp only [hrun, hlive, hent, hall, Bool.false_eq_true, or_self, if_false, if_true]

/-- A command. -/
theorem memDeadDeclare_ends (htx : ∀ j < 8, (s.home j).txns = []) {id c : Nat} (hag : s.reg .MEM_DEAD_AGENT = 64 * id + c)
    (hid : id < 0xFFFF) (hc : c < 64) (hother : s.tileId ≠ some id) (hone : s.reg .MEM_DEAD_ALL = 0)
    (hnew : ∀ d ∈ s.dead, d.agent ≠ ⟨some id, c⟩) :
    Ends .memDeadDeclare s (Dies s { agent := ⟨some id, c⟩, all := false, time := s.time.now }) := by
  have htile : s.reg .MEM_DEAD_AGENT / 64 % 65536 = id := by omega
  have hunit : s.reg .MEM_DEAD_AGENT % 64 = c := by omega
  have hsome : ¬(id = 0xFFFF ∨ s.tileId = some id) := fun h => h.elim (by omega) hother
  have hall : s.isSet .MEM_DEAD_ALL = false := by simp [State.isSet, hone]
  have hnew' : ∀ x ∈ s.dead, ¬(x.agent = (⟨some id, c⟩ : Agent) ∧ x.all = false) := fun x hx h => hnew x hx h.1
  have hidle := pumpHomes_of_idle (s := s.declareDead 0 ⟨some id, c⟩ false) fun j hj => by
    rw [State.home_declareDead rfl hnew' hroom 0 hj]
    exact HomeSt.told_idle (hin j hj) (htx j hj) _
  refine ⟨_, ?_, dies_declareDead (a := ⟨some id, c⟩) (all := false) rfl hnew' hroom 0⟩
  refine .trans ?_ (congrArg Host.Outcome.next hidle)
  change (.next _ : Host.Outcome State Fault Refusal) = .next _
  simp only [hrun, Bool.false_eq_true, if_false, State.declareAgent, htile, hunit, hall, if_neg hsome]

/-- An overdue snoop. -/
theorem snoopDeadline_ends {k : Fin 8} {ls : Nat} {a b : Agent} {t0 : Txn} (htx : (s.home k).txns = [t0])
    (hothers : ∀ j < 8, j ≠ k.val → (s.home j).txns = []) (hls : t0.ls = ls) (hwait : t0.wait = [a, b]) (hne : a ≠ b) (hunit : a.unit < 64)
    (hdue : t0.due ≤ s.time.bnd) (hnew : ∀ d ∈ s.dead, d.agent ≠ a) :
    Ends (.snoopDeadline k ls a) s fun t => Dies s { agent := a, all := false, time := s.time.now } t
      ∧ (t.home k).txns = [{ t0 with wait := [b], lost := t0.lost || (s.home k).ownerOf ls == some a }] := by
  have hnew' : ∀ x ∈ s.dead, ¬(x.agent = a ∧ x.all = false) := fun x hx h => hnew x hx h.1
  let d : DeadEntry := { agent := a, all := false, time := s.time.now }
  let t1 : Txn := { t0 with wait := [b], lost := t0.lost || (s.home k).ownerOf ls == some a }
  have hhome (j : Nat) (hj : j < 8) : (s.declareDead k a false).home j = (s.home j).told d :=
    State.home_declareDead (a := a) (all := false) rfl hnew' hroom k hj
  have htxk : ((s.declareDead k a false).home k).txns = [t1] := by
    rw [hhome k k.isLt]
    simp [HomeSt.told, htx, HomeSt.unhang_first _ hwait hne, hls, d, t1]
  have hother : t1 ≠ t0 := fun h => by simpa [t1, hwait] using congrArg Txn.wait h
  let t' := dropWaiter (((s.declareDead k a false).home k).ownerOf ls) a t0
  have hsame : ((s.declareDead k a false).home k).replace t0 t' = (s.declareDead k a false).home k :=
    HomeSt.replace_absent (by simpa [htxk] using hother.symm) t'
  have hu (j : Nat) : ((s.declareDead k a false).onHome k fun hs => hs.replace t0 t').home j = (s.declareDead k a false).home j := by
    rw [State.home_onHome, hsame]
    split
    · next hj => rw [hj]
    · rfl
  have hidle : ∀ j < 8, (((s.declareDead k a false).onHome k fun hs => hs.replace t0 t').home j).Idle := fun j hj => by
    rw [hu, hhome j hj]
    by_cases hjk : j = k
    · rw [hjk, ← hhome k k.isLt]
      refine ⟨?_, by simp [htxk, t1]⟩
      rw [hhome k k.isLt]
      simp [HomeSt.told, hin k k.isLt]
    · exact HomeSt.told_idle (hin j hj) (hothers j hj hjk) d
  have hfind : (s.home k).txns.find? (fun t => t.ls == ls && t.wait.contains a) = some t0 := by simp [htx, hls, hwait]
  have hdies : Dies s d (s.declareDead k a false) := dies_declareDead (a := a) (all := false) rfl hnew' hroom k
  refine ⟨_, (exec_snoopDeadline hrun hfind hdue hunit).trans (congrArg _ (pumpHomes_of_idle hidle)), hdies.onHome hu, ?_⟩
  rw [hu]
  exact htxk

end

/-! ### The walk -/

/-- The first range of lost lines, of the line at an offset. -/
def DeadEntry.firstLoss (d : DeadEntry) (o found : Nat) : LossRange :=
  ⟨d.agent, d.all, d.time, o / 128, 1, found⟩

theorem State.addLoss_first {s : State} {k : Nat} (hnone : (s.home k).losses = []) (d : DeadEntry) (o : Nat) :
    s.addLoss k d o = s.onHome k fun hs => { hs with losses := [d.firstLoss o s.time.bnd] } := by
  simp only [State.addLoss, hnone, List.getLast?_nil, DeadEntry.firstLoss]

/-- A line whose granules are all lost, which is counted. -/
def State.wiped (s : State) (k ls : Nat) : State :=
  (s.writeLine (offsetOfLs k ls) (poisoned 128 .lost)).count .MEM_LOST_LINES_CNT k

section
variable {s : State} {k ls : Nat} (hlive : s.retiredAt (offsetOfLs k ls) = false)
include hlive

theorem State.alters_wiped : Alters [.mem, .regs] [.MEM_LOST_LINES_CNT] s (s.wiped k ls) :=
  (s.alters_writeLine hlive _).comp (State.alters_count _ .MEM_LOST_LINES_CNT k 0 1) (by decide) (by decide)

theorem State.lost_wiped : (s.wiped k ls).reg .MEM_LOST_LINES_CNT k = satAdd32 (s.reg .MEM_LOST_LINES_CNT k) 1 := by
  unfold State.wiped
  rw [State.reg_count, if_pos ⟨rfl, rfl, rfl⟩, (s.alters_writeLine hlive _).reg _ _ _ (by decide)]

theorem onlyGrans_wiped : OnlyGrans ((List.range 4).map (offsetOfLs k ls / 128 * 4 + ·)) s (s.wiped k ls) :=
  (writeLine_spec s hlive (by simp [poisoned])).1.congr rfl ((State.alters_count _ .MEM_LOST_LINES_CNT k 0 1).agree .mem (by decide))

theorem decodeGran_wiped {i : Nat} (hi : i < 4) :
    decodeGran (s.wiped k ls).mem (offsetOfLs k ls / 128 * 4 + i) = some ⟨.lost, List.replicate 32 0, false⟩ := by
  have hmem : (s.wiped k ls).mem = (s.writeLine (offsetOfLs k ls) (poisoned 128 .lost)).mem :=
    (State.alters_count _ .MEM_LOST_LINES_CNT k 0 1).agree .mem (by decide)
  have hgran : (poisoned 128 .lost).gran.getD i .good = .lost := by interval_cases i <;> rfl
  rw [hmem, (writeLine_spec s hlive (by simp [poisoned])).2 i hi, hgran]
  rfl

/-- The line that a home gives up first. -/
theorem State.loseLine_first (hnone : (s.home k).losses = []) (d : DeadEntry) : s.loseLine k ls d = (s.wiped k ls).onHome k fun hs =>
    { hs with losses := [d.firstLoss (offsetOfLs k ls) (s.wiped k ls).time.bnd] } := by
  have hnone' : ((s.wiped k ls).home k).losses = [] := by
    rw [State.home_congr ((State.alters_wiped hlive).agree .homes (by decide)) k, hnone]
  rw [← State.addLoss_first hnone']
  simp only [State.loseLine, hlive, Bool.false_eq_true, if_false]
  rfl

end

/-- The entry of a dead owner's line is freed, and the line is lost. -/
theorem State.reclaimEntry_of_dead {s : State} {k key : Nat} {e : DirEntry} {a : Agent} {d : DeadEntry} (htx : (s.home k).txns = [])
    (hst : e.st = .excl) (hown : e.owner = some a) (hdead : s.deadOf k a = some d) :
    s.reclaimEntry k key e = (s.loseLine k e.ls d).freeEntry k e.ls := by
  simp [State.reclaimEntry, HomeSt.not_pending htx, hown, hdead, hst]

theorem State.freeEntry_of_find {s : State} {k ls key : Nat} {e : DirEntry} (h : (s.home k).find ls = some (key, e)) :
    s.freeEntry k ls = s.onHome k fun hs => { hs with dir := NMap.erase hs.dir key } := by
  simp [State.freeEntry, h]

/-- Outside an ACTIVE context a report goes nowhere (R533). -/
theorem State.reportLoss_inactive {s : State} {k : Nat} (hne : (s.home k).losses ≠ []) (hctx : s.reg .CTX_STATE ≠ 1) :
    s.reportLoss k = s.onHome k fun hs => { hs with losses := [] } := by
  unfold State.reportLoss
  split
  · next hnone => exact absurd hnone hne
  · rw [State.postEvent_inactive hctx]

/-- The end of a walk over a directory with one entry, whose line a dead agent owns. -/
theorem reclaimWalkDone_goes {s x : State} {k : Fin 8} {key : Nat} {e : DirEntry} {a : Agent} {d : DeadEntry} (hrun : s.stopped 2 = false)
    (hwalks : (s.home k).walks ≠ 0) (hretire : NMap.find? s.mem.retire k = none) (htx : (s.home k).txns = [])
    (hdir : (s.home k).dir = [(key, e)]) (hst : e.st = .excl) (hown : e.owner = some a) (hdead : s.deadOf k a = some d)
    (hx : x = ((s.loseLine k e.ls d).freeEntry k e.ls).onHome k fun hs =>
      { hs with walks := hs.walks - 1, reclaim := if hs.walks = 1 then [] else hs.reclaim }) (hidle : (x.home k).Idle) :
    Goes (.reclaimWalkDone k) s (x.reportLoss k) := by
  have hfind : NMap.find? [(key, e)] key = some e := by simp [NMap.find?]
  have hpump := State.pumpHome_of_idle hidle
  subst hx
  refine .trans ?_ (congrArg (fun u : State => Host.Outcome.next (u.reportLoss k)) hpump)
  change (.next _ : Host.Outcome State Fault Refusal) = .next _
  rw [if_neg (by simp [hrun, hwalks, hretire])]
  simp only [hdir, foldState, hfind, State.reclaimEntry_of_dead htx hst hown hdead]

/-- A home after a walk that gave up its only line, with nothing to report any more. -/
def HomeSt.walked (key : Nat) (hs : HomeSt) : HomeSt :=
  { hs with dir := NMap.erase hs.dir key, walks := hs.walks - 1, reclaim := if hs.walks = 1 then [] else hs.reclaim, losses := [] }

theorem reclaimWalkDone_ends {s w : State} {k : Fin 8} {key : Nat} {e : DirEntry} {a : Agent} {d : DeadEntry} {r : LossRange}
    (hrun : s.stopped 2 = false) (hwalks : (s.home k).walks ≠ 0) (hretire : NMap.find? s.mem.retire k = none)
    (htx : (s.home k).txns = []) (hin : (s.home k).inbound = []) (hdir : (s.home k).dir = [(key, e)])
    (hfind : (s.home k).find e.ls = some (key, e)) (hst : e.st = .excl) (hown : e.owner = some a) (hdead : s.deadOf k a = some d)
    (hlose : s.loseLine k e.ls d = w.onHome k fun hs => { hs with losses := [r] }) (hw : w.home k = s.home k)
    (hctx : w.reg .CTX_STATE ≠ 1) :
    Ends (.reclaimWalkDone k) s fun t => WithinHome [] k w t ∧ t.home k = (s.home k).walked key := by
  let y := w.onHome k fun hs => { hs with losses := [r] }
  let z := y.onHome k fun hs => { hs with dir := NMap.erase hs.dir key }
  let x := z.onHome k fun hs => { hs with walks := hs.walks - 1, reclaim := if hs.walks = 1 then [] else hs.reclaim }
  have hy : y.home k = { s.home k with losses := [r] } := by rw [State.home_onHome_self, hw]
  have hfree : (s.loseLine k e.ls d).freeEntry k e.ls = z := by
    rw [hlose]
    exact State.freeEntry_of_find (by rw [hy]; exact hfind)
  have hx : x.home k = { (s.home k).walked key with losses := [r] } := by
    rw [State.home_onHome_self, State.home_onHome_self, hy]
    rfl
  have hgo := reclaimWalkDone_goes hrun hwalks hretire htx hdir hst hown hdead (x := x) (by rw [hfree])
    ⟨by rw [hx]; exact hin, by rw [hx]; simp [HomeSt.walked, htx]⟩
  have hwx : WithinHome [] k w x :=
    ((w.withinHome_onHome k _).trans (y.withinHome_onHome k _)).trans (z.withinHome_onHome k _)
  have hregs : x.regs = w.regs := same_iff.1 hwx.1 .regs (by decide)
  have hreport := State.reportLoss_inactive (k := k) (by simp [hx]) ((State.reg_congr hregs .CTX_STATE 0 0).trans_ne hctx)
  rw [hreport] at hgo
  refine ⟨_, hgo, hwx.trans (x.withinHome_onHome k _), ?_⟩
  rw [State.home_onHome_self, hx]
  rfl

/-! ### Loss reports -/

theorem lossReport_posts {s : State} {k : Fin 8} {r : LossRange} {rest : List LossRange} (hrun : s.stopped 2 = false)
    (hloss : (s.home k).losses = r :: rest) (hlong : r.found + 100000 ≤ s.time.bnd) : Goes (.lossReport k) s
      ((s.postEvent (deckIndex .MEM k) (lossPayload k (r :: rest))).setHome k { s.home k with losses := [] }) := by
  have hhome : (s.postEvent (deckIndex .MEM k) (lossPayload k (r :: rest))).home k = s.home k :=
    State.home_congr (same_iff.1 (s.onlyPosts_postEvent _ _).1 .homes (by decide)) k
  have hreport : s.reportLoss k
      = (s.postEvent (deckIndex .MEM k) (lossPayload k (r :: rest))).setHome k { s.home k with losses := [] } := by
    simp only [State.reportLoss, hloss, State.onHome, hhome]
  refine .trans ?_ (congrArg Host.Outcome.next hreport)
  change (.next _ : Host.Outcome State Fault Refusal) = .next _
  simp [hloss, hrun, ticksOfUs, hlong]

theorem lossReport_waits {s : State} {k : Fin 8} {r : LossRange} {rest : List LossRange} (hloss : (s.home k).losses = r :: rest)
    (hshort : s.time.bnd < r.found + 100000) (hfew : rest.length < 3) : Goes (.lossReport k) s s := by
  have hnot : ¬ 3 ≤ rest.length := by omega
  change (.next _ : Host.Outcome State Fault Refusal) = .next _
  simp [hloss, ticksOfUs, hnot, Nat.not_le.2 hshort]

end Sys2Proof.Machine
end
section
/-!
PROOFS. The statement about windows and deadlines, from what each of their steps does.
-/
namespace Sys2Proof.Machine
open Sys2Proof.Safety

/-- The end of a drain, part by part. -/
theorem windowDrainDone_ends {s : State} (hbusy : s.isSet .TILE_WIN_BUSY = true) (hrun : s.stopped 2 = false) (hidle : s.winBusy = false)
    {hit : Nat → Bool} (hhit : (fun line => s.winHeld (s.normalise (128 * line))) = hit)
    (hmiss : ∀ c ∈ s.clus, ∀ x ∈ c.2.cc, hit x.2.line = false) : Ends .windowDrainDone s fun t =>
      (∀ f ∈ winFields, ∀ n, t.reg f 0 n = if n ∈ s.winEntries then (NMap.find? s.winNew (regKey f 0 n)).getD (s.reg f 0 n) else s.reg f 0 n)
      ∧ t.reg .TILE_WIN_BUSY = 0 ∧ t.reg .TILE_WIN_COMMITS = satAdd32 (s.reg .TILE_WIN_COMMITS) 1
      ∧ SameRegs (.TILE_WIN_BUSY :: .TILE_WIN_COMMITS :: winFields) s t ∧ t.winEntries = [] ∧ t.winNew = []
      ∧ (∀ f ∈ winFields, ∀ n ∈ s.winEntries, NMap.find? s.winNew (regKey f 0 n) ≠ none → NMap.find? t.shadow (regKey f 0 n) = none)
      ∧ (∀ c, t.core c = { s.core c with ic := (s.core c).ic.filter fun x => !hit x.2.line })
      ∧ Same [.regs, .shadow, .cores, .mgc, .winEntries, .winNew] s t := by
  have hdrop := s.alters_dropFetched hit
  have hcommit := (s.dropFetched hit).alters_commitWindows
  refine ⟨_, windowDrainDone_goes hbusy hrun hidle hhit hmiss, fun f hf n => (s.dropFetched hit).reg_commitWindows hf n,
    State.busy_commitWindows _, State.commits_commitWindows _, hcommit.2, rfl, rfl,
    fun f hf n hn hnew => State.shadow_commitWindows _ hf hn hnew, fun c => ?_, ?_⟩
  · exact (State.core_congr (hcommit.agree .cores (by decide)) c).trans (s.core_dropFetched hit c)
  · exact (hdrop.1.mono (by decide)).trans (hcommit.1.mono (by decide))

/-- A writeback that times out, and what of its cluster that changes. -/
theorem reqTimeout_ends_wb {s : State} {c : Fin 64} {tag : Nat} {r : Req} (hclk : s.clocked c = true)
    (hstay : (s.clu c).leaving = false) (hreq : NMap.find? (s.clu c).reqs tag = some r)
    (hdue : r.since + 100 * s.reg .CLU_REQ_TIMEOUT_US c ≤ s.time.bnd) (hquar : r.quar = false) (hkind : r.kind = .wb ∨ r.kind = .ce)
    (huse : r.use = .demand) (hwait : r.waiters = []) (hserved : s.Served c) : Ends (.reqTimeout c tag) s fun t =>
      t.clu c = { s.clu c with reqs := NMap.insert (s.clu c).reqs tag { r with quar := true, since := s.time.bnd },
                               wbuf := (s.clu c).wbuf.filter fun x => x.line != r.line }
      ∧ (∀ d, d ≠ c.val → t.clu d = s.clu d) ∧ Same [.clus, .regs] s t ∧ OnlyRegsAt [(.CLU_TIMEOUT_CNT, c, 0)] s { t with clus := s.clus }
      ∧ t.reg .CLU_TIMEOUT_CNT c = satAdd32 (s.reg .CLU_TIMEOUT_CNT c) 1 := by
  have halters := s.alters_timedOut c tag r
  refine ⟨_, reqTimeout_goes_wb hclk hstay hreq hdue hquar huse hwait hserved, ?_, fun d hd => s.clu_timedOut_ne tag r hd, halters.1,
    ⟨?_, fun f i n hf => ?_⟩, ?_⟩
  · rw [s.clu_timedOut, if_pos hkind, ← hwait]
  · simp [Same, State.timedOut, State.onClu, State.setClu]
  · exact (s.reg_timedOut c tag r f i n).trans (if_neg fun h => hf (by simp [h]))
  · rw [s.reg_timedOut, if_pos ⟨rfl, rfl, rfl⟩]

/-- A read that times out, and what its load then has. -/
theorem reqTimeout_ends_load {s : State} {c : Fin 64} {tag : Nat} {r : Req} {w : Waiter} {h : Hand} {o : MemOp} {p : Part}
    (hgo : Goes (.reqTimeout c tag) s ((s.timedOut c tag r).setHand w.core w.slot
      { h with ops := [{ o with res := NMap.insert o.res 0 (poisonRes p.size) }] })) : Ends (.reqTimeout c tag) s fun t =>
      t.hand w.core w.slot = some { h with ops := [{ o with res := NMap.insert o.res 0 (poisonRes p.size) }] }
      ∧ (∃ q, NMap.find? (t.clu c).reqs tag = some q ∧ q.quar = true ∧ q.since = s.time.bnd)
      ∧ t.reg .CLU_TIMEOUT_CNT c = satAdd32 (s.reg .CLU_TIMEOUT_CNT c) 1 ∧ Same [.clus, .cores, .regs] s t := by
  have hset := (s.timedOut c tag r).alters_setHand w.core w.slot { h with ops := [{ o with res := NMap.insert o.res 0 (poisonRes p.size) }] }
  have halters := s.alters_timedOut c tag r
  refine ⟨_, hgo, State.hand_setHand_self _ _ _ _, ⟨{ r with quar := true, since := s.time.bnd, waiters := [] }, ?_, rfl, rfl⟩, ?_,
    (halters.1.mono (by decide)).trans (hset.1.mono (by decide))⟩
  · rw [State.clu_congr (hset.agree .clus (by decide)), s.clu_timedOut, NMap.find?_insert_self]
  · rw [hset.reg _ _ _ (by decide), s.reg_timedOut, if_pos ⟨rfl, rfl, rfl⟩]

/-- What a walk leaves of a state whose line was wiped. -/
theorem walk_leaves {s t : State} {k ls key : Nat} {e : DirEntry} (hlive : s.retiredAt (offsetOfLs k ls) = false)
    (hdir : (s.home k).dir = [(key, e)]) (ht : WithinHome [] k (s.wiped k ls) t) (hk : t.home k = (s.home k).walked key) :
    (t.home k).dir = [] ∧ (t.home k).walks = (s.home k).walks - 1
      ∧ t.reg .MEM_LOST_LINES_CNT k = satAdd32 (s.reg .MEM_LOST_LINES_CNT k) 1 ∧ SameRegs [.MEM_LOST_LINES_CNT] s t
      ∧ (∀ i < 4, decodeGran t.mem (offsetOfLs k ls / 128 * 4 + i) = some ⟨.lost, List.replicate 32 0, false⟩)
      ∧ OnlyGrans ((List.range 4).map (offsetOfLs k ls / 128 * 4 + ·)) s t
      ∧ Same [.homes, .mem, .regs] s t ∧ ∀ j, j ≠ k → t.home j = s.home j := by
  have hw := State.alters_wiped hlive
  obtain ⟨hsame, hothers⟩ := ht
  have hregs : t.regs = (s.wiped k ls).regs := same_iff.1 hsame .regs (by decide)
  have hmem : t.mem = (s.wiped k ls).mem := same_iff.1 hsame .mem (by decide)
  have hhomes : (s.wiped k ls).homes = s.homes := hw.agree .homes (by decide)
  refine ⟨?_, by rw [hk]; rfl, ?_, fun f i n hf => ?_, fun i hi => ?_, (onlyGrans_wiped hlive).congr rfl hmem,
    (hw.1.mono (by decide)).trans (hsame.mono (by decide)), fun j hj => (hothers j hj).trans (State.home_congr hhomes j)⟩
  · simp [hk, HomeSt.walked, hdir, NMap.erase]
  · rw [State.reg_congr hregs, State.lost_wiped hlive]
  · rw [State.reg_congr hregs, hw.reg f i n hf]
  · rw [hmem, decodeGran_wiped hlive hi]

/-- Settles O50, by the case of each window, deadline and invalidation. -/
theorem windowsAndDeadlines : Obligations.WindowsAndDeadlines := by
  unfold Obligations.WindowsAndDeadlines
  refine ⟨?commits, ?applies, ?drains, ?declares, ?walks, ?reports, ?requests, ?invalidates⟩
  case commits =>
    refine fun s hrun => ⟨tileWinCommit_queues hrun, fun hbusy => ?_⟩
    have hcount := s.alters_count Block.TILE.cfgErr 0 0 1
    exact ⟨_, tileWinCommit_counts hrun hbusy, hcount.1, hcount.2, by rw [State.cfgErr, State.reg_count, if_pos ⟨rfl, rfl, rfl⟩]⟩
  case applies =>
    exact fun s => ⟨State.reg_setReg_self s .TILE_WIN_BUSY 1 0 0, s.alters_setReg .TILE_WIN_BUSY 1 0 0,
      fun _ => State.mem_winChanged, fun _ hf _ hn v => s.find?_winNew hf hn v⟩
  case drains => exact fun s hbusy hrun hidle hmiss => windowDrainDone_ends hbusy hrun hidle rfl hmiss
  case declares =>
    refine fun s hrun hroom hin => ⟨fun k ls a b t0 htx hothers hls hwait hne hunit hdue hnew => ?_, fun htx => ⟨?_, ?_⟩⟩
    · exact snoopDeadline_ends hrun hroom hin htx hothers hls hwait hne hunit hdue hnew
    · exact fun d e hlive hent hdown => routeLossTimeout_ends hrun hroom hin htx hlive hent hdown
    · exact fun id c hag hid hc hother hone hnew => memDeadDeclare_ends hrun hroom hin htx hag hid hc hother hone hnew
  case walks =>
    intro s k key e a d hrun hwalks hretire htx hin hloss hdir hfind hst hown hdead hlive hctx
    have hw := State.alters_wiped hlive
    have hends := reclaimWalkDone_ends hrun hwalks hretire htx hin hdir hfind hst hown hdead (State.loseLine_first hlive hloss d)
      (State.home_congr (hw.agree .homes (by decide)) k) ((hw.reg .CTX_STATE 0 0 (by decide)).trans_ne hctx)
    exact hends.imp fun t ⟨ht, hk⟩ => walk_leaves hlive hdir ht hk
  case reports => exact fun s k r rest hrun hloss => ⟨lossReport_posts hrun hloss, lossReport_waits hloss⟩
  case requests =>
    intro s c tag r hclk hstay hreq due hdue
    have hdue' : r.since + 100 * s.reg .CLU_REQ_TIMEOUT_US c ≤ s.time.bnd := of_decide_eq_true hdue
    refine ⟨fun hnone => ⟨fun hquar => ?_, fun hquar hkind huse hwait => ?_⟩, ?_⟩
    · exact ⟨_, tagQuarantineEnd_goes hclk hreq hdue' hquar (State.served_of_no_ops hnone), State.clu_onClu_self s c _,
        fun d hd => s.clu_onClu_ne _ hd, (s.alters_onClu c _).1⟩
    · exact reqTimeout_ends_wb hclk hstay hreq hdue' hquar hkind huse hwait (State.served_of_no_ops hnone)
    · intro w h o p hquar _ huse hwait _ _ hh hops hid hparts hpart hload hrest
      exact reqTimeout_ends_load (reqTimeout_goes_load hclk hstay hreq hdue' hquar huse hwait hh hops hid hparts hpart hload hrest)
  case invalidates =>
    refine fun s hboot => ⟨fun c hinv hnone => ?_, fun c hinv => ?_, fun c hinv hnone => ?_, fun hrun k => ⟨?_, ?_, ?_⟩⟩
    · exact ⟨_, cacheInitDone_l1 hboot hinv (State.served_of_no_ops hnone), (s.alters_onCore c _).1, s.core_setCore_self c _,
        fun d hd => s.core_setCore_ne _ hd⟩
    · exact ⟨_, cacheInitDone_ic hboot hinv, (s.alters_onCore c _).1, s.core_setCore_self c _, fun d hd => s.core_setCore_ne _ hd⟩
    · exact ⟨_, cacheInitDone_cc hboot hinv (State.served_of_no_ops hnone), (s.alters_onClu c _).1, State.clu_onClu_self s c _,
        fun d hd => s.clu_onClu_ne _ hd⟩
    · obtain ⟨hsame, hothers⟩ := s.withinHome_onHome k fun hs => { hs with dirinit := false }
      exact ⟨_, cacheInitDone_dir hboot hrun k, hsame, s.home_onHome_self k _, hothers⟩
    · obtain ⟨hsame, hothers⟩ := s.withinHome_onHome k fun hs => { hs with lmapinit := false }
      exact ⟨_, cacheInitDone_lmap hboot hrun k, hsame, s.home_onHome_self k _, hothers⟩
    · exact cacheInitDone_filter hboot hrun

end Sys2Proof.Machine
end

section
/-!
PROOFS. Answers that reach the request of a cluster whose tag they carry, those that come late, and the acknowledgement of a write of
the CP (R322–R325, R335, R343, R344).
-/
namespace Sys2Proof.Machine
open Sys2Proof.Safety

/-! ### Messages for a cluster -/

/-- A domain that has stopped stays stopped. -/
theorem State.running_of_le {s : State} {a b : Nat} (hab : a ≤ b) (h : s.stopped a = false) : s.stopped b = false := by
  simp only [State.stopped, Bool.or_eq_false_iff, Bool.and_eq_false_iff, decide_eq_false_iff_not, Nat.not_le] at h ⊢
  exact ⟨h.1, h.2.imp_right fun hlt => by omega⟩

theorem State.clocked_iff {s : State} {c : Nat} : s.clocked c = true ↔ s.reg .CRG_GATE_STATE c = 1 ∧ s.stopped 1 = false := by
  simp [State.clocked]

theorem State.running_of_clocked {s : State} {c : Nat} (h : s.clocked c = true) : s.stopped 2 = false :=
  State.running_of_le (by decide) (State.clocked_iff.1 h).2

theorem agentCan_of_clocked {s : State} {m : Msg} {c : Nat} (hm : m.agent = ⟨none, c⟩) (hclk : s.clocked c = true)
    (hrec : receivable m s.mesh = true) : agentCan s m true = true := by
  simp [agentCan, hm, hrec, State.running_of_clocked hclk, hclk]

theorem State.alters_takeMsg (s : State) (m : Msg) : Alters [.mesh] [] s (s.takeMsg m) := .of_regs (by simp [Same, State.takeMsg]) rfl

/-! ### The command that hands an answer over -/

/-- What DATA does to the request that it answers. -/
def onData (m : Msg) (g : Grant) (s : State) (c : Nat) (r : Req) : Option State :=
  match r.kind with
  | .stRd => some (fillStagedUnit s c m.tag r m (m.data.getD poisonLine))
  | .ncRd => some (deliverUncached (s.endReq c m.tag) r m)
  | _ => fillCoherent s c m.tag r g (m.data.getD poisonLine)

/-- What GRANT does. -/
def onGrant (m : Msg) (s : State) (c : Nat) (r : Req) : Option State :=
  match ((s.endReq c m.tag).clu c).find r.line with
  | some (key, x) => some ((s.endReq c m.tag).setCc c key { x with st := .m, hold := true })
  | none => some (s.endReq c m.tag)

/-- What ACK does. -/
def onAck (m : Msg) (s : State) (c : Nat) (r : Req) : Option State :=
  if r.kind = .wb ∨ r.kind = .ce then
    some (leavePump ((s.endReq c m.tag).onClu c fun cl => { cl with wbuf := cl.wbuf.filter fun x => x.line != r.line }) c)
  else some (foldState (fun s w => s.setRes w okRes) r.waiters (s.endReq c m.tag))

/-- What ATOM_RSP does. -/
def onAtomRsp (m : Msg) (s : State) (c : Nat) (r : Req) : Option State :=
  some (foldState (fun s w => s.setRes w (m.res.getD (poisonRes 0))) r.waiters (s.endReq c m.tag))

section
variable {s : State} {m : Msg} {c : Nat} (hm : m.agent = ⟨none, c⟩)
include hm

section
variable (hc : c < 64) (hclk : s.clocked c = true) (hrec : receivable m s.mesh = true)
include hc hclk hrec

theorem exec_data_cluster {g : Grant} (hkind : m.kind = .data g) : exec (.data m) s = .next (onCompletion s m (onData m g)) := by
  refine (show exec (.data m) s = execData m s from rfl).trans ?_
  have hcan := agentCan_of_clocked hm hclk hrec
  simp [execData, hkind, hcan, hm, Nat.not_le.2 hc, show c ≠ 65 by omega, done]
  rfl

theorem exec_grant_cluster (hkind : m.kind = .grant) : exec (.grant m) s = .next (onCompletion s m (onGrant m)) := by
  refine (show exec (.grant m) s = execGrant m s from rfl).trans ?_
  have hcan := agentCan_of_clocked hm hclk hrec
  simp [execGrant, hkind, hcan, hm, Nat.not_le.2 hc, done]
  rfl

theorem exec_ack_cluster (hkind : m.kind = .ack) (htag : m.tag ≠ 4095) : exec (.ack m) s = .next (onCompletion s m (onAck m)) := by
  refine (show exec (.ack m) s = execAck m s from rfl).trans ?_
  have hcan := agentCan_of_clocked hm hclk hrec
  simp [execAck, hkind, hcan, hm, htag, Nat.not_le.2 hc, show c ≠ 65 by omega, done]
  rfl

theorem exec_atomRsp_cluster (hkind : m.kind = .atomRsp) : exec (.atomRsp m) s = .next (onCompletion s m (onAtomRsp m)) := by
  refine (show exec (.atomRsp m) s = execAtomRsp m s from rfl).trans ?_
  have hcan := agentCan_of_clocked hm hclk hrec
  simp [execAtomRsp, hkind, hcan, hm, Nat.not_le.2 hc, show c ≠ 65 by omega, done]
  rfl

end

variable {f : State → Nat → Req → Option State}

/-- An answer to a tag that is free or quarantined is discarded and counted (R344). -/
theorem onCompletion_late (hlate : ∀ r, NMap.find? (s.clu c).reqs m.tag = some r → r.quar = true) :
    onCompletion s m f = (s.takeMsg m).count .CLU_LATE_RSP_CNT c := by
  unfold onCompletion
  simp only [hm]
  cases hreq : NMap.find? (s.clu c).reqs m.tag with
  | none => rfl
  | some r => simp [hlate r hreq]

/-- An OK answer to an outstanding request has its effect, in a cluster whose hands then wait for nothing more. -/
theorem onCompletion_takes {u : State} {r : Req} (hreq : NMap.find? (s.clu c).reqs m.tag = some r) (hquar : r.quar = false)
    (hok : m.status = .ok) (hf : f (s.takeMsg m) c r = some u) (hserved : u.Served c) : onCompletion s m f = u := by
  unfold onCompletion
  simp [hm, hreq, hquar, hok, hf, pumpCluster_of_served hserved]

end

/-! ### The cluster after the answer -/

/-- The message has left the mesh, its tag is free, and the cluster is otherwise `cl`. -/
def TagFreed (s : State) (m : Msg) (c : Nat) (cl : Cluster) (t : State) : Prop :=
  t.clu c = { cl with reqs := NMap.erase (s.clu c).reqs m.tag } ∧ (∀ d, d ≠ c → t.clu d = s.clu d) ∧ t.mesh = dropFirst m s.mesh

/-- The state in which an answer has its effect: taken off the mesh, with its tag free. -/
def State.tagEnded (s : State) (m : Msg) (c : Nat) : State := (s.takeMsg m).endReq c m.tag

theorem State.clu_tagEnded (s : State) (m : Msg) (c d : Nat) : (s.tagEnded m c).clu d =
    if d = c then { s.clu c with reqs := NMap.erase (s.clu c).reqs m.tag } else s.clu d := State.clu_onClu (s.takeMsg m) c d _

theorem State.alters_tagEnded (s : State) (m : Msg) (c : Nat) : Alters [.mesh, .clus] [] s (s.tagEnded m c) :=
  (s.alters_takeMsg m).comp (State.alters_onClu _ c _) (by decide) (by decide)

theorem tagFreed_tagEnded (s : State) (m : Msg) (c : Nat) : TagFreed s m c (s.clu c) (s.tagEnded m c) :=
  ⟨by rw [State.clu_tagEnded, if_pos rfl], fun d hd => by rw [State.clu_tagEnded, if_neg hd], rfl⟩

/-- Once the tag is free, a change of the cluster's own parts. -/
theorem tagFreed_onClu {s : State} {m : Msg} {c : Nat} {f : Cluster → Cluster} {cl : Cluster}
    (hf : f { s.clu c with reqs := NMap.erase (s.clu c).reqs m.tag } = { cl with reqs := NMap.erase (s.clu c).reqs m.tag }) :
    TagFreed s m c cl ((s.tagEnded m c).onClu c f) := by
  refine ⟨?_, fun d hd => ?_, rfl⟩
  · rw [State.clu_onClu_self, State.clu_tagEnded, if_pos rfl, hf]
  · rw [State.clu_onClu_ne _ _ hd, State.clu_tagEnded, if_neg hd]

/-- The line that a Coherent read is answered with, in the state granted; its win hold starts unless that is S (R335). -/
def filledLine (g : Grant) (r : Req) (d : LineData) : CLine :=
  { line := r.line, st := grantState g, data := d, hold := grantState g != .s, pfUnused := r.use.isPrefetch }

/-- A line goes into a free way of its set. -/
theorem State.fillCc_of_free {s : State} {c w : Nat} {x : CLine} (hmiss : wayOf (s.clu c).cc 16 (ccSet x.line) x.line = none)
    (hfree : (firstWhere 16 fun w => (NMap.find? (s.clu c).cc (ccSet x.line * 16 + w)).isNone) = some w) (lru : Bool) :
    s.fillCc c x lru =
      some (((s.setCc c (ccSet x.line * 16 + w) x).touchCc c (ccSet x.line * 16 + w) lru).filterAdd x.line x.st) := by
  have hnone : NMap.find? (s.clu c).cc (ccSet x.line * 16 + w) = none := by
    simpa using List.find?_some hfree
  have hfind : (s.clu c).find x.line = none := by simp [Cluster.find, hmiss]
  simp [State.fillCc, State.roomCc, hmiss, pickWay, hfree, hnone, hfind]

theorem State.filter_filterAdd {s : State} {line : Nat} {st : CState} (hst : st ≠ .v) : (s.filterAdd line st).filter =
    if (s.homeOf line).tile = none then s.filter
    else NMap.set 0 s.filter (filterIndex line) (NMap.get 0 s.filter (filterIndex line) + 1) := by
  unfold State.filterAdd State.filtered
  cases (s.homeOf line).tile <;> simp [hst]

theorem State.alters_filterAdd (s : State) (line : Nat) (st : CState) : Alters [.filter] [] s (s.filterAdd line st) := by
  unfold State.filterAdd
  split
  · exact .of_regs (by simp [Same]) rfl
  · exact .refl _ _ s

theorem State.homeOf_congr {s t : State} (hregs : t.regs = s.regs) (line : Nat) : t.homeOf line = s.homeOf line := by
  simp [State.homeOf, State.isOwn, State.tileId, State.isSet, State.reg_congr hregs]

/-- A grant of E, S or M, which is what a Coherent read is answered with. -/
theorem grantState_ne_v {g : Grant} (hg : g = .e ∨ g = .s ∨ g = .m) : grantState g ≠ .v := by
  rcases hg with rfl | rfl | rfl <;> decide

section
variable {s : State} {m : Msg} {c : Nat} {r : Req}

/-- DATA of a Coherent read with no error fills a free way (R325, R335). -/
theorem onData_fills {g : Grant} {d : LineData} {w : Nat} (hkind : r.kind = .rdS ∨ ∃ held, r.kind = .rdX held)
    (huse : r.use = .demand ∨ r.use = .prefetch none) (hdata : m.data = some d) (hgood : ∀ x ∈ d.gran, x = .good)
    (hstay : (s.clu c).leaving = false) (hmiss : wayOf (s.clu c).cc 16 (ccSet r.line) r.line = none)
    (hfree : (firstWhere 16 fun w => (NMap.find? (s.clu c).cc (ccSet r.line * 16 + w)).isNone) = some w) :
    onData m g (s.takeMsg m) c r = some ((((s.tagEnded m c).setCc c (ccSet r.line * 16 + w) (filledLine g r d)).touchCc c
      (ccSet r.line * 16 + w) (r.hint == 1)).filterAdd r.line (grantState g)) := by
  have hcc : ((s.tagEnded m c).clu c).cc = (s.clu c).cc := by rw [State.clu_tagEnded, if_pos rfl]
  have hleave : ((s.tagEnded m c).clu c).leaving = false := by rw [State.clu_tagEnded, if_pos rfl]; exact hstay
  have hpoison : (d.gran.any (· != .good)) = false := by simpa using hgood
  have hdata' : onData m g (s.takeMsg m) c r = fillCoherent (s.takeMsg m) c m.tag r g d := by
    rcases hkind with h | ⟨held, h⟩ <;> simp [onData, h, hdata]
  have hfill := State.fillCc_of_free (s := s.tagEnded m c) (c := c) (w := w)
    (x := filledLine g r d)
    (by rw [hcc]; exact hmiss) (by rw [hcc]; exact hfree) (r.hint == 1)
  have huser : ∀ t line st d, fillUser t r line st d = t := fun t line st d => by
    rcases huse with h | h <;> simp [fillUser, h]
  rw [hdata', fillCoherent]
  change (if _ || ((s.tagEnded m c).clu c).leaving then _ else ((s.tagEnded m c).fillCc c (filledLine g r d) _).map _) = _
  rw [hpoison, hleave, hfill]
  simp [huser, filledLine]

end

/-! ### What each answer leaves -/

/-- One hand of the cluster has all its answers, and the others wait for none. -/
theorem State.served_setHand {s : State} {c d n : Nat} {x : Hand} (hx : x.Served)
    (hrest : ∀ i < 4, ∀ k < 16, ∀ h, (4 * c + i, k) ≠ (d, n) → s.hand (4 * c + i) k = some h → h.ops = []) :
    (s.setHand d n x).Served c := fun i hi k hk h hh => by
  rw [State.hand_setHand] at hh
  split at hh
  · cases hh
    exact hx
  · next hne => exact Hand.served_of_no_ops (hrest i hi k hk h (fun e => hne (Prod.mk.inj e)) hh)

section
variable {s : State} {m : Msg} {c : Nat} {r : Req} (hm : m.agent = ⟨none, c⟩)
include hm

section
variable (hreq : NMap.find? (s.clu c).reqs m.tag = some r) (hquar : r.quar = false) (hok : m.status = .ok)
include hreq hquar hok

section
variable (hserved : s.Served c)
include hserved

/-- An answer whose effect, once its tag is free, is a change `f` of the cluster. -/
theorem ends_of_answer {cmd : Instr} {a : State → Nat → Req → Option State} {f : Cluster → Cluster} {cl : Cluster}
    (hexec : exec cmd s = .next (onCompletion s m a)) (ha : a (s.takeMsg m) c r = some ((s.tagEnded m c).onClu c f))
    (hf : f { s.clu c with reqs := NMap.erase (s.clu c).reqs m.tag } = { cl with reqs := NMap.erase (s.clu c).reqs m.tag }) :
    Ends cmd s fun t => TagFreed s m c cl t ∧ Same [.mesh, .clus] s t := by
  have hu : Alters [.mesh, .clus] [] s ((s.tagEnded m c).onClu c f) :=
    (s.alters_tagEnded m c).trans ((State.alters_onClu _ c f).mono (by decide) (by decide))
  have hserved' := hserved.congr fun i _ n => State.hand_congr (hu.agree .cores (by decide)) (4 * c + i) n
  exact ⟨_, by rw [hexec, onCompletion_takes hm hreq hquar hok ha hserved'], tagFreed_onClu hf, hu.1⟩

variable (hc : c < 64) (hclk : s.clocked c = true) (hrec : receivable m s.mesh = true)
include hc hclk hrec

/-- DATA of a Coherent read: its tag is free, and the line stands in the way that was free. -/
theorem data_fills {g : Grant} {d : LineData} {w : Nat} (hstay : (s.clu c).leaving = false) (hg : g = .e ∨ g = .s ∨ g = .m)
    (hmsg : m.kind = .data g) (hkind : r.kind = .rdS ∨ ∃ held, r.kind = .rdX held) (huse : r.use = .demand ∨ r.use = .prefetch none)
    (hdata : m.data = some d) (hgood : ∀ x ∈ d.gran, x = .good) (hmiss : wayOf (s.clu c).cc 16 (ccSet r.line) r.line = none)
    (hfree : (firstWhere 16 fun w => (NMap.find? (s.clu c).cc (ccSet r.line * 16 + w)).isNone) = some w) :
    Ends (.data m) s fun t => Same [.mesh, .clus, .filter] s t
      ∧ TagFreed s m c { s.clu c with
          cc := NMap.insert (s.clu c).cc (ccSet r.line * 16 + w) (filledLine g r d), cclru := (t.clu c).cclru } t
      ∧ t.filter = if (s.homeOf r.line).tile = none then s.filter
          else NMap.set 0 s.filter (filterIndex r.line) (NMap.get 0 s.filter (filterIndex r.line) + 1) := by
  have hfills := onData_fills (g := g) hkind huse hdata hgood hstay hmiss hfree
  let v := ((s.tagEnded m c).setCc c (ccSet r.line * 16 + w) (filledLine g r d)).touchCc c (ccSet r.line * 16 + w) (r.hint == 1)
  have hv : Alters [.mesh, .clus] [] s v := ((s.alters_tagEnded m c).trans ((State.alters_onClu _ c _).mono (by decide) (by decide))).trans
    ((State.alters_onClu _ c _).mono (by decide) (by decide))
  have hadd := v.alters_filterAdd r.line (grantState g)
  have hu := hv.comp hadd (ch := [.mesh, .clus, .filter]) (fs := []) (by decide) (by decide)
  have hclu (d : Nat) : (v.filterAdd r.line (grantState g)).clu d = v.clu d := State.clu_congr (hadd.agree .clus (by decide)) d
  have hserved' := hserved.congr fun i _ n => State.hand_congr (hu.agree .cores (by decide)) (4 * c + i) n
  refine ⟨_, ?_, hu.1, ⟨?_, fun d hd => ?_, ?_⟩, ?_⟩
  · rw [exec_data_cluster hm hc hclk hrec hmsg, onCompletion_takes hm hreq hquar hok hfills hserved']
  · rw [hclu]
    simp [v, State.setCc, State.touchCc, State.clu_tagEnded]
  · rw [hclu]
    simp [v, State.setCc, State.touchCc, State.clu_onClu, State.clu_tagEnded, hd]
  · exact (hadd.agree .mesh (by decide)).trans rfl
  · rw [State.filter_filterAdd (grantState_ne_v hg), State.homeOf_congr (show v.regs = s.regs from rfl),
      show v.filter = s.filter from rfl]

/-- GRANT: the line becomes M, and its win hold starts (R335). -/
theorem grant_ends {key : Nat} {x : CLine} (hmsg : m.kind = .grant) (hfind : (s.clu c).find r.line = some (key, x)) :
    Ends (.grant m) s fun t => TagFreed s m c { s.clu c with cc := NMap.insert (s.clu c).cc key { x with st := .m, hold := true } } t
      ∧ Same [.mesh, .clus] s t := by
  have hfind' : (((s.takeMsg m).endReq c m.tag).clu c).find r.line = some (key, x) := by
    change ((s.tagEnded m c).clu c).find r.line = _
    rw [State.clu_tagEnded, if_pos rfl]
    exact hfind
  refine ends_of_answer (f := fun cl => { cl with cc := NMap.insert cl.cc key { x with st := .m, hold := true } })
    hm hreq hquar hok hserved (exec_grant_cluster hm hc hclk hrec hmsg) ?_ rfl
  simp only [onGrant, hfind']
  rfl

/-- ACK of a WB or CE: its place in the writeback buffer is free. -/
theorem ack_ends_writeback (hstay : (s.clu c).leaving = false) (hmsg : m.kind = .ack) (htag : m.tag ≠ 4095)
    (hkind : r.kind = .wb ∨ r.kind = .ce) : Ends (.ack m) s fun t =>
      TagFreed s m c { s.clu c with wbuf := (s.clu c).wbuf.filter fun x => x.line != r.line } t ∧ Same [.mesh, .clus] s t := by
  refine ends_of_answer (f := fun cl => { cl with wbuf := cl.wbuf.filter fun x => x.line != r.line })
    hm hreq hquar hok hserved (exec_ack_cluster hm hc hclk hrec hmsg htag) ?_ rfl
  rw [onAck, if_pos hkind, leavePump_of_staying]
  · rfl
  · rw [State.clu_onClu_self]
    change ((s.tagEnded m c).clu c).leaving = false
    rw [State.clu_tagEnded, if_pos rfl]
    exact hstay

end

/-- The result of the one access that waits for a request. -/
theorem ends_of_result {cmd : Instr} {a : State → Nat → Req → Option State} {w : Waiter} {h : Hand} {o : MemOp} {p : Part} {res : PartRes}
    (hexec : exec cmd s = .next (onCompletion s m a)) (ha : a (s.takeMsg m) c r = some ((s.tagEnded m c).setRes w res))
    (hh : s.hand w.core w.slot = some h) (hops : h.ops = [o]) (hid : o.id = w.op) (hparts : o.parts = [p]) (hpart : w.part = 0)
    (hrest : ∀ i < 4, ∀ n < 16, ∀ h, (4 * c + i, n) ≠ (w.core, w.slot) → s.hand (4 * c + i) n = some h → h.ops = []) :
    Ends cmd s fun t => t.hand w.core w.slot = some { h with ops := [{ o with res := NMap.insert o.res 0 res }] }
      ∧ t.clu c = { s.clu c with reqs := NMap.erase (s.clu c).reqs m.tag } ∧ t.mesh = dropFirst m s.mesh
      ∧ Same [.mesh, .clus, .cores] s t ∧ (∀ d, d ≠ c → t.clu d = s.clu d) ∧ (∀ d, d ≠ w.core → t.core d = s.core d)
      ∧ ∀ n, n ≠ w.slot → t.hand w.core n = s.hand w.core n := by
  have hcores : (s.tagEnded m c).cores = s.cores := rfl
  obtain ⟨hclu, hclus, hmesh⟩ := tagFreed_tagEnded s m c
  rw [State.setRes_of_only ((State.hand_congr hcores _ _).trans hh) hops hid, hpart] at ha
  have hserved := State.served_setHand (s := s.tagEnded m c) (c := c) (d := w.core) (n := w.slot)
    (x := { h with ops := [{ o with res := NMap.insert o.res 0 res }] }) (by simp [Hand.Served, hparts]) hrest
  have hend := hexec.trans (congrArg _ (onCompletion_takes hm hreq hquar hok ha hserved))
  refine ⟨_, hend, State.hand_setHand_self _ _ _ _, hclu, hmesh, ?_, hclus, fun d hd => ?_, fun n hn => ?_⟩
  · exact ((s.alters_tagEnded m c).comp (State.alters_setHand _ _ _ _) (ch := [.mesh, .clus, .cores]) (fs := []) (by decide) (by decide)).1
  · exact (State.core_setHand_ne _ _ _ hd).trans (State.core_congr hcores d)
  · exact (State.hand_setHand_ne _ _ fun e => hn e.2).trans (State.hand_congr hcores _ n)

end

/-- An answer that comes late is counted, and that is all. -/
theorem ends_of_late {cmd : Instr} {a : State → Nat → Req → Option State} (hexec : exec cmd s = .next (onCompletion s m a))
    (hlate : ∀ r, NMap.find? (s.clu c).reqs m.tag = some r → r.quar = true) : Ends cmd s fun t =>
      t.mesh = dropFirst m s.mesh ∧ Same [.mesh, .regs] s t
      ∧ t.reg .CLU_LATE_RSP_CNT c = satAdd32 (s.reg .CLU_LATE_RSP_CNT c) 1
      ∧ ∀ f i n, (f, i, n) ≠ (.CLU_LATE_RSP_CNT, c, 0) → t.reg f i n = s.reg f i n := by
  have hreg (f : Field) (i n : Nat) : (s.takeMsg m).reg f i n = s.reg f i n := State.reg_congr rfl f i n
  refine ⟨_, by rw [hexec, onCompletion_late hm hlate], rfl, ?_, ?_, fun f i n hne => ?_⟩
  · exact ((s.alters_takeMsg m).comp (State.alters_count _ _ c 0 1) (ch := [.mesh, .regs]) (fs := [.CLU_LATE_RSP_CNT])
      (by decide) (by decide)).1
  · rw [State.reg_count, if_pos ⟨rfl, rfl, rfl⟩, hreg]
  · rw [State.reg_count, if_neg (by rintro ⟨rfl, rfl, rfl⟩; exact hne rfl), hreg]

end

/-- ACK of a write of the CP. -/
theorem ack_ends_post {s : State} {m : Msg} {p : PostReq} (hm : m.agent = cpAgent) (hkind : m.kind = .ack) (htag : m.tag ≠ 4095)
    (hrec : receivable m s.mesh = true) (hrun : s.stopped 2 = false) (hpost : NMap.find? s.posted m.tag = some p) (hunit : p.unit = 64)
    (hquar : p.quar = false) (huse : p.use = .write none) : Ends (.ack m) s fun t =>
      t.posted = NMap.erase s.posted m.tag ∧ t.mesh = dropFirst m s.mesh ∧ Same [.mesh, .posted] s t := by
  have hcan : agentCan s m true = true := by simp [agentCan, hm, cpAgent, hrec, hrun]
  have hexec : exec (.ack m) s = .next { s.takeMsg m with posted := NMap.erase (s.takeMsg m).posted m.tag } := by
    refine (show exec (.ack m) s = execAck m s from rfl).trans ?_
    simp [execAck, hkind, hcan, hm, cpAgent, htag, State.endPost, hpost, hunit, hquar, huse, done]
  exact ⟨_, hexec, rfl, rfl, by simp [Same, State.takeMsg]⟩

/-- Settles O48: each answer reaches the request whose tag it carries, and one to a tag that nothing holds is counted. -/
theorem agentsTakeAnswers : Obligations.AgentsTakeAnswers := by
  unfold Obligations.AgentsTakeAnswers
  refine ⟨fun s m c r hm hc hclk hrec hreq hquar hok hstay hidle => ⟨?data, ?grant, ?writeback⟩, ?access, ?late, ?cp⟩
  case data =>
    intro g d w hmsg hg hkind huse hdata hgood hmiss hfree
    refine data_fills hm hreq hquar hok (State.served_of_no_ops hidle) hc hclk hrec hstay hg hmsg ?_ huse hdata hgood hmiss hfree
    exact hkind.imp_right fun h => h.elim (⟨_, ·⟩) (⟨_, ·⟩)
  case grant => exact fun key x hmsg hfind => grant_ends hm hreq hquar hok (State.served_of_no_ops hidle) hc hclk hrec hmsg hfind
  case writeback =>
    exact fun hmsg htag hkind => ack_ends_writeback hm hreq hquar hok (State.served_of_no_ops hidle) hc hclk hrec hstay hmsg htag hkind
  case access =>
    intro s m c r w h o p hm hc hclk hrec htag hreq hquar hok huse hwait _ _ hh hops hid hparts hpart hrest x hx hmsg hkind hres
    have hends {a : State → Nat → Req → Option State} {res : PartRes} (hexec : exec x.1 s = .next (onCompletion s m a))
        (ha : a (s.takeMsg m) c r = some ((s.tagEnded m c).setRes w res)) := 
      ends_of_result hm hreq hquar hok hexec ha hh hops hid hparts hpart hrest
    have hone (f : State → Waiter → State) (s : State) : foldState f r.waiters s = f s w := by rw [hwait]; rfl
    have hgetD (hack : m.kind ≠ .ack) : m.res.getD (poisonRes 0) = m.res.getD okRes := by
      obtain ⟨y, hy⟩ := Option.ne_none_iff_exists'.1 (hres.resolve_right hack)
      rw [hy, Option.getD_some, Option.getD_some]
    simp only [List.mem_cons, List.not_mem_nil, or_false] at hx
    obtain rfl | rfl | rfl | rfl := hx
    · refine hends (exec_data_cluster hm hc hclk hrec hmsg) ?_
      simp only [onData, hkind, deliverUncached, huse, hone, hgetD (by simp [hmsg])]
      rfl
    · refine hends (exec_ack_cluster hm hc hclk hrec hmsg htag) ?_
      simp only [onAck, hkind, hone]
      rfl
    · refine hends (exec_ack_cluster hm hc hclk hrec hmsg htag) ?_
      simp only [onAck, hkind, hone]
      rfl
    · refine hends (exec_atomRsp_cluster hm hc hclk hrec hmsg) ?_
      simp only [onAtomRsp, hone, hgetD (by simp [hmsg])]
      rfl
  case late =>
    intro s m c hm hc hclk hrec htag hnone x hx hmsg
    have hlate : ∀ r, NMap.find? (s.clu c).reqs m.tag = some r → r.quar = true := by
      rintro r hr
      rcases hnone with hnone | ⟨r', hr', hquar⟩
      · rw [hnone] at hr; cases hr
      · obtain rfl := Option.some.inj (hr'.symm.trans hr)
        exact hquar
    simp only [List.mem_cons, List.not_mem_nil, or_false] at hx
    obtain rfl | rfl | rfl | rfl := hx
    · exact ends_of_late hm (exec_data_cluster hm hc hclk hrec hmsg) hlate
    · exact ends_of_late hm (exec_grant_cluster hm hc hclk hrec hmsg) hlate
    · exact ends_of_late hm (exec_ack_cluster hm hc hclk hrec hmsg htag) hlate
    · exact ends_of_late hm (exec_atomRsp_cluster hm hc hclk hrec hmsg) hlate
  case cp => exact fun s m p hm hkind htag hrec hrun hpost hunit hquar huse => ack_ends_post hm hkind htag hrec hrun hpost hunit hquar huse

end Sys2Proof.Machine
end

section
/-!
PROOFS. Signals that reach a fence's home, and REJOIN (R342, R553–R555).
-/
namespace Sys2Proof.Machine
open Sys2Proof.Safety

/-! ### A fence's record as bytes -/

theorem leNat_lt (b : List Byte) : leNat b < 256 ^ b.length := by
  induction b with
  | nil => simp [leNat]
  | cons x b ih =>
    simp only [leNat, List.length_cons]
    have hx := x.isLt
    omega

/-- The fields of a record are those of R553: 64, 16 and 32 bits. -/
def FenceRec.Fits (r : FenceRec) : Prop := r.value < 2 ^ 64 ∧ r.inits < 2 ^ 16 ∧ r.ooo < 2 ^ 32

theorem leNat_take_lt (b : List Byte) (n : Nat) : leNat (b.take n) < 256 ^ n :=
  (leNat_lt _).trans_le (Nat.pow_le_pow_right (by decide) (List.length_take_le n b))

theorem fenceOfBytes_fits (b : List Byte) : (fenceOfBytes b).Fits :=
  ⟨(leNat_take_lt b 8).trans_eq (by norm_num), Nat.mod_lt _ (by decide), (leNat_take_lt (b.drop 12) 4).trans_eq (by norm_num)⟩

@[simp] theorem FenceRec.length_bytes (r : FenceRec) : r.bytes.length = 16 := by simp [FenceRec.bytes]

theorem fenceOfBytes_bytes {r : FenceRec} (h : r.Fits) : fenceOfBytes r.bytes = r := by
  obtain ⟨value, sat, err, inits, ooo⟩ := r
  obtain ⟨hvalue, hinits, hooo⟩ := h
  simp only at hvalue hinits hooo
  have hflags : bit sat + 2 * bit err + 65536 * inits < 256 ^ 4 := by cases sat <;> cases err <;> simp [bit] <;> omega
  have hsat : (bit sat + 2 * bit err + 65536 * inits).testBit 0 = sat := by
    cases sat <;> cases err <;> simp [bit, Nat.testBit_zero] <;> omega
  have herr : (bit sat + 2 * bit err + 65536 * inits).testBit 1 = err := by
    cases sat <;> cases err <;> simp [bit, Nat.testBit_succ, Nat.testBit_zero] <;> omega
  have hcount : (bit sat + 2 * bit err + 65536 * inits) / 65536 % 65536 = inits := by
    cases sat <;> cases err <;> simp [bit] <;> omega
  have h0 : (leBytes 8 value ++ leBytes 4 (bit sat + 2 * bit err + 65536 * inits) ++ leBytes 4 ooo).take 8 = leBytes 8 value := by
    simp
  have h1 : ((leBytes 8 value ++ leBytes 4 (bit sat + 2 * bit err + 65536 * inits) ++ leBytes 4 ooo).drop 8).take 4
      = leBytes 4 (bit sat + 2 * bit err + 65536 * inits) := by
    simp
  have h2 : ((leBytes 8 value ++ leBytes 4 (bit sat + 2 * bit err + 65536 * inits) ++ leBytes 4 ooo).drop 12).take 4 = leBytes 4 ooo := by
    rw [List.drop_left' (by simp), List.take_of_length_le (by simp)]
  simp only [fenceOfBytes, FenceRec.bytes, h0, h1, h2, leNat_leBytes, Nat.mod_eq_of_lt hflags, hsat, herr, hcount,
    Nat.mod_eq_of_lt (show value < 256 ^ 8 by omega), Nat.mod_eq_of_lt (show ooo < 256 ^ 4 by omega)]

/-- An operation keeps a record within its fields. -/
theorem FenceRec.apply_fits {r : FenceRec} {op : FenceOp} {err : Bool} (h : r.Fits) (hop : ∀ v, op = .set v → v < 2 ^ 64) :
    (r.apply op err).Fits := by
  obtain ⟨hvalue, hinits, hooo⟩ := h
  have hsat : satAdd32 r.ooo 1 < 2 ^ 32 := by unfold satAdd32; omega
  have hmod : (r.inits + 1) % 65536 < 2 ^ 16 := Nat.mod_lt _ (by decide)
  suffices hfits : (r.apply op false).Fits by
    cases err
    · exact hfits
    · exact hfits
  cases op with
  | set v =>
    have hv := hop v rfl
    simp only [FenceRec.apply, FenceRec.Fits, Bool.false_eq_true, if_false]
    split_ifs <;> exact ⟨by assumption, by assumption, by assumption⟩
  | add v =>
    simp only [FenceRec.apply, FenceRec.Fits, Bool.false_eq_true, if_false]
    split_ifs
    · exact ⟨hvalue, hinits, hooo⟩
    · exact ⟨by dsimp only; omega, hinits, hooo⟩
    · exact ⟨Nat.sub_lt (by decide) (by decide), hinits, hooo⟩
  | init v => exact ⟨Nat.mod_lt _ (by decide), hmod, Nat.two_pow_pos 32⟩

/-! ### The two records of a granule -/

/-- The record that a granule holds at an offset within it. -/
def recordAt (m : MemSt) (g x : Nat) : FenceRec := fenceOfBytes (((rawBytes m g).drop x).take 16)

/-- A granule written with 32 GOOD bytes holds those. -/
theorem rawBytes_putGran (s : State) (g : Nat) {bs : List Byte} (h : bs.length = 32) : rawBytes (s.putGran g .good bs).mem g = bs := by
  have hread := decodeGran_putGran_full s g .good h
  rw [decodeGran_of_sound (by simp [State.putGran, NMap.get, NMap.find?_erase_self])] at hread
  simp only [if_true, Option.some.injEq, GranRead.mk.injEq] at hread
  obtain ⟨-, hbytes, -⟩ := hread
  exact hbytes

/-- Bytes written to one half of a granule stand there, and the other half stays. -/
theorem slices_overlay {old new : List Byte} {a : Nat} (hold : old.length = 32) (hnew : new.length = 16) (ha : a = 0 ∨ a = 16) :
    ((overlay old a new).drop a).take 16 = new ∧ ((overlay old a new).drop (16 - a)).take 16 = (old.drop (16 - a)).take 16 := by
  rcases ha with rfl | rfl <;> simp [overlay, hold, hnew, List.drop_append]

/-- A record written to one half of a granule. -/
theorem records_putGran (s : State) {g a : Nat} {r : FenceRec} (ha : a = 0 ∨ a = 16) (hr : r.Fits) {t : State}
    (ht : t = s.putGran g .good (overlay (rawBytes s.mem g) a r.bytes)) :
    recordAt t.mem g a = r ∧ recordAt t.mem g (16 - a) = recordAt s.mem g (16 - a) := by
  have hlen : (overlay (rawBytes s.mem g) a r.bytes).length = 32 := by
    rcases ha with rfl | rfl <;> simp [overlay]
  obtain ⟨hsame, hother⟩ := slices_overlay (length_rawBytes s.mem g) r.length_bytes ha
  subst ht
  simp only [recordAt, rawBytes_putGran s g hlen, hsame, hother, fenceOfBytes_bytes hr, and_self]

/-! ### The counters of R555 -/

theorem State.alters_countFence (s : State) (r : FenceRec) (op : FenceOp) (err : Bool) :
    Alters [.regs] [.FEN_OOO_CNT, .FEN_SAT_CNT, .FEN_ERR_CNT] s (s.countFence r op err) := by
  have hop : Alters [.regs] [.FEN_OOO_CNT, .FEN_SAT_CNT, .FEN_ERR_CNT] s (s.countFence r op false) := by
    cases op with
    | set v => exact .ite ((s.alters_count _ 0 0 1).mono (by decide) (by decide)) (.refl _ _ s)
    | add v => exact .ite ((s.alters_count _ 0 0 1).mono (by decide) (by decide)) (.refl _ _ s)
    | init v => exact .refl _ _ s
  refine hop.trans ?_
  exact .ite ((State.alters_count _ _ 0 0 1).mono (by decide) (by decide)) (.refl _ _ _)

theorem State.countFence_ooo (s : State) (r : FenceRec) (v : Nat) (err : Bool) : (s.countFence r (.set v) err).reg .FEN_OOO_CNT =
    if r.sat = false ∧ v < r.value then satAdd32 (s.reg .FEN_OOO_CNT) 1 else s.reg .FEN_OOO_CNT := by
  simp only [State.countFence]
  split_ifs <;> simp_all [State.reg_count]

theorem State.countFence_sat (s : State) (r : FenceRec) (v : Nat) (err : Bool) : (s.countFence r (.add v) err).reg .FEN_SAT_CNT =
    if r.sat = false ∧ 2 ^ 64 - 1 < r.value + v then satAdd32 (s.reg .FEN_SAT_CNT) 1 else s.reg .FEN_SAT_CNT := by
  simp only [State.countFence]
  split_ifs <;> simp_all [State.reg_count] <;> omega

theorem State.countFence_err (s : State) (r : FenceRec) (op : FenceOp) (err : Bool) : (s.countFence r op err).reg .FEN_ERR_CNT =
    if err = true ∧ r.err = false then satAdd32 (s.reg .FEN_ERR_CNT) 1 else s.reg .FEN_ERR_CNT := by
  have hop : (s.countFence r op false).reg .FEN_ERR_CNT = s.reg .FEN_ERR_CNT := by
    cases op <;> simp only [State.countFence] <;> split_ifs <;> simp_all [State.reg_count]
  change (if (err && !r.err) = true then (s.countFence r op false).count .FEN_ERR_CNT else s.countFence r op false).reg .FEN_ERR_CNT = _
  split_ifs <;> simp_all [State.reg_count]

theorem State.alters_fenceChanged (s : State) (n : Nat) : Alters [.cp] [] s (s.fenceChanged n) :=
  .of_regs (by simp [Same, State.fenceChanged]) rfl

/-- Whether a granule is sound rests on its errors and on the retired channels alone. -/
theorem sound_of_alters {s t : State} {ch : List Comp} {fs : List Field} (h : Alters ch fs s t) (hch : .mem ∉ ch)
    (hfs : .MEM_CH_RETIRE_MASK ∉ fs) {g : Nat} (hs : Sound s g) : Sound t g := by
  obtain ⟨herr, hret⟩ := hs
  have hmem : t.mem = s.mem := h.agree .mem hch
  exact ⟨by rw [hmem, herr], by rw [← hret]; simp only [State.retiredAt, State.chRetired, h.reg _ _ _ hfs]⟩

/-! ### A signal at its fence's record -/

section
variable {s : State} {o : Nat} (hs : Sound s (o / 32)) (hgood : NMap.get .good s.mem.gran (o / 32) = .good)
include hs hgood

theorem fenceRead_good : s.fenceRead o = (recordAt s.mem (o / 32) (o % 32), s) := by
  simp [State.fenceRead, readGran_of_sound hs, hgood, not_retired_of_sound hs, recordAt]

/-- A signal at a sound GOOD granule: it is counted, and a record that changes is written and noticed. -/
theorem fenceApply_good (op : FenceOp) (err : Bool) (ha : o % 16 = 0) :
    let old := recordAt s.mem (o / 32) (o % 32)
    let c := s.countFence old op err
    s.fenceApply o op err = if old.apply op err = old then c else
      (c.putGran (o / 32) .good (overlay (rawBytes c.mem (o / 32)) (o % 32) (old.apply op err).bytes)).fenceChanged
        ((o - c.fenceBase) / 16) := by
  intro old c
  have hc := s.alters_countFence old op err
  have hmem : c.mem = s.mem := hc.agree .mem (by decide)
  have hwrite := writeGran_good (s := c) (o := o) (sound_of_alters hc (by decide) (by decide) hs) (by rw [hmem, hgood])
    (bs := (old.apply op err).bytes) (by rw [FenceRec.length_bytes]; omega)
  simp only [State.fenceApply, fenceRead_good hs hgood]
  change (if old.apply op err = old then c else (c.writeGran o (old.apply op err).bytes .good).fenceChanged _) = _
  rw [hwrite]

/-- What a signal leaves of its fence's record, of the granule that holds it, and of what is counted and noticed. -/
structure Signalled (s : State) (o : Nat) (op : FenceOp) (err : Bool) (t : State) : Prop where
  applied : recordAt t.mem (o / 32) (o % 32) = (recordAt s.mem (o / 32) (o % 32)).apply op err
  other : recordAt t.mem (o / 32) (16 - o % 32) = recordAt s.mem (o / 32) (16 - o % 32)
  good : NMap.get .good t.mem.gran (o / 32) = .good
  grans : OnlyGrans [o / 32] s t
  cp : t.cp = { s.cp with fenSeen := t.cp.fenSeen, mirDue := t.cp.mirDue }
  counted : ∀ f i n, t.reg f i n = (s.countFence (recordAt s.mem (o / 32) (o % 32)) op err).reg f i n

omit hs hgood in
/-- A signal that changes its record. -/
theorem signalled_putGran {op : FenceOp} (err : Bool) (ha : o % 16 = 0) (hop : ∀ v, op = .set v → v < 2 ^ 64) {n : Nat} :
    let c := s.countFence (recordAt s.mem (o / 32) (o % 32)) op err
    Signalled s o op err ((c.putGran (o / 32) .good (overlay (rawBytes c.mem (o / 32)) (o % 32)
      ((recordAt s.mem (o / 32) (o % 32)).apply op err).bytes)).fenceChanged n) := by
  intro c
  have hc := s.alters_countFence (recordAt s.mem (o / 32) (o % 32)) op err
  have hmem : c.mem = s.mem := hc.agree .mem (by decide)
  have hcp : c.cp = s.cp := hc.agree .cp (by decide)
  obtain ⟨happlied, hother⟩ := records_putGran c (g := o / 32) (show o % 32 = 0 ∨ o % 32 = 16 by omega)
    (FenceRec.apply_fits (r := recordAt s.mem (o / 32) (o % 32)) (fenceOfBytes_fits _) hop (err := err)) rfl
  have hgood : NMap.get .good (NMap.set .good c.mem.gran (o / 32) .good) (o / 32) = .good := NMap.get_set_self _ _ _ _
  exact { applied := happlied, other := hother.trans (by rw [hmem]), good := hgood, counted := fun _ _ _ => rfl
          grans := (onlyGrans_putGran c _ _ _).congr hmem.symm rfl
          cp := by rw [← hcp]; rfl }

theorem fenceApply_signalled {op : FenceOp} (err : Bool) (ha : o % 16 = 0) (hop : ∀ v, op = .set v → v < 2 ^ 64) :
    Signalled s o op err (s.fenceApply o op err) ∧ Same [.mem, .regs, .cp] s (s.fenceApply o op err) := by
  let c := s.countFence (recordAt s.mem (o / 32) (o % 32)) op err
  have hc := s.alters_countFence (recordAt s.mem (o / 32) (o % 32)) op err
  have hmem : c.mem = s.mem := hc.agree .mem (by decide)
  have hcp : c.cp = s.cp := hc.agree .cp (by decide)
  rw [fenceApply_good hs hgood op err ha]
  change (Signalled s o op err (if _ then c else _) ∧ Same _ s (if _ then c else _))
  split_ifs with hsame
  · refine ⟨{ applied := ?_, other := ?_, good := ?_, grans := ?_, cp := ?_, counted := fun _ _ _ => rfl }, hc.1.mono (by decide)⟩
    · rw [hmem]
      exact hsame.symm
    · rw [hmem]
    · rw [hmem, hgood]
    · exact (OnlyGrans.refl _ s).congr rfl hmem
    · rw [hcp]
  · have hput := c.alters_putGran (o / 32) .good (overlay (rawBytes c.mem (o / 32)) (o % 32)
      ((recordAt s.mem (o / 32) (o % 32)).apply op err).bytes)
    refine ⟨signalled_putGran err ha hop, ((hc.1.mono (by decide)).trans (hput.1.mono (by decide))).trans ?_⟩
    exact (State.alters_fenceChanged _ _).1.mono (by decide)

end

/-! ### Signals and REJOIN at a home -/

theorem State.countFence_congr {s t : State} (h : t.regs = s.regs) (r : FenceRec) (op : FenceOp) (err : Bool) :
    (t.countFence r op err).regs = (s.countFence r op err).regs := by
  cases op <;> simp only [State.countFence] <;> split_ifs <;> simp [State.count, State.setReg, State.reg, h]

theorem Signalled.congr {s t s' t' : State} {o : Nat} {op : FenceOp} {err : Bool} (h : Signalled s o op err t) (hmem : s'.mem = s.mem)
    (hcp : s'.cp = s.cp) (hregs : s'.regs = s.regs) (hmem' : t'.mem = t.mem) (hcp' : t'.cp = t.cp) (hregs' : t'.regs = t.regs) :
    Signalled s' o op err t' := by
  obtain ⟨happlied, hother, hgood, hgrans, hfences, hcounted⟩ := h
  refine ⟨by rw [hmem, hmem', happlied], by rw [hmem, hmem', hother], by rw [hmem', hgood], hgrans.congr hmem hmem', ?_, fun f i n => ?_⟩
  · rw [hcp, hcp', ← hfences]
  · rw [State.reg_congr hregs', hcounted, hmem, State.reg_congr (State.countFence_congr hregs _ op err)]

section
variable {s : State} {m : Msg} {k : Nat} {p : Part} {op : FenceOp} {err : Bool}

theorem performAtomic_signal (hpart : m.part = some p) (hop : p.op = .signal op err) :
    s.performAtomic k m = (s.fenceApply (offsetOf p.addr) op err).reply m .atomRsp none (some okRes) := by
  simp only [State.performAtomic, hpart, hop]

/-- A signal that its home can take at once. -/
theorem signal_ends (hat : AtHome s m k) (hkind : m.kind = .ncAtom) (hpart : m.part = some p) (hop : p.op = .signal op err)
    (hfind : (s.home k).find (lsOf m.line) = none) (hv : ∀ v, op = .set v → v < 2 ^ 64) (ha : offsetOf p.addr % 16 = 0)
    (hs : Sound s (offsetOf p.addr / 32)) (hgood : NMap.get .good s.mem.gran (offsetOf p.addr / 32) = .good) :
    Ends (.fenceSignal m) s fun t => Signalled s (offsetOf p.addr) op err t
      ∧ Answered s m m.agent.tile { answerOf m .atomRsp with res := some okRes } t ∧ OnlyHome [.mem, .regs, .cp] k s t
      ∧ t.home k = s.home k := by
  have hsig : isSignalMsg m = true := by simp [isSignalMsg, hpart, hop]
  obtain ⟨x, hx, hreceive⟩ := receive_accepted (ok := (· == .ncAtom)) hat (by simp [hkind]) hsig
  have hhome : x.home k = s.home k := hx.home
  have hsame : x.reclaimed k (lsOf m.line) = x := by simp [State.reclaimed, hhome, hfind]
  rw [hsame, hhome] at hreceive
  obtain ⟨hsignal, hz⟩ := fenceApply_signalled (s := x) (hx.sound hs) (hx.mem ▸ hgood) err ha hv
  obtain ⟨hidle, hrest⟩ := hx.completes hat (.of_same hz (by decide) k) (by decide)
    ((State.home_congr (same_iff.1 hz .homes (by decide)) k).trans hhome) rfl rfl m.agent.tile
    { answerOf m .atomRsp with res := some okRes }
  refine ⟨_, ?_, hsignal.congr hx.mem.symm (hx.1.agree .cp (by decide) : x.cp = s.cp).symm hx.regs.symm (by simp) (by simp) (by simp), hrest⟩
  refine congrArg _ (hreceive _ (HomeSt.not_pending hat.waits_for_none.2 _) ?_ hidle)
  rw [serve_atomic (m := arriving s m) hkind (hhome ▸ hfind), performAtomic_signal (m := arriving s m) hpart hop]
  rfl

/-- REJOIN: the entries of the dead-agent table that name the requester go (R342). -/
theorem rejoin_ends (hkind : m.kind = .rejoin) (hhome : m.home.tile = none) (hrec : receivable m s.mesh = true)
    (hrun : s.stopped 2 = false) : Ends (.rejoin m) s fun t =>
      Answered s m m.agent.tile (answerOf m .ack) t ∧ Same [.mesh, .xmit, .dead] s t
      ∧ (m.agent.tile = none → m.agent.unit < 64 → t.dead = s.dead.filter fun d => d.all || d.agent != m.agent)
      ∧ (m.agent.tile ≠ none → t.dead = s.dead.filter fun d => d.agent.tile != m.agent.tile) := by
  let keep (d : DeadEntry) : Bool :=
    if m.agent.tile.isNone && decide (m.agent.unit < 64) then d.all || d.agent != m.agent else d.agent.tile != m.agent.tile
  let x : State := { s.takeMsg m with dead := s.dead.filter keep }
  have hexec : exec (.rejoin m) s = .next (x.sendTo m.agent.tile (answerOf m .ack)) := by
    refine (show exec (.rejoin m) s = execRejoin m s from rfl).trans ?_
    rw [execRejoin, if_neg (by simp [hkind, hhome, hrec, hrun])]
    rfl
  have hdead : (x.sendTo m.agent.tile (answerOf m .ack)).dead = s.dead.filter keep := State.sendTo_dead x _ _
  refine ⟨_, hexec, answered_sendTo (x := x) rfl rfl _ _, ?_, fun hlocal hunit => ?_, fun hremote => ?_⟩
  · exact (show Same [.mesh, .xmit, .dead] s x by simp [Same, x, State.takeMsg]).trans ((x.alters_sendTo _ _).1.mono (by decide))
  · rw [hdead]
    simp [keep, hlocal, hunit]
  · rw [hdead]
    simp [keep, hremote]

end

/-- Settles O47: the record's bytes hold what R555 makes of them, and the granule's other half stays. -/
theorem fencesTakeSignals : Obligations.FencesTakeSignals := by
  unfold Obligations.FencesTakeSignals
  refine ⟨?signal, ?apply, fun s m => rejoin_ends⟩
  case signal =>
    intro s m k p op err hat hkind hpart hop hfind hv o g rec' old ha hs hgood
    refine (signal_ends hat hkind hpart hop hfind (fun v h => hv v (.inl h)) ha hs hgood).imp fun t ⟨h, hans, honly, hhome⟩ => ?_
    refine ⟨h.applied, h.other, h.good, h.grans, honly, hhome, h.cp, hans, fun f i n hf => ?_, fun v hset => ?_, fun v hadd => ?_, ?_⟩
    · rw [h.counted, (s.alters_countFence _ op err).reg f i n hf]
    · subst hset
      rw [h.counted, State.countFence_ooo]
      rfl
    · subst hadd
      rw [h.counted, State.countFence_sat]
      rfl
    · rw [h.counted, State.countFence_err]
      rfl
  case apply =>
    intro r v hsat
    refine ⟨fun h => ?_, fun h => ?_, fun h => ?_, fun h => ?_, rfl, rfl⟩
    · simp [FenceRec.apply, hsat, h]
    · simp [FenceRec.apply, hsat, h, Nat.lt_asymm h]
    · simp only [FenceRec.apply, hsat, show r.value + v ≤ 2 ^ 64 - 1 by omega, if_true, Bool.false_eq_true, if_false]
    · simp only [FenceRec.apply, hsat, show ¬ r.value + v ≤ 2 ^ 64 - 1 by omega, Bool.false_eq_true, if_false]

end Sys2Proof.Machine
end

section
/-!
PROOFS. The entry of a line in a cluster cache, and a line that is dropped from it and from the L1s below (R309–R312, R325).
-/
namespace Sys2Proof.Machine
open Sys2Proof.Safety

/-! ### The entry of a line -/

theorem Cluster.find_iff {cl : Cluster} {line key : Nat} {x : CLine} : cl.find line = some (key, x) ↔
    ∃ w, wayOf cl.cc 16 (ccSet line) line = some w ∧ key = ccSet line * 16 + w ∧ NMap.find? cl.cc key = some x := by
  unfold Cluster.find
  cases hway : wayOf cl.cc 16 (ccSet line) line with
  | none => simp
  | some w =>
    simp only [Option.map_eq_some_iff, Prod.mk.injEq, Option.some.injEq]
    constructor
    · rintro ⟨y, hy, rfl, rfl⟩
      exact ⟨w, rfl, rfl, hy⟩
    · rintro ⟨_, rfl, rfl, hy⟩
      exact ⟨x, hy, rfl, rfl⟩

theorem wayOf_spec {m : NMap CLine} {ways set line w : Nat} (h : wayOf m ways set line = some w) :
    ∃ x, NMap.find? m (set * ways + w) = some x ∧ x.line = line := by
  have hw := List.find?_some h
  split at hw
  · next x hx => exact ⟨x, hx, by simpa using hw⟩
  · cases hw

/-- The entry that is found holds the line. -/
theorem Cluster.line_of_find {cl : Cluster} {line key : Nat} {x : CLine} (h : cl.find line = some (key, x)) : x.line = line := by
  obtain ⟨w, hway, rfl, hx⟩ := Cluster.find_iff.1 h
  obtain ⟨y, hy, hline⟩ := wayOf_spec hway
  rw [hx] at hy
  exact Option.some.inj hy ▸ hline

/-- An entry that is written with the same line is found where it was. -/
theorem Cluster.find_insert {cl : Cluster} {line key : Nat} {x y : CLine} (h : cl.find line = some (key, x)) (hy : y.line = line) :
    ({ cl with cc := NMap.insert cl.cc key y } : Cluster).find line = some (key, y) := by
  have hline := Cluster.line_of_find h
  obtain ⟨w, hway, rfl, hx⟩ := Cluster.find_iff.1 h
  refine Cluster.find_iff.2 ⟨w, ?_, rfl, NMap.find?_insert_self _ _ _⟩
  rw [← hway]
  unfold wayOf
  congr 1
  funext v
  by_cases hv : ccSet line * 16 + v = ccSet line * 16 + w
  · simp [hv, hx, hline, hy, NMap.find?_insert_self]
  · rw [NMap.find?_insert_ne _ _ hv]

/-! ### The L1s -/

/-- A core whose L1 has lost a line. -/
def Core.dropLine (co : Core) (line : Nat) : Core := { co with
  l1 := match co.findL1 line with
    | none => co.l1
    | some (k, _) => NMap.erase co.l1 k }

theorem Core.dropLine_of_none {co : Core} {line : Nat} (h : co.findL1 line = none) : co.dropLine line = co := by
  simp [Core.dropLine, h]

/-- A cluster `cl'` is `cl` but for presence bits of its entry `x` of a line. -/
def SameButPresence (line key : Nat) (x : CLine) (cl cl' : Cluster) : Prop :=
  cl' = { cl with cc := cl'.cc } ∧ (∃ p, cl'.find line = some (key, { x with pres := p })) ∧ NMap.erase cl'.cc key = NMap.erase cl.cc key

theorem SameButPresence.insert {line key : Nat} {x : CLine} {cl cl' : Cluster} (h : SameButPresence line key x cl cl') (p : Nat) :
    SameButPresence line key x cl { cl' with cc := NMap.insert cl'.cc key { x with pres := p } } := by
  obtain ⟨hcl, ⟨q, hfind⟩, herase⟩ := h
  refine ⟨by rw [hcl], ⟨p, Cluster.find_insert hfind (Cluster.line_of_find hfind :)⟩, ?_⟩
  rw [NMap.erase_insert_self, herase]

/-- The first `n` cores of a cluster have lost a line that it holds. -/
structure L1sDropped (c line key : Nat) (x : CLine) (n : Nat) (s t : State) : Prop where
  dropped : ∀ i < n, t.core (4 * c + i) = (s.core (4 * c + i)).dropLine line
  cores : ∀ d, (∀ i < n, d ≠ 4 * c + i) → t.core d = s.core d
  clu : SameButPresence line key x (s.clu c) (t.clu c)
  clus : ∀ d, d ≠ c → t.clu d = s.clu d
  same : Alters [.clus, .cores] [] s t

/-- One more core loses the line. -/
theorem L1sDropped.succ {c line key n : Nat} {x : CLine} {s t : State} (h : L1sDropped c line key x n s t) (hn : n < 4) :
    L1sDropped c line key x (n + 1) s (t.dropL1 (4 * c + n) line) := by
  obtain ⟨hdropped, hcores, hclu, hclus, hsame⟩ := h
  have hcore : t.core (4 * c + n) = s.core (4 * c + n) := hcores _ fun i hi => by omega
  have hcluster : clusterOf (4 * c + n) = c := by unfold clusterOf; omega
  cases hl1 : (s.core (4 * c + n)).findL1 line with
  | none =>
    have ht : t.dropL1 (4 * c + n) line = t := by simp [State.dropL1, hcore, hl1]
    rw [ht]
    refine ⟨fun i hi => ?_, fun d hd => hcores d fun i hi => hd i (by omega), hclu, hclus, hsame⟩
    rcases Nat.lt_succ_iff_lt_or_eq.1 hi with hlt | rfl
    · exact hdropped i hlt
    · rw [hcore, Core.dropLine_of_none hl1]
  | some e =>
    obtain ⟨k, l⟩ := e
    obtain ⟨-, ⟨p, hfind⟩, -⟩ := id hclu
    let u := t.onCore (4 * c + n) fun co => { co with l1 := NMap.erase co.l1 k }
    let q := putBits p ((4 * c + n) % 4) ((4 * c + n) % 4) 0
    have hu : u.clu c = t.clu c := rfl
    have ht : t.dropL1 (4 * c + n) line = u.setCc c key { x with pres := q } := by
      simp only [State.dropL1, hcore, hl1, hcluster]
      change (match (u.clu c).find line with
        | none => u
        | some (k, x) => _) = _
      rw [hu, hfind]
    have hucore (d : Nat) : (u.setCc c key { x with pres := q }).core d = u.core d := State.core_congr rfl d
    rw [ht]
    refine ⟨fun i hi => ?_, fun d hd => ?_, ?_, fun d hd => ?_, ?_⟩
    · rw [hucore]
      rcases Nat.lt_succ_iff_lt_or_eq.1 hi with hlt | rfl
      · rw [← hdropped i hlt]
        exact State.core_setCore_ne _ _ (by omega)
      · rw [State.core_onCore_self, hcore, Core.dropLine, hl1]
    · rw [hucore, ← hcores d fun i hi => hd i (by omega)]
      exact State.core_setCore_ne _ _ (hd n (by omega))
    · rw [State.setCc, State.clu_onClu_self, hu]
      exact hclu.insert q
    · rw [State.setCc, State.clu_onClu_ne _ _ hd, ← hclus d hd]
      rfl
    · exact hsame.trans (((State.alters_onCore _ _ _).mono (by decide) (by decide)).trans
        ((State.alters_onClu _ _ _).mono (by decide) (by decide)))

/-- A line that a cluster holds is dropped from the L1s of its cores. -/
theorem dropL1s_spec {s : State} {c line key : Nat} {x : CLine} (hfind : (s.clu c).find line = some (key, x)) :
    L1sDropped c line key x 4 s (s.dropL1s c line) :=
  foldState_range (p := fun n => L1sDropped c line key x n s) _ s
    ⟨fun i hi => absurd hi (Nat.not_lt_zero i), fun _ _ => rfl, ⟨rfl, ⟨x.pres, hfind⟩, rfl⟩, fun _ _ => rfl, .refl _ _ s⟩ 4
    fun _ hn _ h => h.succ hn

/-! ### The cluster cache -/

theorem State.alters_filterSub (s : State) (line : Nat) (st : CState) : Alters [.filter] [] s (s.filterSub line st) := by
  unfold State.filterSub
  split
  · exact .of_regs (by simp [Same]) rfl
  · exact .refl _ _ s

theorem State.filterSub_filter_congr {s t : State} (hregs : t.regs = s.regs) (hfilter : t.filter = s.filter) (line : Nat) (st : CState) :
    (t.filterSub line st).filter = (s.filterSub line st).filter := by
  unfold State.filterSub State.filtered
  rw [State.homeOf_congr hregs]
  split <;> simp [hfilter]

/-- A line that stood at `key` in state `st` has left its cluster and the L1s below. -/
structure LineDropped (c line key : Nat) (st : CState) (s t : State) : Prop where
  clu : t.clu c = { s.clu c with cc := NMap.erase (s.clu c).cc key }
  clus : ∀ d, d ≠ c → t.clu d = s.clu d
  dropped : ∀ i < 4, t.core (4 * c + i) = (s.core (4 * c + i)).dropLine line
  cores : ∀ d, d / 4 ≠ c → t.core d = s.core d
  filter : t.filter = (s.filterSub line st).filter

theorem LineDropped.congr {c line key : Nat} {st : CState} {s t s' t' : State} (h : LineDropped c line key st s t)
    (hs : Same [.mesh, .xmit] s s') (ht : Same [.mesh, .xmit] t t') : LineDropped c line key st s' t' := by
  have hclu (d : Nat) : s'.clu d = s.clu d := State.clu_congr (same_iff.1 hs .clus (by decide)) d
  have hclu' (d : Nat) : t'.clu d = t.clu d := State.clu_congr (same_iff.1 ht .clus (by decide)) d
  have hcore (d : Nat) : s'.core d = s.core d := State.core_congr (same_iff.1 hs .cores (by decide)) d
  have hcore' (d : Nat) : t'.core d = t.core d := State.core_congr (same_iff.1 ht .cores (by decide)) d
  refine ⟨?_, fun d hd => ?_, fun i hi => ?_, fun d hd => ?_, ?_⟩
  · rw [hclu, hclu', h.clu]
  · rw [hclu, hclu', h.clus d hd]
  · rw [hcore, hcore', h.dropped i hi]
  · rw [hcore, hcore', h.cores d hd]
  · rw [State.filterSub_filter_congr (same_iff.1 hs .regs (by decide)) (same_iff.1 hs .filter (by decide)), ← h.filter]
    exact same_iff.1 ht .filter (by decide)

/-- A line that has left the L1s leaves the cluster cache. -/
theorem L1sDropped.erase {c line key : Nat} {x y : CLine} {s t : State} (h : L1sDropped c line key x 4 s t)
    (hst : y.st = x.st) : let u := (t.onClu c fun cl => { cl with cc := NMap.erase cl.cc key }).filterSub line y.st
    LineDropped c line key x.st s u ∧ Same [.clus, .cores, .filter] s u := by
  obtain ⟨hdropped, hcores, ⟨hclu, -, herase⟩, hclus, hsame⟩ := h
  let u := t.onClu c fun cl => { cl with cc := NMap.erase cl.cc key }
  have hu : Alters [.clus, .cores] [] s u := hsame.trans ((State.alters_onClu _ _ _).mono (by decide) (by decide))
  have hf := u.alters_filterSub line x.st
  have hfclu (d : Nat) : (u.filterSub line x.st).clu d = u.clu d := State.clu_congr (hf.agree .clus (by decide)) d
  have hfcore (d : Nat) : (u.filterSub line x.st).core d = t.core d := State.core_congr (hf.agree .cores (by decide)) d
  dsimp only
  rw [hst]
  refine ⟨⟨?_, fun d hd => ?_, fun i hi => ?_, fun d hd => ?_, ?_⟩, ?_⟩
  · rw [hfclu, State.clu_onClu_self, herase, hclu]
  · rw [hfclu, State.clu_onClu_ne _ _ hd, hclus d hd]
  · rw [hfcore, hdropped i hi]
  · exact (hfcore d).trans (hcores d fun i hi => by omega)
  · exact State.filterSub_filter_congr (hu.agree .regs (by decide)) (hu.agree .filter (by decide)) line x.st
  · exact (hu.1.mono (by decide)).trans (hf.1.mono (by decide))

theorem State.dropCc_found {s : State} {c line key : Nat} {y : CLine} (h : ((s.dropL1s c line).clu c).find line = some (key, y)) :
    s.dropCc c line = ((s.dropL1s c line).onClu c fun cl => { cl with cc := NMap.erase cl.cc key }).filterSub line y.st := by
  unfold State.dropCc
  generalize s.dropL1s c line = t at h ⊢
  simp only [h]

theorem dropCc_spec {s : State} {c line key : Nat} {x : CLine} (hfind : (s.clu c).find line = some (key, x)) :
    LineDropped c line key x.st s (s.dropCc c line) ∧ Same [.clus, .cores, .filter] s (s.dropCc c line) := by
  have h := dropL1s_spec hfind
  obtain ⟨-, ⟨p, hfind'⟩, -⟩ := h.clu
  rw [State.dropCc_found hfind']
  exact h.erase (y := { x with pres := p }) rfl

end Sys2Proof.Machine
end

section
/-!
PROOFS. Snoops at the clusters of this tile, the win hold, and the home that takes their answers (R325, R331, R333, R335, R338).
-/
namespace Sys2Proof.Machine
open Sys2Proof.Safety

/-! ### What a snoop does to a line -/

theorem snoopEffect_of_not_held {s : State} {c line : Nat} (h : (s.clu c).snooped line = none) (kind : MsgKind) :
    snoopEffect s c kind line = (.notHeld, none, s) := by
  simp [snoopEffect, h]

/-- The answer of a line's owner: clean in E, dirty in M and O. -/
def ownerReply (st : CState) : SnpReply := if st = .e then .clean else .dirty

/-- A line that its cluster owns, in E, M or O, is valid and not shared. -/
theorem not_shared_of_owner {st : CState} (h : st = .e ∨ st = .m ∨ st = .o) : st ≠ .v ∧ st ≠ .s := by
  rcases h with rfl | rfl | rfl <;> decide

section
variable {s : State} {c line key : Nat} {y : CLine} (hfind : (s.clu c).find line = some (key, y))
include hfind

theorem Cluster.snooped_of_find (hv : y.st ≠ .v) : (s.clu c).snooped line = some (y, true) := by
  simp [Cluster.snooped, hfind, hv]

theorem snoopEffect_share (hown : y.st = .e ∨ y.st = .m ∨ y.st = .o) : snoopEffect s c .snpS line =
    (ownerReply y.st, some y.data, s.setCc c key { y with st := if y.st = .e then .s else .o }) := by
  obtain ⟨hv, hs⟩ := not_shared_of_owner hown
  have hheld := Cluster.snooped_of_find hfind hv
  simp [snoopEffect, hheld, hs, setSnooped, hfind, ownerReply]

theorem snoopEffect_take (hown : y.st = .e ∨ y.st = .m ∨ y.st = .o) : snoopEffect s c .snpX line =
    (ownerReply y.st, some y.data, s.dropCc c line) := by
  obtain ⟨hv, hs⟩ := not_shared_of_owner hown
  have hheld := Cluster.snooped_of_find hfind hv
  simp [snoopEffect, hheld, hs, setSnooped, ownerReply]

theorem snoopEffect_copy (hown : y.st = .e ∨ y.st = .m ∨ y.st = .o) : snoopEffect s c .snpNc line =
    (ownerReply y.st, some y.data, s) := by
  obtain ⟨hv, hs⟩ := not_shared_of_owner hown
  have hheld := Cluster.snooped_of_find hfind hv
  simp [snoopEffect, hheld, hs, ownerReply]

theorem snoopEffect_drop (hst : y.st = .s) {kind : MsgKind} (hkind : kind = .snpX ∨ kind = .inv) : snoopEffect s c kind line =
    (.ack, none, s.dropCc c line) := by
  have hheld := Cluster.snooped_of_find hfind (by simp [hst])
  rcases hkind with rfl | rfl <;> simp [snoopEffect, hheld, hst, setSnooped]

end

/-! ### A snoop that reaches its cluster -/

/-- The answer to a snoop. -/
def snoopAnswerOf (m : Msg) (r : SnpReply) (d : Option LineData) : Msg := { answerOf m (.snpRsp r) with data := d, mc := m.mc }

/-- The commands that hand a snoop to the cluster it names. -/
def snoopCommands (m : Msg) : List (Instr × MsgKind) := [(.snps m, .snpS), (.snpx m, .snpX), (.snpnc m, .snpNc), (.inv m, .inv)]

theorem exec_snoop {m : Msg} {x : Instr × MsgKind} (hx : x ∈ snoopCommands m) (s : State) : exec x.1 s = .next (snoopArrives m x.2 s) := by
  simp only [snoopCommands, List.mem_cons, List.not_mem_nil, or_false] at hx
  obtain rfl | rfl | rfl | rfl := hx <;> rfl

theorem holdsForOwn_of_no_request {s : State} {c : Nat} {m : Msg} (h : ∀ r ∈ (s.clu c).reqs, r.2.line ≠ m.line) :
    holdsForOwn s c m = false := by
  have hnone : ((s.clu c).reqs.any fun r => r.2.line == m.line
      && (r.2.kind == .rdS || r.2.kind == .rdX true || r.2.kind == .rdX false) && !r.2.quar) = false := by
    rw [List.any_eq_false]
    intro r hr
    simp [h r hr]
  unfold holdsForOwn
  simp only [hnone, Bool.false_and]

section
variable {s : State} {m : Msg} {c : Nat} {x : Instr × MsgKind} (hm : m.agent = ⟨none, c⟩) (hc : c < 64) (hmc : m.mc = none)
  (hrec : receivable m s.mesh = true) (hkind : m.kind = x.2)
include hm hc hmc hrec hkind

/-- A cluster without power answers at once. -/
theorem snoopArrives_unpowered (hrun : s.stopped 2 = false) {r : SnpReply} (hgate : (s.reg .CRG_GATE_STATE c, r) ∈
    ([(5, .dark), (6, .dark), (0, .notHeld), (3, .notHeld), (4, .notHeld)] : List (Nat × SnpReply))) :
    snoopArrives m x.2 s = (s.takeMsg m).snoopReply m r := by
  simp only [List.mem_cons, List.not_mem_nil, or_false, Prod.mk.injEq] at hgate
  unfold snoopArrives
  rw [if_neg (by simp [hkind, hm, hmc, hrec, hrun, Nat.not_le.2 hc])]
  obtain ⟨h, rfl⟩ | ⟨h, rfl⟩ | ⟨h, rfl⟩ | ⟨h, rfl⟩ | ⟨h, rfl⟩ := hgate <;> simp only [hm, h]

section
variable (hclk : s.clocked c = true) (hreqs : ∀ r ∈ (s.clu c).reqs, r.2.line ≠ m.line)
include hclk hreqs

/-- A clocked cluster serves a snoop that nothing keeps waiting. -/
theorem snoopArrives_serves (hhold : ∀ key y, (s.clu c).find m.line = some (key, y) → y.hold = false) :
    snoopArrives m x.2 s = serveSnoop (s.takeMsg m) c m := by
  have hgate := (State.clocked_iff.1 hclk).1
  unfold snoopArrives
  rw [if_neg (by simp [hkind, hm, hmc, hrec, State.running_of_clocked hclk, Nat.not_le.2 hc])]
  cases hfind : ((s.takeMsg m).clu c).find m.line with
  | none => simp [hm, hgate, hclk, holdsForOwn_of_no_request hreqs, hfind]
  | some e =>
    obtain ⟨key, y⟩ := e
    simp [hm, hgate, hclk, holdsForOwn_of_no_request hreqs, hfind, hhold key y hfind]

/-- The win hold keeps a snoop waiting, and it is counted (R335). -/
theorem snoopArrives_waits {key : Nat} {y : CLine} (hfind : (s.clu c).find m.line = some (key, y)) (hhold : y.hold = true)
    (hinv : x.2 ≠ .inv) : snoopArrives m x.2 s =
      ((s.takeMsg m).setCc c key { y with snoops := y.snoops ++ [m] }).count .CLU_SNP_HELD_CNT c := by
  have hgate := (State.clocked_iff.1 hclk).1
  have hfind' : ((s.takeMsg m).clu c).find m.line = some (key, y) := hfind
  unfold snoopArrives
  rw [if_neg (by simp [hkind, hm, hmc, hrec, State.running_of_clocked hclk, Nat.not_le.2 hc])]
  simp [hm, hgate, hclk, holdsForOwn_of_no_request hreqs, hfind', hhold, hinv]

end

variable (hx : x ∈ snoopCommands m)
include hx

/-- A cluster without power answers dark, one that is off that it does not hold the line (R338). -/
theorem ends_of_unpowered (hrun : s.stopped 2 = false) {r : SnpReply} (hgate : (s.reg .CRG_GATE_STATE c, r) ∈
    ([(5, .dark), (6, .dark), (0, .notHeld), (3, .notHeld), (4, .notHeld)] : List (Nat × SnpReply))) :
    Ends x.1 s fun t => Answered s m m.home.tile (snoopAnswerOf m r none) t ∧ Same [.mesh, .xmit] s t := by
  refine ⟨_, (exec_snoop hx s).trans (congrArg _ (snoopArrives_unpowered hm hc hmc hrec hkind hrun hgate)),
    answered_sendTo (x := s.takeMsg m) rfl rfl _ _, ?_⟩
  exact ((s.alters_takeMsg m).1.mono (by decide)).trans (State.alters_sendTo _ _ _).1

section
variable (hclk : s.clocked c = true) (hreqs : ∀ r ∈ (s.clu c).reqs, r.2.line ≠ m.line)
include hclk hreqs

/-- A clocked cluster serves a snoop that nothing keeps waiting. -/
theorem ends_of_snoop (hhold : ∀ key y, (s.clu c).find m.line = some (key, y) → y.hold = false) {r : SnpReply} {d : Option LineData}
    {u : State} (heffect : snoopEffect (s.takeMsg m) c x.2 m.line = (r, d, u)) {fs : List Comp} (hu : Same fs (s.takeMsg m) u)
    (hfs : .mesh ∉ fs ∧ .xmit ∉ fs) :
    Ends x.1 s fun t => Answered s m m.home.tile (snoopAnswerOf m r d) t ∧ Same [.mesh, .xmit] u t ∧ Same (.mesh :: .xmit :: fs) s t := by
  have hserves : snoopArrives m x.2 s = u.sendTo m.home.tile (snoopAnswerOf m r d) := by
    rw [snoopArrives_serves hm hc hmc hrec hkind hclk hreqs hhold, serveSnoop, hkind, heffect]
    rfl
  have hmesh : u.mesh = dropFirst m s.mesh := same_iff.1 hu .mesh hfs.1
  have hxmit : u.xmit = s.xmit := same_iff.1 hu .xmit hfs.2
  have hsend := (u.alters_sendTo m.home.tile (snoopAnswerOf m r d)).1
  refine ⟨_, by rw [exec_snoop hx, hserves], answered_sendTo hmesh hxmit _ _, hsend, ?_⟩
  refine ((s.alters_takeMsg m).1.mono ?_).trans ((hu.mono ?_).trans (hsend.mono ?_)) <;> intro a <;> simp <;> tauto

/-- A snoop that drops the line. -/
theorem ends_of_drop {key : Nat} {y : CLine} (hfind : (s.clu c).find m.line = some (key, y)) (hhold : y.hold = false) {r : SnpReply}
    {d : Option LineData} (heffect : snoopEffect (s.takeMsg m) c x.2 m.line = (r, d, (s.takeMsg m).dropCc c m.line)) :
    Ends x.1 s fun t => Answered s m m.home.tile (snoopAnswerOf m r d) t ∧ LineDropped c m.line key y.st s t
      ∧ Same [.mesh, .xmit, .clus, .cores, .filter] s t := by
  obtain ⟨hdrop, hsame⟩ := dropCc_spec (s := s.takeMsg m) hfind
  refine (ends_of_snoop hm hc hmc hrec hkind hx hclk hreqs (fun k z h => ?_) heffect hsame (by decide)).imp
    fun t ⟨hans, hsend, hsame⟩ => ⟨hans, hdrop.congr ?_ hsend, hsame⟩
  · obtain ⟨-, rfl⟩ := Prod.mk.inj (Option.some.inj (hfind.symm.trans h))
    exact hhold
  · simp [Same, State.takeMsg]

/-- A snoop that leaves the cluster as it is. -/
theorem ends_of_look (hhold : ∀ key y, (s.clu c).find m.line = some (key, y) → y.hold = false) {r : SnpReply} {d : Option LineData}
    (heffect : snoopEffect (s.takeMsg m) c x.2 m.line = (r, d, s.takeMsg m)) :
    Ends x.1 s fun t => Answered s m m.home.tile (snoopAnswerOf m r d) t ∧ Same [.mesh, .xmit] s t :=
  (ends_of_snoop hm hc hmc hrec hkind hx hclk hreqs hhold heffect (.refl [] _) (by decide)).imp fun _ ⟨hans, _, hsame⟩ => ⟨hans, hsame⟩

/-- A snoop that changes the entry of the line. -/
theorem ends_of_change (hhold : ∀ key y, (s.clu c).find m.line = some (key, y) → y.hold = false) {key : Nat} {y : CLine} {r : SnpReply}
    {d : Option LineData} (heffect : snoopEffect (s.takeMsg m) c x.2 m.line = (r, d, (s.takeMsg m).setCc c key y)) :
    Ends x.1 s fun t => Answered s m m.home.tile (snoopAnswerOf m r d) t
      ∧ t.clu c = { s.clu c with cc := NMap.insert (s.clu c).cc key y } ∧ (∀ d, d ≠ c → t.clu d = s.clu d)
      ∧ Same [.mesh, .xmit, .clus] s t := by
  refine (ends_of_snoop hm hc hmc hrec hkind hx hclk hreqs hhold heffect (State.alters_onClu _ _ _).1 (by decide)).imp
    fun t ⟨hans, hsend, hsame⟩ => ⟨hans, ?_, fun d hd => ?_, hsame⟩
  · rw [State.clu_congr (same_iff.1 hsend .clus (by decide))]
    exact State.clu_onClu_self _ _ _
  · rw [State.clu_congr (same_iff.1 hsend .clus (by decide))]
    exact State.clu_onClu_ne _ _ hd

end

end

/-! ### The win hold -/

/-- A SnpS that the win hold keeps waiting. -/
theorem snps_waits {s : State} {m : Msg} {c key : Nat} {y : CLine} (hm : m.agent = ⟨none, c⟩) (hc : c < 64) (hmc : m.mc = none)
    (hkind : m.kind = .snpS) (hclk : s.clocked c = true) (hfind : (s.clu c).find m.line = some (key, y)) (hhold : y.hold = true)
    (hrec : receivable m s.mesh = true) (hreqs : ∀ r ∈ (s.clu c).reqs, r.2.line ≠ m.line) : Ends (.snps m) s fun t =>
      t.mesh = dropFirst m s.mesh ∧ t.clu c = { s.clu c with cc := NMap.insert (s.clu c).cc key { y with snoops := y.snoops ++ [m] } }
      ∧ (∀ d, d ≠ c → t.clu d = s.clu d) ∧ Same [.mesh, .clus, .regs] s t ∧ SameRegs [.CLU_SNP_HELD_CNT] s t
      ∧ t.reg .CLU_SNP_HELD_CNT c = satAdd32 (s.reg .CLU_SNP_HELD_CNT c) 1 := by
  let u := (s.takeMsg m).setCc c key { y with snoops := y.snoops ++ [m] }
  have hwaits := snoopArrives_waits hm hc hmc hrec (x := (.snps m, .snpS)) hkind hclk hreqs hfind hhold (by simp)
  have hu := (s.alters_takeMsg m).comp (ch := [.mesh, .clus]) (fs := [])
    (State.alters_onClu (s.takeMsg m) c fun cl => { cl with cc := NMap.insert cl.cc key { y with snoops := y.snoops ++ [m] } })
    (by decide) (by decide)
  have halters := hu.comp (u.alters_count .CLU_SNP_HELD_CNT c 0 1) (ch := [.mesh, .clus, .regs]) (fs := [.CLU_SNP_HELD_CNT])
    (by decide) (by decide)
  have hclu : u.clu c = _ := State.clu_onClu_self (s.takeMsg m) c _
  have hclus (d : Nat) (hd : d ≠ c) : u.clu d = s.clu d := State.clu_onClu_ne (s.takeMsg m) _ hd
  refine ⟨_, (exec_snoop (by simp [snoopCommands]) s).trans (congrArg _ hwaits), rfl, hclu, hclus, halters.1, halters.2, ?_⟩
  rw [State.reg_count, if_pos ⟨rfl, rfl, rfl⟩]
  rfl

/-- At the end of the win hold, the SnpS that waited for a line in M makes it O and has its data (R335). -/
theorem winHoldEnd_serves {s : State} {c : Fin 64} {m : Msg} {key : Nat} {y : CLine} (hkind : m.kind = .snpS)
    (hclk : s.clocked c = true) (hfind : (s.clu c).find m.line = some (key, y)) (hhold : y.hold = true)
    (hstay : (s.clu c).leaving = false) (hsnoops : y.snoops = [m]) (hst : y.st = .m) (hserved : s.Served c) :
    Ends (.winHoldEnd c m.line) s fun t => Same [.mesh, .xmit, .clus] s t ∧ (∀ d, d ≠ c.val → t.clu d = s.clu d)
        ∧ (t.clu c).find m.line = some (key, { y with st := .o, hold := false, snoops := [] })
        ∧ ∃ u : State, u.mesh = s.mesh ∧ u.xmit = s.xmit ∧ t = u.sendTo m.home.tile (snoopAnswerOf m .dirty (some y.data)) := by
  have hline := Cluster.line_of_find hfind
  let y' : CLine := { y with hold := false, snoops := [] }
  let s' := s.setCc c key y'
  let u := s'.setCc c key { y' with st := .o }
  let t := u.sendTo m.home.tile (snoopAnswerOf m .dirty (some y.data))
  have hs' : s'.clu c = { s.clu c with cc := NMap.insert (s.clu c).cc key y' } := State.clu_onClu_self _ _ _
  have hfind' : (s'.clu c).find m.line = some (key, y') := by
    rw [hs']
    exact Cluster.find_insert hfind hline
  have huc : u.clu c = { s'.clu c with cc := NMap.insert (s'.clu c).cc key { y' with st := .o } } := State.clu_onClu_self _ _ _
  have hu : Alters [.clus] [] s u := (State.alters_onClu _ _ _).trans (State.alters_onClu _ _ _)
  have hsend := u.alters_sendTo m.home.tile (snoopAnswerOf m .dirty (some y.data))
  have htclu (d : Nat) : t.clu d = u.clu d := State.clu_congr (hsend.agree .clus (by decide)) d
  have hserve : serveSnoop s' c m = t := by
    have heffect := snoopEffect_share hfind' (.inr (.inl hst))
    simp only [y', hst, ownerReply] at heffect
    rw [serveSnoop, hkind, heffect]
    rfl
  have htleave : (t.clu c).leaving = false := by
    rw [htclu, huc, hs']
    exact hstay
  have htserved : t.Served c := hserved.congr fun i _ n => by
    rw [State.hand_congr (hsend.agree .cores (by decide)), State.hand_congr (hu.agree .cores (by decide))]
  have hexec : exec (.winHoldEnd c m.line) s = .next t := by
    refine (show exec (.winHoldEnd c m.line) s = execWinHoldEnd c m.line s from rfl).trans ?_
    simp only [execWinHoldEnd, hclk, hfind, hhold, hsnoops]
    change done (pumpCluster (leavePump (serveSnoop s' c m) c) c) = _
    rw [hserve, leavePump_of_staying htleave, pumpCluster_of_served htserved]
    rfl
  refine ⟨t, hexec, (hu.1.mono (by decide)).trans (hsend.1.mono (by decide)), fun d hd => ?_, ?_, u, rfl, rfl, rfl⟩
  · exact (htclu d).trans ((State.clu_onClu_ne s' _ hd).trans (State.clu_onClu_ne s _ hd))
  · rw [htclu, huc]
    exact Cluster.find_insert hfind' hline

end Sys2Proof.Machine
end

section
/-!
PROOFS. A multicast invalidation (R333), and the home that takes the answer of an owner (R331).
-/
namespace Sys2Proof.Machine
open Sys2Proof.Safety

/-! ### Every cluster of the tile -/

theorem foldState_filter {σ α : Type} (f : σ → α → σ) (p : α → Bool) (l : List α) (s : σ) :
    foldState f (l.filter p) s = foldState (fun s a => if p a then f s a else s) l s := by
  induction l generalizing s with
  | nil => rfl
  | cons a t ih =>
    cases hp : p a
    · simp [foldState, hp, ih]
    · simp [foldState, hp, ih]

/-- What one cluster adds to the answer of a multicast. -/
def mcastStep (m : Msg) (acc : SnpReply × Option LineData × State) (c : Nat) : SnpReply × Option LineData × State :=
  let r := snoopEffect acc.2.2 c m.kind m.line
  match r.1 with
  | .notHeld => (acc.1, acc.2.1, r.2.2)
  | .ack => (if acc.1 = .notHeld then .ack else acc.1, acc.2.1, r.2.2)
  | x => (x, r.2.1, r.2.2)

/-- Whether a multicast finds the line in a clocked cluster. -/
def State.mcastHeld (s : State) (line c : Nat) : Bool := s.clocked c && ((s.clu c).find line).isSome

/-- A cluster after a multicast Inv. -/
def State.mcastAfter (s : State) (line c : Nat) : Cluster := match (s.clu c).find line with
  | none => s.clu c
  | some (key, _) => if s.clocked c then { s.clu c with cc := NMap.erase (s.clu c).cc key } else s.clu c

theorem State.mcastAfter_of_not_held {s : State} {line c : Nat} (h : s.mcastHeld line c = false) : s.mcastAfter line c = s.clu c := by
  unfold State.mcastAfter
  cases hfind : (s.clu c).find line with
  | none => rfl
  | some e =>
    have hclk : s.clocked c = false := by simpa [State.mcastHeld, hfind] using h
    simp [hclk]

/-- The clusters below `n` have answered a multicast Inv. -/
structure McastTaken (s : State) (line n : Nat) (acc : SnpReply × Option LineData × State) : Prop where
  reply : acc.1 = if (List.range n).any (s.mcastHeld line) then .ack else .notHeld
  noData : acc.2.1 = none
  clu : ∀ c, acc.2.2.clu c = if c < n then s.mcastAfter line c else s.clu c
  same : Same [.clus, .cores, .filter] s acc.2.2

theorem any_range_succ (p : Nat → Bool) (n : Nat) : (List.range (n + 1)).any p = ((List.range n).any p || p n) := by
  simp [List.range_succ]

section
variable {s : State} {line n : Nat} {acc : SnpReply × Option LineData × State} (h : McastTaken s line n acc)
include h

/-- A cluster that is not clocked or does not hold the line. -/
theorem McastTaken.keep (hnot : s.mcastHeld line n = false) : McastTaken s line (n + 1) acc := by
  obtain ⟨hreply, hdata, hclu, hsame⟩ := h
  refine ⟨by rw [any_range_succ, hnot, Bool.or_false]; exact hreply, hdata, fun c => ?_, hsame⟩
  rw [hclu]
  rcases Nat.lt_trichotomy c n with hlt | rfl | hgt
  · rw [if_pos hlt, if_pos (by omega)]
  · rw [if_neg (Nat.lt_irrefl _), if_pos (by omega), State.mcastAfter_of_not_held hnot]
  · rw [if_neg (by omega), if_neg (by omega)]

/-- A clocked cluster that holds the line. -/
theorem McastTaken.drop {key : Nat} {y : CLine} (hclk : s.clocked n = true) (hfind : (s.clu n).find line = some (key, y)) {u : State}
    (hdrop : LineDropped n line key y.st acc.2.2 u) (hsame' : Same [.clus, .cores, .filter] acc.2.2 u) :
    McastTaken s line (n + 1) (.ack, none, u) := by
  obtain ⟨-, -, hclu, hsame⟩ := h
  have hheld : s.mcastHeld line n = true := by simp [State.mcastHeld, hclk, hfind]
  refine ⟨by rw [any_range_succ, hheld, Bool.or_true]; rfl, rfl, fun c => ?_, hsame.trans hsame'⟩
  rcases eq_or_ne c n with rfl | hne
  · rw [if_pos (Nat.lt_succ_self c), hdrop.clu, hclu, if_neg (Nat.lt_irrefl c)]
    simp [State.mcastAfter, hfind, hclk]
  · have hiff : c < n + 1 ↔ c < n := by omega
    simp only [hiff, ← hclu c]
    exact hdrop.clus c hne

end

section
variable {s : State} {m : Msg} (hkind : m.kind = .inv) (hwbuf : ∀ c < 64, (s.clu c).wbuf = [])
  (hshared : ∀ c < 64, ∀ key y, (s.clu c).find m.line = some (key, y) → y.st = .s)
include hkind hwbuf hshared

/-- One more cluster answers. -/
theorem McastTaken.succ {n : Nat} {acc : SnpReply × Option LineData × State} (h : McastTaken s m.line n acc) (hn : n < 64) :
    McastTaken s m.line (n + 1) (if s.clocked n then mcastStep m acc n else acc) := by
  have hcn : acc.2.2.clu n = s.clu n := by rw [h.clu, if_neg (Nat.lt_irrefl n)]
  cases hclk : s.clocked n with
  | false => exact h.keep (by simp [State.mcastHeld, hclk])
  | true =>
    cases hfind : (s.clu n).find m.line with
    | none =>
      have hnone : (acc.2.2.clu n).snooped m.line = none := by simp [Cluster.snooped, hcn, hfind, hwbuf n hn]
      have hstep : mcastStep m acc n = acc := by simp [mcastStep, snoopEffect_of_not_held hnone]
      rw [if_pos rfl, hstep]
      exact h.keep (by simp [State.mcastHeld, hfind])
    | some e =>
      obtain ⟨key, y⟩ := e
      have hfind' : (acc.2.2.clu n).find m.line = some (key, y) := by rw [hcn, hfind]
      have heffect := snoopEffect_drop hfind' (hshared n hn key y hfind) (kind := m.kind) (.inr hkind)
      obtain ⟨hdrop, hsame⟩ := dropCc_spec hfind'
      have hack : (if acc.1 = .notHeld then .ack else acc.1) = SnpReply.ack := by
        rw [h.reply]
        split_ifs <;> simp_all
      have hstep : mcastStep m acc n = (.ack, none, acc.2.2.dropCc n m.line) := by
        simp only [mcastStep, heffect, h.noData, hack]
      rw [if_pos rfl, hstep]
      exact h.drop hclk hfind hdrop hsame

/-- Every clocked cluster answers a multicast Inv. -/
theorem mcastTaken_all : McastTaken s m.line 64 (foldState (mcastStep m) (numsWhere 64 s.clocked) (SnpReply.notHeld, none, s)) := by
  rw [numsWhere, foldState_filter]
  exact foldState_range (p := McastTaken s m.line) _ _ ⟨rfl, rfl, fun c => by simp, .refl _ s⟩ 64
    fun n hn acc h => h.succ hkind hwbuf hshared hn

end

section
variable {s : State} {m : Msg} (hm : m.agent = ⟨none, 64⟩) (hmc : m.mc ≠ none) (hkind : m.kind = .inv)
  (hrec : receivable m s.mesh = true) (hrun : s.stopped 2 = false) (hinit : s.filterInit = false)
include hm hmc hkind hrec hrun hinit

/-- A multicast of a line that the filter does not count. -/
theorem mcast_ends_outside (hzero : NMap.get 0 s.filter (filterIndex m.line) = 0) : Ends (.mcastSnoop m) s fun t =>
    Answered s m m.home.tile (snoopAnswerOf m .notHeld none) t ∧ Same [.mesh, .xmit] s t := by
  have hmc' : m.mc.isNone = false := Option.isNone_eq_false_iff.2 (Option.isSome_iff_ne_none.2 hmc)
  have hexec : exec (.mcastSnoop m) s = .next ((s.takeMsg m).sendTo m.home.tile (snoopAnswerOf m .notHeld none)) := by
    refine (show exec (.mcastSnoop m) s = execMcastSnoop m s from rfl).trans ?_
    rw [execMcastSnoop, if_neg (by simp [hmc', hm, hkind, hrec, hrun, hinit]), if_pos hzero]
    rfl
  exact ⟨_, hexec, answered_sendTo (x := s.takeMsg m) rfl rfl _ _,
    ((s.alters_takeMsg m).1.mono (by decide)).trans (State.alters_sendTo _ _ _).1⟩

/-- A multicast Inv of a line of the filter that nothing keeps waiting. -/
theorem mcast_ends_inside (hsome : NMap.get 0 s.filter (filterIndex m.line) ≠ 0)
    (hreqs : ∀ c < 64, ∀ r ∈ (s.clu c).reqs, r.2.line ≠ m.line) (hwbuf : ∀ c < 64, (s.clu c).wbuf = [])
    (hfound : ∀ c < 64, ∀ key y, (s.clu c).find m.line = some (key, y) → y.st = .s ∧ y.hold = false ∧ s.reg .CRG_GATE_STATE c ≠ 2) :
    Ends (.mcastSnoop m) s fun t => Same [.mesh, .xmit, .clus, .cores, .filter] s t
      ∧ Answered s m m.home.tile (snoopAnswerOf m (if (List.range 64).any (s.mcastHeld m.line) then .ack else .notHeld) none) t
      ∧ ∀ c < 64, t.clu c = s.mcastAfter m.line c := by
  have hmc' : m.mc.isNone = false := Option.isNone_eq_false_iff.2 (Option.isSome_iff_ne_none.2 hmc)
  let x := s.takeMsg m
  obtain ⟨hreply, hdata, hclu, hsame⟩ := mcastTaken_all (s := x) hkind hwbuf fun c hc key y h => (hfound c hc key y h).1
  let out := foldState (mcastStep m) (numsWhere 64 s.clocked) (SnpReply.notHeld, none, x)
  have hexec : exec (.mcastSnoop m) s = .next (out.2.2.sendTo m.home.tile (snoopAnswerOf m out.1 out.2.1)) := by
    refine (show exec (.mcastSnoop m) s = execMcastSnoop m s from rfl).trans ?_
    unfold execMcastSnoop
    rw [if_neg (by simp [hmc', hm, hkind, hrec, hrun, hinit]), if_neg hsome]
    dsimp only
    rw [if_neg]
    · rfl
    · rw [Bool.not_eq_true, List.any_eq_false]
      intro c hc
      have hc' : c < 64 := List.mem_range.1 hc
      have hfree := holdsForOwn_of_no_request (m := { m with agent := ⟨none, c⟩ }) (hreqs c hc')
      cases hfind : (s.clu c).find m.line with
      | none => simp [hfree]
      | some e =>
        obtain ⟨-, hhold, hgate⟩ := hfound c hc' e.1 e.2 hfind
        simp [hfree, hhold, hgate]
  have hsend := out.2.2.alters_sendTo m.home.tile (snoopAnswerOf m out.1 out.2.1)
  have hx := (s.alters_takeMsg m).1
  refine ⟨_, hexec, ?_, ?_, fun c hc => ?_⟩
  · exact ((hx.mono (by decide)).trans (hsame.mono (by decide))).trans (hsend.1.mono (by decide))
  · have hans : snoopAnswerOf m (if (List.range 64).any (s.mcastHeld m.line) then .ack else .notHeld) none
        = snoopAnswerOf m out.1 out.2.1 := (congrArg₂ (snoopAnswerOf m) hreply hdata).symm
    rw [hans]
    exact answered_sendTo (s := s) (x := out.2.2) (same_iff.1 hsame .mesh (by decide)) (same_iff.1 hsame .xmit (by decide)) _ _
  · rw [State.clu_congr (hsend.agree .clus (by decide))]
    exact (hclu c).trans (if_pos hc)

end

/-! ### The home -/

/-- A line whose only snoop has been answered ends at once, and the home is idle after it. -/
theorem pumpHome_of_ended {s u : State} {k : Nat} {t : Txn} (htxns : (s.home k).txns = [t]) (hwait : t.wait = [])
    (hcomplete : s.completeTxn k t = u) (hidle : (u.home k).Idle) : s.pumpHome k = u := by
  unfold State.pumpHome State.homeRun
  simp only [htxns, List.find?_cons, hwait, List.isEmpty_nil, hcomplete]
  exact homeRun_of_idle hidle _

/-- The entry of a line after its owner has answered a SnpS: shared where it was clean, owned where it was dirty. -/
def readEntry (ls : Nat) (owner reader : Agent) (dirty : Bool) : DirEntry :=
  if dirty then { ls := ls, st := .owned, owner := some owner, ptrs := [reader] }
  else { ls := ls, st := .shared, owner := none, ptrs := [owner, reader] }

/-- An owner's answer to SnpS ends a read of a line (R331). -/
theorem completeTxn_read {s : State} {k key : Nat} {t : Txn} {a : Agent} (hgoal : t.goal = .request) (hlost : t.lost = false)
    (hreq : t.req.kind = .rdS) (hne : a ≠ t.req.agent)
    (hfind : (s.home k).find t.ls = some (key, { ls := t.ls, st := .excl, owner := some a })) :
    s.completeTxn k t = ((s.onHome k fun hs => { hs with txns := hs.txns.erase t }).setEntry k key
      (readEntry t.ls a t.req.agent t.dirty)).sendTo t.req.agent.tile { answerOf t.req (.data .s) with data := t.data } := by
  have hfind' : ((s.onHome k fun hs => { hs with txns := hs.txns.erase t }).home k).find t.ls
      = some (key, { ls := t.ls, st := .excl, owner := some a }) := by rw [State.home_onHome_self]; exact hfind
  have hother : ¬ t.req.agent = a := fun h => hne h.symm
  unfold State.completeTxn
  simp only [hgoal, hlost, hreq, hfind', HomeSt.ownerOf]
  cases hdirty : t.dirty <;> simp [State.share, addSharer, readEntry, hother, State.reply, answerOf]

theorem State.home_setEntry (s : State) (k key j : Nat) (e : DirEntry) : (s.setEntry k key e).home j =
    if j = k then { s.home k with dir := NMap.insert (s.home k).dir key e } else s.home j := State.home_onHome s k j _

/-- The owner's answer to a SnpS, at a home where nothing else waits (R331). -/
theorem snpRsp_ends {s : State} {m : Msg} {k key : Nat} {a : Agent} {t0 : Txn} {d : LineData} {r : SnpReply}
    (hhome : m.home = ⟨none, k⟩) (hk : k < 8) (hrec : receivable m s.mesh = true) (hready : s.homeReady k = true)
    (hin : (s.home k).inbound = []) (htxns : (s.home k).txns = [t0]) (hgoal : t0.goal = .request) (hwait : t0.wait = [a])
    (hdirty : t0.dirty = false) (hlost : t0.lost = false) (hreq : t0.req.kind = .rdS) (hls : t0.ls = lsOf m.line)
    (hne : a ≠ t0.req.agent) (hm : m.agent = a) (hdata : m.data = some d)
    (hfind : (s.home k).find t0.ls = some (key, { ls := t0.ls, st := .excl, owner := some a })) (hr : r = .clean ∨ r = .dirty)
    (hkind : m.kind = .snpRsp r) : Ends (.snpRsp m) s fun t =>
      t.home k = { s.home k with txns := [], dir := NMap.insert (s.home k).dir key (readEntry t0.ls a t0.req.agent (r == .dirty)) }
      ∧ Answered s m t0.req.agent.tile { answerOf t0.req (.data .s) with data := some d } t
      ∧ Same [.mesh, .xmit, .homes] s t ∧ ∀ j, j ≠ k → t.home j = s.home j := by
  subst hm
  let t1 : Txn := { t0 with wait := [], dirty := r == .dirty, data := some d }
  let x := (s.takeMsg m).onHome k fun hs => { hs with txns := hs.txns.map fun y => if y = t0 then t1 else y }
  let z := (x.onHome k fun hs => { hs with txns := hs.txns.erase t1 }).setEntry k key (readEntry t0.ls m.agent t0.req.agent (r == .dirty))
  let u := z.sendTo t0.req.agent.tile { answerOf t0.req (.data .s) with data := some d }
  have htake (j : Nat) : (s.takeMsg m).home j = s.home j := State.home_congr rfl j
  have hxk : x.home k = { s.home k with txns := [t1] } := by
    rw [State.home_onHome_self, htake, htxns]
    simp
  have hcomplete : x.completeTxn k t1 = u :=
    completeTxn_read hgoal (show t1.lost = false from hlost) hreq hne (by rw [hxk]; exact hfind)
  have huhome (j : Nat) : u.home j = z.home j := State.home_congr (State.sendTo_homes _ _ _) j
  let e := readEntry t0.ls m.agent t0.req.agent (r == .dirty)
  have huk : u.home k = { s.home k with txns := [], dir := NMap.insert (s.home k).dir key e } := by
    rw [huhome]
    simp [z, e, State.home_setEntry, State.home_onHome_self, hxk]
  have hpump : x.pumpHome k = u := pumpHome_of_ended (t := t1) (by rw [hxk]) rfl hcomplete (by rw [huk]; exact ⟨hin, by simp⟩)
  have hexec : exec (.snpRsp m) s = .next u := by
    refine (show exec (.snpRsp m) s = execSnpRsp m s from rfl).trans ?_
    have hfound : ((s.takeMsg m).home k).txns.find? (fun t => t.ls == lsOf m.line && t.wait.contains m.agent) = some t0 := by
      simp [htake, htxns, hls, hwait]
    have hanswer : (s.takeMsg m).snoopAnswer k m r = u := by
      rw [← hpump]
      have hdark : r ≠ .dark := by rcases hr with rfl | rfl <;> decide
      have hheld : (r == .notHeld) = false := by rcases hr with rfl | rfl <;> decide
      simp only [State.snoopAnswer, hfound]
      simp [hdark, hlost, hheld, hwait, hdirty, hdata, x, t1]
    simp [execSnpRsp, hkind, hhome, hrec, hready, Nat.not_le.2 hk, hanswer, done]
  have hx : Same [.mesh, .homes] s x := ((s.alters_takeMsg m).1.mono (by decide)).trans ((State.alters_onHome _ k _).1.mono (by decide))
  have hz : Same [.mesh, .homes] s z := hx.trans
    (((State.alters_onHome _ k _).1.mono (by decide)).trans ((State.alters_onHome _ k _).1.mono (by decide)))
  refine ⟨u, hexec, huk, answered_sendTo (x := z) rfl rfl _ _, ?_, fun j hj => ?_⟩
  · exact (hz.mono (by decide)).trans ((z.alters_sendTo _ _).1.mono (by decide))
  · rw [huhome]
    simp [z, x, State.home_setEntry, State.home_onHome, hj, htake]

/-! ### The obligation -/

section
variable {s : State} {m : Msg} {c : Nat} (hm : m.agent = ⟨none, c⟩) (hc : c < 64) (hmc : m.mc = none)
  (hrec : receivable m s.mesh = true) (hclk : s.clocked c = true) (hreqs : ∀ r ∈ (s.clu c).reqs, r.2.line ≠ m.line)
include hm hc hmc hrec hclk hreqs

theorem snoop_ends_not_held {x : Instr × MsgKind} (hx : x ∈ snoopCommands m) (hkind : m.kind = x.2)
    (hnone : (s.clu c).snooped m.line = none) (hhold : ∀ key y, (s.clu c).find m.line = some (key, y) → y.hold = false) :
    Ends x.1 s fun t => Answered s m m.home.tile (snoopAnswerOf m .notHeld none) t ∧ Same [.mesh, .xmit] s t :=
  ends_of_look hm hc hmc hrec hkind hx hclk hreqs hhold (snoopEffect_of_not_held (s := s.takeMsg m) hnone _)

variable {key : Nat} {y : CLine} (hfind : (s.clu c).find m.line = some (key, y)) (hhold : y.hold = false)
include hfind hhold

omit hm hc hmc hrec hclk hreqs in
theorem no_hold_of_find : ∀ k z, (s.clu c).find m.line = some (k, z) → z.hold = false := by
  intro k z h
  obtain ⟨-, rfl⟩ := Prod.mk.inj (Option.some.inj (hfind.symm.trans h))
  exact hhold

theorem snps_ends (hkind : m.kind = .snpS) (hown : y.st = .e ∨ y.st = .m ∨ y.st = .o) : Ends (.snps m) s fun t =>
    Answered s m m.home.tile (snoopAnswerOf m (ownerReply y.st) (some y.data)) t
      ∧ t.clu c = { s.clu c with cc := NMap.insert (s.clu c).cc key { y with st := if y.st = .e then .s else .o } }
      ∧ (∀ d, d ≠ c → t.clu d = s.clu d) ∧ Same [.mesh, .xmit, .clus] s t :=
  ends_of_change hm hc hmc hrec (x := (.snps m, .snpS)) hkind (by simp [snoopCommands]) hclk hreqs (no_hold_of_find hfind hhold)
    (snoopEffect_share (s := s.takeMsg m) hfind hown)

theorem snpx_ends_owner (hkind : m.kind = .snpX) (hown : y.st = .e ∨ y.st = .m ∨ y.st = .o) : Ends (.snpx m) s fun t =>
    Answered s m m.home.tile (snoopAnswerOf m (ownerReply y.st) (some y.data)) t ∧ LineDropped c m.line key y.st s t
      ∧ Same [.mesh, .xmit, .clus, .cores, .filter] s t :=
  ends_of_drop hm hc hmc hrec (x := (.snpx m, .snpX)) hkind (by simp [snoopCommands]) hclk hreqs hfind hhold
    (snoopEffect_take (s := s.takeMsg m) hfind hown)

theorem snpnc_ends (hkind : m.kind = .snpNc) (hown : y.st = .e ∨ y.st = .m ∨ y.st = .o) : Ends (.snpnc m) s fun t =>
    Answered s m m.home.tile (snoopAnswerOf m (ownerReply y.st) (some y.data)) t ∧ Same [.mesh, .xmit] s t :=
  ends_of_look hm hc hmc hrec (x := (.snpnc m, .snpNc)) hkind (by simp [snoopCommands]) hclk hreqs (no_hold_of_find hfind hhold)
    (snoopEffect_copy (s := s.takeMsg m) hfind hown)

theorem snoop_ends_shared {x : Instr × MsgKind} (hx : x ∈ snoopCommands m) (hkind : m.kind = x.2) (hx' : x.2 = .snpX ∨ x.2 = .inv)
    (hst : y.st = .s) : Ends x.1 s fun t => Answered s m m.home.tile (snoopAnswerOf m .ack none) t ∧ LineDropped c m.line key y.st s t
      ∧ Same [.mesh, .xmit, .clus, .cores, .filter] s t :=
  ends_of_drop hm hc hmc hrec hkind hx hclk hreqs hfind hhold (snoopEffect_drop (s := s.takeMsg m) hfind hst hx')

end

/-- Settles O49: each kind of snoop by the state in which it finds the line, the win hold, the clusters without power, a multicast,
and the home that the answer reaches. -/
theorem snoopsAreAnswered : Obligations.SnoopsAreAnswered := by
  unfold Obligations.SnoopsAreAnswered
  intro answer l1
  refine ⟨?clocked, ?hold, ?unpowered, ?mcast, ?home⟩
  case clocked =>
    intro s m c hm hc hmc hrec hclk hreqs only away
    have hdrop {key : Nat} {st : CState} {t : State} {p : Prop} (h : p ∧ LineDropped c m.line key st s t
        ∧ Same [.mesh, .xmit, .clus, .cores, .filter] s t) : p ∧ away key st t := by
      obtain ⟨hp, ⟨hclu, hclus, hl1, hcores, hfilter⟩, hsame⟩ := h
      exact ⟨hp, hclu, hclus, hl1, hcores, hfilter, hsame⟩
    refine ⟨fun x hx hkind hnone hhold => snoop_ends_not_held hm hc hmc hrec hclk hreqs hx hkind hnone hhold,
      fun key y hfind hhold => ⟨fun hkind hst => ?_, fun hkind hst => ?_, fun hkind hst => ?_, fun hkind hst => ?_,
        fun hkind hst => ?_, fun hkind hst => ?_⟩⟩
    · have h := snps_ends hm hc hmc hrec hclk hreqs hfind hhold hkind (.inl hst)
      simp only [ownerReply, hst, if_true] at h
      exact h
    · have h := snps_ends hm hc hmc hrec hclk hreqs hfind hhold hkind (.inr hst)
      have he : y.st ≠ .e := by rcases hst with h | h <;> simp [h]
      simp only [ownerReply, he, if_false] at h
      exact h
    · exact (snpx_ends_owner hm hc hmc hrec hclk hreqs hfind hhold hkind hst).imp fun _ => hdrop
    · exact (snoop_ends_shared hm hc hmc hrec hclk hreqs hfind hhold (x := (.snpx m, .snpX)) (by simp [snoopCommands]) hkind
        (.inl rfl) hst).imp fun _ => hdrop
    · exact snpnc_ends hm hc hmc hrec hclk hreqs hfind hhold hkind hst
    · exact (snoop_ends_shared hm hc hmc hrec hclk hreqs hfind hhold (x := (.inv m, .inv)) (by simp [snoopCommands]) hkind
        (.inr rfl) hst).imp fun _ => hdrop
  case hold =>
    intro s c m key y hm hmc hkind hclk hfind hhold
    refine ⟨snps_waits hm c.isLt hmc hkind hclk hfind hhold, fun hstay hsnoops hst _ hidle => ?_⟩
    refine (winHoldEnd_serves hkind hclk hfind hhold hstay hsnoops hst (State.served_of_no_ops hidle)).imp
      fun t ⟨hsame, hclus, hline, u, hmesh, hxmit, ht⟩ => ⟨hsame, hclus, hline, ?_, ?_⟩
    · rw [ht, State.sendTo_mesh, hmesh]
      rfl
    · rw [ht, State.sendTo_xmit, hxmit]
      rfl
  case unpowered =>
    intro s m c hm hc hmc hrec hrun x hx hkind y hy hgate
    exact ends_of_unpowered hm hc hmc hrec hkind hx hrun (hgate ▸ hy)
  case mcast =>
    intro s m hmc hm hkind hrec hrun hinit
    exact ⟨mcast_ends_outside hm hmc hkind hrec hrun hinit, mcast_ends_inside hm hmc hkind hrec hrun hinit⟩
  case home =>
    intro s m k key a t0 d hhome hk hrec hready hin htxns hgoal hwait hdirty hlost hreq hls hne hm hdata hfind x hx hkind
    have hends := snpRsp_ends hhome hk hrec hready hin htxns hgoal hwait hdirty hlost hreq hls hne hm hdata hfind (r := x.1)
    simp only [List.mem_cons, List.not_mem_nil, or_false] at hx
    obtain rfl | rfl := hx
    · exact hends (.inl rfl) hkind
    · exact hends (.inr rfl) hkind

end Sys2Proof.Machine
end

section
/-!
PROOFS. A retirement is asked for, and is committed at a tick (R663, R664, R667).
-/
namespace Sys2Proof.Machine
open Sys2Proof.Safety

/-! ### The books that counting and posting touch -/

/-- Of the management controller's record, only the ledger's counts change. -/
def OnlyBooks (s t : State) : Prop := t.mgc = { s.mgc with issued := t.mgc.issued, unquiet := t.mgc.unquiet }

theorem OnlyBooks.of_mgc {s t : State} (h : t.mgc = s.mgc) : OnlyBooks s t := by rw [OnlyBooks, h]

theorem OnlyBooks.refl (s : State) : OnlyBooks s s := .of_mgc rfl

theorem OnlyBooks.trans {s t u : State} (h : OnlyBooks s t) (h' : OnlyBooks t u) : OnlyBooks s u := by
  rw [OnlyBooks] at *
  rw [h', h]

theorem OnlyBooks.due {s t : State} (h : OnlyBooks s t) : t.mgc.due = s.mgc.due := by rw [h]

theorem State.onlyBooks_issue (s : State) (b i n : Nat) : OnlyBooks s (s.issue b i n) := by
  unfold State.issue
  split
  · exact .refl s
  · rfl

theorem State.onlyBooks_sendPost (s : State) (u : PostUse) (m : Msg) : OnlyBooks s (s.sendPost u m) := by
  unfold State.sendPost
  dsimp only
  split
  · exact (s.onlyBooks_issue 5 0 1).trans (.of_mgc (by simp))
  · exact .of_mgc (by simp)

theorem State.onlyBooks_hostWrite (s : State) (a : Nat) (bs : List Byte) (c : GState) : OnlyBooks s (s.hostWrite a bs c) := by
  unfold State.hostWrite
  split
  · exact .of_mgc (s.count_mgc .HIF_CPL_TO_CNT 0 0 1)
  · exact .refl s

theorem State.onlyBooks_writePiece (s : State) (w : Agent) (a : Nat) (bs : List Byte) (c : GState) (n : Option Nat) :
    OnlyBooks s (s.writePiece w a bs c n) := by
  unfold State.writePiece
  dsimp only
  split
  · exact s.onlyBooks_hostWrite _ _ _
  · exact s.onlyBooks_sendPost _ _

theorem State.onlyBooks_fabricWrite (s : State) (w : Agent) (a : Nat) (bs : List Byte) (c : GState) (n : Option Nat) :
    OnlyBooks s (s.fabricWrite w a bs c n) :=
  foldState_keeps (p := OnlyBooks s) _ _ s (.refl s) fun u _ h => h.trans (u.onlyBooks_writePiece _ _ _ _ _)

/-- An event's place in the ring is taken. -/
theorem State.onlyBooks_tail (s : State) (v : Nat) (h : HostSt) : OnlyBooks s { s.setReg .CTX_EVT_TAIL v with host := h } :=
  .of_mgc (s.setReg_mgc .CTX_EVT_TAIL v 0 0)

theorem State.onlyBooks_postEvent (s : State) (source : Nat) (pay : List Byte) : OnlyBooks s (s.postEvent source pay) := by
  unfold State.postEvent
  dsimp only
  split_ifs
  · exact .refl s
  · exact .of_mgc (s.count_mgc .CTX_EVT_LOST_CNT 0 0 1)
  · refine OnlyBooks.trans ?_ (State.onlyBooks_issue _ 9 0 1)
    refine OnlyBooks.trans ?_ (State.onlyBooks_tail _ _ _)
    exact (s.onlyBooks_fabricWrite _ _ _ _ _).trans (State.onlyBooks_fabricWrite _ _ _ _ _ _)

theorem State.onlyBooks_journal (s : State) (cls src fl : Nat) (act : TickAct) : OnlyBooks s (s.journal cls src fl act) := by
  have hrecord (o : Nat) (bs : List Byte) : OnlyBooks s (s.localWrite o bs) := s.onlyBooks_fabricWrite _ _ _ _ _
  unfold State.journal
  dsimp only
  split_ifs
  · exact .refl s
  · exact (hrecord _ _).trans (.of_mgc (State.setReg_mgc ..))
  · exact ((hrecord _ _).trans (.of_mgc (State.setReg_mgc ..))).trans (.of_mgc (State.count_mgc ..))

/-! ### The end -/

theorem State.alters_onUnit (s : State) (e : Nat) (f : UnitSt → UnitSt) : Alters [.deck] [] s (s.onUnit e f) :=
  .of_regs (by simp [Same, State.onUnit]) rfl

theorem State.unitSt_onUnit (s : State) (e d : Nat) (f : UnitSt → UnitSt) :
    (s.onUnit e f).unitSt d = if d = e then f (s.unitSt e) else s.unitSt d := NMap.get_set ..

theorem State.usable_congr {s t : State} (h : t.deck = s.deck) (e : Nat) : t.usable e = s.usable e := by
  simp [State.usable, State.unitSt, h]

/-- A unit is marked as retired, once. -/
def UnitSt.retire (cause : Nat) (u : UnitSt) : UnitSt := if u.retired.isSome then u else { u with retired := some cause }

theorem UnitSt.retired_retire (cause : Nat) (u : UnitSt) : (u.retire cause).retired.isSome = true := by
  unfold UnitSt.retire
  split
  · assumption
  · rfl

theorem State.retireUnit_eq (s : State) (e cause : Nat) : s.retireUnit e cause =
    foldState (fun s d => s.onUnit d (UnitSt.retire 6)) (descendants e) (s.onUnit e (UnitSt.retire cause)) := rfl

theorem State.alters_retireUnit (s : State) (e cause : Nat) : Alters [.deck] [] s (s.retireUnit e cause) :=
  (s.alters_onUnit e _).trans (Alters.foldState (fun s d => s.alters_onUnit d _) _ _)

theorem State.retireUnit_draining (s : State) (e cause : Nat) : (s.retireUnit e cause).deck.draining = s.deck.draining :=
  foldState_keeps (p := fun (t : State) => t.deck.draining = s.deck.draining) _ _ _ rfl fun _ _ h => h

/-- A unit that is retired is not usable. -/
theorem State.retireUnit_usable (s : State) (e cause : Nat) : (s.retireUnit e cause).usable e = false := by
  have hretired : ((s.retireUnit e cause).unitSt e).retired.isSome = true := by
    rw [State.retireUnit_eq]
    refine foldState_keeps (p := fun (t : State) => (t.unitSt e).retired.isSome = true) _ _ _ ?_ fun t d h => ?_
    · rw [State.unitSt_onUnit, if_pos rfl]
      exact UnitSt.retired_retire ..
    · rw [State.unitSt_onUnit]
      split
      · exact UnitSt.retired_retire ..
      · exact h
  simp [State.usable, Option.isNone_eq_false_iff.2 hretired]

theorem State.alters_endRetire (s : State) : Alters [.regs, .mgc] [.MGC_RETIRE_BUSY] s s.endRetire :=
  ⟨by simp [Same, State.endRetire], (s.alters_setReg .MGC_RETIRE_BUSY 0 0 0).2⟩

/-- The unit `e` is out of service and its retirement is over. -/
structure RetireEnded (e : Nat) (s t : State) : Prop where
  alters : Alters (.deck :: postParts) (.MGC_RETIRE_BUSY :: postRegs) s t
  busy : t.mgc.busy = none
  due : t.mgc.due = s.mgc.due
  flag : t.reg .MGC_RETIRE_BUSY = 0
  usable : t.usable e = false
  draining : t.deck.draining = s.deck.draining

theorem retireEnded (s : State) (e cause kind unit cause' result hands : Nat) :
    RetireEnded e s ((s.retireUnit e cause).unitRetired kind unit cause' result hands).endRetire := by
  let u := s.retireUnit e cause
  let v := u.unitRetired kind unit cause' result hands
  have hu : Alters [.deck] [] s u := s.alters_retireUnit e cause
  have hv : Alters postParts postRegs u v := u.onlyPosts_mgcEvent ..
  have ht := v.alters_endRetire
  have hbooks : OnlyBooks u v := u.onlyBooks_postEvent ..
  have hdeck : v.deck = u.deck := hv.agree .deck (by decide)
  have hdeck' : v.endRetire.deck = u.deck := Eq.trans (ht.agree .deck (by decide)) hdeck
  refine ⟨?_, rfl, hbooks.due.trans (congrArg MgcSt.due (hu.agree .mgc (by decide))), v.reg_setReg_self .MGC_RETIRE_BUSY 0 0 0, ?_, ?_⟩
  · exact (hu.mono (by decide) (by decide)).trans ((hv.mono (by decide) (by decide)).trans (ht.mono (by decide) (by decide)))
  · exact (State.usable_congr hdeck' e).trans (s.retireUnit_usable e cause)
  · rw [hdeck']
    exact s.retireUnit_draining e cause

/-- The end of a cluster's retirement. -/
theorem clusterRetired_ends {s : State} {c : Nat} {r : Retire} (hbusy : s.mgc.busy = some r) (hkind : r.kind = 1) (hunit : r.unit = c) :
    RetireEnded (deckIndex .CLU c) { s with deck := { s.deck with draining := NMap.erase s.deck.draining c } } (s.clusterRetired c) := by
  have h : s.clusterRetired c = ((State.retireUnit { s with deck := { s.deck with draining := NMap.erase s.deck.draining c } }
      (deckIndex .CLU c) r.cause).unitRetired 1 c r.cause 0 r.hands).endRetire := by
    simp [State.clusterRetired, hbusy, hkind, hunit]
  rw [h]
  exact retireEnded ..

/-! ### The request -/

/-- The Deck entry of a unit to be retired: of a cluster where the kind is 1, and otherwise of a coupler. -/
def retireEntry (kind unit : Nat) : Nat := if kind = 1 then deckIndex .CLU unit else deckIndex .CPL unit

section
variable {s : State} (hlive : s.isSet .BRK_BRAKED = false) (hkind : s.reg .MGC_RETIRE_KIND ≠ 0)
include hlive hkind

/-- A request while a retirement runs or waits (R667). -/
theorem retireGo_ends_busy (hbusy : s.mgc.busy ≠ none ∨ s.mgc.due ≠ []) : Ends .mgcRetireGo s fun t =>
    t.reg .MGC_RETIRE_RESULT = 1 ∧ t.reg .MGC_CFG_ERR = satAdd32 (s.reg .MGC_CFG_ERR) 1
    ∧ OnlyRegs [.MGC_RETIRE_RESULT, .MGC_CFG_ERR] s t := by
  have hexec : exec .mgcRetireGo s = .next ((s.setReg .MGC_RETIRE_RESULT 1).count .MGC_CFG_ERR) := by
    refine (show exec .mgcRetireGo s = execMgcRetireGo s from rfl).trans ?_
    unfold execMgcRetireGo
    dsimp only
    rw [if_neg (by simp [hlive, hkind]), if_pos]
    · rfl
    · rcases hbusy with h | h
      · simp [Option.isSome_iff_ne_none.2 h]
      · simp [h]
  refine ⟨_, hexec, ?_, ?_, (s.alters_setReg _ 1 0 0).comp (State.alters_count _ _ 0 0 1) (by decide) (by decide)⟩
  · simp [State.reg_count]
  · rw [State.reg_count, if_pos ⟨rfl, rfl, rfl⟩, (s.alters_setReg .MGC_RETIRE_RESULT 1 0 0).reg .MGC_CFG_ERR 0 0 (by decide)]

variable (hidle : s.mgc.busy = none) (hnone : s.mgc.due = [])
include hidle hnone

theorem retireGo_ends_unusable
    (husable : s.usable (retireEntry (s.reg .MGC_RETIRE_KIND) (s.reg .MGC_RETIRE_UNIT)) = false) :
    Ends .mgcRetireGo s fun t => t.reg .MGC_RETIRE_RESULT = 2 ∧ OnlyRegs [.MGC_RETIRE_RESULT] s t := by
  have hexec : exec .mgcRetireGo s = .next (s.setReg .MGC_RETIRE_RESULT 2) := by
    refine (show exec .mgcRetireGo s = execMgcRetireGo s from rfl).trans ?_
    unfold execMgcRetireGo
    dsimp only
    rw [if_neg (by simp [hlive, hkind]), if_neg (by simp [hidle, hnone]), if_pos (by simpa [retireEntry] using husable)]
    rfl
  exact ⟨_, hexec, by simp, s.alters_setReg _ 2 0 0⟩

variable (husable : s.usable (retireEntry (s.reg .MGC_RETIRE_KIND) (s.reg .MGC_RETIRE_UNIT)) = true)
include husable

theorem retireGo_ends_last (hcluster : s.reg .MGC_RETIRE_KIND = 1) (hlast : s.lastCluster (s.reg .MGC_RETIRE_UNIT) = true) :
    Ends .mgcRetireGo s fun t => t.reg .MGC_RETIRE_RESULT = 3 ∧ OnlyRegs [.MGC_RETIRE_RESULT] s t := by
  have hexec : exec .mgcRetireGo s = .next (s.setReg .MGC_RETIRE_RESULT 3) := by
    refine (show exec .mgcRetireGo s = execMgcRetireGo s from rfl).trans ?_
    unfold execMgcRetireGo
    dsimp only
    rw [if_neg (by simp [hlive, hkind]), if_neg (by simp [hidle, hnone]), if_neg (by simpa [retireEntry] using husable),
      if_pos ⟨hcluster, hlast⟩]
    rfl
  exact ⟨_, hexec, by simp, s.alters_setReg _ 3 0 0⟩

/-- A request that nothing speaks against waits with cause 0x02. -/
theorem retireGo_ends_waits (hnotLast : s.reg .MGC_RETIRE_KIND = 1 → s.lastCluster (s.reg .MGC_RETIRE_UNIT) = false) :
    Ends .mgcRetireGo s fun t => t.reg .MGC_RETIRE_RESULT = 0 ∧ Same [.regs, .mgc] s t ∧ SameRegs [.MGC_RETIRE_RESULT] s t
      ∧ t.mgc = { s.mgc with
          due := [{ kind := s.reg .MGC_RETIRE_KIND, unit := s.reg .MGC_RETIRE_UNIT, cause := 2, since := s.time.bnd }] } := by
  let m : MgcSt := { s.mgc with
    due := [{ kind := s.reg .MGC_RETIRE_KIND, unit := s.reg .MGC_RETIRE_UNIT, cause := 2, since := s.time.bnd }] }
  have hexec : exec .mgcRetireGo s = .next { s.setReg .MGC_RETIRE_RESULT 0 with mgc := m } := by
    refine (show exec .mgcRetireGo s = execMgcRetireGo s from rfl).trans ?_
    unfold execMgcRetireGo
    dsimp only
    rw [if_neg (by simp [hlive, hkind]), if_neg (by simp [hidle, hnone]), if_neg (by simpa [retireEntry] using husable),
      if_neg (fun h => by simp [hnotLast h.1] at h)]
    rfl
  have hset := s.alters_setReg .MGC_RETIRE_RESULT 0 0 0
  refine ⟨_, hexec, s.reg_setReg_self .MGC_RETIRE_RESULT 0 0 0, (hset.1.mono (by decide)).trans (by simp [Same]), hset.2, rfl⟩

end

/-! ### The commit -/

/-- The state in which a retirement that has fallen due takes effect: the others still wait, and the event is in the journal. -/
structure Committing (s : State) (rest : List Retire) (x : State) : Prop where
  deck : x.deck = s.deck
  cores : x.cores = s.cores
  bnd : x.time.bnd = s.time.bnd
  due : x.mgc.due = rest
  regs : SameRegs [.TIK_JNL_PTR, .TIK_JNL_WRAPS, .HIF_CPL_TO_CNT] s x

theorem Committing.usable {s x : State} {rest : List Retire} (h : Committing s rest x) (e : Nat) : x.usable e = s.usable e :=
  State.usable_congr h.deck e

theorem Committing.lastCluster {s x : State} {rest : List Retire} (h : Committing s rest x) (c : Nat) :
    x.lastCluster c = s.lastCluster c := by
  simp [State.lastCluster, State.usableClusters, h.usable]

theorem commitRetire_takes {s : State} {r : Retire} {rest : List Retire} (hdue : s.mgc.due = r :: rest) (hidle : s.mgc.busy = none)
    (hsince : r.since < s.time.bnd) (hrun : s.isSet .MGC_RESTARTING = false)
    (hoccurs : Occurs s 9 (cfgSrc .MGC 0 0x4E4) (.unitRetire r.kind r.unit r.cause)) :
    ∃ x, Committing s rest x ∧ s.commitRetire r.kind = applyUnitRetire r.kind r.unit r.cause x := by
  obtain ⟨htick, hord, hready, hmoot, -⟩ := hoccurs
  let s' : State := { s with mgc := { s.mgc with due := rest } }
  let act : TickAct := .unitRetire r.kind r.unit r.cause
  let x := (s'.atEvent 9 (cfgSrc .MGC 0 0x4E4)).journal 9 (cfgSrc .MGC 0 0x4E4) 1 act
  have hx := (s'.atEvent 9 (cfgSrc .MGC 0 0x4E4)).alters_journal 9 (cfgSrc .MGC 0 0x4E4) 1 act
  have hbooks : OnlyBooks (s'.atEvent 9 (cfgSrc .MGC 0 0x4E4)) x := State.onlyBooks_journal ..
  have htime : x.time = (s'.atEvent 9 (cfgSrc .MGC 0 0x4E4)).time := hx.agree .time (by decide)
  refine ⟨x, ⟨hx.agree .deck (by decide), hx.agree .cores (by decide), by rw [htime]; rfl, hbooks.due, hx.2⟩, ?_⟩
  have hcommit : s.commitRetire r.kind = s'.tickEvent 9 (cfgSrc .MGC 0 0x4E4) act (applyUnitRetire r.kind r.unit r.cause) := by
    unfold State.commitRetire
    rw [hdue]
    dsimp only
    rw [if_neg (by simp [hidle, Nat.not_le.2 hsince, hrun, htick])]
  have htick' : s'.ticking = true := htick
  have hord' : s'.inOrder 9 (cfgSrc .MGC 0 0x4E4) = true := hord
  have hready' : s'.time.ready = [] := hready
  have hmoot' : s'.moot 9 act = false := hmoot
  refine hcommit.trans (.trans ?_ (State.applyEvent_takes hmoot' (fun _ h => absurd h (by decide)) (cfgSrc .MGC 0 0x4E4) _))
  simp [State.tickEvent, htick', hord', hready']

/-- A retirement in progress. -/
def State.retiring (x : State) (kind unit cause : Nat) : State :=
  let y := x.setReg .MGC_RETIRE_BUSY 1
  { y with mgc := { y.mgc with busy := some { kind := kind, unit := unit, cause := cause, since := y.time.bnd } } }

theorem applyUnitRetire_coupler {x : State} {n cause : Nat} (husable : x.usable (deckIndex .CPL n) = true) :
    applyUnitRetire 2 n cause x = (x.retiring 2 n cause).onCpl n fun c => { c with leaving := some x.time.bnd } := by
  simp [applyUnitRetire, husable]
  rfl

/-- A cluster whose drain has begun. -/
def State.draining (x : State) (c cause : Nat) : State :=
  let y := x.retiring 1 c cause
  let z : State := { y with deck := { y.deck with
    draining := NMap.insert y.deck.draining c (y.time.bnd + ticksOfUs (y.reg .MGC_DRAIN_US)) } }
  (z.onReg c fun r => { r with entering := false, wait := none, wakeAt := none }).setReg .CRG_NOTICE_PEND 0 c

theorem applyUnitRetire_cluster {x : State} {c cause : Nat} (husable : x.usable (deckIndex .CLU c) = true)
    (hlast : x.lastCluster c = false) :
    let y := x.draining c cause
    let g := x.reg .CRG_GATE_STATE c
    applyUnitRetire 1 c cause x = if g = 2 then y.wakeT1 c else if g = 1 ∨ g = 4 then y
      else ((y.unclock c (if g = 6 then 6 else 0)).setReg .CRG_V_SET 0 c).clusterRetired c := by
  have hgate : (x.retiring 1 c cause).reg .CRG_GATE_STATE c = x.reg .CRG_GATE_STATE c :=
    (x.alters_setReg .MGC_RETIRE_BUSY 1 0 0).reg .CRG_GATE_STATE c 0 (by decide)
  intro y g
  unfold applyUnitRetire
  refine (if_neg (by simp [husable])).trans ((if_neg (by simp [hlast])).trans ((if_neg (by decide)).trans ?_))
  change (if (x.retiring 1 c cause).reg .CRG_GATE_STATE c = 2 then y.wakeT1 c
    else if (x.retiring 1 c cause).reg .CRG_GATE_STATE c = 1 ∨ (x.retiring 1 c cause).reg .CRG_GATE_STATE c = 4 then y
    else ((y.unclock c (if (x.retiring 1 c cause).reg .CRG_GATE_STATE c = 6 then 6 else 0)).setReg .CRG_V_SET 0 c).clusterRetired c) = _
  rw [hgate]

theorem State.alters_onReg (s : State) (c : Nat) (f : RegSt → RegSt) : Alters [.pwr] [] s (s.onReg c f) :=
  .of_regs (by simp [Same, State.onReg]) rfl

/-- What holds of a cluster whose drain has begun. -/
theorem State.draining_spec (x : State) (c cause : Nat) : let y := x.draining c cause
    y.mgc = { x.mgc with busy := some { kind := 1, unit := c, cause := cause, since := x.time.bnd } } ∧ y.reg .MGC_RETIRE_BUSY = 1
    ∧ y.cores = x.cores ∧ NMap.find? y.deck.draining c = some (x.time.bnd + ticksOfUs (x.reg .MGC_DRAIN_US)) := by
  have hbusy : (x.retiring 1 c cause).reg .MGC_RETIRE_BUSY = 1 := x.reg_setReg_self .MGC_RETIRE_BUSY 1 0 0
  have hus : (x.retiring 1 c cause).reg .MGC_DRAIN_US = x.reg .MGC_DRAIN_US :=
    (x.alters_setReg .MGC_RETIRE_BUSY 1 0 0).reg .MGC_DRAIN_US 0 0 (by decide)
  intro y
  refine ⟨rfl, ?_, rfl, ?_⟩
  · exact ((State.alters_setReg _ .CRG_NOTICE_PEND 0 c 0).reg .MGC_RETIRE_BUSY 0 0 (by decide)).trans hbusy
  · exact (NMap.find?_insert_self ..).trans (by rw [hus]; rfl)

theorem State.alters_wakeT1 (s : State) (c : Nat) :
    Alters [.regs] [.CRG_GATE_STATE, .CRG_F_EFF_MHZ, .CRG_WAKE_CNT] s (s.wakeT1 c) :=
  (((s.alters_setReg _ 1 c 0).mono (by decide) (by decide)).trans ((State.alters_setReg _ _ _ c 0).mono (by decide) (by decide))).trans
    ((State.alters_count _ _ c 0 1).mono (by decide) (by decide))

theorem State.alters_unclock (s : State) (c gate : Nat) :
    Alters [.regs] [.CRG_GATE_STATE, .CRG_F_EFF_MHZ, .CRG_GATE_OPEN, .CRG_PRERAISE] s (s.unclock c gate) := by
  refine Alters.trans ?_ ((State.alters_setReg _ _ 0 c 0).mono (by decide) (by decide))
  refine Alters.trans ?_ ((State.alters_setReg _ _ 0 c 0).mono (by decide) (by decide))
  exact ((s.alters_setReg _ gate c 0).mono (by decide) (by decide)).trans ((State.alters_setReg _ _ 0 c 0).mono (by decide) (by decide))

theorem State.clusterRetired_due (s : State) (c : Nat) : (s.clusterRetired c).mgc.due = s.mgc.due := by
  cases hbusy : s.mgc.busy with
  | none => simp [State.clusterRetired, hbusy]
  | some r =>
    by_cases hr : r.kind = 1 ∧ r.unit = c
    · exact (clusterRetired_ends hbusy hr.1 hr.2).due
    · have hr' : r.kind ≠ 1 ∨ r.unit ≠ c := by omega
      simp [State.clusterRetired, hbusy, hr']

section
variable {s : State} {r : Retire} {rest : List Retire} (hdue : s.mgc.due = r :: rest) (hidle : s.mgc.busy = none)
  (hsince : r.since < s.time.bnd) (hrun : s.isSet .MGC_RESTARTING = false)
  (hoccurs : Occurs s 9 (cfgSrc .MGC 0 0x4E4) (.unitRetire r.kind r.unit r.cause))
include hdue hidle hsince hrun hoccurs

/-- A coupler's retirement starts its drain (R664). -/
theorem couplerRetire_ends (hkind : r.kind = 2) (husable : s.usable (deckIndex .CPL r.unit) = true) : Ends .couplerRetire s fun t =>
    t.mgc.due = rest ∧ t.reg .MGC_RETIRE_BUSY = 1 ∧ (t.cpl r.unit).leaving = some s.time.bnd ∧ t.deck = s.deck := by
  obtain ⟨x, hx, hcommit⟩ := commitRetire_takes hdue hidle hsince hrun hoccurs
  have husable' : x.usable (deckIndex .CPL r.unit) = true := (hx.usable _).trans husable
  rw [hkind, applyUnitRetire_coupler husable'] at hcommit
  refine ⟨_, (show exec .couplerRetire s = .next (s.commitRetire 2) from rfl).trans (congrArg _ hcommit), hx.due,
    x.reg_setReg_self .MGC_RETIRE_BUSY 1 0 0, ?_, hx.deck⟩
  rw [State.cpl_onCpl_self, hx.bnd]

/-- A cluster's retirement sets its deadline where it has power, and is over at once where it has none (R663). -/
theorem clusterRetire_ends (hkind : r.kind = 1) (husable : s.usable (deckIndex .CLU r.unit) = true)
    (hlast : s.lastCluster r.unit = false) : Ends .clusterRetire s fun t => t.mgc.due = rest
      ∧ (s.reg .CRG_GATE_STATE r.unit = 1 ∨ s.reg .CRG_GATE_STATE r.unit = 2 ∨ s.reg .CRG_GATE_STATE r.unit = 4 →
          t.reg .MGC_RETIRE_BUSY = 1)
      ∧ (s.reg .CRG_GATE_STATE r.unit = 1 →
          NMap.find? t.deck.draining r.unit = some (s.time.bnd + ticksOfUs (s.reg .MGC_DRAIN_US)) ∧ t.cores = s.cores
          ∧ t.mgc.busy = some { kind := 1, unit := r.unit, cause := r.cause, since := s.time.bnd }) := by
  obtain ⟨x, hx, hcommit⟩ := commitRetire_takes hdue hidle hsince hrun hoccurs
  have hgate : x.reg .CRG_GATE_STATE r.unit = s.reg .CRG_GATE_STATE r.unit := hx.regs _ _ _ (by decide)
  have hus : x.reg .MGC_DRAIN_US = s.reg .MGC_DRAIN_US := hx.regs _ _ _ (by decide)
  have happly := applyUnitRetire_cluster (cause := r.cause) ((hx.usable _).trans husable) ((hx.lastCluster _).trans hlast)
  obtain ⟨hmgc, hbusy, hcores, hdrain⟩ := x.draining_spec r.unit r.cause
  dsimp only at happly
  rw [hgate] at happly
  generalize (if s.reg .CRG_GATE_STATE r.unit = 6 then 6 else 0) = gate at happly
  rw [hkind] at hcommit
  let y := x.draining r.unit r.cause
  have hydue : y.mgc.due = rest := (congrArg MgcSt.due hmgc).trans hx.due
  refine ⟨_, (show exec .clusterRetire s = .next (s.commitRetire 1) from rfl).trans (congrArg _ (hcommit.trans happly)), ?_⟩
  split_ifs with h2 h1
  · have hwake := y.alters_wakeT1 r.unit
    refine ⟨(congrArg MgcSt.due (hwake.agree .mgc (by decide))).trans hydue, fun _ => (hwake.reg _ _ _ (by decide)).trans hbusy, fun h => ?_⟩
    omega
  · exact ⟨hydue, fun _ => hbusy, fun _ => ⟨hdrain.trans (by rw [hx.bnd, hus]), hcores.trans hx.cores,
      (congrArg MgcSt.busy hmgc).trans (by rw [hx.bnd])⟩⟩
  · refine ⟨?_, fun h => ?_, fun h => ?_⟩
    · rw [State.clusterRetired_due]
      exact hydue
    · omega
    · omega

end

end Sys2Proof.Machine
end

section
/-!
PROOFS. The deadline of a cluster's drain (R593, R663).
-/
namespace Sys2Proof.Machine
open Sys2Proof.Safety

/-- A hand that the deadline of a drain finds still resident is marked removed, and its task loses it. -/
def dropResident (s : State) (x : Nat × Nat) : State :=
  match s.hand x.1 x.2 with
  | none => s
  | some h =>
    if h.removed ∨ h.st = .releasing then s else
    let s := (s.setHand x.1 x.2 { h with removed := true }).onTask h.task fun t => { t with lost := t.lost + 1, dark := true }
    { s with mgc := { s.mgc with busy := s.mgc.busy.map fun r => { r with hands := r.hands + 1 } } }

/-- A hand as the deadline leaves it. -/
def Hand.drained (h : Hand) : Hand := if h.st = .releasing then h else { h with removed := true }

theorem Hand.drained_drained (h : Hand) : h.drained.drained = h.drained := by
  unfold Hand.drained
  split_ifs <;> simp_all

theorem Hand.drained_of_removed {h : Hand} (hr : h.removed = true) : h.drained = h := by
  unfold Hand.drained
  split
  · rfl
  · rw [← hr]

/-- What the deadline leaves of hands, registers and L1s alone. -/
structure Drains (s t : State) (l : List (Nat × Nat)) : Prop where
  hands : ∀ c n, t.hand c n = (s.hand c n).map fun h => if (c, n) ∈ l then h.drained else h
  storage : ∀ c, (t.core c).vrf = (s.core c).vrf ∧ (t.core c).l1 = (s.core c).l1
  same : Same [.cores, .tasks, .mgc] s t

theorem State.alters_mgc (s : State) (m : MgcSt) : Alters [.mgc] [] s { s with mgc := m } := .of_regs (by simp [Same]) rfl

theorem Drains.refl (s : State) : Drains s s [] := ⟨fun _ _ => by simp, fun _ => ⟨rfl, rfl⟩, .refl _ s⟩

theorem Drains.trans {s t u : State} {l l' : List (Nat × Nat)} (h : Drains s t l) (h' : Drains t u l') : Drains s u (l ++ l') := by
  refine ⟨fun c n => ?_, fun c => ⟨(h'.storage c).1.trans (h.storage c).1, (h'.storage c).2.trans (h.storage c).2⟩,
    h.same.trans h'.same⟩
  rw [h'.hands, h.hands, Option.map_map]
  congr 1
  funext x
  by_cases hl : (c, n) ∈ l <;> by_cases hl' : (c, n) ∈ l' <;> simp [hl, hl', Hand.drained_drained]

/-- A hand that is drained already. -/
theorem drains_of_drained {s : State} {x : Nat × Nat} (h : ∀ y, s.hand x.1 x.2 = some y → y.drained = y) : Drains s s [x] := by
  refine ⟨fun c n => ?_, fun _ => ⟨rfl, rfl⟩, .refl _ s⟩
  by_cases hx : (c, n) = x
  · subst hx
    cases hh : s.hand c n with
    | none => rfl
    | some y => simp [h y hh]
  · simp [hx]

theorem drains_dropResident (s : State) (x : Nat × Nat) : Drains s (dropResident s x) [x] := by
  unfold dropResident
  cases hh : s.hand x.1 x.2 with
  | none => exact drains_of_drained (by simp [hh])
  | some h =>
    dsimp only
    split_ifs with hdone
    · refine drains_of_drained fun y hy => ?_
      obtain rfl := Option.some.inj (hh.symm.trans hy)
      rcases hdone with hr | hr
      · exact Hand.drained_of_removed hr
      · simp [Hand.drained, hr]
    · have hst : h.st ≠ .releasing := fun e => hdone (.inr e)
      let t := s.setHand x.1 x.2 { h with removed := true }
      let u := t.onTask h.task fun t => { t with lost := t.lost + 1, dark := true }
      have hu := t.alters_onTask h.task fun t => { t with lost := t.lost + 1, dark := true }
      have hcores : u.cores = t.cores := hu.agree .cores (by decide)
      refine ⟨fun c n => ?_, fun c => ?_, ?_⟩
      · change u.hand c n = _
        rw [State.hand_congr hcores, State.hand_setHand]
        by_cases hx : c = x.1 ∧ n = x.2
        · obtain ⟨rfl, rfl⟩ := hx
          simp [hh, Hand.drained, hst]
        · have hx' : ¬ (c, n) = x := fun e => hx ⟨congrArg Prod.fst e, congrArg Prod.snd e⟩
          simp [hx, hx']
      · change (u.core c).vrf = _ ∧ (u.core c).l1 = _
        rw [State.core_congr hcores, State.core_setHand]
        split
        · next hc => exact hc ▸ ⟨rfl, rfl⟩
        · exact ⟨rfl, rfl⟩
      · refine (((s.alters_setHand _ _ _).1.mono (by decide)).trans (hu.1.mono (by decide))).trans ?_
        exact (u.alters_mgc _).1.mono (by decide)

theorem drains_foldState (l : List (Nat × Nat)) (s : State) : Drains s (foldState dropResident l s) l := by
  induction l generalizing s with
  | nil => exact .refl s
  | cons x l ih => exact (drains_dropResident s x).trans (ih _)

theorem cluster_of_mem_handsWhere {s : State} {c d n : Nat} (h : (d, n) ∈ handsWhere s fun co _ _ => clusterOf co == c) : clusterOf d = c := by
  obtain ⟨co, -, hslot⟩ := List.mem_flatMap.1 h
  obtain ⟨x, hx, heq⟩ := List.mem_map.1 hslot
  obtain ⟨rfl, rfl⟩ := Prod.mk.inj heq
  simpa using (List.mem_filter.1 hx).2

section
variable {s : State} {c : Fin 64} {d : Nat} (hdrain : NMap.find? s.deck.draining c = some d)
include hdrain

theorem drainDeadline_waits (h : s.time.bnd < d) : Goes (.drainDeadline c) s s := by
  refine (show exec (.drainDeadline c) s = execDrainDeadline c s from rfl).trans ?_
  simp [execDrainDeadline, hdrain, h, done]

/-- At the deadline every hand of the cluster that is not being released is marked removed. -/
theorem drainDeadline_ends (hrun : s.stopped 1 = false) (h : d ≤ s.time.bnd) : Ends (.drainDeadline c) s fun t =>
    Same [.cores, .tasks, .mgc] s t
    ∧ (∀ core slot h, s.hand core slot = some h → t.hand core slot =
        some (if core / 4 = c.val ∧ h.st ≠ .releasing then { h with removed := true } else h))
    ∧ (∀ core slot, s.hand core slot = none → t.hand core slot = none)
    ∧ ∀ core, (t.core core).vrf = (s.core core).vrf ∧ (t.core core).l1 = (s.core core).l1 := by
  let l := handsWhere s fun co _ _ => clusterOf co == c.val
  have hexec : exec (.drainDeadline c) s = .next (foldState dropResident l s) := by
    refine (show exec (.drainDeadline c) s = execDrainDeadline c s from rfl).trans ?_
    unfold execDrainDeadline
    rw [hdrain]
    dsimp only
    rw [if_neg (by simp [hrun, Nat.not_lt.2 h])]
    rfl
  have hl := drains_foldState l s
  refine ⟨_, hexec, hl.same, fun core slot x hx => ?_, fun core slot hx => ?_, hl.storage⟩
  · rw [hl.hands, hx, Option.map_some]
    congr 1
    by_cases hcore : core / 4 = c.val
    · have hmem : (core, slot) ∈ l := mem_handsWhere hx (by simpa [clusterOf] using hcore)
      simp only [hmem, if_true, hcore, true_and, Hand.drained]
      split_ifs <;> simp_all
    · have hmem : (core, slot) ∉ l := fun hm => hcore (cluster_of_mem_handsWhere hm)
      simp [hmem, hcore]
  · rw [hl.hands, hx, Option.map_none]

end

end Sys2Proof.Machine
end

section
/-!
PROOFS. A cluster leaves coherence and its clock stops (R347, R632, R663).
-/
namespace Sys2Proof.Machine
open Sys2Proof.Safety

/-! ### What stays within a cluster's caches -/

/-- Besides the parts `ch`, only the caches and requests of cluster `c` and the caches of its cores change, and it keeps leaving
coherence if it was. -/
structure WithinCluster (ch : List Comp) (c : Nat) (s t : State) : Prop where
  clus : ∀ d, d ≠ c → t.clu d = s.clu d
  leaving : (t.clu c).leaving = (s.clu c).leaving
  cores : ∀ d, d / 4 ≠ c → t.core d = s.core d
  slots : ∀ d, (t.core d).slots = (s.core d).slots
  same : Same (.clus :: .cores :: ch) s t

section
variable {ch : List Comp} {c : Nat} {s t u : State}

theorem WithinCluster.refl (ch : List Comp) (c : Nat) (s : State) : WithinCluster ch c s s :=
  ⟨fun _ _ => rfl, rfl, fun _ _ => rfl, fun _ => rfl, .refl _ s⟩

theorem WithinCluster.trans (h : WithinCluster ch c s t) (h' : WithinCluster ch c t u) : WithinCluster ch c s u :=
  ⟨fun d hd => (h'.clus d hd).trans (h.clus d hd), h'.leaving.trans h.leaving, fun d hd => (h'.cores d hd).trans (h.cores d hd),
    fun d => (h'.slots d).trans (h.slots d), h.same.trans h'.same⟩

theorem WithinCluster.mono {ch' : List Comp} (h : WithinCluster ch c s t) (hsub : ch ⊆ ch') : WithinCluster ch' c s t :=
  ⟨h.clus, h.leaving, h.cores, h.slots, h.same.mono (List.cons_subset_cons _ (List.cons_subset_cons _ hsub))⟩

theorem WithinCluster.foldState {α : Type} {f : State → α → State} (hf : ∀ s a, WithinCluster ch c s (f s a)) (l : List α) (s : State) :
    WithinCluster ch c s (foldState f l s) :=
  foldState_keeps (p := WithinCluster ch c s) f l s (.refl ch c s) fun t a h => h.trans (hf t a)

/-- A change of other parts alone. -/
theorem WithinCluster.of_same (h : Same ch s t) (hclus : .clus ∉ ch) (hcores : .cores ∉ ch) (c : Nat) : WithinCluster ch c s t := by
  have hclu : t.clus = s.clus := same_iff.1 h .clus hclus
  have hcore : t.cores = s.cores := same_iff.1 h .cores hcores
  exact ⟨fun d _ => State.clu_congr hclu d, by rw [State.clu_congr hclu], fun d _ => State.core_congr hcore d,
    fun d => by rw [State.core_congr hcore], h.mono fun _ hx => List.mem_cons_of_mem _ (List.mem_cons_of_mem _ hx)⟩

end

theorem State.withinCluster_onClu (ch : List Comp) (s : State) (c : Nat) {f : Cluster → Cluster} (hf : ∀ cl, (f cl).leaving = cl.leaving) :
    WithinCluster ch c s (s.onClu c f) :=
  ⟨fun _ hd => State.clu_onClu_ne _ _ hd, by rw [State.clu_onClu_self, hf], fun _ _ => rfl, fun _ => rfl,
    (s.alters_onClu c f).1.mono (by simp)⟩

theorem State.withinCluster_onCore (ch : List Comp) (s : State) {c core : Nat} (hc : core / 4 = c) {f : Core → Core}
    (hf : ∀ co, (f co).slots = co.slots) : WithinCluster ch c s (s.onCore core f) := by
  refine ⟨fun _ _ => rfl, rfl, fun d hd => State.core_setCore_ne _ _ (by rintro rfl; exact hd hc), fun d => ?_,
    (s.alters_onCore core f).1.mono (by simp)⟩
  rw [State.onCore, State.core_setCore]
  split
  · next hd => rw [hf, hd]
  · rfl

/-! ### Lines that leave -/

theorem State.withinCluster_dropL1 (s : State) {c core : Nat} (hc : core / 4 = c) (line : Nat) :
    WithinCluster [] c s (s.dropL1 core line) := by
  unfold State.dropL1
  split
  · exact .refl _ c s
  · next key _ _ =>
    dsimp only
    have hcore := s.withinCluster_onCore [] hc (f := fun co => { co with l1 := NMap.erase co.l1 key }) fun _ => rfl
    split
    · exact hcore
    · rw [clusterOf, hc]
      exact hcore.trans (State.withinCluster_onClu _ _ c fun _ => rfl)

theorem State.withinCluster_dropCc (s : State) (c line : Nat) : WithinCluster [.filter] c s (s.dropCc c line) := by
  have hl1 : WithinCluster [] c s (s.dropL1s c line) := foldState_keeps_of_mem (p := WithinCluster [] c s) _ _ s (.refl _ c s)
    fun t i hi h => h.trans (t.withinCluster_dropL1 (by have := List.mem_range.1 hi; omega) line)
  unfold State.dropCc
  generalize s.dropL1s c line = t at hl1 ⊢
  dsimp only
  split
  · exact hl1.mono (by decide)
  · next key x _ =>
    have herase := t.withinCluster_onClu [.filter] c (f := fun cl => { cl with cc := NMap.erase cl.cc key }) fun _ => rfl
    refine (hl1.mono (by decide)).trans (herase.trans ?_)
    exact .of_same (State.alters_filterSub _ line x.st).1 (by decide) (by decide) c

/-- The parts in which a cluster's request leaves it. -/
def requestParts : List Comp := [.mesh, .xmit, .mgc, .regs, .codec, .filter]

theorem State.withinCluster_sendReq (s : State) (c : Nat) (r : Req) (data : Option LineData) (runs : List (Nat × List Byte)) (entry : Nat)
    (carry : GState) : WithinCluster requestParts c s (s.sendReq c r data runs entry carry) := by
  unfold State.sendReq
  split
  · exact .refl _ c s
  · split
    · exact .refl _ c s
    · next tag _ =>
      dsimp only
      refine .trans (s.withinCluster_onClu _ c (f := fun cl => { cl with reqs := NMap.insert cl.reqs tag r }) fun _ => rfl) ?_
      refine .trans ?_ (.of_same ((State.alters_sendTo _ _ _).1.mono (by decide)) (by decide) (by decide) c)
      exact .of_same ((State.alters_issue _ 0 c 1).1.mono (by decide)) (by decide) (by decide) c

theorem State.withinCluster_encodeFor (s : State) (c slot : Nat) (bytes : List Byte) :
    WithinCluster requestParts c s (s.encodeFor slot bytes).2 := by
  refine .of_same ?_ (by decide) (by decide) c
  have hissue : Same requestParts s (s.issue 10 slot) := (s.alters_issue 10 slot 1).1.mono (by decide)
  unfold State.encodeFor
  dsimp only
  split_ifs
  · split
    · exact hissue
    · exact hissue.trans ((State.alters_count _ _ 0 0 1).1.mono (by decide))
  · exact hissue.trans (by simp [Same, requestParts, State.addHist])
  · exact hissue

theorem State.withinCluster_flushAsm (s : State) (c block : Nat) : WithinCluster requestParts c s (s.flushAsm c block) := by
  have hfree : WithinCluster requestParts c s (s.onClu c fun cl => { cl with asm := cl.asm.filter fun x => x.block != block }) :=
    s.withinCluster_onClu _ c fun _ => rfl
  have hcount (s : State) : WithinCluster requestParts c s (s.count .CDC_ASM_PARTIAL_CNT) :=
    .of_same ((s.alters_count _ 0 0 1).1.mono (by decide)) (by decide) (by decide) c
  unfold State.flushAsm
  dsimp only
  split
  · exact .refl _ c s
  · split_ifs
    · exact .refl _ c s
    · exact hfree.trans (State.withinCluster_sendReq ..)
    · exact (hfree.trans (hcount _)).trans (State.withinCluster_sendReq ..)
    · exact (hfree.trans (State.withinCluster_encodeFor ..)).trans (State.withinCluster_sendReq ..)
    · exact (hfree.trans (hcount _)).trans (State.withinCluster_sendReq ..)

theorem State.withinCluster_evict (s : State) (c : Nat) (x : CLine) : WithinCluster requestParts c s (s.evict c x) := by
  have hdrop : WithinCluster requestParts c s (s.dropCc c x.line) := (s.withinCluster_dropCc c x.line).mono (by decide)
  unfold State.evict
  generalize s.dropCc c x.line = t at hdrop ⊢
  dsimp only
  have hbuf : WithinCluster requestParts c t (t.onClu c fun cl =>
      { cl with wbuf := cl.wbuf ++ [{ x with pres := 0, hold := false }] }) :=
    t.withinCluster_onClu _ c fun _ => rfl
  split
  · exact hdrop
  · exact (hdrop.trans hbuf).trans (State.withinCluster_sendReq ..)

/-- What a leaving cluster gives back. -/
theorem withinCluster_leavePump (s : State) (c : Nat) : WithinCluster requestParts c s (leavePump s c) := by
  unfold leavePump
  split
  · exact .refl _ c s
  · have hflush : WithinCluster requestParts c s (s.flushAllAsm c) :=
      .foldState (fun (t : State) (b : AsmBuf) => t.withinCluster_flushAsm c b.block) _ s
    refine hflush.trans (.foldState (fun t x => ?_) _ _)
    split
    · exact .refl _ c t
    · exact t.withinCluster_evict c x.2

theorem State.withinCluster_emptyL1s (s : State) (c : Nat) : WithinCluster [.filter] c s
    (foldState (fun s i => s.onCore (4 * c + i) fun co => { co with l1 := [], ic := [] }) (List.range 4) s) := by
  refine foldState_keeps_of_mem (p := WithinCluster [.filter] c s) _ _ s (.refl _ c s) fun t i hi h => h.trans ?_
  have hcore : (4 * c + i) / 4 = c := by have := List.mem_range.1 hi; omega
  exact t.withinCluster_onCore _ hcore fun _ => rfl

/-- The lines and the L1s of a cluster are dropped. -/
theorem State.withinCluster_emptyCaches (s : State) (c : Nat) : WithinCluster [.filter] c s (s.emptyCaches c) := by
  have hdrop : WithinCluster [.filter] c s (foldState (fun (s : State) (x : Nat × CLine) => s.dropCc c x.2.line) (s.clu c).cc s) :=
    foldState_keeps (p := WithinCluster [.filter] c s) _ _ s (.refl _ c s) fun t x h => h.trans (t.withinCluster_dropCc c x.2.line)
  unfold State.emptyCaches
  generalize foldState (fun (s : State) (x : Nat × CLine) => s.dropCc c x.2.line) (s.clu c).cc s = t at hdrop ⊢
  exact hdrop.trans (t.withinCluster_emptyL1s c)

/-! ### The cluster leaves -/

section
variable {s : State} {c : Fin 64} (hclk : s.clocked c = true) (hhands : s.noHands c = true)
include hclk hhands

/-- A cluster without hands that enters T2 or is being retired leaves coherence (R347). -/
theorem leaveCoherence_ends (hstay : (s.clu c).leaving = false)
    (hwhy : (s.regSt c).entering = true ∨ NMap.find? s.deck.draining c ≠ none) : Ends (.leaveCoherence c) s fun t =>
      (t.clu c).leaving = true ∧ t.mem = s.mem ∧ t.tasks = s.tasks ∧ (∀ d, d ≠ c.val → t.clu d = s.clu d)
      ∧ ∀ core, (t.core core).slots = (s.core core).slots := by
  let u := s.onClu c fun cl => { cl with leaving := true }
  have hexec : exec (.leaveCoherence c) s = .next (leavePump u c) := by
    refine (show exec (.leaveCoherence c) s = execLeaveCoherence c s from rfl).trans ?_
    have hwhy' : ((NMap.get {} s.pwr.regs c : RegSt).entering || (NMap.find? s.deck.draining c).isSome) = true := by
      rcases hwhy with h | h
      · rw [show (NMap.get {} s.pwr.regs c : RegSt).entering = true from h, Bool.true_or]
      · rw [Option.isSome_iff_ne_none.2 h, Bool.or_true]
    rw [execLeaveCoherence, if_neg (by simp only [hclk, hhands, hstay, hwhy']; decide)]
    rfl
  have hpump := withinCluster_leavePump u c
  refine ⟨_, hexec, ?_, ?_, ?_, fun d hd => ?_, hpump.slots⟩
  · rw [hpump.leaving, State.clu_onClu_self]
  · exact same_iff.1 hpump.same .mem (by decide)
  · exact same_iff.1 hpump.same .tasks (by decide)
  · rw [hpump.clus d hd, State.clu_onClu_ne _ _ hd]

end

/-! ### The clock stops -/

/-- A cluster without contents, and the parts that stay as they are. -/
structure Emptied (ch : List Comp) (c : Nat) (s t : State) : Prop where
  clu : t.clu c = {}
  emptied : ∀ i < 4, t.core (4 * c + i) = {}
  cores : ∀ d, d / 4 ≠ c → t.core d = s.core d
  same : Same (.clus :: .cores :: ch) s t

theorem State.emptied_loseContents (s : State) (c : Nat) : Emptied [] c s (s.loseContents c) := by
  have hcores : (∀ i < 4, (foldState (fun (s : State) i => s.setCore (4 * c + i) {}) (List.range 4) s).core (4 * c + i) = {})
      ∧ (∀ d, (∀ i < 4, d ≠ 4 * c + i) → (foldState (fun (s : State) i => s.setCore (4 * c + i) {}) (List.range 4) s).core d = s.core d)
      ∧ Same [.cores] s (foldState (fun (s : State) i => s.setCore (4 * c + i) {}) (List.range 4) s) := by
    refine foldState_range (p := fun n t => (∀ i < n, t.core (4 * c + i) = {})
      ∧ (∀ d, (∀ i < n, d ≠ 4 * c + i) → t.core d = s.core d) ∧ Same [.cores] s t) _ s
      ⟨fun i hi => absurd hi (Nat.not_lt_zero i), fun _ _ => rfl, .refl _ s⟩ 4
      fun n _ t ⟨hin, hout, hsame⟩ => ⟨fun i hi => ?_, fun d hd => ?_, hsame.trans (t.alters_setCore _ _).1⟩
    · rw [State.core_setCore]
      split
      · rfl
      · next hne => exact hin i (by omega)
    · rw [State.core_setCore, if_neg (hd n (Nat.lt_succ_self n))]
      exact hout d fun i hi => hd i (by omega)
  unfold State.loseContents
  generalize foldState (fun (s : State) i => s.setCore (4 * c + i) {}) (List.range 4) s = t at hcores ⊢
  obtain ⟨hin, hout, hsame⟩ := hcores
  exact ⟨by simp [State.clu, State.setClu], hin, fun d hd => hout d fun i hi => by omega,
    (hsame.mono (by decide)).trans ((t.alters_onClu c fun _ => {}).1.mono (by decide))⟩

/-- All that a cluster holds is dropped and lost. -/
theorem State.emptied_of_left (s : State) (c : Nat) : Emptied [.filter] c s ((s.emptyCaches c).loseContents c) := by
  have hcaches := s.withinCluster_emptyCaches c
  generalize s.emptyCaches c = t at hcaches ⊢
  obtain ⟨hclu, hemptied, hcores, hsame⟩ := t.emptied_loseContents c
  exact ⟨hclu, hemptied, fun d hd => (hcores d hd).trans (hcaches.cores d hd), hcaches.same.trans (hsame.mono (by decide))⟩

theorem Emptied.congr {ch : List Comp} {c : Nat} {s t u : State} (h : Emptied ch c s t) (hclus : u.clus = t.clus) (hcores : u.cores = t.cores) :
    u.clu c = {} ∧ (∀ i < 4, u.core (4 * c + i) = {}) ∧ ∀ d, d / 4 ≠ c → u.core d = s.core d :=
  ⟨(State.clu_congr hclus c).trans h.clu, fun i hi => (State.core_congr hcores _).trans (h.emptied i hi),
    fun d hd => (State.core_congr hcores d).trans (h.cores d hd)⟩

/-- The clock and the voltage of a cluster after its regulator is set. -/
theorem State.unclock_spec (s : State) (c gate v : Nat) : let t := (s.unclock c gate).setReg .CRG_V_SET v c
    t.reg .CRG_GATE_STATE c = gate ∧ t.reg .CRG_F_EFF_MHZ c = 0 ∧ t.reg .CRG_V_SET c = v ∧ Same [.regs] s t := by
  refine ⟨?_, ?_, State.reg_setReg_self .., (s.alters_unclock c gate).1.trans (State.alters_setReg _ _ v c 0).1⟩ <;>
    simp [State.unclock, State.reg_setReg]

section
variable {s : State} {c : Fin 64} (hclk : s.clocked c = true) (hhands : s.noHands c = true) (hleft : s.hasLeft c = true)
include hclk hhands hleft

theorem exec_leaveCoherenceDone : ∃ x, Emptied [.filter] c s x ∧ exec (.leaveCoherenceDone c) s = .next (
    if (NMap.find? x.deck.draining c).isSome then ((x.unclock c 0).setReg .CRG_V_SET 0 c).clusterRetired c
    else ((x.unclock c 3).setReg .CRG_V_SET (x.vCode c 600) c).onReg c fun r => { r with entering := false, change := none }) := by
  refine ⟨_, s.emptied_of_left c, ?_⟩
  refine (show exec (.leaveCoherenceDone c) s = execLeaveCoherenceDone c s from rfl).trans ?_
  unfold execLeaveCoherenceDone
  rw [if_neg (by simp [hclk, hhands, hleft])]
  rfl

/-- A cluster that has left coherence goes to T2 where it is not being retired (R632). -/
theorem leaveCoherenceDone_ends_asleep (hstays : NMap.find? s.deck.draining c = none) : Ends (.leaveCoherenceDone c) s fun t =>
    t.reg .CRG_GATE_STATE c = 3 ∧ t.reg .CRG_F_EFF_MHZ c = 0 ∧ t.clu c = {} ∧ (∀ i < 4, t.core (4 * c + i) = {})
    ∧ (∀ d, d / 4 ≠ c.val → t.core d = s.core d) ∧ t.mem = s.mem ∧ t.tasks = s.tasks := by
  obtain ⟨x, hx, hexec⟩ := exec_leaveCoherenceDone hclk hhands hleft
  let y := (x.unclock c 3).setReg .CRG_V_SET (x.vCode c 600) c
  obtain ⟨hgate, hfreq, -, hy⟩ := x.unclock_spec c 3 (x.vCode c 600)
  have ht := y.alters_onReg c fun r => { r with entering := false, change := none }
  have hdeck : x.deck = s.deck := same_iff.1 hx.same .deck (by decide)
  rw [if_neg (by simp [hdeck, hstays])] at hexec
  obtain ⟨hclu, hemptied, hcores⟩ := hx.congr (u := y.onReg c fun r => { r with entering := false, change := none })
    (same_iff.1 hy .clus (by decide)) (same_iff.1 hy .cores (by decide))
  refine ⟨_, hexec, (ht.reg _ _ _ (by decide)).trans hgate, (ht.reg _ _ _ (by decide)).trans hfreq, hclu, hemptied, hcores, ?_, ?_⟩
  · exact Eq.trans (same_iff.1 hy .mem (by decide)) (same_iff.1 hx.same .mem (by decide))
  · exact Eq.trans (same_iff.1 hy .tasks (by decide)) (same_iff.1 hx.same .tasks (by decide))

/-- A cluster that has left coherence and is being retired is off and RETIRED (R663). -/
theorem leaveCoherenceDone_ends_retired {r : Retire} (hdrains : NMap.find? s.deck.draining c ≠ none) (hbusy : s.mgc.busy = some r)
    (hkind : r.kind = 1) (hunit : r.unit = c.val) : Ends (.leaveCoherenceDone c) s fun t =>
      t.reg .CRG_GATE_STATE c = 0 ∧ t.reg .CRG_V_SET c = 0 ∧ t.clu c = {} ∧ (∀ i < 4, t.core (4 * c + i) = {})
      ∧ t.usable (deckIndex .CLU c) = false ∧ t.mgc.busy = none ∧ t.reg .MGC_RETIRE_BUSY = 0
      ∧ NMap.find? t.deck.draining c = none ∧ t.tasks = s.tasks := by
  obtain ⟨x, hx, hexec⟩ := exec_leaveCoherenceDone hclk hhands hleft
  let y := (x.unclock c 0).setReg .CRG_V_SET 0 c
  obtain ⟨hgate, -, hvolt, hy⟩ := x.unclock_spec c 0 0
  have hdeck : x.deck = s.deck := same_iff.1 hx.same .deck (by decide)
  have hybusy : y.mgc.busy = some r :=
    (congrArg MgcSt.busy (Eq.trans (same_iff.1 hy .mgc (by decide)) (same_iff.1 hx.same .mgc (by decide)))).trans hbusy
  have hend := clusterRetired_ends hybusy hkind hunit
  rw [if_pos (by rw [hdeck]; exact Option.isSome_iff_ne_none.2 hdrains)] at hexec
  obtain ⟨hclu, hemptied, -⟩ := hx.congr (u := y.clusterRetired c)
    (Eq.trans (hend.alters.agree .clus (by decide)) (same_iff.1 hy .clus (by decide)))
    (Eq.trans (hend.alters.agree .cores (by decide)) (same_iff.1 hy .cores (by decide)))
  refine ⟨_, hexec, (hend.alters.reg _ _ _ (by decide)).trans hgate, (hend.alters.reg _ _ _ (by decide)).trans hvolt, hclu, hemptied,
    hend.usable, hend.busy, hend.flag, ?_, ?_⟩
  · rw [hend.draining]
    exact NMap.find?_erase_self ..
  · exact Eq.trans (hend.alters.agree .tasks (by decide))
      (Eq.trans (same_iff.1 hy .tasks (by decide)) (same_iff.1 hx.same .tasks (by decide)))

end

end Sys2Proof.Machine
end

section
/-!
PROOFS. A coupler that has drained goes DOWN and is RETIRED (R463, R664).
-/
namespace Sys2Proof.Machine
open Sys2Proof.Safety

theorem State.alters_fallDue (s : State) (kind unit : Nat) : Alters [.mgc] [] s (s.fallDue kind unit) := by
  unfold State.fallDue
  extract_lets e same
  split
  · exact .refl _ _ s
  · exact s.alters_mgc _

/-- Entries into DOWN with cause 4 count toward retirement. -/
theorem State.toDown_eq (s : State) (n cause : Nat) : ∃ u, Alters [.mgc] []
      ((((s.dropRollipor n).linkLeaves n).setReg .CPL_DOWN_CAUSE cause n).setLink n 6) u
    ∧ s.toDown n cause = (u.onCpl n fun c => { c with retrain := false, phase := 0 }).linkEvent n 0x31 cause := by
  refine ⟨_, ?_, rfl⟩
  dsimp only
  split_ifs
  · exact .refl _ _ _
  · exact (State.alters_mgc _ _).trans (State.alters_fallDue _ 2 n)
  · exact State.alters_mgc _ _

/-- A coupler that goes DOWN is in link state 6 with its cause. -/
theorem State.toDown_regs (s : State) (n cause : Nat) :
    (s.toDown n cause).link n = 6 ∧ (s.toDown n cause).reg .CPL_DOWN_CAUSE n = cause := by
  obtain ⟨u, hu, hdown⟩ := s.toDown_eq n cause
  let d := (((s.dropRollipor n).linkLeaves n).setReg .CPL_DOWN_CAUSE cause n)
  let w := u.onCpl n fun c => { c with retrain := false, phase := 0 }
  have hevent : Alters postParts postRegs w (w.linkEvent n 0x31 cause) := w.onlyPosts_postEvent ..
  have hreg (f : Field) (hf : f ∉ postRegs) : (s.toDown n cause).reg f n = (d.setLink n 6).reg f n := by
    rw [hdown]
    exact (hevent.reg f n 0 hf).trans (hu.reg f n 0 (by simp))
  refine ⟨(hreg .CPL_LINK_STATE (by decide)).trans (d.reg_setReg_self .CPL_LINK_STATE 6 n 0), (hreg .CPL_DOWN_CAUSE (by decide)).trans ?_⟩
  exact ((d.alters_setReg .CPL_LINK_STATE 6 n 0).reg .CPL_DOWN_CAUSE n 0 (by decide)).trans (State.reg_setReg_self _ .CPL_DOWN_CAUSE cause n 0)

/-- A coupler that has sent what was queued, or has waited 1 ms, is DOWN and RETIRED; its cause is a free value. -/
theorem couplerRetireDrained_ends {s : State} {n : Fin 64} {r : Retire} {at' : Nat} (hbusy : s.mgc.busy = some r) (hkind : r.kind = 2)
    (hunit : r.unit = n.val) (hleaving : (s.cpl n).leaving = some at') (hrun : s.banksRun = true)
    (hdone : s.linkUp n = false ∨ s.cplIdle n = true ∨ at' + ticksOfUs 1000 ≤ s.time.bnd) : Ends (.couplerRetireDrained n) s fun t =>
      t.link n = 6 ∧ t.reg .CPL_DOWN_CAUSE n = Config.freeValue s.free 0 % 16 ∧ t.usable (deckIndex .CPL n) = false
      ∧ (t.cpl n).gone = true ∧ t.mgc.busy = none ∧ t.reg .MGC_RETIRE_BUSY = 0 ∧ t.free = s.free + 1 ∧ t.cores = s.cores
      ∧ t.mem = s.mem := by
  let cause := Config.freeValue s.free 0 % 16
  let u := State.toDown { s with free := s.free + 1 } n cause
  let v := u.onCpl n fun c => { c with gone := true, leaving := none }
  let t := ((v.retireUnit (deckIndex .CPL n) r.cause).unitRetired 2 n r.cause 0 0).endRetire
  have hexec : exec (.couplerRetireDrained n) s = .next t := by
    refine (show exec (.couplerRetireDrained n) s = execCouplerRetireDrained n s from rfl).trans ?_
    have hready : (s.linkUp n && !s.cplIdle n && decide (s.time.bnd < at' + ticksOfUs 1000)) = false := by
      rcases hdone with h | h | h
      · simp [h]
      · simp [h]
      · simp [Nat.not_lt.2 h]
    unfold execCouplerRetireDrained
    rw [hbusy, hleaving]
    dsimp only
    rw [if_neg (by simp [hkind, hunit, hrun, hready])]
    rfl
  have hend : RetireEnded (deckIndex .CPL n) v t := retireEnded ..
  have hdown : LinkChanges _ u := State.linkChanges_toDown { s with free := s.free + 1 } n cause
  have hcpl := u.alters_onCpl n fun c => { c with gone := true, leaving := none }
  obtain ⟨hlink, hcause⟩ := State.toDown_regs { s with free := s.free + 1 } n cause
  have hsame : Same (.deck :: linkChangeParts) { s with free := s.free + 1 } t :=
    (hdown.1.mono (by decide)).trans ((hcpl.1.mono (by decide)).trans (hend.alters.1.mono (by decide)))
  refine ⟨t, hexec, ?_, ?_, hend.usable, ?_, hend.busy, hend.flag, same_iff.1 hsame .free (by decide),
    same_iff.1 hsame .cores (by decide), same_iff.1 hsame .mem (by decide)⟩
  · exact (hend.alters.reg .CPL_LINK_STATE n 0 (by decide)).trans hlink
  · exact (hend.alters.reg .CPL_DOWN_CAUSE n 0 (by decide)).trans hcause
  · rw [State.cpl_congr (hend.alters.agree .cpls (by decide))]
    exact congrArg CplSt.gone (u.cpl_onCpl_self n _)

/-- Settles O41: the request, the commit at a tick, the deadline, a cluster that leaves coherence, and a coupler that has drained. -/
theorem retirementUnderLoad : Obligations.RetirementUnderLoad := by
  unfold Obligations.RetirementUnderLoad
  refine ⟨fun s hlive hkind => ?request, ?commit, fun s c d hdrain => ⟨drainDeadline_waits hdrain, drainDeadline_ends hdrain⟩,
    fun s c hclk hhands => ⟨leaveCoherence_ends hclk hhands, leaveCoherenceDone_ends_asleep hclk hhands,
      fun r hleft hdrains hbusy => leaveCoherenceDone_ends_retired hclk hhands hleft hdrains hbusy⟩,
    fun s n r at' hbusy hkind hunit => couplerRetireDrained_ends hbusy hkind hunit⟩
  case request =>
    exact ⟨retireGo_ends_busy hlive hkind, fun hidle hnone => ⟨retireGo_ends_unusable hlive hkind hidle hnone,
      retireGo_ends_last hlive hkind hidle hnone, retireGo_ends_waits hlive hkind hidle hnone⟩⟩
  case commit =>
    intro p hp s r rest hdue hkind hidle hsince hrun husable hlast hoccurs
    simp only [List.mem_cons, List.not_mem_nil, or_false] at hp
    obtain rfl | rfl := hp
    · refine (clusterRetire_ends hdue hidle hsince hrun hoccurs hkind husable (hlast rfl)).imp fun t ⟨hwait, hbusy, hdrains⟩ =>
        ⟨hwait, fun h => hbusy (h.resolve_left (by decide)), fun h => absurd h (by decide), fun _ => hdrains⟩
    · refine (couplerRetire_ends hdue hidle hsince hrun hoccurs hkind husable).imp fun t ⟨hwait, hbusy, hleaving, hdeck⟩ =>
        ⟨hwait, fun _ => hbusy, fun _ => ⟨hleaving, hdeck⟩, fun h => absurd h (by decide)⟩

end Sys2Proof.Machine
end

section
/-!
PROOFS. Frames that name registers one by one, and a forced turn of a controller's background work (R382).
-/
namespace Sys2Proof.Safety
open Sys2Proof.Machine

/-- Nothing changes but the parts listed, and among the registers those listed, one by one. -/
def AltersAt (ch : List Comp) (l : List (Field × Nat × Nat)) (s t : State) : Prop :=
  Same ch s t ∧ ∀ f i n, (f, i, n) ∉ l → t.reg f i n = s.reg f i n

/-- Two operations one after the other change what either of them changes. -/
theorem AltersAt.comp {ch₁ ch₂ ch : List Comp} {l₁ l₂ l : List (Field × Nat × Nat)} {s t u : State} (h : AltersAt ch₁ l₁ s t)
    (h' : AltersAt ch₂ l₂ t u) (hch : ch₁ ⊆ ch ∧ ch₂ ⊆ ch) (hl : l₁ ⊆ l ∧ l₂ ⊆ l) : AltersAt ch l s u :=
  ⟨(h.1.mono hch.1).trans (h'.1.mono hch.2), fun f i n hf =>
    (h'.2 f i n fun hm => hf (hl.2 hm)).trans (h.2 f i n fun hm => hf (hl.1 hm))⟩

theorem AltersAt.mono {ch ch' : List Comp} {l l' : List (Field × Nat × Nat)} {s t : State} (h : AltersAt ch l s t) (hch : ch ⊆ ch')
    (hl : l ⊆ l') : AltersAt ch' l' s t :=
  ⟨h.1.mono hch, fun f i n hf => h.2 f i n fun hm => hf (hl hm)⟩

/-- Registers are written, and then memory's part of the state. -/
theorem AltersAt.withMem {l : List (Field × Nat × Nat)} {s t : State} (h : AltersAt [.regs] l s t) (m : MemSt) :
    AltersAt [.regs, .mem] l s { t with mem := m } :=
  h.comp (ch₂ := [.mem]) (l₂ := []) ⟨by simp [Same], fun _ _ _ _ => rfl⟩ (by simp) (by simp)

end Sys2Proof.Safety
namespace Sys2Proof.Machine
open Sys2Proof.Safety

theorem State.altersAt_setReg (s : State) (f : Field) (v i n : Nat) : AltersAt [.regs] [(f, i, n)] s (s.setReg f v i n) := by
  refine ⟨(s.alters_setReg f v i n).1, fun g j m hg => ?_⟩
  rw [State.reg_setReg, if_neg fun h => hg (by simp [h])]

theorem State.altersAt_count (s : State) (f : Field) (i n k : Nat) : AltersAt [.regs] [(f, i, n)] s (s.count f i n k) :=
  s.altersAt_setReg f _ i n

theorem State.reg_count_self (s : State) (f : Field) (i n k : Nat) : (s.count f i n k).reg f i n = satAdd32 (s.reg f i n) k :=
  s.reg_setReg_self ..

/-- A write of memory's part of the state alone. -/
theorem State.altersAt_mem (s : State) (m : MemSt) : AltersAt [.mem] [] s { s with mem := m } :=
  ⟨by simp [Same], fun _ _ _ _ => rfl⟩

theorem State.altersAt_forcedTurn (s : State) (k n : Nat) (forced : Bool) :
    AltersAt [.regs] [(.MEM_BG_FORCED_CNT, k, n)] s (s.forcedTurn k n forced) := by
  unfold State.forcedTurn
  split
  · exact s.altersAt_count _ k n 1
  · exact ⟨.refl _ s, fun _ _ _ _ => rfl⟩

theorem State.reg_forcedTurn_self (s : State) (k n : Nat) (forced : Bool) : (s.forcedTurn k n forced).reg .MEM_BG_FORCED_CNT k n =
    if forced then satAdd32 (s.reg .MEM_BG_FORCED_CNT k n) 1 else s.reg .MEM_BG_FORCED_CNT k n := by
  unfold State.forcedTurn
  split
  · rw [State.reg_count_self]
  · rfl

theorem State.reg_forcedTurn_ne (s : State) (k n : Nat) (forced : Bool) {f : Field} (hf : f ≠ .MEM_BG_FORCED_CNT) (i m : Nat) :
    (s.forcedTurn k n forced).reg f i m = s.reg f i m :=
  (s.altersAt_forcedTurn k n forced).2 f i m (by simp [hf])

@[simp] theorem State.forcedTurn_mem (s : State) (k n : Nat) (forced : Bool) : (s.forcedTurn k n forced).mem = s.mem :=
  same_iff.1 (s.altersAt_forcedTurn k n forced).1 .mem (by decide)

@[simp] theorem State.forcedTurn_codec (s : State) (k n : Nat) (forced : Bool) : (s.forcedTurn k n forced).codec = s.codec :=
  same_iff.1 (s.altersAt_forcedTurn k n forced).1 .codec (by decide)

@[simp] theorem State.forcedTurn_cp (s : State) (k n : Nat) (forced : Bool) : (s.forcedTurn k n forced).cp = s.cp :=
  same_iff.1 (s.altersAt_forcedTurn k n forced).1 .cp (by decide)

end Sys2Proof.Machine
end

section
/-!
PROOFS. A stack is initialised (R365), its banks are refreshed and its temperature read (R351), and its lines are scrubbed (R369, R370).
-/
namespace Sys2Proof.Machine
open Sys2Proof.Safety

/-! ### What initialisation leaves -/

/-- Memory in which only the offsets that `keep` picks hold what they held. -/
def MemSt.keeping (m : MemSt) (keep : Nat → Bool) : MemSt :=
  { m with cells := m.cells.filter fun c => keep c.1, gran := m.gran.filter fun c => keep (32 * c.1),
           err := m.err.filter fun c => keep (32 * c.1) }

/-- What keeps whole granules leaves each of them as it was, or zero and GOOD. -/
theorem decodeGran_keeping (m : MemSt) {keep : Nat → Bool} {g : Nat} (hwhole : ∀ i < 32, keep (32 * g + i) = keep (32 * g)) :
    decodeGran (m.keeping keep) g = if keep (32 * g) then decodeGran m g else some ⟨.good, List.replicate 32 0, false⟩ := by
  have hget {α : Type} (d : α) (t : NMap α) (p : Nat → Bool) (j : Nat) :
      NMap.get d (t.filter fun c => p c.1) j = if p j then NMap.get d t j else d := by
    rw [NMap.get, NMap.find?_filter_key p]
    split <;> rfl
  have herr : NMap.get [] (m.keeping keep).err g = if keep (32 * g) then NMap.get [] m.err g else [] :=
    hget [] m.err (fun j => keep (32 * j)) g
  have hgran : NMap.get .good (m.keeping keep).gran g = if keep (32 * g) then NMap.get .good m.gran g else .good :=
    hget .good m.gran (fun j => keep (32 * j)) g
  have hraw : rawBytes (m.keeping keep) g = if keep (32 * g) then rawBytes m g else List.replicate 32 0 := by
    have hbyte : ∀ i ∈ List.range 32, NMap.get 0 (m.keeping keep).cells (32 * g + i) =
        if keep (32 * g) then NMap.get 0 m.cells (32 * g + i) else 0 := fun i hi =>
      (hget 0 m.cells keep _).trans (by rw [hwhole i (List.mem_range.1 hi)])
    rw [rawBytes, List.map_congr_left hbyte]
    split
    · rfl
    · rw [List.map_const', List.length_range]
  split
  · next hk => simp only [decodeGran, herr, hgran, hraw, hk, if_true]
  · next hk => rw [decodeGran_of_sound (by rw [herr, if_neg hk]), hgran, hraw, if_neg hk, if_neg hk]

/-- What the initialisation of stack `k` leaves alone: other stacks, and the channels that are retired. -/
def State.keptByInit (s : State) (k o : Nat) : Bool := ctlOf o != k || s.retiredAt o

theorem State.keptByInit_gran (s : State) (k g : Nat) {i : Nat} (hi : i < 32) : s.keptByInit k (32 * g + i) = s.keptByInit k (32 * g) := by
  have hctl : ctlOf (32 * g + i) = ctlOf (32 * g) := by unfold ctlOf stackBytes; omega
  rw [State.keptByInit, State.keptByInit, hctl, s.retiredAt_line (o' := 32 * g) (by omega)]

/-! ### What the scrub leaves -/

/-- A pseudo-channel's scrub has gone on to line `next`. -/
def MemSt.scrubTo (m : MemSt) (key next now : Nat) (wrapped : NMap Nat) : MemSt :=
  { m with scrub := NMap.set 0 m.scrub key next, scrubAt := NMap.insert m.scrubAt key now, scrubWrapped := wrapped }

theorem MemSt.scrubTo_next (m : MemSt) (key next now : Nat) (wrapped : NMap Nat) :
    NMap.get 0 (m.scrubTo key next now wrapped).scrub key = next :=
  NMap.get_set_self 0 m.scrub key next

/-! ### The commands -/

section
variable {s : State} {k : Fin 8}

theorem exec_memInitDone (hrun : s.stopped 1 = false) (hboot : s.booted = true) (hnew : s.isSet .MEM_INIT_DONE k = false) (slow : Bool) :
    exec (.memInitDone k slow) s = .next { (s.setReg .MEM_INIT_DONE 1 k).setReg .MEM_RATE_FALLBACK (bit slow) k with
      mem := s.mem.keeping (s.keptByInit k) } := by
  refine (show exec (.memInitDone k slow) s = execMemInitDone k slow s from rfl).trans ?_
  unfold execMemInitDone
  rw [if_neg (by simp [hrun, hboot, hnew])]
  rfl

/-- Every granule of the stack's channels in use is then zero and GOOD. -/
theorem memInitDone_ends (hrun : s.stopped 1 = false) (hboot : s.booted = true) (hnew : s.isSet .MEM_INIT_DONE k = false) (slow : Bool) :
    Ends (.memInitDone k slow) s fun t => t.reg .MEM_INIT_DONE k = 1 ∧ t.reg .MEM_RATE_FALLBACK k = bit slow
      ∧ AltersAt [.regs, .mem] [(.MEM_INIT_DONE, k.val, 0), (.MEM_RATE_FALLBACK, k.val, 0)] s t
      ∧ t.mem = { s.mem with cells := t.mem.cells, gran := t.mem.gran, err := t.mem.err }
      ∧ ∀ g, decodeGran t.mem g =
          if ctlOf (32 * g) = k.val ∧ s.retiredAt (32 * g) = false then some ⟨.good, List.replicate 32 0, false⟩ else decodeGran s.mem g := by
  let u := (s.setReg .MEM_INIT_DONE 1 k).setReg .MEM_RATE_FALLBACK (bit slow) k
  have hu : AltersAt [.regs] [(.MEM_INIT_DONE, k.val, 0), (.MEM_RATE_FALLBACK, k.val, 0)] s u :=
    (s.altersAt_setReg .MEM_INIT_DONE 1 k 0).comp (State.altersAt_setReg _ .MEM_RATE_FALLBACK (bit slow) k 0) (by simp) (by simp)
  refine ⟨_, exec_memInitDone hrun hboot hnew slow, ?_, ?_, hu.withMem _, rfl, fun g => ?_⟩
  · exact ((s.setReg .MEM_INIT_DONE 1 k).reg_setReg_ne _ _ _ _ _ (by decide)).trans (s.reg_setReg_self ..)
  · exact State.reg_setReg_self ..
  · refine (decodeGran_keeping s.mem fun i hi => s.keptByInit_gran k g hi).trans ?_
    by_cases hin : ctlOf (32 * g) = k.val ∧ s.retiredAt (32 * g) = false
    · rw [if_pos hin, if_neg (by simp [State.keptByInit, hin])]
    · rw [if_neg hin, if_pos (by simpa [State.keptByInit, or_iff_not_imp_left] using hin)]

variable (hrun : s.memRuns k = true)
include hrun

theorem exec_refresh (forced : Bool) : exec (.refresh k forced) s = .next (s.forcedTurn k 0 forced) := by
  refine (show exec (.refresh k forced) s = execRefresh k forced s from rfl).trans ?_
  rw [execRefresh, if_pos hrun]
  rfl

theorem exec_stackTempRead (temp : BitVec 8) (fast forced : Bool) : exec (.stackTempRead k temp fast forced) s = .next
    (((s.setReg .MEM_STACK_TEMP temp.toNat k).setReg .MEM_REFRESH_FAST (bit fast) k).forcedTurn k 5 forced) := by
  refine (show exec (.stackTempRead k temp fast forced) s = execStackTempRead k temp fast forced s from rfl).trans ?_
  rw [execStackTempRead, hrun]
  rfl

theorem stackTempRead_ends (temp : BitVec 8) (fast forced : Bool) : Ends (.stackTempRead k temp fast forced) s fun t =>
    t.reg .MEM_STACK_TEMP k = temp.toNat ∧ t.reg .MEM_REFRESH_FAST k = bit fast
    ∧ t.reg .MEM_BG_FORCED_CNT k 5 = (if forced then satAdd32 (s.reg .MEM_BG_FORCED_CNT k 5) 1 else s.reg .MEM_BG_FORCED_CNT k 5)
    ∧ AltersAt [.regs] [(.MEM_STACK_TEMP, k.val, 0), (.MEM_REFRESH_FAST, k.val, 0), (.MEM_BG_FORCED_CNT, k.val, 5)] s t := by
  let u := s.setReg .MEM_STACK_TEMP temp.toNat k
  let v := u.setReg .MEM_REFRESH_FAST (bit fast) k
  have hv : AltersAt [.regs] [(.MEM_STACK_TEMP, k.val, 0), (.MEM_REFRESH_FAST, k.val, 0)] s v :=
    (s.altersAt_setReg .MEM_STACK_TEMP temp.toNat k 0).comp (u.altersAt_setReg .MEM_REFRESH_FAST (bit fast) k 0) (by simp) (by simp)
  refine ⟨_, exec_stackTempRead hrun temp fast forced, ?_, ?_, ?_, hv.comp (v.altersAt_forcedTurn k 5 forced) (by simp) (by simp)⟩
  · rw [State.reg_forcedTurn_ne _ _ _ _ (by decide), State.reg_setReg_ne _ _ _ _ _ _ (by decide), State.reg_setReg_self]
  · rw [State.reg_forcedTurn_ne _ _ _ _ (by decide), State.reg_setReg_self]
  · rw [State.reg_forcedTurn_self, hv.2 .MEM_BG_FORCED_CNT k 5 (by simp)]

/-- A due step over a line without an error moves on to the next line. -/
theorem scrubStep_ends {ch : Fin 32} {pc : Fin 2} (hinit : s.isSet .MEM_INIT_DONE k = true) (hen : s.isSet .MEM_SCRUB_EN k = true)
    (huse : s.chRetired k ch = false) {key i : Nat} (hkey : key = k.val * 64 + ch.val * 2 + pc.val) (hi : i = NMap.get 0 s.mem.scrub key)
    (hdue : NMap.get 0 s.mem.scrubAt key + s.scrubInterval k ≤ s.time.bnd) (hlast : i + 1 < pcLines)
    (hsound : ∀ j < 4, Sound s (offsetOfLs k (scrubLine ch pc i) / 128 * 4 + j)) (forced : Bool) :
    Ends (.scrubStep k ch pc forced) s fun t => (∃ wrapped, t.mem = s.mem.scrubTo key (i + 1) s.time.bnd wrapped)
      ∧ t.reg .MEM_BG_FORCED_CNT k 1 = (if forced then satAdd32 (s.reg .MEM_BG_FORCED_CNT k 1) 1 else s.reg .MEM_BG_FORCED_CNT k 1)
      ∧ AltersAt [.regs, .mem] [(.MEM_BG_FORCED_CNT, k.val, 1)] s t := by
  have hturn := s.altersAt_forcedTurn k 1 forced
  have htime : (s.forcedTurn k 1 forced).time = s.time := same_iff.1 hturn.1 .time (by decide)
  have hexec : ∃ wrapped, exec (.scrubStep k ch pc forced) s = .next { s.forcedTurn k 1 forced with
      mem := s.mem.scrubTo key (i + 1) s.time.bnd wrapped } := by
    subst hkey hi
    have hmore : decide (pcLines ≤ NMap.get 0 s.mem.scrub (k.val * 64 + ch.val * 2 + pc.val) + 1) = false :=
      decide_eq_false (Nat.not_le.2 hlast)
    rw [show exec (.scrubStep k ch pc forced) s = execScrubStep k ch pc forced s from rfl]
    unfold execScrubStep
    dsimp only
    rw [if_neg (by simp [hrun, hinit, hen, huse, hdue]), readLine_of_sound hsound, hmore]
    simp only [Bool.false_eq_true, if_false, Bool.false_and, State.forcedTurn_mem, htime]
    exact ⟨_, rfl⟩
  obtain ⟨wrapped, hgo⟩ := hexec
  exact ⟨_, hgo, ⟨wrapped, rfl⟩, s.reg_forcedTurn_self k 1 forced, hturn.withMem _⟩

end

end Sys2Proof.Machine
end

section
/-!
PROOFS. Row sparing (R372) and live timing calibration (R378, R379).
-/
namespace Sys2Proof.Machine
open Sys2Proof.Safety

/-! ### What row sparing leaves -/

/-- A row that needs no spare any more, and no error of it is counted. -/
def MemSt.clearRow (m : MemSt) (key : Nat) : MemSt :=
  { m with rowDue := NMap.erase m.rowDue key, rowErr := NMap.erase m.rowErr key }

/-- A row on the persistent record of controller `k`. -/
def MemSt.addSpared (m : MemSt) (k row : Nat) : MemSt :=
  { m with spared := NMap.insert m.spared k (NMap.get [] m.spared k ++ [row]) }

/-! ### What calibration leaves -/

/-- The read phase of a pin moves. -/
def MemSt.movePhase (m : MemSt) (key : Nat) (d : Int) : MemSt := { m with phase := NMap.set 0 m.phase key (NMap.get 0 m.phase key + d) }

/-- The write delay of a pin moves. -/
def MemSt.moveDelay (m : MemSt) (key : Nat) (d : Int) : MemSt := { m with wdelay := NMap.set 0 m.wdelay key (NMap.get 0 m.wdelay key + d) }

/-- The training failures in a row of a pseudo-channel. -/
def MemSt.setRun (m : MemSt) (key n : Nat) : MemSt := { m with calRun := NMap.set 0 m.calRun key n }

/-- The state after a training burst of one pin, before its read-back is judged. -/
def State.trained (s : State) (k key : Nat) (later forced : Bool) : State :=
  State.forcedTurn { s.count .MEM_CAL_ADJ_CNT k with mem := s.mem.moveDelay key (if later then 1 else -1) } k 3 forced

theorem State.trained_mem (s : State) (k key : Nat) (later forced : Bool) :
    (s.trained k key later forced).mem = s.mem.moveDelay key (if later then 1 else -1) := by
  rw [State.trained, State.forcedTurn_mem]

theorem State.trained_counts (s : State) (k key : Nat) (later forced : Bool) :
    (s.trained k key later forced).reg .MEM_CAL_ADJ_CNT k = satAdd32 (s.reg .MEM_CAL_ADJ_CNT k) 1
    ∧ (s.trained k key later forced).reg .MEM_BG_FORCED_CNT k 3 =
        if forced then satAdd32 (s.reg .MEM_BG_FORCED_CNT k 3) 1 else s.reg .MEM_BG_FORCED_CNT k 3 := by
  have hcount := s.altersAt_count .MEM_CAL_ADJ_CNT k 0 1
  constructor
  · refine (State.reg_forcedTurn_ne _ k 3 forced (by decide) k 0).trans ?_
    exact s.reg_count_self .MEM_CAL_ADJ_CNT k 0 1
  · rw [State.trained, State.reg_forcedTurn_self, (hcount.withMem _).2 .MEM_BG_FORCED_CNT k 3 (by simp)]

/-- The state after a read-back has set the failures in a row. -/
def State.judged (s : State) (run n : Nat) : State := { s with mem := s.mem.setRun run n }

theorem State.altersAt_trained (s : State) (k key : Nat) (later forced : Bool) :
    AltersAt [.regs, .mem] [(.MEM_CAL_ADJ_CNT, k, 0), (.MEM_BG_FORCED_CNT, k, 3)] s (s.trained k key later forced) := by
  have hcount : AltersAt [.regs, .mem] [(.MEM_CAL_ADJ_CNT, k, 0)] s
      { s.count .MEM_CAL_ADJ_CNT k with mem := s.mem.moveDelay key (if later then 1 else -1) } :=
    (s.altersAt_count .MEM_CAL_ADJ_CNT k 0 1).withMem _
  exact hcount.comp (State.altersAt_forcedTurn _ k 3 forced) (by simp) (by simp)

/-! ### The commands of row sparing -/

section
variable {s : State} {k : Fin 8} (hrun : s.memRuns k = true)
include hrun

section
variable {ls : Nat} (hdue : (NMap.find? s.mem.rowDue (rowKey k ls)).isSome = true)
include hdue

theorem exec_rowSpare_none (forced : Bool) : exec (.rowSpare k ls none forced) s =
    .next { s.count .MEM_SPARE_FAIL_CNT k with mem := s.mem.clearRow (rowKey k ls) } := by
  refine (show exec (.rowSpare k ls none forced) s = execRowSpare k ls none forced s from rfl).trans ?_
  unfold execRowSpare
  dsimp only
  rw [if_neg (by simpa [hrun] using Option.isSome_iff_ne_none.1 hdue)]
  rfl

theorem exec_rowSpare_some (herr : s.mem.err = []) (hctx : s.reg .CTX_STATE ≠ 1) (left : Nat) (forced : Bool) :
    exec (.rowSpare k ls (some left) forced) s = .next ((State.count
      { s with mem := (s.mem.clearRow (rowKey k ls)).addSpared k (Config.rowOf k ls) } .MEM_ROW_SPARED_CNT k).forcedTurn k 4 forced) := by
  refine (show exec (.rowSpare k ls (some left) forced) s = execRowSpare k ls (some left) forced s from rfl).trans ?_
  unfold execRowSpare
  dsimp only
  rw [if_neg (by simpa [hrun] using Option.isSome_iff_ne_none.1 hdue), State.postEvent_inactive, herr]
  · rfl
  · rw [State.reg_count, if_neg (by simp), herr]
    exact hctx

theorem rowSpare_ends_failed (forced : Bool) : Ends (.rowSpare k ls none forced) s fun t => t.mem = s.mem.clearRow (rowKey k ls)
    ∧ t.reg .MEM_SPARE_FAIL_CNT k = satAdd32 (s.reg .MEM_SPARE_FAIL_CNT k) 1
    ∧ AltersAt [.regs, .mem] [(.MEM_SPARE_FAIL_CNT, k.val, 0)] s t := by
  refine ⟨_, exec_rowSpare_none hrun hdue forced, rfl, ?_, ?_⟩
  · exact s.reg_count_self .MEM_SPARE_FAIL_CNT k 0 1
  · exact (s.altersAt_count .MEM_SPARE_FAIL_CNT k 0 1).withMem _

theorem rowSpare_ends_spared (herr : s.mem.err = []) (hctx : s.reg .CTX_STATE ≠ 1) (left : Nat) (forced : Bool) :
    Ends (.rowSpare k ls (some left) forced) s fun t => t.mem = (s.mem.clearRow (rowKey k ls)).addSpared k (Config.rowOf k ls)
      ∧ t.reg .MEM_ROW_SPARED_CNT k = satAdd32 (s.reg .MEM_ROW_SPARED_CNT k) 1
      ∧ t.reg .MEM_BG_FORCED_CNT k 4 = (if forced then satAdd32 (s.reg .MEM_BG_FORCED_CNT k 4) 1 else s.reg .MEM_BG_FORCED_CNT k 4)
      ∧ AltersAt [.regs, .mem] [(.MEM_ROW_SPARED_CNT, k.val, 0), (.MEM_BG_FORCED_CNT, k.val, 4)] s t := by
  let u : State := { s with mem := (s.mem.clearRow (rowKey k ls)).addSpared k (Config.rowOf k ls) }
  let v := u.count .MEM_ROW_SPARED_CNT k
  have hv : AltersAt [.regs, .mem] [(.MEM_ROW_SPARED_CNT, k.val, 0)] s v :=
    (s.altersAt_mem _).comp (u.altersAt_count .MEM_ROW_SPARED_CNT k 0 1) (by simp) (by simp)
  refine ⟨_, exec_rowSpare_some hrun hdue herr hctx left forced, ?_, ?_, ?_,
    hv.comp (v.altersAt_forcedTurn k 4 forced) (by simp) (by simp)⟩
  · rw [State.forcedTurn_mem, State.count_mem]
  · rw [State.reg_forcedTurn_ne _ _ _ _ (by decide), State.reg_count_self]
    rfl
  · rw [State.reg_forcedTurn_self, hv.2 .MEM_BG_FORCED_CNT k 4 (by simp)]

end

/-! ### The commands of calibration -/

variable {ch : Fin 32} (huse : s.chRetired k ch = false) (pc : Fin 2) (pin : Fin 128)
include huse

theorem exec_readTimingAdjust {early late : Nat} (hfar : late + 1024 < early ∨ early + 1024 < late) :
    exec (.readTimingAdjust k ch pc pin early late) s = .next { s.count .MEM_CAL_ADJ_CNT k with
      mem := s.mem.movePhase (pinKey k ch pc pin) (if late < early then 1 else -1) } := by
  refine (show exec (.readTimingAdjust k ch pc pin early late) s = execReadTimingAdjust k ch pc pin early late s from rfl).trans ?_
  have hfar' : (decide (early ≤ late + 1024) && decide (late ≤ early + 1024)) = false := by
    rw [Bool.and_eq_false_iff, decide_eq_false_iff_not, decide_eq_false_iff_not]
    omega
  unfold execReadTimingAdjust
  rw [if_neg (by simp only [hrun, huse, hfar']; decide)]
  rfl

theorem readTimingAdjust_ends {early late : Nat} (hfar : late + 1024 < early ∨ early + 1024 < late) :
    Ends (.readTimingAdjust k ch pc pin early late) s fun t => AltersAt [.regs, .mem] [(.MEM_CAL_ADJ_CNT, k.val, 0)] s t
      ∧ t.reg .MEM_CAL_ADJ_CNT k = satAdd32 (s.reg .MEM_CAL_ADJ_CNT k) 1
      ∧ t.mem = s.mem.movePhase (pinKey k ch pc pin) (if late < early then 1 else -1) := by
  refine ⟨_, exec_readTimingAdjust hrun huse pc pin hfar, ?_, ?_, rfl⟩
  · exact (s.altersAt_count .MEM_CAL_ADJ_CNT k 0 1).withMem _
  · exact s.reg_count_self .MEM_CAL_ADJ_CNT k 0 1

/-- With fewer than eight failures in a row no channel is retired. -/
theorem exec_writeTraining (hctx : s.reg .CTX_STATE ≠ 1) {run : Nat} (hkey : run = k.val * 64 + ch.val * 2 + pc.val)
    (hrare : NMap.get 0 s.mem.calRun run < 7) (later ok forced : Bool) : exec (.writeTraining k ch pc [(pin, later)] ok forced) s = .next
      (if ok then (s.trained k (pinKey k ch pc pin) later forced).judged run 0
       else ((s.trained k (pinKey k ch pc pin) later forced).judged run (NMap.get 0 s.mem.calRun run + 1)).count .MEM_CAL_FAIL_CNT k) := by
  let u := s.trained k (pinKey k ch pc pin) later forced
  let n := NMap.get 0 u.mem.calRun run + 1
  let v := (u.judged run n).count .MEM_CAL_FAIL_CNT k
  have hn : NMap.get 0 u.mem.calRun run = NMap.get 0 s.mem.calRun run := by
    rw [State.trained_mem]
    rfl
  have hctx' : v.reg .CTX_STATE ≠ 1 := by
    rw [State.reg_count, if_neg (by simp)]
    exact fun h => hctx (((s.altersAt_trained ..).2 .CTX_STATE 0 0 (by simp)).symm.trans h)
  have hfew : ¬ (8 ≤ n ∧ v.isSet .MEM_CAL_RETIRE_EN k = true) := fun h => absurd h.1 (by omega)
  subst hkey
  refine (show exec (.writeTraining k ch pc [(pin, later)] ok forced) s =
    execWriteTraining k ch pc [(pin, later)] ok forced s from rfl).trans ?_
  unfold execWriteTraining
  rw [if_neg (by simp [hrun, huse]), ← hn]
  extract_lets one burst key fails m judged reported
  have hburst : burst = u := rfl
  clear_value burst
  subst hburst
  cases ok
  · have hfails : fails = n := rfl
    have hjudged : judged = u.judged key n := rfl
    clear_value fails judged
    subst hfails hjudged
    have hreported : reported = v := State.postEvent_inactive hctx' ..
    clear_value reported
    subst hreported
    exact congrArg Host.Outcome.next (if_neg hfew)
  · rfl

theorem writeTraining_ends (hctx : s.reg .CTX_STATE ≠ 1) {run : Nat} (hkey : run = k.val * 64 + ch.val * 2 + pc.val)
    (hrare : NMap.get 0 s.mem.calRun run < 7) (later ok forced : Bool) : Ends (.writeTraining k ch pc [(pin, later)] ok forced) s fun t =>
      t.mem = (s.mem.moveDelay (pinKey k ch pc pin) (if later then 1 else -1)).setRun run (if ok then 0 else NMap.get 0 s.mem.calRun run + 1)
      ∧ t.reg .MEM_BG_FORCED_CNT k 3 = (if forced then satAdd32 (s.reg .MEM_BG_FORCED_CNT k 3) 1 else s.reg .MEM_BG_FORCED_CNT k 3)
      ∧ t.reg .MEM_CAL_ADJ_CNT k = satAdd32 (s.reg .MEM_CAL_ADJ_CNT k) 1
      ∧ t.reg .MEM_CAL_FAIL_CNT k = (if ok then s.reg .MEM_CAL_FAIL_CNT k else satAdd32 (s.reg .MEM_CAL_FAIL_CNT k) 1)
      ∧ AltersAt [.regs, .mem] [(.MEM_CAL_ADJ_CNT, k.val, 0), (.MEM_CAL_FAIL_CNT, k.val, 0), (.MEM_BG_FORCED_CNT, k.val, 3)] s t := by
  let u := s.trained k (pinKey k ch pc pin) later forced
  have hu := s.altersAt_trained k (pinKey k ch pc pin) later forced
  obtain ⟨hadj, hturn⟩ := s.trained_counts k (pinKey k ch pc pin) later forced
  have hfail : u.reg .MEM_CAL_FAIL_CNT k = s.reg .MEM_CAL_FAIL_CNT k := hu.2 _ _ _ (by simp)
  have hjudged (n : Nat) : (u.judged run n).mem = (s.mem.moveDelay (pinKey k ch pc pin) (if later then 1 else -1)).setRun run n :=
    congrArg (fun m : MemSt => m.setRun run n) (s.trained_mem k (pinKey k ch pc pin) later forced)
  have hall (n : Nat) : AltersAt [.regs, .mem] [(.MEM_CAL_ADJ_CNT, k.val, 0), (.MEM_BG_FORCED_CNT, k.val, 3)] s (u.judged run n) :=
    hu.comp (u.altersAt_mem _) (by simp) (by simp)
  refine ⟨_, exec_writeTraining hrun huse pc pin hctx hkey hrare later ok forced, ?_⟩
  cases ok
  case true => exact ⟨hjudged 0, hturn, hadj, hfail, (hall 0).mono (by simp) (by simp)⟩
  case false =>
    let v := u.judged run (NMap.get 0 s.mem.calRun run + 1)
    have hv := v.altersAt_count .MEM_CAL_FAIL_CNT k 0 1
    refine ⟨hjudged _, (hv.2 _ _ _ (by simp)).trans hturn, (hv.2 _ _ _ (by simp)).trans hadj, ?_, (hall _).comp hv (by simp) (by simp)⟩
    exact (v.reg_count_self .MEM_CAL_FAIL_CNT k 0 1).trans (congrArg (satAdd32 · 1) hfail)

end

end Sys2Proof.Machine
end

section
/-!
PROOFS. The retirement of a channel: the request, the commit, the walk of the directory and the end (R374–R377).
-/
namespace Sys2Proof.Machine
open Sys2Proof.Safety

section
variable {s : State} {k : Fin 8}

/-! ### Request and commit -/

theorem memChRetireGo_queues (hrun : s.isSet .BRK_BRAKED = false) (hidle : s.isSet .MEM_CH_RETIRE_BUSY k = false)
    (huse : s.chRetired k (s.regS .MEM_CH_RETIRE_SEL k) = false) : Ends (.memChRetireGo k) s
      (Queues ⟨9, deckIndex .MEM k * 2 ^ 20 + 0x3C, .channelRetire k (s.regS .MEM_CH_RETIRE_SEL k) 1⟩ s) := by
  refine ⟨_, ?_, s.queues_later _ _ _⟩
  refine (show exec (.memChRetireGo k) s = execMemChRetireGo k s from rfl).trans ?_
  unfold execMemChRetireGo
  dsimp only
  rw [if_neg (by simp [hrun]), if_neg (by simp [hidle, huse])]
  rfl

theorem memChRetireGo_counts (hrun : s.isSet .BRK_BRAKED = false)
    (hbusy : s.isSet .MEM_CH_RETIRE_BUSY k = true ∨ s.chRetired k (s.regS .MEM_CH_RETIRE_SEL k) = true) :
    Goes (.memChRetireGo k) s (s.cfgErr .MEM k) := by
  refine (show exec (.memChRetireGo k) s = execMemChRetireGo k s from rfl).trans ?_
  unfold execMemChRetireGo
  dsimp only
  rw [if_neg (by simp [hrun]), if_pos (by simpa using hbusy)]
  rfl

/-- The state of a channel's retirement moves on. -/
def MemSt.retireTo (m : MemSt) (k ch cause stage : Nat) : MemSt := { m with retire := NMap.insert m.retire k (ch, cause, stage) }

theorem applyAct_channelRetire {ch : Nat} (cause : Nat) (hidle : s.isSet .MEM_CH_RETIRE_BUSY k = false) (huse : s.chRetired k ch = false) :
    applyAct (.channelRetire k ch cause) s = { s.setReg .MEM_CH_RETIRE_BUSY 1 k with mem := s.mem.retireTo k ch cause 0 } := by
  change applyChannelRetire k ch cause s = _
  rw [applyChannelRetire, if_neg (by simp [hidle, huse])]
  rfl

/-! ### The walk -/

/-- The walk passes over the lines of other channels. -/
theorem exec_chRetireWalk {ch cause : Nat} (hstage : NMap.find? s.mem.retire k = some (ch, cause, 0)) (hrun : s.stopped 2 = false)
    (hwalks : (s.home k).walks = 0) (hfree : (s.home k).busyChannel ch = false) (hother : ∀ x ∈ (s.home k).dir, channelOf x.2.ls ≠ ch) :
    exec (.chRetireWalk k) s = .next { s with mem := s.mem.retireTo k ch cause 1 } := by
  refine (show exec (.chRetireWalk k) s = execChRetireWalk k s from rfl).trans ?_
  unfold execChRetireWalk
  simp only [hstage]
  rw [if_neg (by simp [hrun, hwalks, hfree]), foldState_fixed fun x hx => if_pos (hother x hx)]
  rfl

/-! ### The end -/

/-- A controller without a retirement. -/
def MemSt.endRetire (m : MemSt) (k : Nat) : MemSt := { m with retire := NMap.erase m.retire k }

variable {ch cause : Nat} (hstage : NMap.find? s.mem.retire k = some (ch, cause, 1)) (hrun : s.stopped 2 = false)
  (htxns : (s.home k).txns = []) (hin : (s.home k).inbound = []) (hctx : s.reg .CTX_STATE ≠ 1) (hmap : s.isSet .CDC_LMAP_EN 0 k = false)
  (hleft : s.reg .MEM_CH_RETIRE_MASK k ||| 2 ^ ch ≠ 2 ^ 32 - 1)
include hstage hrun htxns hin hctx hmap hleft

theorem exec_chRetireDone : exec (.chRetireDone k) s = .next
      { (s.setReg .MEM_CH_RETIRE_MASK (s.reg .MEM_CH_RETIRE_MASK k ||| 2 ^ ch) k).setReg .MEM_CH_RETIRE_BUSY 0 k with
        mem := s.mem.endRetire k } := by
  let u := s.setReg .MEM_CH_RETIRE_MASK (s.reg .MEM_CH_RETIRE_MASK k ||| 2 ^ ch) k
  have hu : Alters [.regs] [.MEM_CH_RETIRE_MASK] s u := s.alters_setReg ..
  have hidle : (s.home k).Idle := ⟨hin, by simp [htxns]⟩
  have hctx' : u.reg .CTX_STATE ≠ 1 := by rwa [hu.reg _ _ _ (by decide)]
  have hmap' : u.loseMapOf k ch = u := by
    rw [State.loseMapOf, hu.isSet _ _ _ (by decide), hmap]
    rfl
  refine (show exec (.chRetireDone k) s = execChRetireDone k s from rfl).trans ?_
  unfold execChRetireDone
  simp only [hstage]
  rw [if_neg (by simp [hrun, HomeSt.busyChannel, htxns]), State.postEvent_inactive hctx', hmap', if_neg hleft]
  exact congrArg Host.Outcome.next (State.pumpHome_of_idle hidle)

/-- The channel's bit is set, and the controller retires no more. -/
theorem chRetireDone_ends : Ends (.chRetireDone k) s fun t =>
      t.reg .MEM_CH_RETIRE_MASK k = s.reg .MEM_CH_RETIRE_MASK k ||| 2 ^ ch ∧ t.reg .MEM_CH_RETIRE_BUSY k = 0
      ∧ Same [.regs, .mem] s t ∧ SameRegs [.MEM_CH_RETIRE_MASK, .MEM_CH_RETIRE_BUSY] s t ∧ t.mem = s.mem.endRetire k := by
  let u := s.setReg .MEM_CH_RETIRE_MASK (s.reg .MEM_CH_RETIRE_MASK k ||| 2 ^ ch) k
  have hu : Alters [.regs] [.MEM_CH_RETIRE_MASK, .MEM_CH_RETIRE_BUSY] s (u.setReg .MEM_CH_RETIRE_BUSY 0 k) :=
    (show Alters [.regs] [.MEM_CH_RETIRE_MASK] s u from s.alters_setReg ..).comp (u.alters_setReg .MEM_CH_RETIRE_BUSY 0 k 0)
      (by decide) (by decide)
  refine ⟨_, exec_chRetireDone hstage hrun htxns hin hctx hmap hleft, ?_, u.reg_setReg_self .MEM_CH_RETIRE_BUSY 0 k 0, ?_, hu.2, rfl⟩
  · exact ((u.alters_setReg .MEM_CH_RETIRE_BUSY 0 k 0).reg .MEM_CH_RETIRE_MASK k 0 (by decide)).trans (s.reg_setReg_self ..)
  · exact (hu.1.mono (by decide)).trans ((State.altersAt_mem _ _).1.mono (by decide))

end

end Sys2Proof.Machine
end

section
/-!
PROOFS. Slot operations (R414, R429), a packer's turn at a block that no entropy window covers (R413), and the flush of an assembly
buffer (R425).
-/
namespace Sys2Proof.Machine
open Sys2Proof.Safety

/-! ### Slot operations -/

theorem exec_slotOp : ∀ p ∈ ([(.slotLoad, 1), (.slotArm, 2), (.slotClear, 3), (.slotHistClr, 4)] : List (Instr × Nat)), ∀ s : State,
    exec p.1 s = .next (s.slotOpWrite p.2) := by
  intro p hp s
  simp only [List.mem_cons, List.not_mem_nil, or_false] at hp
  obtain rfl | rfl | rfl | rfl := hp <;> rfl

/-- An operation that none waits before is BUSY and waits for its tick. -/
theorem State.slotOpWrite_spec {s : State} (hrun : s.isSet .BRK_BRAKED = false) (hidle : s.codec.op = none) (op : Nat) :
    let e : TickEvt := ⟨9, deckIndex .CDC 0 * 2 ^ 20 + 0x004, .slotOp op⟩
    let t := s.slotOpWrite op
    t.reg .CDC_SLOT_RESULT = 4 ∧ SameRegs [.CDC_SLOT_RESULT] s t ∧ Same [.regs, .codec, .time] s t
      ∧ t.codec = { s.codec with op := some op }
      ∧ t.time = { s.time with due := if e ∈ s.time.due then s.time.due else s.time.due ++ [e] } := by
  intro e t
  let u : State := { s.setReg .CDC_SLOT_RESULT 4 with codec := { s.codec with op := some op } }
  have ht : t = u.later 9 (cfgSrc .CDC 0 0x004) (.slotOp op) := by
    unfold t State.slotOpWrite
    rw [if_neg (by simp [hrun, hidle])]
    rfl
  have hregs (f : Field) (i n : Nat) : t.reg f i n = (s.setReg .CDC_SLOT_RESULT 4).reg f i n := by
    rw [ht]
    exact State.reg_congr (State.later_regs ..) f i n
  have hqueues : Queues e u t := ht ▸ u.queues_later 9 _ (.slotOp op)
  have hu : Same [.regs, .codec] s u := by simp [Same, u]
  refine ⟨?_, fun f i n hf => ?_, (hu.mono (by decide)).trans (hqueues.1.mono (by decide)), same_iff.1 hqueues.1 .codec (by decide),
    hqueues.2⟩
  · rw [hregs, State.reg_setReg_self]
  · rw [hregs, State.reg_setReg_ne _ _ _ _ _ _ (List.ne_of_not_mem_cons hf)]

section
variable {s : State} {n op : Nat} (hsel : n = s.reg .CDC_SLOT_SEL) (hsealed : s.slotState n = 2) (hheld : s.slotHold n ≠ 0) (hop : op ≠ 4)
include hsel hsealed hheld hop

/-- A slot that is SEALED and held refuses an operation that needs hold 0. -/
theorem applyAct_slotOp_held : applyAct (.slotOp op) s =
      (State.count { s with codec := { s.codec with op := none } } .CDC_HOLD_REFUSE_CNT).setReg .CDC_SLOT_RESULT 1 := by
  subst hsel
  have hslot : s.slotHeld (s.reg .CDC_SLOT_SEL) = true := by simp [State.slotHeld, hsealed, hheld]
  change applySlotOp op s = _
  unfold applySlotOp
  dsimp only
  rw [if_neg hop]
  exact if_pos hslot

/-- What a refusal leaves: its result, and a count. -/
theorem slotOp_refused : let t := applyAct (.slotOp op) s
    t.reg .CDC_SLOT_RESULT = 1 ∧ t.reg .CDC_HOLD_REFUSE_CNT = satAdd32 (s.reg .CDC_HOLD_REFUSE_CNT) 1
      ∧ Same [.regs, .codec] s t ∧ SameRegs [.CDC_SLOT_RESULT, .CDC_HOLD_REFUSE_CNT] s t ∧ t.codec = { s.codec with op := none } := by
  rw [applyAct_slotOp_held hsel hsealed hheld hop]
  let u : State := { s with codec := { s.codec with op := none } }
  let v := u.count .CDC_HOLD_REFUSE_CNT
  have hu : Alters [.codec] [] s u := .of_regs (by simp [Same, u]) rfl
  have hv : Alters [.regs] [.CDC_HOLD_REFUSE_CNT] u v := u.alters_count ..
  have ht := v.alters_setReg .CDC_SLOT_RESULT 1 0 0
  have hall : Alters [.regs, .codec] [.CDC_SLOT_RESULT, .CDC_HOLD_REFUSE_CNT] s (v.setReg .CDC_SLOT_RESULT 1) :=
    (hu.comp (ch := [.regs, .codec]) (fs := [.CDC_HOLD_REFUSE_CNT]) hv (by decide) (by decide)).comp ht (by decide) (by decide)
  refine ⟨State.reg_setReg_self .., (ht.reg .CDC_HOLD_REFUSE_CNT 0 0 (by decide)).trans ?_, hall.1, hall.2, rfl⟩
  exact u.reg_count_self .CDC_HOLD_REFUSE_CNT 0 0 1

end

section
variable {s : State} {n : Nat} (hsel : n = s.reg .CDC_SLOT_SEL) (hfree : s.slotState n ≠ 2 ∨ s.slotHold n = 0)
  (hvalid : imageValid s.stage = true)
include hsel hfree hvalid

/-- A valid staging image is loaded into a slot that is not SEALED and held. -/
theorem applyAct_slotOp_load : applyAct (.slotOp 1) s =
      (State.setSlot { s with codec := { s.codec with op := none } } n 2 s.stage).setReg .CDC_SLOT_RESULT 0 := by
  subst hsel
  have hslot : ¬ s.slotHeld (s.reg .CDC_SLOT_SEL) = true := by simpa [State.slotHeld, or_iff_not_imp_left] using hfree
  change applySlotOp 1 s = _
  unfold applySlotOp
  dsimp only
  rw [if_neg (by decide)]
  exact (if_neg hslot).trans (if_pos hvalid)

/-- What a load leaves: its result, and the slot SEALED with the image. -/
theorem slotOp_loaded : let t := applyAct (.slotOp 1) s
    t.reg .CDC_SLOT_RESULT = 0 ∧ t.slotState n = 2 ∧ t.slotImg n = s.stage := by
  rw [applyAct_slotOp_load hsel hfree hvalid]
  let u := State.setSlot { s with codec := { s.codec with op := none } } n 2 s.stage
  have hstate : u.slotState n = 2 := (State.reg_setReg_self s .CDC_SLOT_STATE 2 0 n :)
  refine ⟨u.reg_setReg_self .CDC_SLOT_RESULT 0 0 0, ?_, NMap.get_set_self (List.replicate 256 0) s.codec.img n s.stage⟩
  exact ((u.alters_setReg .CDC_SLOT_RESULT 0 0 0).reg .CDC_SLOT_STATE 0 n (by decide)).trans hstate

end

/-! ### Packers -/

theorem State.packBlock_outside {s : State} {o : Nat} (h : s.modeAt (s.normalise (0xFFFF * 2 ^ 48 + o)) ≠ 1) (slot : Nat) :
    s.packBlock o slot = s := by
  unfold State.packBlock
  dsimp only
  rw [if_pos (.inl h)]

theorem State.endAsync_absent {s : State} {id : Nat} (h : NMap.find? s.cp.asyncs id = none) (st : Nat) : s.endAsync id st = s := by
  have hon (f : AsyncCmd → AsyncCmd) : s.onAsync id f = s := by rw [State.onAsync, h]
  rw [State.endAsync, State.asyncStatus, hon, hon]

/-- The last block of a pass, in no entropy window, is taken off the packer's list and the pass ends. -/
theorem exec_packerBlock {s : State} {k : Fin 8} {j : PackJob} (hrun : s.memRuns k = true) (hpack : s.codec.pack = [j])
    (hblock : ctlOf j.block = k.val) (hmode : s.modeAt (s.normalise (0xFFFF * 2 ^ 48 + j.block)) ≠ 1)
    (hasync : NMap.find? s.cp.asyncs j.id = none) (forced : Bool) : exec (.packerBlock k forced) s = .next
      { s.forcedTurn k 6 forced with codec := { s.codec with
          pack := [], passes := NMap.set 0 s.codec.passes j.slot (NMap.get 0 s.codec.passes j.slot - 1) } } := by
  refine (show exec (.packerBlock k forced) s = execPackerBlock k forced s from rfl).trans ?_
  have hfind : s.codec.pack.find? (fun j => ctlOf j.block == k.val) = some j := by simp [hpack, hblock]
  unfold execPackerBlock
  rw [if_neg (by simp [hrun]), hfind]
  simp only [s.packBlock_outside hmode, State.forcedTurn_codec, hpack, List.erase_cons_head, List.any_nil, Bool.false_eq_true, if_false]
  rw [State.endAsync_absent (by simpa using hasync)]
  rfl

/-! ### Assembly buffers -/

/-- The one assembly buffer of a cluster is flushed once 10 µs have gone by without a store. -/
theorem exec_asmFlushTimeout {s : State} {c : Fin 64} {b : AsmBuf} (hclk : s.clocked c = true) (hasm : (s.clu c).asm = [b]) :
    exec (.asmFlushTimeout c b.block) s = .next (if b.since + 1000 ≤ s.time.bnd then s.flushAsm c b.block else s) := by
  refine (show exec (.asmFlushTimeout c b.block) s = execAsmFlushTimeout c b.block s from rfl).trans ?_
  have hfind : (s.clu c).asm.find? (fun x => x.block == b.block) = some b := by simp [hasm]
  unfold execAsmFlushTimeout
  rw [if_neg (by simp [hclk]), hfind]
  rfl

/-- Settles O51: each command goes to a state named by the model, in which the registers and the parts of memory that it names have
changed. -/
theorem controllersWork : Obligations.ControllersWork := by
  unfold Obligations.ControllersWork
  refine ⟨fun s k slow hrun hboot hnew => ?init, fun s k hrun => ⟨fun forced => ?refresh, fun temp fast forced => ?temp,
    fun ch pc forced hinit hen huse hdue hlast hsound => ?scrub, fun ls forced hdue herr hctx => ⟨?spareFails, fun left => ?spare⟩,
    fun ch pc pin early late huse hfar => ?read, fun ch pc pin later ok forced huse hctx hrare => ?write⟩,
    fun s k hrun => ⟨memChRetireGo_queues hrun, fun hbusy => ?counts⟩, fun s k ch cause hidle huse => ?commit,
    fun s k ch cause hstage hrun hwalks hfree hother => ?walk, fun s k ch cause hstage => chRetireDone_ends hstage,
    fun p hp s hrun hidle => ⟨_, exec_slotOp p hp s, State.slotOpWrite_spec hrun hidle p.2⟩,
    fun s => ⟨fun hsealed hheld op hop => ?held, slotOp_loaded rfl⟩,
    fun s k j forced hrun hpack hblock hmode hasync => ?pack, fun s c b hclk hasm => ⟨fun hlt => ?waits, fun hle => ?flush⟩⟩
  case init =>
    exact (memInitDone_ends hrun hboot hnew slow).imp fun t ⟨hdone, hrate, halt, hmem, hgran⟩ =>
      ⟨hdone, hrate, halt.1, halt.2, hmem, hgran⟩
  case refresh =>
    have ht := s.altersAt_forcedTurn k 0 forced
    exact ⟨_, exec_refresh hrun forced, s.reg_forcedTurn_self k 0 forced, ht.1, ht.2⟩
  case temp =>
    exact (stackTempRead_ends hrun temp fast forced).imp fun t ⟨htemp, hfast, hturn, ht⟩ => ⟨htemp, hfast, hturn, ht.1, ht.2⟩
  case scrub =>
    refine (scrubStep_ends hrun hinit hen huse rfl rfl hdue hlast hsound forced).imp fun t ⟨⟨wrapped, hmem⟩, hturn, ht⟩ =>
      ⟨?_, ?_, hturn, ht.1, ht.2, ?_⟩
    · rw [hmem]; exact MemSt.scrubTo_next ..
    · rw [hmem]; exact NMap.find?_insert_self ..
    · rw [hmem]; rfl
  case spareFails =>
    exact (rowSpare_ends_failed hrun hdue forced).imp fun t ⟨hmem, hcount, ht⟩ => ⟨hmem, ht.1, hcount, ht.2⟩
  case spare =>
    exact (rowSpare_ends_spared hrun hdue herr hctx left forced).imp fun t ⟨hmem, hcount, hturn, ht⟩ =>
      ⟨ht.1, hmem, hcount, hturn, ht.2⟩
  case read =>
    refine (readTimingAdjust_ends hrun huse pc pin hfar).imp fun t ⟨ht, hcount, hmem⟩ => ⟨ht.1, ht.2, hcount, ?_, ?_, ?_⟩
    · rw [hmem]; rfl
    · rw [hmem]; exact NMap.get_set_self ..
    · rw [hmem]; exact fun j hj => NMap.get_set_ne _ _ _ hj
  case write =>
    refine (writeTraining_ends hrun huse pc pin hctx rfl hrare later ok forced).imp fun t ⟨hmem, hturn, hadj, hfail, ht⟩ =>
      ⟨ht.1, hturn, hadj, hfail, ht.2, ?_, ?_, ?_⟩
    · rw [hmem]; rfl
    · rw [hmem]; exact NMap.get_set_self ..
    · rw [hmem]; exact NMap.get_set_self ..
  case counts =>
    have ht := s.alters_count (Block.MEM.cfgErr) k 0 1
    exact ⟨_, memChRetireGo_counts hrun hbusy, ht.1, ht.2, s.reg_count_self ..⟩
  case commit =>
    have ht := s.alters_setReg .MEM_CH_RETIRE_BUSY 1 k 0
    rw [applyAct_channelRetire cause hidle huse]
    exact ⟨s.reg_setReg_self .MEM_CH_RETIRE_BUSY 1 k 0, ht.2,
      (ht.1.mono (by decide)).trans ((State.altersAt_mem _ _).1.mono (by decide)), rfl⟩
  case walk => exact ⟨_, exec_chRetireWalk hstage hrun hwalks hfree hother, (s.altersAt_mem _).1, rfl⟩
  case held => exact slotOp_refused rfl hsealed hheld (by rintro rfl; simp at hop)
  case pack =>
    exact ⟨_, exec_packerBlock hrun hpack hblock hmode hasync forced, rfl, s.forcedTurn_mem k 6 forced, NMap.get_set_self ..⟩
  case waits =>
    refine (exec_asmFlushTimeout hclk hasm).trans ?_
    rw [if_neg (by omega)]
  case flush =>
    refine (exec_asmFlushTimeout hclk hasm).trans ?_
    rw [if_pos hle]

end Sys2Proof.Machine
end
